-- ==== Sys2Proof/Word.lean ====
section
/-!
DEFINITION. The word types and their plainest arithmetic. A register is 32 bits wide (R12); a pair of
registers holds 64 bits (R17); memory is addressed by the byte (R32).
-/

namespace Sys2Proof

/-- One byte of memory. -/
abbrev Byte := BitVec 8

/-- One register word (R12). -/
abbrev Word := BitVec 32

/-- One 64-bit quantity: a register pair (R17), or an `s` register of a sequencer (R303). -/
abbrev DWord := BitVec 64

/-- A count that stops at `top` (R14's saturating counters). -/
def satAdd (top a b : Nat) : Nat := min top (a + b)

/-- `ceil (a / b)`. -/
def ceilDiv (a b : Nat) : Nat := (a + b - 1) / b

/-- `a` rounded up to a multiple of `b`. -/
def roundUp (a b : Nat) : Nat := ceilDiv a b * b

/-- The signed number a two's complement field of `w` bits holds. -/
def signedOf (w v : Nat) : Int :=
  if v % 2 ^ w < 2 ^ (w - 1) then ((v % 2 ^ w : Nat) : Int) else ((v % 2 ^ w : Nat) : Int) - ((2 ^ w : Nat) : Int)

/-- The field of `w` bits that holds the signed number `i` modulo `2 ^ w`. -/
def fieldOf (w : Nat) (i : Int) : Nat := (i % ((2 ^ w : Nat) : Int)).toNat

/-- A signed number clamped to the range of `w` bits, less its lowest value, as the ±0x7FFF_FFFF registers are. -/
def clampSym (w : Nat) (i : Int) : Int :=
  let m : Int := ((2 ^ (w - 1) - 1 : Nat) : Int)
  if i > m then m else if i < -m then -m else i

/-- Bits `lo` to `lo + w - 1` of a number. -/
def bitsAt (v lo w : Nat) : Nat := v / 2 ^ lo % 2 ^ w

/-- Bit `i` of a number. -/
def bitOf (v i : Nat) : Bool := bitsAt v i 1 == 1

/-- A truth value as a one-bit field. -/
def b2n (b : Bool) : Nat := if b then 1 else 0

end Sys2Proof
end

