-- ==== Sys2Proof/Syntax.lean ====
section
/-!
DEFINITION. The commands, with the operand types they carry.
-/

namespace Sys2Proof

/-- Who makes an access (R17, R35): the PF, a VF (1 to 63), a host-cluster core, the Minuet island (its lead core or the
island firmware), a partition's sequencer, its firmware, its DMA engine or its walker, ingress, the image pipeline, the
Partner engine, or a Sash link for its peer. -/
inductive Requester where
  | pf
  | vf (v : Nat)
  | hc (core : Nat)
  | mi (lead : Bool)
  | seq (p : Nat)
  | seqfw (p : Nat)
  | dma (p : Nat)
  | walker (p : Nat)
  | ingress
  | isp
  | partner
  | sash (l : Nat)
deriving DecidableEq, Repr, Inhabited

/-- What the loader finds outside the part while it verifies and applies a container: whether a device answers on the
NVMe root port (R549). -/
structure LoadEnv where
  nvmePresent : Bool := false
deriving DecidableEq, Repr, Inhabited

/-- What ingress meets inside the port die while it takes a line or packet: a full port buffer (R171), a word that fails its
port-buffer code (R239), a Partner input with no room (R185), and decimator copies that differ (R236). -/
structure LineEnv where
  bufFull   : Bool := false
  bufBad    : Bool := false
  decimFull : Bool := false
  decimBad  : Bool := false
deriving DecidableEq, Repr, Inhabited

/-- A PTP message (R121): the port it comes in on, how it was carried (true: untagged EtherType 0x88F7), and its fields. -/
structure PtpMsg where
  port     : Nat := 0       -- 0 to 15 ETH, 16 and 17 the safety ports (R118)
  layer2   : Bool := true
  domain   : Nat := 0
  clock    : Nat := 0       -- clockIdentity of the sender
  seq      : Nat := 0
  twoStep  : Bool := false
  time     : Int := 0       -- origin or receipt time the message carries, ns
  corr     : Int := 0       -- correction field, ns
  rank     : Nat := 0       -- priority vector of an Announce, lower is better
  gm       : Nat := 0       -- grandmaster identity of an Announce
  ours     : Bool := true   -- a response that answers our own request
deriving DecidableEq, Repr, Inhabited

/-- What goes wrong in one tile or pass of an array instruction (R468 to R484): running sums that take a wrong value by its end
(row and column of the instruction; a 48-bit field or an FP32 code), check values of checksum cubes that do (row class and
column, row and column class, both classes), block dot products that are off by an amount, cubes whose aligners disagree,
cubes whose residue codes disagree with their output index, a drain disagreement, an error in the drain store or a
parameter or weight set, and one in a feeder buffer. -/
structure ArrayUpset where
  tile    : Nat := 0
  wrong   : List (Nat × Nat × Nat) := []
  rowChk  : List (Nat × Nat × Nat) := []
  colChk  : List (Nat × Nat × Nat) := []
  corner  : List (Nat × Nat × Nat) := []
  block   : List (Nat × Nat × Int) := []
  aligner : List (Nat × Nat) := []
  residue : List (Nat × Nat × Nat) := []
  drain   : Bool := false
  store   : Bool := false
  feed    : Bool := false
deriving DecidableEq, Repr, Inhabited

/-- The commands the block takes: one constructor for each row of spec/opcode_table.json. -/
inductive Instr where
  /-- PORST_ASSERT (R677): PORST_n goes low long enough to reset every unit, set both SAFE latches and lose HBM and SRAM contents. -/
  | porstAssert
  /-- PORST_RELEASE (R46): PORST_n is released: straps are sampled, fuses are read and the boot ROM starts the pattern loader on the Minuet island. -/
  | porstRelease (bootsel : Fin 4) (testEn : Bool) (voterPass : Bool) (flashHalf : Option Nat)
  /-- REGISTER_WRITE (R14): A write to a register that has no row of its own applies its access codes, requester permissions and reserved-bit rules. -/
  | registerWrite (who : Requester) (bar4 : Bool) (addr : Nat) (v : Word)
  /-- RC_REGISTER_READ (R14): A read of an rc field returns the field and resets it to its reset value. -/
  | rcRegisterRead (who : Requester) (bar4 : Bool) (addr : Nat)
  /-- REGISTER_ACCESS_MISALIGNED (R12): An access to a register address that is not a naturally aligned 32-bit access is not performed, fails and is logged. -/
  | registerAccessMisaligned (who : Requester) (addr : Nat) (bytes : Nat) (isWrite : Bool)
  /-- PAIR_LO_READ (R17): A read of a _LO register latches the _HI value for that requester. -/
  | pairLoRead (who : Requester) (addr : Nat)
  /-- PAIR_HI_READ (R17): A read of a _HI register returns and empties the requester's latch, or returns the current value when the latch is empty. -/
  | pairHiRead (who : Requester) (addr : Nat)
  /-- PAIR_LO_WRITE (R17): A write of a _LO register fills the requester's holding value. -/
  | pairLoWrite (who : Requester) (addr : Nat) (v : Word)
  /-- PAIR_HI_WRITE (R17): A write of a _HI register applies both halves together, or _HI alone when the holding value is empty. -/
  | pairHiWrite (who : Requester) (addr : Nat) (v : Word)
  /-- UNPOPULATED_ACCESS (R34): An access to an unpopulated or forbidden address is not performed and returns a bus error or UR, which is logged. -/
  | unpopulatedAccess (who : Requester) (space : Nat) (addr : Nat) (isWrite : Bool)
  /-- BAR2_READ (R41): A PCIe BAR2 read is translated through the function's window table and split at window boundaries, and succeeds only when every part passes. -/
  | bar2Read (fn : Fin 64) (off : Nat) (len : Nat)
  /-- BAR2_WRITE (R43): A PCIe BAR2 write is translated, and is performed whole or refused whole under the window and protected-range rules. -/
  | bar2Write (fn : Fin 64) (off : Nat) (data : List Byte)
  /-- UCIE_FLIT_CRC_FAIL (R29): A UCIe flit fails its CRC and is retried. -/
  | ucieFlitCrcFail (u : Fin 2)
  /-- UCIE_RETRY_LIMIT (R29): More than 8 retries on one module within 1 µs raise a fatal fault. -/
  | ucieRetryLimit (u : Fin 2)
  /-- FLASH_READ_TIMEOUT (R47): A flash read times out and the copy being read fails with FLASH_IO. -/
  | flashReadTimeout
  /-- CONTAINER_READ_COMPLETE (R698): The last byte of a container has been read and the loader runs the checks of verification. -/
  | containerReadComplete (data : List Byte) (env : LoadEnv)
  /-- STARTUP_TESTS_COMPLETE (R535): The start-up tests finish, and each failure gets the effect given in the test table. -/
  | startupTestsComplete (failed : List (Nat × Nat))
  /-- HBM_TRAINING_COMPLETE (R460): All HBM channels have trained, and the HOSTFW copy and the preload begin. -/
  | hbmTrainingComplete
  /-- HBM_TRAINING_TIMEOUT (R460): A channel has not trained within the bound, enters the failed state and raises a fatal fault. -/
  | hbmTrainingTimeout (ch : Fin 32)
  /-- HOSTFW_COPY_CHECKED (R63): The HOSTFW copy in HBM is checked against its digest, and the host cluster leaves reset. -/
  | hostfwCopyChecked (good : Bool)
  /-- PRELOAD_BLOB_CHECKED (R61): A preload blob has streamed in and its digest is checked; success releases its range and its waiting partitions. -/
  | preloadBlobChecked (n : Nat) (data : Option (List Byte))
  /-- FIRST_TURN_TICK (R62): The first grid tick after WHEN 0 blobs are checked and links are up starts turn 0, and SAFE_n may rise. -/
  | firstTurnTick (failed : List (Nat × Nat))
  /-- LOAD_FULL (R85): The mailbox command loads a base pattern from host memory in state 6 or 7 when BOOTSEL permits it. -/
  | loadFull (who : Requester)
  /-- RELOAD_FULL (R87): The mailbox command verifies a new base pattern and, when it passes, replaces the running one. -/
  | reloadFull (who : Requester)
  /-- RELOAD_SECOND_READ_COMPLETE (R87): The second read of a RELOAD_FULL container ends, and the container is applied as at power-up or the part stays in state 6. -/
  | reloadSecondReadComplete (data : Option (List Byte)) (env : LoadEnv)
  /-- LOAD_ALTER (R70): The mailbox command reads, stages and checks an alteration, which becomes pending when it passes. -/
  | loadAlter (who : Requester)
  /-- CANCEL_ALTER (R74): The mailbox command discards a pending alteration before its resets begin, or reports BAD_COMMAND. -/
  | cancelAlter (who : Requester)
  /-- STORE_PRIMARY (R88): The mailbox command checks a base pattern and writes it to the primary flash copy. -/
  | storePrimary (who : Requester)
  /-- STORE_SECONDARY (R88): The mailbox command checks a base pattern and writes it to the secondary flash copy. -/
  | storeSecondary (who : Requester)
  /-- FUSE_REQUEST (R80): The mailbox command checks a signed fuse request and blows lifecycle or revocation fuses. -/
  | fuseRequest (who : Requester)
  /-- MBX_CMD_UNDEFINED (R85): A mailbox command code of 8 to 15 does nothing and ends with BAD_COMMAND. -/
  | mbxCmdUndefined (who : Requester) (cmd : Fin 8)
  /-- MBX_READ_COMPLETE (R86): The mailbox's PCIe reads of a container end, or fail with MBX_IO. -/
  | mbxReadComplete (data : Option (List Byte)) (env : LoadEnv)
  /-- FLASH_OPERATION_COMPLETE (R88): A flash erase or program operation stops reporting busy and the store moves to its next operation or to its readback compare. -/
  | flashOperationComplete (readback : Option (List Byte))
  /-- FLASH_OPERATION_TIMEOUT (R88): A flash operation is still busy at twice its advertised time and the store ends with FLASH_IO. -/
  | flashOperationTimeout
  /-- ALTERATION_RESETS_BEGIN (R72): At the first tick with every named partition out of reset and at zero lag, the resets of a pending alteration begin together. -/
  | alterationResetsBegin
  /-- DEBUG_CHALLENGE_READ (R78): A debugger reads a fresh 48-byte challenge over JTAG. -/
  | debugChallengeRead
  /-- DEBUG_AUTH_RESPONSE (R78): The island checks the debugger's key and signature, and opens a session or logs the failure. -/
  | debugAuthResponse (slot : Nat) (key : List Byte) (r : Nat) (sig : Nat)
  /-- DEBUG_RETRY_HOLD_EXPIRY (R78): The 1 s hold after a failed debug attempt ends and a challenge may be drawn again. -/
  | debugRetryHoldExpiry
  /-- DEBUG_SESSION_CLOSE (R78): The debugger closes its session. -/
  | debugSessionClose
  /-- JTAG_EXTEST (R79): EXTEST is selected, and the FK8 enters the safe state until PORST_n. -/
  | jtagExtest
  /-- JTAG_IDCODE (R692): The IDCODE instruction returns 0x10F0_8573 without authentication. -/
  | jtagIdcode
  /-- JTAG_BYPASS (R79): The BYPASS instruction is available without authentication. -/
  | jtagBypass
  /-- JTAG_SAMPLE_PRELOAD (R79): The SAMPLE/PRELOAD instruction samples the boundary-scan register without authentication. -/
  | jtagSamplePreload
  /-- GRID_TICK (R91): The time unit issues a grid tick that advances the turn number and drives the grid-based units and per-tick checks. -/
  | gridTick (failed : List (Nat × Nat))
  /-- PARTITION_TICK (R103): A partition tick starts the partition's turn and its service window, at a place set by lag and quickstep. -/
  | partitionTick (p : Fin 8)
  /-- SERVICE_WINDOW_END (R95): The partition's service window ends and routines may start. -/
  | serviceWindowEnd (p : Fin 8) (failed : List Nat) (deferred : List Nat) (ce : List Nat)
  /-- LC_ROUTINE_START (R591): The firmware starts a latency-critical routine at the end of the window plus its START_NS, or at the end of the routine before it. -/
  | lcRoutineStart (p : Fin 8)
  /-- BACKGROUND_SLICE_START (R98): A slice of deferred background work of at most 25 µs starts in an idle gap that holds it. -/
  | backgroundSliceStart (p : Fin 8) (activity : Nat) (failed : List Nat)
  /-- PERIODIC_TEST_OVERDUE (R99): A deferred periodic test has not run within one further turn and becomes overdue. -/
  | periodicTestOverdue (p : Fin 8) (row : Nat)
  /-- DEADLINE_FAULT (R106): The current time passes the next grid tick by more than LAG_LIMIT_US and a deadline fault is raised once per episode. -/
  | deadlineFault (p : Fin 8)
  /-- ITEM_DEADLINE (R105): An item reaches its deadline without a result and FAILED_DEADLINE is written. -/
  | itemDeadline (tag : Nat)
  /-- XO_TIME_FAULT (R114): XO_TIME stops or runs off frequency, raising a fatal fault. -/
  | xoTimeFault
  /-- PTP_SYNC_RX (R121): A Sync message is received on the time port and feeds offset measurement. -/
  | ptpSyncRx (msg : PtpMsg)
  /-- PTP_FOLLOW_UP_RX (R121): A Follow_Up message completes a two-step Sync exchange. -/
  | ptpFollowUpRx (msg : PtpMsg)
  /-- PTP_ANNOUNCE_RX (R121): An Announce message is received and the BMCA runs over it. -/
  | ptpAnnounceRx (msg : PtpMsg)
  /-- PTP_PDELAY_REQ_RX (R121): A Pdelay_Req message is received and answered. -/
  | ptpPdelayReqRx (msg : PtpMsg)
  /-- PTP_PDELAY_RESP_RX (R121): A Pdelay response is received and the peer delay is measured. -/
  | ptpPdelayRespRx (msg : PtpMsg)
  /-- PTP_SYNC_TX (R121): At each Sync interval the FK8 sends a two-step Sync on its master ports. -/
  | ptpSyncTx (port : Fin 16)
  /-- PTP_PDELAY_REQ_TX (R121): The FK8 initiates a peer-delay measurement on the time port. -/
  | ptpPdelayReqTx
  /-- PTP_SOURCE_LOST (R119): No Sync or Announce arrives for three intervals and PTP is lost. -/
  | ptpSourceLost
  /-- PTP_MASTER_SEARCH_TIMEOUT (R122): No master is selected within 500 ms of time-port link-up, and the unit stays in FREE_RUN and keeps searching. -/
  | ptpMasterSearchTimeout
  /-- PPS_IN_EDGE (R136): A PPS_IN edge is accepted as an offset or counted as an outlier. -/
  | ppsInEdge (rising : Bool)
  /-- PPS_IN_LOST (R119): No PPS_IN edge is accepted for 1.5 s and PPS_IN is lost. -/
  | ppsInLost
  /-- SLEW_COMPLETE (R128): The slewed offset falls below 1 µs and the unit becomes LOCKED under the servo. -/
  | slewComplete
  /-- TIME_STEP_JUMP (R129): 100 µs after the TIME_STEP record completes, the counter jumps and outstanding deadlines shift. -/
  | timeStepJump
  /-- OUTPUT_REANCHOR (R129): At the first whole second of new time, each pulse train re-anchors to the new grid. -/
  | outputReanchor
  /-- TRIG_PULSE (R131): A periodic TRIG output pulses at its scheduled time. -/
  | trigPulse (n : Fin 32)
  /-- TRIG_ONESHOT (R132): A one-shot TRIG fires at its START time. -/
  | trigOneshot (n : Fin 32)
  /-- TRIG_COMMIT (R133): A write of COMMIT checks the shadow TRIG settings and schedules or refuses their transfer. -/
  | trigCommit (who : Requester) (n : Fin 32)
  /-- TRIG_TRANSFER (R133): At the whole second, committed TRIG settings become active. -/
  | trigTransfer (n : Fin 32)
  /-- PPS_OUT_PULSE (R134): PPS_OUT pulses at its offset in each second as its mode allows. -/
  | ppsOutPulse
  /-- EVT_IN_EDGE (R137): An EVT_IN edge is captured into its FIFO, or dropped. -/
  | evtInEdge (k : Fin 4) (rise : Bool)
  /-- EVT_FIFO_POP (R138): A read of TIME_EVT_FIFO_HI removes the head capture. -/
  | evtFifoPop (who : Requester) (k : Fin 4)
  /-- APHY_GROUP_TIMEOUT (R179): A four-port A-PHY training group reaches 60 ms, and the next group starts. -/
  | aphyGroupTimeout
  /-- APHY_LINK_UP (R143): An A-PHY port finishes training at the negotiated profile and gear. -/
  | aphyLinkUp (port : Fin 32) (p1 : List Nat) (p2 : List Nat) (retx : Bool) (delay : Nat)
  /-- APHY_LINK_FAIL (R178): An A-PHY link fails, open frames close with LINK_LOSS and the port retrains. -/
  | aphyLinkFail (port : Fin 32)
  /-- ETH_LINK_UP (R145): An Ethernet PHY reaches link-up. -/
  | ethLinkUp (port : Fin 16)
  /-- ETH_LINK_DOWN (R178): An Ethernet port goes link-down and its open frames close with LINK_LOSS. -/
  | ethLinkDown (port : Fin 16)
  /-- ETH_LINK_WAIT_TIMEOUT (R180): 600 ms after the pattern is applied, Ethernet ports count as up for the links-up condition. -/
  | ethLinkWaitTimeout
  /-- APHY_RETRAIN_CMD (R188): A write of ING_APHY_CTRL.RETRAIN retrains the port. -/
  | aphyRetrainCmd (who : Requester) (port : Fin 32)
  /-- APHY_HOLD_WRITE (R179): A write of ING_APHY_CTRL.HOLD keeps a port untrained or lets it train. -/
  | aphyHoldWrite (who : Requester) (port : Fin 32) (hold : Bool)
  /-- ETH_HOLD_WRITE (R180): A write of ING_ETH_CTRL.HOLD keeps an Ethernet port link-down or lets it link. -/
  | ethHoldWrite (who : Requester) (port : Fin 16) (hold : Bool)
  /-- CSI2_FRAME_START (R167): A CSI-2 frame-start packet is stamped, admitted by rate and opens an item, or is discarded as early. -/
  | csi2FrameStart (port : Fin 32) (vc : Fin 16) (number : Nat) (hdr : Fin 3)
  /-- CSI2_FRAME_END (R169): A CSI-2 frame-end packet closes the open frame. -/
  | csi2FrameEnd (port : Fin 32) (vc : Fin 16) (hdr : Fin 3)
  /-- CSI2_LONG_PACKET (R172): A CSI-2 line packet is checked, stored into the raw slot or discarded, and charged by its condition. -/
  | csi2LongPacket (port : Fin 32) (vc : Fin 16) (dt : Nat) (hdr : Fin 3) (data : List Byte) (crcOk : Bool) (env : LineEnv)
  /-- CSI2_EMBEDDED_DATA (R144): An embedded-data packet is stored into the slot's embedded area. -/
  | csi2EmbeddedData (port : Fin 32) (vc : Fin 16) (hdr : Fin 3) (data : List Byte)
  /-- CSI2_SHORT_PACKET (R144): A line-start, line-end, generic or reserved short packet is accepted or discarded by its data type. -/
  | csi2ShortPacket (port : Fin 32) (vc : Fin 16) (dt : Nat) (hdr : Fin 3)
  /-- ETH_FRAME_RX (R173): An Ethernet frame is received and filtered, answered, classified or stored as a range packet. -/
  | ethFrameRx (port : Fin 16) (frame : List Byte) (env : LineEnv)
  /-- RANGE_TIME_SLICE (R157): A time-slice boundary closes a range frame and starts the next. -/
  | rangeTimeSlice (i : Fin 1024)
  /-- FRAME_CLOSE_TIMEOUT (R169): A frame still open at its stamp plus FRAME_US closes with CLOSED_BY_TIME. -/
  | frameCloseTimeout (i : Fin 1024)
  /-- MISSING_FRAME_TIMEOUT (R168): No frame start by the expected start plus margin opens a missing-frame item that fails. -/
  | missingFrameTimeout (i : Fin 1024)
  /-- ITEM_HANDOFF (R160): After the slot header write completes, the item is handed to the image pipeline or the queue manager. -/
  | itemHandoff (tag : Nat)
  /-- STREAM_SLOT_RELEASE (R161): A write of ING_STR_RELEASE frees a held range slot of the named ring generation. -/
  | streamSlotRelease (who : Requester) (i : Fin 1024) (slot : Nat) (gen : Nat)
  /-- STREAM_ENABLE_WRITE (R183): A write of ING_STR_CTRL.ENABLE is checked and takes effect at the next grid tick, or is refused with ENABLE_ERROR. -/
  | streamEnableWrite (who : Requester) (i : Fin 1024) (en : Bool)
  /-- RING_COMMIT (R163): A write of ING_STR_CTRL.COMMIT checks the shadow ring base and makes it pending, or refuses it. -/
  | ringCommit (who : Requester) (i : Fin 1024)
  /-- QUAR_FORCE (R176): A write of QUAR_FORCE quarantines the stream. -/
  | quarForce (who : Requester) (i : Fin 1024)
  /-- QUAR_RELEASE (R177): A write of QUAR_RELEASE releases a quarantined stream back to pending. -/
  | quarRelease (who : Requester) (i : Fin 1024)
  /-- QUARANTINE_ENTRY (R176): The stream's violation count for the turn reaches VIOL_LIMIT and the stream enters quarantine. -/
  | quarantineEntry (i : Fin 1024)
  /-- QUARANTINE_AUTO_RELEASE (R177): After QUAR_TURNS clean turns under RELEASE_MODE 0, the stream is released. -/
  | quarantineAutoRelease (i : Fin 1024)
  /-- ADMISSION_TICK (R181): Each 1 ms admission tick admits up to 64 pending streams in stream-table order. -/
  | admissionTick
  /-- CCI_COMMAND (R187): A write of ING_APHY_CCI_CMD queues an I2C transfer to the camera, or is dropped with OVERFLOW. -/
  | cciCommand (who : Requester) (port : Fin 32) (v : Word)
  /-- CCI_TRANSFER_COMPLETE (R187): A tunnelled I2C transfer completes and its result enters the result FIFO. -/
  | cciTransferComplete (port : Fin 32) (data : Nat) (ack : Bool)
  /-- CCI_TIMEOUT (R194): An I2C transfer exceeds 200 µs and completes with TIMEOUT. -/
  | cciTimeout (port : Fin 32)
  /-- CCI_RESULT_READ (R194): A read of ING_APHY_CCI_RESULT returns and removes the head result. -/
  | cciResultRead (who : Requester) (port : Fin 32)
  /-- ISP_SLOT_START (R201): At START_NS after the grid tick, an active pipe slot takes its stream's oldest waiting item, or counts idle. -/
  | ispSlotStart (slot : Nat)
  /-- ISP_JOB_START (R202): A pipe job starts at the later of its slot time and the end of the previous job. -/
  | ispJobStart (pipe : Fin 8)
  /-- ISP_JOB_END (R206): A pipe job ends, writing statistics and posting a completion to the partition's FIFO. -/
  | ispJobEnd (pipe : Fin 8) (mismatch : Bool)
  /-- ISP_JOB_TIMEOUT (R202): A job still running at twice its duration is aborted and its item fails. -/
  | ispJobTimeout (pipe : Fin 8)
  /-- ISP_JOB_STOP_RESET (R203): A job reaches a channel in self-refresh or a partition in reset, stops and fails its item with FAILED_RESET. -/
  | ispJobStopReset (pipe : Fin 8)
  /-- ISP_PARAM_COMMIT (R225): A write of ISP_STR_CTRL.COMMIT checks the shadow parameters and bases and makes a pending version, or refuses it. -/
  | ispParamCommit (who : Requester) (i : Fin 1024)
  /-- ISP_TAP_ARM (R231): A write of ISP_STR_TAP.ARM arms a tap for the stream's next job, or is refused. -/
  | ispTapArm (who : Requester) (i : Fin 1024) (v : Word)
  /-- ARRAY_RAMP_STEP (R265): The spacing timer allows the next ramp step, which ungates or gates one column group. -/
  | arrayRampStep (p : Fin 8) (k : Fin 2)
  /-- ARRAY_IDLE_TIMEOUT (R267): A WARM array with no work for IDLE_HOLD cycles begins ramp-down. -/
  | arrayIdleTimeout (p : Fin 8) (k : Fin 2)
  /-- MMA_ISSUE (R269): An array instruction at the head of its queue issues once its issue conditions hold. -/
  | mmaIssue (q : Fin 9) (k : Fin 2)
  /-- MMA_COMPLETE (R252): An array instruction completes at its exact cycle count, setting ready bits or raising a mismatch. -/
  | mmaComplete (q : Fin 9) (k : Fin 2) (ups : List ArrayUpset)
  /-- VECTOR_ISSUE (R273): A vector instruction issues once its register, granule and lease conditions hold. -/
  | vectorIssue (q : Fin 9) (k : Fin 2)
  /-- VECTOR_COMPLETE (R273): A vector instruction completes after its fixed latency, or raises VECTOR_MISMATCH. -/
  | vectorComplete (q : Fin 9) (k : Fin 2) (bad : Option Nat)
  /-- RESIDUE_LOGIC_UP (R483): The residue logic is powered and self-checked after a cause arises. -/
  | residueLogicUp (p : Fin 8) (k : Fin 2)
  /-- CHK_CTRL_WRITE (R498): A write of TC_CORE_CHK_CTRL sets the float tolerance and switches LOCALISE residue coverage. -/
  | chkCtrlWrite (who : Requester) (p : Fin 8) (k : Fin 2) (v : Word)
  /-- NOP (R306): The NOP instruction does nothing. -/
  | nop (q : Fin 9) (w : BitVec 56)
  /-- ILLEGAL_OPCODE (R306): A reserved opcode raises ILLEGAL_OPCODE. -/
  | illegalOpcode (q : Fin 9) (op : BitVec 8) (w : BitVec 56) (upset : Bool)
  /-- ADD (R307): The ADD instruction adds two registers modulo 2^64. -/
  | add (q : Fin 9) (w : BitVec 56)
  /-- SUB (R307): The SUB instruction subtracts two registers modulo 2^64. -/
  | sub (q : Fin 9) (w : BitVec 56)
  /-- AND (R307): The AND instruction takes the bitwise AND of two registers. -/
  | and (q : Fin 9) (w : BitVec 56)
  /-- OR (R307): The OR instruction takes the bitwise OR of two registers. -/
  | or (q : Fin 9) (w : BitVec 56)
  /-- XOR (R307): The XOR instruction takes the bitwise XOR of two registers. -/
  | xor (q : Fin 9) (w : BitVec 56)
  /-- SLL (R307): The SLL instruction shifts left logically. -/
  | sll (q : Fin 9) (w : BitVec 56)
  /-- SRL (R307): The SRL instruction shifts right logically. -/
  | srl (q : Fin 9) (w : BitVec 56)
  /-- SRA (R307): The SRA instruction shifts right arithmetically. -/
  | sra (q : Fin 9) (w : BitVec 56)
  /-- MUL (R307): The MUL instruction keeps the low 64 bits of a product. -/
  | mul (q : Fin 9) (w : BitVec 56)
  /-- MIN (R307): The MIN instruction takes the signed minimum. -/
  | min (q : Fin 9) (w : BitVec 56)
  /-- MAX (R307): The MAX instruction takes the signed maximum. -/
  | max (q : Fin 9) (w : BitVec 56)
  /-- SLT (R307): The SLT instruction sets 1 on a signed less-than. -/
  | slt (q : Fin 9) (w : BitVec 56)
  /-- SLTU (R307): The SLTU instruction sets 1 on an unsigned less-than. -/
  | sltu (q : Fin 9) (w : BitVec 56)
  /-- ADDI (R307): The ADDI instruction adds an immediate. -/
  | addi (q : Fin 9) (w : BitVec 56)
  /-- ANDI (R307): The ANDI instruction ANDs an immediate. -/
  | andi (q : Fin 9) (w : BitVec 56)
  /-- ORI (R307): The ORI instruction ORs an immediate. -/
  | ori (q : Fin 9) (w : BitVec 56)
  /-- XORI (R307): The XORI instruction XORs an immediate. -/
  | xori (q : Fin 9) (w : BitVec 56)
  /-- SLLI (R307): The SLLI instruction shifts left by an immediate. -/
  | slli (q : Fin 9) (w : BitVec 56)
  /-- SRLI (R307): The SRLI instruction shifts right logically by an immediate. -/
  | srli (q : Fin 9) (w : BitVec 56)
  /-- SRAI (R307): The SRAI instruction shifts right arithmetically by an immediate. -/
  | srai (q : Fin 9) (w : BitVec 56)
  /-- LI (R307): The LI instruction loads a 48-bit immediate. -/
  | li (q : Fin 9) (w : BitVec 56)
  /-- LDS (R308): The LDS instruction loads a 64-bit word from scratch through class H once its granule is ready. -/
  | lds (q : Fin 9) (w : BitVec 56)
  /-- STS (R308): The STS instruction stores a 64-bit word to scratch through class H. -/
  | sts (q : Fin 9) (w : BitVec 56)
  /-- MFR (R308): The MFR instruction reads a register of the partition. -/
  | mfr (q : Fin 9) (w : BitVec 56)
  /-- MTR (R308): The MTR instruction writes a semaphore or TC_CORE_CTRL, or raises SCALAR_BOUNDS. -/
  | mtr (q : Fin 9) (w : BitVec 56)
  /-- BEQ (R307): The BEQ instruction branches when the registers are equal. -/
  | beq (q : Fin 9) (w : BitVec 56)
  /-- BNE (R307): The BNE instruction branches when the registers differ. -/
  | bne (q : Fin 9) (w : BitVec 56)
  /-- BLT (R307): The BLT instruction branches on a signed less-than. -/
  | blt (q : Fin 9) (w : BitVec 56)
  /-- BGE (R307): The BGE instruction branches on a signed greater-or-equal. -/
  | bge (q : Fin 9) (w : BitVec 56)
  /-- BLTU (R307): The BLTU instruction branches on an unsigned less-than. -/
  | bltu (q : Fin 9) (w : BitVec 56)
  /-- BGEU (R307): The BGEU instruction branches on an unsigned greater-or-equal. -/
  | bgeu (q : Fin 9) (w : BitVec 56)
  /-- JAL (R307): The JAL instruction jumps relative to the pc and links. -/
  | jal (q : Fin 9) (w : BitVec 56)
  /-- JALR (R307): The JALR instruction jumps to a register plus an immediate and links. -/
  | jalr (q : Fin 9) (w : BitVec 56)
  /-- END (R307): The END instruction ends the routine once every engine queue has drained. -/
  | endRoutine (q : Fin 9) (w : BitVec 56)
  /-- ROUTINE_END (R307): The queues drain after END and the routine ends. -/
  | routineEnd (q : Fin 9)
  /-- TRAP (R307): The TRAP instruction raises the TRAP exception with its code. -/
  | trap (q : Fin 9) (w : BitVec 56)
  /-- TIME (R307): The TIME instruction reads the PTP time, the turn number or the partition tick time. -/
  | timeRead (q : Fin 9) (w : BitVec 56)
  /-- ITAG (R307): The ITAG instruction sets the current item tag. -/
  | itag (q : Fin 9) (w : BitVec 56)
  /-- TLD (R309): The TLD instruction loads a descriptor from the constant pool. -/
  | tld (q : Fin 9) (w : BitVec 56) (upset : Bool)
  /-- TSETW (R309): The TSETW instruction sets one word of a descriptor. -/
  | tsetw (q : Fin 9) (w : BitVec 56)
  /-- TADDW (R309): The TADDW instruction adds to one word of a descriptor. -/
  | taddw (q : Fin 9) (w : BitVec 56)
  /-- MMA (R312): The MMA instruction is dispatched to its core's array queue. -/
  | mma (q : Fin 9) (w : BitVec 56)
  /-- LEASE (R352): The LEASE instruction assigns banks to a lane once nothing uses them. -/
  | lease (q : Fin 9) (w : BitVec 56)
  /-- RCLR (R314): The RCLR instruction clears the ready bits of a granule range. -/
  | rclr (q : Fin 9) (w : BitVec 56)
  /-- RSET (R314): The RSET instruction sets the ready bits of a granule range. -/
  | rset (q : Fin 9) (w : BitVec 56)
  /-- RWAIT (R314): The RWAIT instruction waits until a granule range is ready. -/
  | rwait (q : Fin 9) (w : BitVec 56)
  /-- VS (R316): The VS instruction streams an elementwise or row-reducing function over scratch. -/
  | vs (q : Fin 9) (w : BitVec 56)
  /-- VWIN (R320): The VWIN instruction runs depthwise convolution or pooling. -/
  | vwin (q : Fin 9) (w : BitVec 56)
  /-- VLD (R319): The VLD instruction loads 128 bytes from scratch into a vector register. -/
  | vld (q : Fin 9) (w : BitVec 56)
  /-- VST (R319): The VST instruction stores a vector register to scratch. -/
  | vst (q : Fin 9) (w : BitVec 56)
  /-- VR (R319): The VR instruction applies a function to vector registers or accumulators. -/
  | vr (q : Fin 9) (w : BitVec 56)
  /-- COPY (R322): The COPY instruction is dispatched to the DMA engine. -/
  | copy (p : Fin 8) (w : BitVec 56)
  /-- COPY_ISSUE (R325): A copy issues once its bounds, leases and granules allow. -/
  | copyIssue (q : Fin 9)
  /-- COPY_COMPLETE (R325): A copy completes, setting ready bits or posting a box slot, or raises COPY_CHECK. -/
  | copyComplete (q : Fin 9)
  /-- KVLD (R395): The KVLD instruction reads token records through the page table into scratch. -/
  | kvld (p : Fin 8) (w : BitVec 56)
  /-- KVST (R396): The KVST instruction writes token records, allocating or copying pages as needed. -/
  | kvst (p : Fin 8) (w : BitVec 56)
  /-- KVREF_INC (R398): The KVREF INC operation increments a handle's count. -/
  | kvrefInc (p : Fin 8) (w : BitVec 56)
  /-- KVREF_DEC (R398): The KVREF DEC operation decrements a handle's count and frees the handle at zero. -/
  | kvrefDec (p : Fin 8) (w : BitVec 56)
  /-- KVREF_FORK (R399): The KVREF FORK operation creates a handle sharing a prefix. -/
  | kvrefFork (p : Fin 8) (w : BitVec 56)
  /-- KVREF_TRUNC (R400): The KVREF TRUNC operation truncates a sequence. -/
  | kvrefTrunc (p : Fin 8) (w : BitVec 56)
  /-- KVREF_DROP (R401): The KVREF DROP operation drops a suffix of blocks. -/
  | kvrefDrop (p : Fin 8) (w : BitVec 56)
  /-- KV_OP_COMPLETE (R410): A walker operation completes and the walker takes its next message, command or instruction. -/
  | kvOpComplete (p : Fin 8)
  /-- SIG (R327): The SIG instruction adds to a semaphore. -/
  | sig (q : Fin 9) (w : BitVec 56)
  /-- WAITS (R327): The WAITS instruction waits for a semaphore count and subtracts it. -/
  | waits (q : Fin 9) (w : BitVec 56)
  /-- FENCE (R328): The FENCE instruction waits for earlier work of the named engines to complete. -/
  | fence (q : Fin 9) (w : BitVec 56)
  /-- SEQ_WAIT_SATISFIED (R304): The condition that a waiting sequencer instruction waits for comes to hold, and execution resumes. -/
  | seqWaitSatisfied (q : Fin 9)
  /-- LOCKA (R329): The LOCKA instruction tries to acquire a lock once. -/
  | locka (p : Fin 8) (w : BitVec 56)
  /-- LOCKR (R329): The LOCKR instruction releases a lock. -/
  | lockr (p : Fin 8) (w : BitVec 56)
  /-- LOCKC (R329): The LOCKC instruction clears a lock's abandoned mark. -/
  | lockc (p : Fin 8) (w : BitVec 56)
  /-- PCOMP (R330): The PCOMP instruction takes the oldest pipeline completion of its class. -/
  | pcomp (p : Fin 8) (w : BitVec 56)
  /-- RITEM (R330): The RITEM instruction takes the oldest range item notice of its class. -/
  | ritem (p : Fin 8) (w : BitVec 56)
  /-- RREL (R331): The RREL instruction frees a range slot. -/
  | rrel (p : Fin 8) (w : BitVec 56)
  /-- PIN (R338): The PIN instruction takes the oldest Partner chunk notice. -/
  | pin (w : BitVec 56)
  /-- RESULT (R332): The RESULT instruction asks for an item's payload copy and final record. -/
  | result (p : Fin 8) (w : BitVec 56)
  /-- RESULT_COMMIT (R614): A RESULT commits when its payload CRC is formed, and its record will be written. -/
  | resultCommit (p : Fin 8)
  /-- GRID (R333): The GRID instruction posts an occupancy grid to the Caller. -/
  | gridPost (q : Fin 9) (w : BitVec 56)
  /-- HINT (R334): The HINT instruction announces a heavy phase, or is dropped and counted. -/
  | hint (q : Fin 9) (w : BitVec 56)
  /-- POISON_WRITEBACK (R364): A bank writes the poison code over a queued uncorrectable word in its first free cycle. -/
  | poisonWriteback (p : Fin 8) (k : Fin 2) (bank : Fin 48)
  /-- SCRATCH_H_WRITE (R356): A host-cluster or island write to scratch is performed, or refused while its granule is reserved or pinned. -/
  | scratchHWrite (who : Requester) (addr : Nat) (data : List Byte)
  /-- SCRATCH_H_READ (R364): A host-cluster or island read of scratch returns the word, or a bus error for poison. -/
  | scratchHRead (who : Requester) (addr : Nat) (len : Nat) (ce : Nat) (ue : List Nat)
  /-- WIPE_COMPLETE (R368): A partition wipe ends after 8,800 cycles. -/
  | wipeComplete (p : Fin 8)
  /-- FORENSIC_RELEASE (R372): A write of SCR_FORENSIC.RELEASE ends the hold and the wipe runs. -/
  | forensicRelease (who : Requester) (p : Fin 8)
  /-- FORENSIC_HOLD_TIMEOUT (R369): A forensic hold reaches 1 s and the wipe runs. -/
  | forensicHoldTimeout (p : Fin 8)
  /-- KV_CMD_CREATE (R416): The KV_CMD CREATE command creates a sequence or temporal handle. -/
  | kvCmdCreate (who : Requester) (p : Fin 8)
  /-- KV_CMD_INC (R416): The KV_CMD INC command acts as KVREF INC. -/
  | kvCmdInc (who : Requester) (p : Fin 8)
  /-- KV_CMD_DEC (R416): The KV_CMD DEC command acts as KVREF DEC. -/
  | kvCmdDec (who : Requester) (p : Fin 8)
  /-- KV_CMD_FORK (R416): The KV_CMD FORK command acts as KVREF FORK. -/
  | kvCmdFork (who : Requester) (p : Fin 8)
  /-- KV_CMD_TRUNC (R416): The KV_CMD TRUNC command acts as KVREF TRUNC. -/
  | kvCmdTrunc (who : Requester) (p : Fin 8)
  /-- KV_CMD_DROP (R416): The KV_CMD DROP command acts as KVREF DROP. -/
  | kvCmdDrop (who : Requester) (p : Fin 8)
  /-- KV_QUERY (R416): The QUERY command returns a handle's length, DROP_FROM, counts and commit tag. -/
  | kvQuery (who : Requester) (p : Fin 8)
  /-- KV_MAP_REMOTE (R404): The MAP_REMOTE command sets an EMPTY PTE to FOREIGN and sends an INC to the owner. -/
  | kvMapRemote (who : Requester) (p : Fin 8)
  /-- KV_FETCH (R405): The FETCH command makes a range of foreign pages resident. -/
  | kvFetch (who : Requester) (p : Fin 8)
  /-- KV_EVICT (R405): The EVICT command releases the mirrors of a range of PTEs. -/
  | kvEvict (who : Requester) (p : Fin 8)
  /-- KV_CMD_UNDEFINED (R416): A KV_CMD value of 11 to 15 fails with reason 0x0100. -/
  | kvCmdUndefined (who : Requester) (p : Fin 8) (code : Fin 5)
  /-- KV_PAGE_ZERO_COMPLETE (R393): A freed page finishes zeroing in idle cycles and returns to its free list. -/
  | kvPageZeroComplete (p : Fin 8)
  /-- KV_POOL_ZEROED (R389): The walker finishes zeroing or rebuilding the KV pool and the partition may start routines. -/
  | kvPoolZeroed (p : Fin 8)
  /-- SASH_EQUALISATION_DONE (R432): Link equalisation ends and block lock begins, or the attempt restarts. -/
  | sashEqualisationDone (l : Fin 4) (ok : Bool)
  /-- SASH_BLOCK_LOCK (R428): A lane sees 64 valid sync headers and reaches block lock. -/
  | sashBlockLock (l : Fin 4) (lane : Fin 8)
  /-- SASH_MARKER_RX (R428): A marker block is received, tracked as a candidate, confirmed toward marker lock or judged missing or bad. -/
  | sashMarkerRx (l : Fin 4) (lane : Fin 8) (block : Nat) (found : Option (Fin 8 × BitVec 16)) (bip : Bool)
  /-- SASH_LOCK_LOSS (R429): A lane loses block or marker lock and the link retrains. -/
  | sashLockLoss (l : Fin 4) (lane : Fin 8) (block : Bool)
  /-- SASH_HELLO_RX (R434): A peer HELLO is checked and the link becomes UP, FENCED or HALTED. -/
  | sashHelloRx (l : Fin 4) (group : BitVec 64) (package : Byte) (link : Byte) (period : Word) (session : Word) (boxes : List (Nat × Nat × Nat × Nat × Nat))
  /-- SASH_IDLE_RX (R426): An IDLE row is received and deleted for rate matching. -/
  | sashIdleRx (l : Fin 4)
  /-- SASH_ROW_INVALID (R424): A control row of unknown or mixed type, or a stray data row, is discarded and counted. -/
  | sashRowInvalid (l : Fin 4) (frameDue : Bool)
  /-- SASH_ACK_RX (R436): An ACK row returns credits and acknowledges frames, or NAKs to start a replay. -/
  | sashAckRx (l : Fin 4) (seq : BitVec 16) (nak : Bool) (c0 : Nat) (c1 : Nat) (c2 : Nat)
  /-- SASH_TURN_RX (R441): A TURN row gives the peer's turn and the skew and offset are computed. -/
  | sashTurnRx (l : Fin 4) (turn : Word) (time : Nat) (arrival : Nat)
  /-- SASH_DELAY_RX (R441): A DELAY row exchange measures the link delay. -/
  | sashDelayRx (l : Fin 4) (answer : Bool) (t1 : Nat) (t2 : Nat) (t3 : Nat) (arrival : Nat)
  /-- SASH_FRAME_BAD (R436): A frame with a bad CRC, an out-of-order SEQ or bad fields is discarded and NAKed. -/
  | sashFrameBad (l : Fin 4)
  /-- SASH_FRAME_REF_MSG (R438): A REF_MSG frame delivers a reference message to the owner's walker, which applies it once. -/
  | sashFrameRefMsg (l : Fin 4) (seq : BitVec 16) (src : Fin 8) (dest : Fin 8) (add : Bool) (page : Nat) (epoch : Nat) (msgSeq : Nat)
  /-- SASH_FRAME_REF_ACK (R438): A REF_ACK frame acknowledges a reference message, which leaves the sender's ring. -/
  | sashFrameRefAck (l : Fin 4) (seq : BitVec 16) (src : Fin 8) (dest : Fin 8) (msgSeq : Nat) (gone : Bool)
  /-- SASH_FRAME_PAGE_REQ (R437): A PAGE_REQ frame asks the owner's walker for a page. -/
  | sashFramePageReq (l : Fin 4) (seq : BitVec 16) (p : Fin 8) (page : Nat) (epoch : Nat) (req : Nat)
  /-- SASH_FRAME_PAGE_DATA (R437): A PAGE_DATA frame is written into the mirror, which becomes resident after the last good frame. -/
  | sashFramePageData (l : Fin 4) (seq : BitVec 16) (req : Nat) (index : Fin 16) (data : List Byte)
  /-- SASH_FRAME_PAGE_GONE (R404): A PAGE_GONE frame ends a page read with GONE. -/
  | sashFramePageGone (l : Fin 4) (seq : BitVec 16) (req : Nat)
  /-- SASH_FRAME_PAGE_ERR (R437): A PAGE_ERR frame ends a page read with DATA_ECC. -/
  | sashFramePageErr (l : Fin 4) (seq : BitVec 16) (req : Nat)
  /-- SASH_FRAME_SLOT_DATA (R440): A SLOT_DATA frame is written into an inbox slot, which becomes ARRIVED after its last good frame. -/
  | sashFrameSlotData (l : Fin 4) (seq : BitVec 16) (box : Nat) (index : Nat) (data : List Byte)
  /-- SASH_FRAME_SLOT_FREE (R439): A SLOT_FREE frame grants a free inbox slot to the sender. -/
  | sashFrameSlotFree (l : Fin 4) (seq : BitVec 16) (box : Nat)
  /-- SASH_SLOT_SEND (R439): The link reads and verifies a posted outbox slot and sends it once a slot is granted. -/
  | sashSlotSend (l : Fin 4) (box : Fin 32)
  /-- SASH_MARKER_TX (R427): Every 16,384 blocks each lane sends a marker block. -/
  | sashMarkerTx (l : Fin 4)
  /-- SASH_ACK_TX (R436): An end sends an ACK row at least once per 256 rows or per microsecond. -/
  | sashAckTx (l : Fin 4)
  /-- SASH_DELAY_TX (R441): Every 125 ms an end starts a DELAY exchange. -/
  | sashDelayTx (l : Fin 4)
  /-- SASH_REPLAY_TIMEOUT (R436): No ACK advances for 20 µs with frames outstanding, and the sender replays. -/
  | sashReplayTimeout (l : Fin 4)
  /-- SASH_RETRAIN_TIMEOUT (R433): A retrain or training attempt exceeds RETRAIN_LIMIT_MS and the link drops. -/
  | sashRetrainTimeout (l : Fin 4)
  /-- SASH_RETRAIN (R445): A write of SASH_CTRL.RETRAIN retrains the link or leaves HALTED. -/
  | sashRetrain (who : Requester) (l : Fin 4)
  /-- SASH_UNFENCE (R445): A write of SASH_CTRL.UNFENCE moves a FENCED link to UP. -/
  | sashUnfence (who : Requester) (l : Fin 4)
  /-- SASH_HOLD_WRITE (R445): A write of SASH_CTRL.HOLD keeps the link DISABLED or lets it train. -/
  | sashHoldWrite (who : Requester) (l : Fin 4) (v : Bool)
  /-- HBM_REFRESH (R453): A channel performs a due refresh ahead of all other work. -/
  | hbmRefresh (ch : Fin 32)
  /-- HBM_TEMP_SAMPLE (R453): Each 1 ms the stack temperature is read and the refresh rate doubled or restored. -/
  | hbmTempSample (stack : Fin 2) (temp : Int)
  /-- HBM_READ (R451): A master's HBM read returns corrected data, or poison or an uncorrectable word. -/
  | hbmRead (who : Requester) (addr : Nat) (len : Nat) (ce : List Nat) (ue : List Nat)
  /-- HBM_WRITE (R451): A master's HBM write is accepted into the write queue, with a read-modify-write for a partial word. -/
  | hbmWrite (who : Requester) (addr : Nat) (data : List Byte) (ce : List Nat) (ue : List Nat)
  /-- CAL_OVERDUE (R459): A channel's calibration is deferred beyond its limits and becomes overdue. -/
  | calOverdue (ch : Fin 32)
  /-- SCRUB_PASS_TIMEOUT (R458): A channel's patrol pass has not completed within SCRUB_PASS_LIMIT_S and SCRUB_STARVED is set. -/
  | scrubPassTimeout (ch : Fin 32)
  /-- MARGIN_TEST_DUE (R494): PERIOD_S passes and the next unit's margin test falls due. -/
  | marginTestDue
  /-- MARGIN_COOL_TIMEOUT (R494): No window in the temperature band arrives in time, and the test runs flagged COOL. -/
  | marginCoolTimeout
  /-- MARGIN_TEST_COMPLETE (R496): A margin test's three runs end and are judged pass, warn or fail. -/
  | marginTestComplete (failed : List (Fin 3)) (core : Fin 2) (loc : Option Nat) (sig : Word) (age : Int)
  /-- FATAL_INDICATION (R507): A fatal indication reaches the fault collector and SAFE_n is driven low within 4 ns. -/
  | fatalIndication (kind : Fin 3) (addr : Nat)
  /-- SAFE_N_READBACK (R507): Every 1 µs the island reads SAFE_n back, and a mismatch is fatal. -/
  | safeNReadback (level : Bool)
  /-- ALIVE_FRAME_SEND (R527): After each grid tick the island sends the alive frame on both safety ports. -/
  | aliveFrameSend
  /-- CALLER_GRID_ARRIVAL (R521): A grid reaches the Caller, and once both grids are present the cells are compared and a verdict given. -/
  | callerGridArrival (partner : Bool) (tag : Nat) (bad : Bool) (differ : Bool)
  /-- REJECT_RUN_LIMIT (R523): A stream's run of rejected grids reaches REJECT_RUN and raises class G. -/
  | rejectRunLimit (i : Nat)
  /-- ISLAND_VOTE_MISMATCH (R529): An island core's write differs or is late at the voter, starting resynchronisation, or all three differ and the fault is fatal. -/
  | islandVoteMismatch (odd : Option (Fin 3))
  /-- ISLAND_RESYNC_COMPLETE (R530): The odd core's resynchronisation ends and the island returns to triple mode. -/
  | islandResyncComplete
  /-- ISLAND_WATCHDOG_WRITE (R531): The island firmware writes its watchdog, and a write outside the window is fatal. -/
  | islandWatchdogWrite
  /-- ISLAND_WATCHDOG_TIMEOUT (R531): No watchdog write arrives within 150 µs, which is fatal. -/
  | islandWatchdogTimeout
  /-- DEBUG_HALT (R532): A debug halt stops all three island cores and enters the safe state. -/
  | debugHalt
  /-- DEBUG_STEP (R532): A debug step runs on all three cores. -/
  | debugStep
  /-- DEBUG_STATE_WRITE (R532): A debugger register write goes to core 0 and into the replay buffer, or is refused when the buffer is full. -/
  | debugStateWrite (reg : Nat) (value : Nat)
  /-- DEBUG_RESUME (R532): At resume, the replay buffer is applied and the core states are compared. -/
  | debugResume (odd : Option (Fin 3))
  /-- PARTNER_CLOCK_CHECK (R514): Every 10 µs the island compares the Partner clock, and a deviation over 1 % is a Partner fault. -/
  | partnerClockCheck (dev : Int)
  /-- PARTNER_FAULT (R518): A Partner fault stops the engine, empties its FIFO and starts its SRAM wipe. -/
  | partnerFault (cause : Fin 6)
  /-- PARTNER_WIPE_COMPLETE (R518): The Partner SRAM wipe ends, and the engine restarts at the next grid tick. -/
  | partnerWipeComplete
  /-- PARTNER_CHUNK_RX (R516): A chunk passes seam 4, is placed in its item slot and a notice is posted. -/
  | partnerChunkRx (bad : Bool)
  /-- PARTNER_ITEM_CLOSE (R516): At an item's close a close notice is posted to the Partner. -/
  | partnerItemClose
  /-- SAFE_ENTER_REQUEST (R539): HOST_SAF_REQUEST with ACTION 2 enters the safe state with cause HOST_REQUEST. -/
  | safeEnterRequest (who : Requester)
  /-- SAFE_EXIT_REQUEST (R539): HOST_SAF_REQUEST with ACTION 1 asks for an exit, which is accepted or refused. -/
  | safeExitRequest (who : Requester) (token : BitVec 16)
  /-- SAF_REQUEST_INVALID (R539): Any other HOST_SAF_REQUEST action is refused and logged. -/
  | safRequestInvalid (who : Requester) (action : Byte)
  /-- SAFE_EXIT_TESTS_COMPLETE (R539): The repeated safe-state tests of an accepted exit end. -/
  | safeExitTestsComplete (failed : Bool)
  /-- SAFE_EXIT_COMPLETE (R539): EXIT_TURNS clean turns pass and SAFE_n rises at the next grid tick. -/
  | safeExitComplete
  /-- SAFETY_ETH_RX (R525): A frame received on a safety port is answered for ARP, handled as PTP or discarded. -/
  | safetyEthRx (e : Fin 2) (frame : List Byte)
  /-- PCIE_LINK_DOWN (R547): The PCIe link goes down and the PF and every VF are reset. -/
  | pcieLinkDown (bursts : List (Nat × Option (List Byte)))
  /-- PCIE_HOT_RESET (R578): A hot reset resets the PF and every VF. -/
  | pcieHotReset (bursts : List (Nat × Option (List Byte)))
  /-- PCIE_PERST (R679): PERST_n low holds the endpoint in reset, and its release starts link training. -/
  | pciePerst (low : Bool) (bursts : List (Nat × Option (List Byte)))
  /-- PF_FLR (R578): A PF function-level reset resets the PF and every enabled VF. -/
  | pfFlr (bursts : List (Nat × Option (List Byte)))
  /-- VF_FLR (R574): A VF function-level reset cancels its work, releases its locks and disables its rings. -/
  | vfFlr (v : Fin 64) (bursts : List (Nat × Option (List Byte)))
  /-- VF_ENABLE_CLEAR (R574): Clearing VF Enable resets the VFs as an FLR does. -/
  | vfEnableClear (bursts : List (Nat × Option (List Byte)))
  /-- VF_RESET_COMPLETE (R574): A function reset completes and its BARs respond again. -/
  | vfResetComplete (v : Fin 64)
  /-- NUMVFS_WRITE (R546): A write of NumVFs sets it, capped at TotalVFs. -/
  | numvfsWrite (n : Nat)
  /-- BUS_MASTER_ENABLE_SET (R553): Bus Master Enable returns to 1 and SUBMIT rings fetch again. -/
  | busMasterEnableSet (v : Fin 64)
  /-- QUEUE_ENABLE (R551): A write of ENABLE 1 checks and enables a ring, or refuses it with an error code. -/
  | queueEnable (who : Requester) (q : Nat) (v : Word)
  /-- QUEUE_DISABLE (R554): A write of ENABLE 0 moves a ring to DRAINING, or stops fetching. -/
  | queueDisable (who : Requester) (q : Nat) (v : Word)
  /-- SUBMIT_DOORBELL (R550): The owner writes PROD of a SUBMIT ring, making descriptors available. -/
  | submitDoorbell (who : Requester) (q : Nat) (v : Word)
  /-- CONSUMER_INDEX_WRITE (R550): The consumer writes CONS, freeing entries and moving spilled records into the ring. -/
  | consumerIndexWrite (who : Requester) (q : Nat) (v : Word)
  /-- DESCRIPTOR_FETCH (R555): The queue manager fetches a descriptor once a completion reservation, and for WORK FIFO room, is available. -/
  | descriptorFetch (q : Nat) (host : List Byte)
  /-- DESCRIPTOR_READ_ERROR (R554): A descriptor read completes with an error, and the ring moves to ERROR. -/
  | descriptorReadError (q : Nat)
  /-- DESC_COPY_IN (R559): The COPY_IN descriptor copies from the owner's bus space into HBM. -/
  | descCopyIn (q : Nat)
  /-- DESC_COPY_OUT (R559): The COPY_OUT descriptor copies from HBM to the owner's bus space. -/
  | descCopyOut (q : Nat)
  /-- DESC_COPY_HBM (R559): The COPY_HBM descriptor copies within HBM. -/
  | descCopyHbm (q : Nat)
  /-- WORK (R559): The WORK descriptor asks a partition to run a best-effort routine. -/
  | work (q : Nat)
  /-- DESC_NOP (R559): The NOP descriptor completes with no action. -/
  | descNop (q : Nat)
  /-- DESC_NVME_READ (R568): The NVME_READ descriptor reads from an NVMe namespace into HBM. -/
  | descNvmeRead (q : Nat) (lba : Option Nat) (k : Nat)
  /-- DESC_NVME_WRITE (R568): The NVME_WRITE descriptor writes HBM to an NVMe namespace. -/
  | descNvmeWrite (q : Nat) (lba : Option Nat) (k : Nat)
  /-- DESC_NVME_FLUSH (R568): The NVME_FLUSH descriptor flushes a namespace. -/
  | descNvmeFlush (q : Nat) (lba : Option Nat)
  /-- DESC_RESERVED (R559): A descriptor with a reserved opcode fails with FAILED_DATA and BAD_DESC. -/
  | descReserved (q : Nat)
  /-- HOST_DMA_BURST_COMPLETE (R560): A host DMA burst ends and the engine continues the descriptor or completes it. -/
  | hostDmaBurstComplete (q : Nat) (data : Option (List Byte))
  /-- NVME_COMMAND_COMPLETE (R569): An NVMe command completes, and a non-zero status fails its descriptor. -/
  | nvmeCommandComplete (q : Nat) (off : Nat) (status : BitVec 15) (data : List Byte) (lba : Nat) (k : Nat)
  /-- RECORD_PLACE (R556): A decided record is placed into its ring or spill, and the index is written and signalled. -/
  | recordPlace (q : Nat) (fails : Fin 3)
  /-- MSIX_COALESCE_TIMEOUT (R566): TIME µs after the first unsignalled placement, the ring signals its vector. -/
  | msixCoalesceTimeout (q : Nat)
  /-- LOCK_ACQUIRE (R571): The LOCK_CMD ACQUIRE command takes a free lock. -/
  | lockAcquire (who : Requester) (n : Fin 1024)
  /-- LOCK_RELEASE (R571): The LOCK_CMD RELEASE command frees a lock that the requester holds. -/
  | lockRelease (who : Requester) (n : Fin 1024)
  /-- LOCK_CLEAR_ABANDONED (R571): The LOCK_CMD CLEAR_ABANDONED command clears a held lock's abandoned mark. -/
  | lockClearAbandoned (who : Requester) (n : Fin 1024)
  /-- HOST_CLUSTER_CORE_RESET (R570): A write of HOST_HC_CTRL.RESET resets a host-cluster core and abandons its locks. -/
  | hostClusterCoreReset (who : Requester) (v : Word)
  /-- BE_WORK_START (R593): In best-effort time the firmware takes up the open context, a due stream routine or a WORK entry. -/
  | beWorkStart (p : Fin 8)
  /-- BE_RANGE_CLEAR_COMPLETE (R599): The best-effort granules are cleared under LIGHT and the new context starts. -/
  | beRangeClearComplete (p : Fin 8)
  /-- PREEMPT_REQUEST (R604): At the request point before a latency-critical start or a tick, the running best-effort context is pre-empted. -/
  | preemptRequest (p : Fin 8)
  /-- PREEMPT_DRAIN_COMPLETE (R602): The issued instructions of a pre-empted context complete and its light state is saved. -/
  | preemptDrainComplete (p : Fin 8)
  /-- CONTEXT_SAVE_COMPLETE (R603): The save of a scratch image under FULL ends. -/
  | contextSaveComplete (p : Fin 8)
  /-- CONTEXT_RESTORE_COMPLETE (R603): The restore of a scratch image or light state ends and execution resumes. -/
  | contextRestoreComplete (p : Fin 8) (bad : Bool)
  /-- HEARTBEAT_EXPIRY (R608): The 100 µs heartbeat timer expires and a heartbeat entry is taken at the next instruction boundary. -/
  | heartbeatExpiry (p : Fin 8)
  /-- HEARTBEAT_WRITE (R608): SEQFW writes TC_HB_WRITE, restarting the watchdog watch. -/
  | heartbeatWrite (who : Requester) (p : Fin 8)
  /-- HANG_DETECTED (R610): 300 µs pass without a heartbeat write, a hang is declared and the partition is killed. -/
  | hangDetected (p : Fin 8)
  /-- KILL_DRAIN_TIMEOUT (R612): After a hang, engines still busy 20 µs into the drain are stopped. -/
  | killDrainTimeout (p : Fin 8)
  /-- RESCUE_COMPLETE (R615): The rescue copies of retained tensors to HBM end. -/
  | rescueComplete (p : Fin 8)
  /-- RESCUE_TIMEOUT (R615): The rescue reaches 250 µs, and items still in it fail with SCRATCH_LOST. -/
  | rescueTimeout (p : Fin 8)
  /-- RECOV_RESET_WRITE (R634): A write of TC_RECOV_CTRL.RESET begins a partition reset of cause 5. -/
  | recovResetWrite (who : Requester) (p : Fin 8)
  /-- PARTITION_RESET_COMPLETE (R618): A partition reset ends its phases, writes its record and leads to restart, replay or the turn's routines. -/
  | partitionResetComplete (p : Fin 8) (imemBad : Bool) (spareBad : Bool)
  /-- POWER_SAMPLE (R641): Every 1 µs regulator inputs are measured and energy is charged to accounts. -/
  | powerSample (pkg : Nat) (parts : List (Nat × Nat × Nat))
  /-- CAP_CONTROL_TICK (R643): Every 100 µs power is compared with the cap and one unit's level is moved. -/
  | capControlTick
  /-- PWR_CAP_WRITE (R643): A write of PWR_CAP sets a cap for the next grid tick, or is refused. -/
  | pwrCapWrite (who : Requester) (v : Word)
  /-- CAP_HOLD_ENTRY (R644): Power exceeds the cap for CAP_GRACE_MS with no unit eligible and cap hold begins. -/
  | capHoldEntry
  /-- CAP_UNMET_EXPIRY (R644): Power still exceeds the cap a further CAP_GRACE_MS in cap hold and CAP_UNMET is set. -/
  | capUnmetExpiry
  /-- CAP_HOLD_EXIT (R644): Power stays below the cap less hysteresis for CAP_GRACE_MS and cap hold ends. -/
  | capHoldExit
  /-- OP_CHANGE_COMPLETE (R638): A rail ramp settles and the clock switches to complete an operating point change. -/
  | opChangeComplete (u : Fin 9)
  /-- HINT_RAIL_RISE (R646): At the HINT's lead less 6 µs the rail starts to rise to the full level. -/
  | hintRailRise (p : Fin 8)
  /-- HINT_WINDOW_CLOSE (R646): A HINT window closes, and the rail may fall to the light level. -/
  | hintWindowClose (p : Fin 8)
  /-- MARGIN_MONITOR_SAMPLE (R649): Every 1 µs margin monitors are read and the voltage trim adjusted. -/
  | marginMonitorSample (p : Fin 8) (slack : Int)
  /-- TRIM_HOLD_EXPIRY (R649): The 1 s trim hold after exhausted margin ends. -/
  | trimHoldExpiry (p : Fin 8)
  /-- TEMP_SAMPLE (R652): Every 1 ms die sensors are sampled, and failed sensors are excluded. -/
  | tempSample (readings : List (Int × Bool))
  /-- OVER_TEMP (R654): A die sensor reaches 115 °C: fatal, and every unit is forced to its slowest point. -/
  | overTemp (sensor : Fin 64) (temp : Int) (holds : Bool)
  /-- STACK_OVER_TEMP (R654): A stack reaches 110 °C: fatal, and every unit is forced to its slowest point. -/
  | stackOverTemp (stack : Fin 2) (temp : Int) (holds : Bool)
  /-- RAIL_UNDER (R654): A partition or spare rail falls 50 mV below its setting: fatal. -/
  | railUnder (u : Fin 10) (mv : Nat) (holds : Bool)
  /-- RAIL_OVER (R654): A regulated rail exceeds 1,000 mV: fatal. -/
  | railOver (u : Fin 11) (mv : Nat) (holds : Bool)
  /-- OVERCURRENT (R654): A partition regulator exceeds 40 A: fatal. -/
  | overcurrent (p : Fin 8) (current : Nat) (holds : Bool)
  /-- SUPPLY (R654): A supply ball group is more than 6 % off nominal for 10 µs: fatal. -/
  | supply (mv : Int) (limit : Int) (holds : Bool)
  /-- SHUTDOWN (R655): A die sensor reaches 125 °C, and the regulators are turned off until PORST_n. -/
  | shutdown (sensor : Fin 64) (temp : Int)
  /-- FORCED_SLOW_RELEASE (R655): An over-temperature condition has been absent for 1 s, and the forced slow points are released. -/
  | forcedSlowRelease
  /-- SERDES_REFCLK_LOSS (R685): SERDES_REFCLK is lost or off frequency: Sash links retrain and NVMe fails. -/
  | serdesRefclkLoss
  /-- PE_REFCLK_LOSS (R685): PE_REFCLK is lost, which is a PCIe link-down. -/
  | peRefclkLoss (bursts : List (Nat × Option (List Byte)))
  /-- SMBUS_READ_PAT_ID (R693): An SMBus Block Read of code 0x01 returns PAT_ID. -/
  | smbusReadPatId
  /-- SMBUS_READ_UID (R693): An SMBus Block Read of code 0x02 returns PAT_UID. -/
  | smbusReadUid
  /-- SMBUS_READ_PAT_STATUS (R693): An SMBus Block Read of code 0x03 returns PAT_STATUS. -/
  | smbusReadPatStatus
  /-- SMBUS_READ_SAF_STATUS (R693): An SMBus Block Read of code 0x04 returns SAF_STATUS. -/
  | smbusReadSafStatus
  /-- SMBUS_READ_POWER (R693): An SMBus Block Read of code 0x05 returns PWR_POWER. -/
  | smbusReadPower
  /-- SMBUS_READ_TEMPS (R693): An SMBus Block Read of code 0x06 returns the hottest die and stack temperatures. -/
  | smbusReadTemps
  /-- SMBUS_OTHER_NACK (R693): Any other SMBus command code, and every write, is NACKed. -/
  | smbusOtherNack
  /-- SAFETY_PORT_LINK_UP (R525): A 1000BASE-T1 safety Ethernet port reaches link-up, and when it is the time port PTP master search begins. -/
  | safetyPortLinkUp (e : Fin 2)
  /-- SAFETY_PORT_LINK_DOWN (R119): A safety Ethernet port goes link-down, which loses PTP when it is the time port. -/
  | safetyPortLinkDown (e : Fin 2)
  /-- PTP_ANNOUNCE_TX (R121): At each Announce interval the FK8 sends an Announce with priority1 250 and its clockClass on its master ports. -/
  | ptpAnnounceTx (port : Fin 16)
  /-- KV_REMOTE_TIMEOUT_EXPIRY (R404): KV_REMOTE_TIMEOUT passes with a page read's link still down, and the requesting walker raises UNREACHABLE. -/
  | kvRemoteTimeoutExpiry (p : Fin 8)
  /-- REFERENCE_MESSAGE_RX (R410): An INC or DEC reference message from another walker of the same package reaches the owner's walker, which applies it once and acknowledges it. -/
  | referenceMessageRx (src : Fin 8) (p : Fin 8)
  /-- BUS_MASTER_ENABLE_CLEAR (R553): A function's Bus Master Enable is cleared, so its SUBMIT rings fetch nothing and its out-going rings fail at their next record. -/
  | busMasterEnableClear (v : Fin 64)
  /-- VF_ENABLE_SET (R546): Setting VF Enable brings NumVFs virtual functions into existence, with their BARs and views. -/
  | vfEnableSet
  /-- PCIE_LINK_UP (R545): The PCIe endpoint link trains to a speed and width that HOST_STATUS reports, and the endpoint can take requests again. -/
  | pcieLinkUp (gen : Nat) (width : Nat)
  /-- SERDES_REFCLK_RETURN (R685): SERDES_REFCLK returns within frequency, and retraining Sash links can reach UP within RETRAIN_LIMIT_MS. -/
  | serdesRefclkReturn
  /-- POWER_STATE_CHANGE (R545): A function moves between D0 and D3hot, and its MSI-X messages are withheld in D3hot and resume in D0. -/
  | powerStateChange (v : Fin 64) (d3hot : Bool)
deriving DecidableEq, Repr

end Sys2Proof
end

