-- ==== Sys2Proof/Decode.lean ====
section
/-!
DEFINITION. Reading a command from a word. The opcode table gives none of its rows bits: the commands reach the part at its
pins, ports and registers, and an instruction word of a sequencer travels inside the command as its operand. No word spells a
command.
-/

namespace Sys2Proof

/-- The command that a word spells: none, since the table gives no row bits. -/
def decodeTableWord (_nbits _w : Nat) : Option Instr := none

end Sys2Proof
end

