-- ==== Sys2Proof/Config.lean ====
section
/-!
DEFINITION. What the spec leaves open: values with no body, so that nothing can be proved of them. The state counts
how many have been drawn; each draw takes a fresh one.
-/

namespace Sys2Proof

/-- A value the spec does not fix (DESIGN CHOICE, notes/assumptions/2.md): draw `n` of `w` bits. -/
opaque Config.freeValue (n w : Nat) : Nat

/-- Signature of the golden routine that the island's ROM holds for a grade and stepping (R496), of 32 bits. -/
opaque Config.goldenSignature (grade stepping : Nat) : Nat

end Sys2Proof
end

