-- ==== Sys2Proof/Machine/Map.lean ====
section
/-!
DEFINITION. Sparse maps from numbers, as lists of pairs in one canonical form: keys strictly rising, and no
entry equal to what an unlisted key reads as. Memory is such a list of bytes (`Host.Cell`); so is the register
file. Every operation here keeps the form (Laws/Map.lean).
-/

namespace Sys2Proof.Machine

/-- The entry of key `k`, if it is listed. -/
def lookup {α : Type} : List (Nat × α) → Nat → Option α
  | [], _ => none
  | (k, v) :: r, i => if k = i then some v else lookup r i

/-- The list without key `i`. -/
def eraseKey {α : Type} (m : List (Nat × α)) (i : Nat) : List (Nat × α) :=
  m.filter (fun c => c.1 != i)

/-- Insert before the first greater key. -/
def insertKey {α : Type} : List (Nat × α) → Nat → α → List (Nat × α)
  | [], i, v => [(i, v)]
  | (k, w) :: r, i, v => if i < k then (i, v) :: (k, w) :: r else (k, w) :: insertKey r i v

/-- The value of key `i` where an unlisted key reads as `d`. -/
def getD {α : Type} (d : α) (m : List (Nat × α)) (i : Nat) : α := (lookup m i).getD d

/-- Write key `i` where an unlisted key reads as `d`: writing `d` removes the entry. -/
def setD {α : Type} [DecidableEq α] (d : α) (m : List (Nat × α)) (i : Nat) (v : α) : List (Nat × α) :=
  if v = d then eraseKey m i else insertKey (eraseKey m i) i v

/-- The value of key `i` where an unlisted key reads as the type's default. -/
def mget {α : Type} [Inhabited α] (m : List (Nat × α)) (i : Nat) : α := getD default m i

/-- Write key `i` where an unlisted key reads as the type's default. -/
def mset {α : Type} [Inhabited α] [DecidableEq α] (m : List (Nat × α)) (i : Nat) (v : α) : List (Nat × α) :=
  setD default m i v

/-- Change the value of key `i` by `f`. -/
def mmod {α : Type} [Inhabited α] [DecidableEq α] (m : List (Nat × α)) (i : Nat) (f : α → α) : List (Nat × α) :=
  mset m i (f (mget m i))

/-- Every key in `lo ≤ k < hi` back at its unlisted value. -/
def clearRange {α : Type} (m : List (Nat × α)) (lo hi : Nat) : List (Nat × α) :=
  m.filter (fun c => !(decide (lo ≤ c.1) && decide (c.1 < hi)))

/-- Keys strictly rising above `b`. -/
def rising {α : Type} : Option Nat → List (Nat × α) → Bool
  | _, [] => true
  | none, (k, _) :: r => rising (some k) r
  | some b, (k, _) :: r => decide (b < k) && rising (some k) r

/-- The canonical form: keys strictly rising and no entry at the unlisted value `d`. -/
def canonical {α : Type} [DecidableEq α] (d : α) (m : List (Nat × α)) : Bool :=
  rising none m && m.all (fun c => decide (c.2 ≠ d))

/-- Drop the first element that `p` holds of. -/
def dropFirst {α : Type} (p : α → Bool) : List α → List α
  | [] => []
  | a :: r => if p a then r else a :: dropFirst p r

/-- Insert an element behind those that go before it. -/
def insertBy {α : Type} (le : α → α → Bool) (a : α) : List α → List α
  | [] => [a]
  | b :: r => if le a b then a :: b :: r else b :: insertBy le a r

/-- Sort by insertion; elements that compare equal keep their order. -/
def sortBy {α : Type} (le : α → α → Bool) (l : List α) : List α := l.foldr (insertBy le) []

end Sys2Proof.Machine
end

