-- ==== Sys2Proof/Machine/Regs.lean ====
section
/-!
DEFINITION. The register map (R36) field by field: a handle for each field of each register, and the table of all
registers with each field's access code (R14), its reset value (R15), who may write it and which resets it follows.
A pair `_LO`, `_HI` (R17) is one row of up to 64 bits at the address of its `_LO`.
-/

namespace Sys2Proof.Machine

/-- A field of a register: the device address of its word (R36), its lowest bit, its width and its reset value. -/
structure Fld where
  addr  : Nat
  lo    : Nat
  width : Nat
  reset : Nat
deriving DecidableEq, Repr

/-- The access codes of R14. -/
inductive Access where
  | r | rw | w1c | wo | rc
deriving DecidableEq, Repr

/-- Who may write a register, where its chapter restricts it. -/
inductive Writers where
  | any          -- every requester that reaches the block (R35)
  | pfMi         -- PF and Minuet island (R85)
  | pfHcMi       -- PF, host cluster and island (R40, R445, R634, R659)
  | pfHc         -- PF and host cluster (R588)
  | mi           -- island only (R37)
  | leadMi       -- the lead Minuet core only (R372)
  | seqfw        -- sequencer firmware only (R632)
  | seqHcMi      -- sequencer, host cluster, island (R277)
  | seqfwHcMi    -- sequencer firmware, host cluster, island (R497)
  | seqfwPfHcMi  -- sequencer firmware, PF, host cluster, island (R414)
  | queueOwner   -- the queue's owner, PF, host cluster, island (R583)
  | sem          -- TC_SEQ_SEM (R339)
deriving DecidableEq, Repr

/-- Which resets a register follows beyond PORST_n (R15). -/
inductive ResetClass where
  | power  -- PORST_n, and what its chapter says
  | base   -- PORST_n and whenever a base pattern is applied
  | part   -- those, and every partition reset (R275, R296, R497)
deriving DecidableEq, Repr

/-- One field in the register table. -/
structure FieldSpec where
  lo     : Nat
  width  : Nat
  access : Access
  reset  : Nat
deriving DecidableEq, Repr

/-- One row of the register table: its first address, its repetitions (count, stride), whether it is a `_LO`/`_HI`
pair, its writers, its resets and its fields. -/
structure RegRow where
  base   : Nat
  dims   : List (Nat × Nat)
  pair   : Bool
  wr     : Writers
  rst    : ResetClass
  fields : List FieldSpec
deriving DecidableEq, Repr

/-- Thirty-two one-bit fields. -/
def bits32 (a : Access) : List FieldSpec := (List.range 32).map (fun i => ⟨i, 1, a, 0⟩)

/-- The registers of sequencer `p`: of PART[p] for 0 to 7 (R339), of the Partner engine for 8 (R544). -/
def seqBase (p : Nat) : Nat := if p < 8 then 0x7F10000600 + p * 0x1000000 else 0x7F70000600

/-! ### PAT (R81) -/

def Reg.PAT_ID_PART : Fld := ⟨0x7F00000000, 16, 16, 0xF08⟩
def Reg.PAT_ID_STEP_LETTER : Fld := ⟨0x7F00000000, 12, 4, 1⟩
def Reg.PAT_ID_STEP_NUMBER : Fld := ⟨0x7F00000000, 8, 4, 1⟩
def Reg.PAT_ID_GRADE : Fld := ⟨0x7F00000000, 4, 4, 0⟩
def Reg.PAT_ID_CONTRACT : Fld := ⟨0x7F00000000, 0, 4, 1⟩
def Reg.PAT_STATUS_STATE : Fld := ⟨0x7F00000004, 0, 4, 0⟩
def Reg.PAT_STATUS_SOURCE : Fld := ⟨0x7F00000004, 4, 2, 0⟩
def Reg.PAT_STATUS_LIFECYCLE : Fld := ⟨0x7F00000004, 6, 2, 0⟩
def Reg.PAT_STATUS_ALTER_PENDING : Fld := ⟨0x7F00000004, 8, 1, 0⟩
def Reg.PAT_STATUS_DEBUG_SESSION : Fld := ⟨0x7F00000004, 9, 1, 0⟩
def Reg.PAT_STATUS_KEY_SLOT : Fld := ⟨0x7F00000004, 10, 2, 0⟩
def Reg.PAT_STATUS_VENDOR_KEY : Fld := ⟨0x7F00000004, 12, 1, 0⟩
def Reg.PAT_ERROR_CODE : Fld := ⟨0x7F00000008, 0, 8, 0⟩
def Reg.PAT_ERROR_SECTION : Fld := ⟨0x7F00000008, 8, 8, 0xFF⟩
def Reg.PAT_ERROR_COUNT : Fld := ⟨0x7F00000008, 24, 8, 0⟩
def Reg.PAT_ERR_OFFSET : Fld := ⟨0x7F0000000C, 0, 32, 0⟩
def Reg.PAT_PATTERN_ID : Fld := ⟨0x7F00000010, 0, 64, 0⟩
def Reg.PAT_ALTER_SEQ : Fld := ⟨0x7F00000018, 0, 32, 0⟩
def Reg.PAT_SV_FUSED : Fld := ⟨0x7F0000001C, 0, 7, 0⟩
def Reg.PAT_SV_PATTERN : Fld := ⟨0x7F0000001C, 8, 7, 0⟩
def Reg.PAT_KEYS_HASH_FUSED : Fld := ⟨0x7F00000020, 0, 4, 0⟩
def Reg.PAT_KEYS_REVOKED : Fld := ⟨0x7F00000020, 4, 4, 0⟩
def Reg.PAT_KEYS_VENDOR_FUSED : Fld := ⟨0x7F00000020, 8, 1, 0⟩
def Reg.PAT_BOOT_BOOTSEL : Fld := ⟨0x7F00000024, 0, 2, 0⟩
def Reg.PAT_BOOT_SFDP_FOUND : Fld := ⟨0x7F00000024, 2, 1, 0⟩
def Reg.PAT_BOOT_PRIMARY_FAILED : Fld := ⟨0x7F00000024, 3, 1, 0⟩
def Reg.PAT_BOOT_SECONDARY_FAILED : Fld := ⟨0x7F00000024, 4, 1, 0⟩
def Reg.PAT_BOOT_APPLY_US : Fld := ⟨0x7F00000024, 8, 24, 0⟩
def Reg.PAT_UID : Fld := ⟨0x7F00000030, 0, 64, 0⟩
def Reg.PAT_MBX_ADDR : Fld := ⟨0x7F00000040, 0, 64, 0⟩
def Reg.PAT_MBX_LEN : Fld := ⟨0x7F00000048, 0, 27, 0⟩
def Reg.PAT_MBX_CMD_CMD : Fld := ⟨0x7F0000004C, 0, 4, 0⟩
def Reg.PAT_MBX_STATUS_STATE : Fld := ⟨0x7F00000050, 0, 4, 0⟩
def Reg.PAT_MBX_STATUS_RESULT : Fld := ⟨0x7F00000050, 8, 8, 0⟩

/-! ### TIME (R109, R138) -/

def Reg.TIME_STATUS_TQ : Fld := ⟨0x7F00100000, 0, 2, 2⟩
def Reg.TIME_STATUS_IN_USE : Fld := ⟨0x7F00100000, 2, 2, 0⟩
def Reg.TIME_STATUS_ENABLED : Fld := ⟨0x7F00100000, 4, 1, 0⟩
def Reg.TIME_STATUS_SLEWING : Fld := ⟨0x7F00100000, 5, 1, 0⟩
def Reg.TIME_STATUS_STEP_PENDING : Fld := ⟨0x7F00100000, 6, 1, 0⟩
def Reg.TIME_STATUS_PTP_PRESENT : Fld := ⟨0x7F00100000, 7, 1, 0⟩
def Reg.TIME_STATUS_PPS_PRESENT : Fld := ⟨0x7F00100000, 8, 1, 0⟩
def Reg.TIME_STATUS_STEPPED : Fld := ⟨0x7F00100000, 9, 1, 0⟩
def Reg.TIME_NOW : Fld := ⟨0x7F00100004, 0, 64, 0⟩
def Reg.TIME_OFFSET : Fld := ⟨0x7F0010000C, 0, 32, 0⟩
def Reg.TIME_RATE_ADJ : Fld := ⟨0x7F00100010, 0, 32, 0⟩
def Reg.TIME_GM_ID : Fld := ⟨0x7F00100014, 0, 64, 0⟩
def Reg.TIME_PPS_IN_OFFSET : Fld := ⟨0x7F0010001C, 0, 32, 0⟩
def Reg.TIME_CNT_SRC_LOSS : Fld := ⟨0x7F00100020, 0, 32, 0⟩
def Reg.TIME_CNT_STEPS : Fld := ⟨0x7F00100024, 0, 32, 0⟩
def Reg.TIME_CNT_PPS_OUTLIER : Fld := ⟨0x7F00100028, 0, 32, 0⟩
def Reg.TIME_CNT_PTP_DISCARD : Fld := ⟨0x7F0010002C, 0, 32, 0⟩
def Reg.TIME_TRIG_CTRL_MODE (n : Nat) : Fld := ⟨0x7F00100100 + n * 0x20, 0, 2, 0⟩
def Reg.TIME_TRIG_CTRL_POLARITY (n : Nat) : Fld := ⟨0x7F00100100 + n * 0x20, 2, 1, 0⟩
def Reg.TIME_TRIG_CTRL_COMMIT (n : Nat) : Fld := ⟨0x7F00100100 + n * 0x20, 3, 1, 0⟩
def Reg.TIME_TRIG_RATE (n : Nat) : Fld := ⟨0x7F00100104 + n * 0x20, 0, 17, 0⟩
def Reg.TIME_TRIG_PHASE (n : Nat) : Fld := ⟨0x7F00100108 + n * 0x20, 0, 30, 0⟩
def Reg.TIME_TRIG_WIDTH (n : Nat) : Fld := ⟨0x7F0010010C + n * 0x20, 0, 30, 0⟩
def Reg.TIME_TRIG_START (n : Nat) : Fld := ⟨0x7F00100110 + n * 0x20, 0, 64, 0⟩
def Reg.TIME_TRIG_STATUS_ACTIVE_MODE (n : Nat) : Fld := ⟨0x7F00100118 + n * 0x20, 0, 2, 0⟩
def Reg.TIME_TRIG_STATUS_PENDING (n : Nat) : Fld := ⟨0x7F00100118 + n * 0x20, 2, 1, 0⟩
def Reg.TIME_TRIG_STATUS_ERROR (n : Nat) : Fld := ⟨0x7F00100118 + n * 0x20, 3, 1, 0⟩
def Reg.TIME_TRIG_STATUS_MISSED (n : Nat) : Fld := ⟨0x7F00100118 + n * 0x20, 4, 1, 0⟩
def Reg.TIME_TRIG_STATUS_STEP_FIRED (n : Nat) : Fld := ⟨0x7F00100118 + n * 0x20, 5, 1, 0⟩
def Reg.TIME_TRIG_STATUS_REANCHOR (n : Nat) : Fld := ⟨0x7F00100118 + n * 0x20, 6, 1, 0⟩
def Reg.TIME_TRIG_STATUS_APPLY_SEC (n : Nat) : Fld := ⟨0x7F00100118 + n * 0x20, 16, 16, 0⟩
def Reg.TIME_EVT_CTRL_EDGE (n : Nat) : Fld := ⟨0x7F00100600 + n * 0x20, 0, 2, 0⟩
def Reg.TIME_EVT_FIFO (n : Nat) : Fld := ⟨0x7F00100604 + n * 0x20, 0, 64, 0⟩
def Reg.TIME_EVT_STATUS_COUNT (n : Nat) : Fld := ⟨0x7F0010060C + n * 0x20, 0, 5, 0⟩
def Reg.TIME_EVT_STATUS_HEAD_TQ (n : Nat) : Fld := ⟨0x7F0010060C + n * 0x20, 5, 2, 0⟩
def Reg.TIME_EVT_STATUS_HEAD_RISE (n : Nat) : Fld := ⟨0x7F0010060C + n * 0x20, 7, 1, 0⟩
def Reg.TIME_EVT_STATUS_OVERFLOW (n : Nat) : Fld := ⟨0x7F0010060C + n * 0x20, 8, 1, 0⟩
def Reg.TIME_EVT_STATUS_DROPPED (n : Nat) : Fld := ⟨0x7F0010060C + n * 0x20, 16, 16, 0⟩
def Reg.TIME_TURN_PERIOD : Fld := ⟨0x7F00100800, 0, 17, 0⟩
def Reg.TIME_TURN_FRACTION : Fld := ⟨0x7F00100804, 0, 2, 0⟩
def Reg.TIME_TURN_WINDOW : Fld := ⟨0x7F00100808, 0, 15, 0⟩
def Reg.TIME_TURN_LAG_LIMIT : Fld := ⟨0x7F0010080C, 0, 20, 0⟩
def Reg.TIME_TURN_OFFSET : Fld := ⟨0x7F00100810, 0, 17, 0⟩
def Reg.TIME_TURN_QSTEP : Fld := ⟨0x7F00100814, 0, 28, 0⟩
def Reg.TIME_TURN_NUMBER : Fld := ⟨0x7F00100818, 0, 32, 0⟩
def Reg.TIME_TURN_TICK : Fld := ⟨0x7F0010081C, 0, 64, 0⟩
def Reg.TIME_TURN_STATUS_RUNNING : Fld := ⟨0x7F00100824, 0, 1, 0⟩
def Reg.TIME_TURN_STATUS_REANCHOR_PENDING : Fld := ⟨0x7F00100824, 1, 1, 0⟩
def Reg.TIME_TURN_STATUS_REANCHORED : Fld := ⟨0x7F00100824, 2, 1, 0⟩

/-! ### ING (R188) -/

def Reg.ING_ADMIT_STATUS_ADMITTED : Fld := ⟨0x7F01000004, 0, 11, 0⟩
def Reg.ING_ADMIT_STATUS_PENDING : Fld := ⟨0x7F01000004, 11, 11, 0⟩
def Reg.ING_ADMIT_STATUS_LINKS_UP : Fld := ⟨0x7F01000004, 22, 1, 0⟩
def Reg.ING_ADMIT_STATUS_RUNNING : Fld := ⟨0x7F01000004, 23, 1, 0⟩
def Reg.ING_CNT_ADMITTED : Fld := ⟨0x7F01000008, 0, 32, 0⟩
def Reg.ING_APHY_STATUS_STATE (n : Nat) : Fld := ⟨0x7F01010000 + n * 0x100, 0, 3, 0⟩
def Reg.ING_APHY_STATUS_PROFILE (n : Nat) : Fld := ⟨0x7F01010000 + n * 0x100, 3, 1, 0⟩
def Reg.ING_APHY_STATUS_GEAR (n : Nat) : Fld := ⟨0x7F01010000 + n * 0x100, 4, 3, 0⟩
def Reg.ING_APHY_STATUS_RETX (n : Nat) : Fld := ⟨0x7F01010000 + n * 0x100, 7, 1, 0⟩
def Reg.ING_APHY_DELAY (n : Nat) : Fld := ⟨0x7F01010004 + n * 0x100, 0, 16, 0⟩
def Reg.ING_APHY_CTRL_RETRAIN (n : Nat) : Fld := ⟨0x7F01010008 + n * 0x100, 0, 1, 0⟩
def Reg.ING_APHY_CTRL_HOLD (n : Nat) : Fld := ⟨0x7F01010008 + n * 0x100, 1, 1, 0⟩
def Reg.ING_APHY_CCI_CMD_REG (n : Nat) : Fld := ⟨0x7F01010010 + n * 0x100, 0, 16, 0⟩
def Reg.ING_APHY_CCI_CMD_DEV (n : Nat) : Fld := ⟨0x7F01010010 + n * 0x100, 16, 7, 0⟩
def Reg.ING_APHY_CCI_CMD_READ (n : Nat) : Fld := ⟨0x7F01010010 + n * 0x100, 23, 1, 0⟩
def Reg.ING_APHY_CCI_CMD_WDATA (n : Nat) : Fld := ⟨0x7F01010010 + n * 0x100, 24, 8, 0⟩
def Reg.ING_APHY_CCI_RESULT_RDATA (n : Nat) : Fld := ⟨0x7F01010014 + n * 0x100, 0, 8, 0⟩
def Reg.ING_APHY_CCI_RESULT_VALID (n : Nat) : Fld := ⟨0x7F01010014 + n * 0x100, 8, 1, 0⟩
def Reg.ING_APHY_CCI_RESULT_NACK (n : Nat) : Fld := ⟨0x7F01010014 + n * 0x100, 9, 1, 0⟩
def Reg.ING_APHY_CCI_RESULT_TIMEOUT (n : Nat) : Fld := ⟨0x7F01010014 + n * 0x100, 10, 1, 0⟩
def Reg.ING_APHY_CCI_RESULT_OVERFLOW (n : Nat) : Fld := ⟨0x7F01010014 + n * 0x100, 11, 1, 0⟩
def Reg.ING_APHY_CCI_RESULT_COUNT (n : Nat) : Fld := ⟨0x7F01010014 + n * 0x100, 16, 6, 0⟩
def Reg.ING_APHY_CNT_UNCLAIMED (n : Nat) : Fld := ⟨0x7F01010020 + n * 0x100, 0, 32, 0⟩
def Reg.ING_APHY_CNT_ECC_CORR (n : Nat) : Fld := ⟨0x7F01010024 + n * 0x100, 0, 32, 0⟩
def Reg.ING_APHY_CNT_HDR_ERR (n : Nat) : Fld := ⟨0x7F01010028 + n * 0x100, 0, 32, 0⟩
def Reg.ING_APHY_CNT_UNSUP_DT (n : Nat) : Fld := ⟨0x7F0101002C + n * 0x100, 0, 32, 0⟩
def Reg.ING_APHY_CNT_BUF_OVERRUN (n : Nat) : Fld := ⟨0x7F01010030 + n * 0x100, 0, 32, 0⟩
def Reg.ING_APHY_CNT_RETRAIN (n : Nat) : Fld := ⟨0x7F01010034 + n * 0x100, 0, 32, 0⟩
def Reg.ING_APHY_CNT_TRIG_LOST (n : Nat) : Fld := ⟨0x7F01010038 + n * 0x100, 0, 32, 0⟩
def Reg.ING_ETH_STATUS_STATE (n : Nat) : Fld := ⟨0x7F01030000 + n * 0x100, 0, 2, 0⟩
def Reg.ING_ETH_STATUS_SPEED (n : Nat) : Fld := ⟨0x7F01030000 + n * 0x100, 2, 2, 0⟩
def Reg.ING_ETH_STATUS_TIME_PORT (n : Nat) : Fld := ⟨0x7F01030000 + n * 0x100, 4, 1, 0⟩
def Reg.ING_ETH_CTRL_HOLD (n : Nat) : Fld := ⟨0x7F01030008 + n * 0x100, 1, 1, 0⟩
def Reg.ING_ETH_CNT_UNCLAIMED (n : Nat) : Fld := ⟨0x7F01030020 + n * 0x100, 0, 32, 0⟩
def Reg.ING_ETH_CNT_FCS_ERR (n : Nat) : Fld := ⟨0x7F01030024 + n * 0x100, 0, 32, 0⟩
def Reg.ING_ETH_CNT_OVERSIZE (n : Nat) : Fld := ⟨0x7F01030028 + n * 0x100, 0, 32, 0⟩
def Reg.ING_ETH_CNT_OTHER (n : Nat) : Fld := ⟨0x7F0103002C + n * 0x100, 0, 32, 0⟩
def Reg.ING_ETH_CNT_IP_ERR (n : Nat) : Fld := ⟨0x7F01030030 + n * 0x100, 0, 32, 0⟩
def Reg.ING_ETH_CNT_IP_UNSUP (n : Nat) : Fld := ⟨0x7F01030034 + n * 0x100, 0, 32, 0⟩
def Reg.ING_ETH_CNT_ARP_ANSWERED (n : Nat) : Fld := ⟨0x7F01030038 + n * 0x100, 0, 32, 0⟩
def Reg.ING_ETH_CNT_BUF_OVERRUN (n : Nat) : Fld := ⟨0x7F0103003C + n * 0x100, 0, 32, 0⟩
def Reg.ING_STR_STATUS_STATE (n : Nat) : Fld := ⟨0x7F01100000 + n * 0x40, 0, 3, 0⟩
def Reg.ING_STR_STATUS_FRAME_OPEN (n : Nat) : Fld := ⟨0x7F01100000 + n * 0x40, 3, 1, 0⟩
def Reg.ING_STR_STATUS_COMMIT_ERROR (n : Nat) : Fld := ⟨0x7F01100000 + n * 0x40, 4, 1, 0⟩
def Reg.ING_STR_STATUS_NEXT_SLOT (n : Nat) : Fld := ⟨0x7F01100000 + n * 0x40, 5, 6, 0⟩
def Reg.ING_STR_STATUS_HELD (n : Nat) : Fld := ⟨0x7F01100000 + n * 0x40, 11, 7, 0⟩
def Reg.ING_STR_STATUS_VIOL_TURN (n : Nat) : Fld := ⟨0x7F01100000 + n * 0x40, 18, 8, 0⟩
def Reg.ING_STR_STATUS_ENABLE_ERROR (n : Nat) : Fld := ⟨0x7F01100000 + n * 0x40, 26, 1, 0⟩
def Reg.ING_STR_STATUS_RETIRING (n : Nat) : Fld := ⟨0x7F01100000 + n * 0x40, 27, 1, 0⟩
def Reg.ING_STR_CTRL_ENABLE (n : Nat) : Fld := ⟨0x7F01100004 + n * 0x40, 0, 1, 0⟩
def Reg.ING_STR_CTRL_COMMIT (n : Nat) : Fld := ⟨0x7F01100004 + n * 0x40, 1, 1, 0⟩
def Reg.ING_STR_CTRL_QUAR_RELEASE (n : Nat) : Fld := ⟨0x7F01100004 + n * 0x40, 2, 1, 0⟩
def Reg.ING_STR_CTRL_QUAR_FORCE (n : Nat) : Fld := ⟨0x7F01100004 + n * 0x40, 3, 1, 0⟩
def Reg.ING_STR_SH_BASE (n : Nat) : Fld := ⟨0x7F01100008 + n * 0x40, 0, 64, 0⟩
def Reg.ING_STR_ACT_BASE (n : Nat) : Fld := ⟨0x7F01100010 + n * 0x40, 0, 64, 0⟩
def Reg.ING_STR_APPLY_APPLY_SEQ (n : Nat) : Fld := ⟨0x7F01100018 + n * 0x40, 0, 22, 0⟩
def Reg.ING_STR_APPLY_PENDING (n : Nat) : Fld := ⟨0x7F01100018 + n * 0x40, 22, 1, 0⟩
def Reg.ING_STR_RELEASE_SLOT (n : Nat) : Fld := ⟨0x7F0110001C + n * 0x40, 0, 6, 0⟩
def Reg.ING_STR_RELEASE_GEN (n : Nat) : Fld := ⟨0x7F0110001C + n * 0x40, 6, 1, 0⟩
def Reg.ING_STR_CNT_ITEMS (n : Nat) : Fld := ⟨0x7F01100020 + n * 0x40, 0, 32, 0⟩
def Reg.ING_STR_CNT_MISSING (n : Nat) : Fld := ⟨0x7F01100024 + n * 0x40, 0, 32, 0⟩
def Reg.ING_STR_CNT_EARLY (n : Nat) : Fld := ⟨0x7F01100028 + n * 0x40, 0, 32, 0⟩
def Reg.ING_STR_CNT_VIOL (n : Nat) : Fld := ⟨0x7F0110002C + n * 0x40, 0, 32, 0⟩
def Reg.ING_STR_CNT_DAMAGED (n : Nat) : Fld := ⟨0x7F01100030 + n * 0x40, 0, 32, 0⟩
def Reg.ING_STR_CNT_BAD (n : Nat) : Fld := ⟨0x7F01100034 + n * 0x40, 0, 32, 0⟩
def Reg.ING_STR_CNT_LATE (n : Nat) : Fld := ⟨0x7F01100038 + n * 0x40, 0, 32, 0⟩
def Reg.ING_STR_CNT_RING_FULL (n : Nat) : Fld := ⟨0x7F0110003C + n * 0x40, 0, 32, 0⟩
def Reg.ING_STR_ENTRY (n : Nat) (w : Nat) : Fld := ⟨0x7F01200000 + n * 0x40 + w * 0x4, 0, 32, 0⟩
def Reg.ING_CLS_ENTRY (n : Nat) (w : Nat) : Fld := ⟨0x7F01210000 + n * 0x40 + w * 0x4, 0, 32, 0⟩

/-! ### ISP (R227) -/

def Reg.ISP_PIPE_STATUS_BUSY (n : Nat) : Fld := ⟨0x7F02000100 + n * 0x20, 0, 1, 0⟩
def Reg.ISP_PIPE_STATUS_STREAM (n : Nat) : Fld := ⟨0x7F02000100 + n * 0x20, 1, 10, 0⟩
def Reg.ISP_PIPE_STATUS_CYCLE_POS (n : Nat) : Fld := ⟨0x7F02000100 + n * 0x20, 11, 6, 0⟩
def Reg.ISP_PIPE_CNT_JOBS (n : Nat) : Fld := ⟨0x7F02000104 + n * 0x20, 0, 32, 0⟩
def Reg.ISP_PIPE_CNT_IDLE (n : Nat) : Fld := ⟨0x7F02000108 + n * 0x20, 0, 32, 0⟩
def Reg.ISP_PIPE_CNT_LATE_START (n : Nat) : Fld := ⟨0x7F0200010C + n * 0x20, 0, 32, 0⟩
def Reg.ISP_PIPE_CNT_ABORT (n : Nat) : Fld := ⟨0x7F02000110 + n * 0x20, 0, 32, 0⟩
def Reg.ISP_STR_CTRL_COMMIT (n : Nat) : Fld := ⟨0x7F02010000 + n * 0x40, 0, 1, 0⟩
def Reg.ISP_STR_STATUS_COMMIT_ERROR (n : Nat) : Fld := ⟨0x7F02010004 + n * 0x40, 0, 1, 0⟩
def Reg.ISP_STR_STATUS_VERSIONS_FULL (n : Nat) : Fld := ⟨0x7F02010004 + n * 0x40, 1, 1, 0⟩
def Reg.ISP_STR_STATUS_VERSIONS (n : Nat) : Fld := ⟨0x7F02010004 + n * 0x40, 2, 3, 0⟩
def Reg.ISP_STR_STATUS_JOB_RUNNING (n : Nat) : Fld := ⟨0x7F02010004 + n * 0x40, 5, 1, 0⟩
def Reg.ISP_STR_STATUS_WAITING (n : Nat) : Fld := ⟨0x7F02010004 + n * 0x40, 6, 6, 0⟩
def Reg.ISP_STR_STATUS_OUT_NEXT (n : Nat) : Fld := ⟨0x7F02010004 + n * 0x40, 12, 6, 0⟩
def Reg.ISP_STR_APPLY_APPLY_SEQ (n : Nat) : Fld := ⟨0x7F02010008 + n * 0x40, 0, 22, 0⟩
def Reg.ISP_STR_APPLY_PENDING (n : Nat) : Fld := ⟨0x7F02010008 + n * 0x40, 22, 1, 0⟩
def Reg.ISP_STR_TAP_POINT (n : Nat) : Fld := ⟨0x7F0201000C + n * 0x40, 0, 4, 0⟩
def Reg.ISP_STR_TAP_SHIFT (n : Nat) : Fld := ⟨0x7F0201000C + n * 0x40, 4, 4, 0⟩
def Reg.ISP_STR_TAP_ARM (n : Nat) : Fld := ⟨0x7F0201000C + n * 0x40, 8, 1, 0⟩
def Reg.ISP_STR_TAP_ARMED (n : Nat) : Fld := ⟨0x7F0201000C + n * 0x40, 9, 1, 0⟩
def Reg.ISP_STR_TAP_DONE (n : Nat) : Fld := ⟨0x7F0201000C + n * 0x40, 10, 1, 0⟩
def Reg.ISP_STR_TAP_ERROR (n : Nat) : Fld := ⟨0x7F0201000C + n * 0x40, 11, 1, 0⟩
def Reg.ISP_STR_SH_SCR (n : Nat) : Fld := ⟨0x7F02010010 + n * 0x40, 0, 25, 0⟩
def Reg.ISP_STR_SH_OUT (n : Nat) : Fld := ⟨0x7F02010014 + n * 0x40, 0, 64, 0⟩
def Reg.ISP_STR_ACT_SCR (n : Nat) : Fld := ⟨0x7F0201001C + n * 0x40, 0, 32, 0⟩
def Reg.ISP_STR_ACT_OUT (n : Nat) : Fld := ⟨0x7F02010020 + n * 0x40, 0, 64, 0⟩
def Reg.ISP_STR_CNT_JOBS (n : Nat) : Fld := ⟨0x7F02010028 + n * 0x40, 0, 32, 0⟩
def Reg.ISP_STR_CNT_DIVERTED (n : Nat) : Fld := ⟨0x7F0201002C + n * 0x40, 0, 32, 0⟩
def Reg.ISP_STR_CNT_LINE_FILL (n : Nat) : Fld := ⟨0x7F02010030 + n * 0x40, 0, 32, 0⟩
def Reg.ISP_STR_CNT_CHECK_FAIL (n : Nat) : Fld := ⟨0x7F02010034 + n * 0x40, 0, 32, 0⟩
def Reg.ISP_STR_CNT_OUT_FULL (n : Nat) : Fld := ⟨0x7F02010038 + n * 0x40, 0, 32, 0⟩
def Reg.ISP_STR_CNT_ABORT (n : Nat) : Fld := ⟨0x7F0201003C + n * 0x40, 0, 32, 0⟩
def Reg.ISP_STR_PARAM (n : Nat) (w : Nat) : Fld := ⟨0x7F02080000 + n * 0x400 + w * 0x4, 0, 32, 0⟩

/-! ### PART (R111, R243, R446, R606, R632, R662, R671) -/

def Reg.TC_TURN_STATUS_MODE (p : Nat) : Fld := ⟨0x7F10000400 + p * 0x1000000, 0, 2, 0⟩
def Reg.TC_TURN_STATUS_LATE (p : Nat) : Fld := ⟨0x7F10000400 + p * 0x1000000, 2, 1, 0⟩
def Reg.TC_TURN_STATUS_DEADLINE (p : Nat) : Fld := ⟨0x7F10000400 + p * 0x1000000, 3, 1, 0⟩
def Reg.TC_TURN_STATUS_TEST_DEFERRED (p : Nat) : Fld := ⟨0x7F10000400 + p * 0x1000000, 4, 1, 0⟩
def Reg.TC_TURN_STATUS_TEST_OVERDUE (p : Nat) : Fld := ⟨0x7F10000400 + p * 0x1000000, 5, 1, 0⟩
def Reg.TC_TURN_NUMBER (p : Nat) : Fld := ⟨0x7F10000404 + p * 0x1000000, 0, 32, 0⟩
def Reg.TC_TURN_LAG (p : Nat) : Fld := ⟨0x7F10000408 + p * 0x1000000, 0, 30, 0⟩
def Reg.TC_TURN_LAG_MAX (p : Nat) : Fld := ⟨0x7F1000040C + p * 0x1000000, 0, 30, 0⟩
def Reg.TC_TURN_BUDGET (p : Nat) : Fld := ⟨0x7F10000410 + p * 0x1000000, 0, 32, 0⟩
def Reg.TC_TURN_WINDOW_REQ (p : Nat) : Fld := ⟨0x7F10000414 + p * 0x1000000, 0, 32, 0⟩
def Reg.TC_TURN_LC_END (p : Nat) : Fld := ⟨0x7F10000418 + p * 0x1000000, 0, 32, 0⟩
def Reg.TC_TURN_WINDOW_USED (p : Nat) : Fld := ⟨0x7F1000041C + p * 0x1000000, 0, 32, 0⟩
def Reg.TC_CNT_LATE_TURNS (p : Nat) : Fld := ⟨0x7F10000420 + p * 0x1000000, 0, 32, 0⟩
def Reg.TC_CNT_QS_TURNS (p : Nat) : Fld := ⟨0x7F10000424 + p * 0x1000000, 0, 32, 0⟩
def Reg.TC_CNT_QS_SKIPPED (p : Nat) : Fld := ⟨0x7F10000428 + p * 0x1000000, 0, 32, 0⟩
def Reg.TC_CNT_TEST_DEFER (p : Nat) : Fld := ⟨0x7F1000042C + p * 0x1000000, 0, 32, 0⟩
def Reg.TC_CNT_TEST_OVERDUE (p : Nat) : Fld := ⟨0x7F10000430 + p * 0x1000000, 0, 32, 0⟩
def Reg.TC_CNT_DEADLINE (p : Nat) : Fld := ⟨0x7F10000434 + p * 0x1000000, 0, 32, 0⟩
def Reg.TC_CNT_LATE_DISCARD (p : Nat) : Fld := ⟨0x7F10000438 + p * 0x1000000, 0, 32, 0⟩
def Reg.TC_CNT_SEAM_DMA_IN (p : Nat) : Fld := ⟨0x7F10000500 + p * 0x1000000, 0, 32, 0⟩
def Reg.TC_CNT_SEAM_DMA_OUT (p : Nat) : Fld := ⟨0x7F10000504 + p * 0x1000000, 0, 32, 0⟩
def Reg.TC_CNT_SEAM_POISON (p : Nat) : Fld := ⟨0x7F10000508 + p * 0x1000000, 0, 32, 0⟩
def Reg.TC_SEAM_LAST_SEAM (p : Nat) : Fld := ⟨0x7F1000050C + p * 0x1000000, 0, 4, 0⟩
def Reg.TC_SEAM_LAST_KIND (p : Nat) : Fld := ⟨0x7F1000050C + p * 0x1000000, 4, 2, 0⟩
def Reg.TC_SEAM_LAST_RETRIED (p : Nat) : Fld := ⟨0x7F1000050C + p * 0x1000000, 6, 1, 0⟩
def Reg.TC_SEAM_LAST_CLEARED (p : Nat) : Fld := ⟨0x7F1000050C + p * 0x1000000, 7, 1, 0⟩
def Reg.TC_SEAM_LAST_TAG (p : Nat) : Fld := ⟨0x7F10000510 + p * 0x1000000, 0, 32, 0⟩
def Reg.TC_SASH_BOX_COUNT (p : Nat) (n : Nat) : Fld := ⟨0x7F10000700 + p * 0x1000000 + n * 0x4, 0, 7, 0⟩
def Reg.TC_SASH_BOX_NEXT (p : Nat) (n : Nat) : Fld := ⟨0x7F10000700 + p * 0x1000000 + n * 0x4, 7, 6, 0⟩
def Reg.TC_SASH_BOX_DIR (p : Nat) (n : Nat) : Fld := ⟨0x7F10000700 + p * 0x1000000 + n * 0x4, 13, 1, 0⟩
def Reg.TC_SASH_BOX_LINK_UP (p : Nat) (n : Nat) : Fld := ⟨0x7F10000700 + p * 0x1000000 + n * 0x4, 14, 1, 0⟩
def Reg.TC_SASH_BOX_VALID (p : Nat) (n : Nat) : Fld := ⟨0x7F10000700 + p * 0x1000000 + n * 0x4, 15, 1, 0⟩
def Reg.TC_SASH_BOX_TOTAL (p : Nat) (n : Nat) : Fld := ⟨0x7F10000700 + p * 0x1000000 + n * 0x4, 16, 16, 0⟩
def Reg.TC_SASH_TURN_OFFSET (p : Nat) (n : Nat) : Fld := ⟨0x7F10000780 + p * 0x1000000 + n * 0x4, 0, 32, 0⟩
def Reg.TC_SCHED_STATUS_MODE (p : Nat) : Fld := ⟨0x7F10000800 + p * 0x1000000, 0, 2, 0⟩
def Reg.TC_SCHED_STATUS_RUNNING (p : Nat) : Fld := ⟨0x7F10000800 + p * 0x1000000, 2, 2, 0⟩
def Reg.TC_SCHED_STATUS_OPEN (p : Nat) : Fld := ⟨0x7F10000800 + p * 0x1000000, 4, 1, 0⟩
def Reg.TC_SCHED_STATUS_SAVED (p : Nat) : Fld := ⟨0x7F10000800 + p * 0x1000000, 5, 1, 0⟩
def Reg.TC_SCHED_STATUS_BE_RESIDENT (p : Nat) : Fld := ⟨0x7F10000800 + p * 0x1000000, 6, 1, 0⟩
def Reg.TC_SCHED_STATUS_WORK_FIFO (p : Nat) : Fld := ⟨0x7F10000800 + p * 0x1000000, 7, 7, 0⟩
def Reg.TC_SCHED_STATUS_OPEN_KIND (p : Nat) : Fld := ⟨0x7F10000800 + p * 0x1000000, 14, 2, 0⟩
def Reg.TC_SCHED_STATUS_OPEN_ROUTINE (p : Nat) : Fld := ⟨0x7F10000800 + p * 0x1000000, 16, 8, 0⟩
def Reg.TC_SCHED_ARG (p : Nat) : Fld := ⟨0x7F10000804 + p * 0x1000000, 0, 64, 0⟩
def Reg.TC_SCHED_ARG_BYTES (p : Nat) : Fld := ⟨0x7F1000080C + p * 0x1000000, 0, 24, 0⟩
def Reg.TC_SCHED_WORK_ROUTINE (p : Nat) : Fld := ⟨0x7F10000810 + p * 0x1000000, 0, 8, 0⟩
def Reg.TC_SCHED_WORK_CLASS (p : Nat) : Fld := ⟨0x7F10000810 + p * 0x1000000, 8, 2, 0⟩
def Reg.TC_SCHED_WORK_BATCH (p : Nat) : Fld := ⟨0x7F10000810 + p * 0x1000000, 16, 16, 0⟩
def Reg.TC_SCHED_DESC_TAG (p : Nat) : Fld := ⟨0x7F10000814 + p * 0x1000000, 0, 32, 0⟩
def Reg.TC_SCHED_WORK_Q (p : Nat) : Fld := ⟨0x7F10000818 + p * 0x1000000, 0, 14, 0⟩
def Reg.TC_SCHED_LAST_SWITCH (p : Nat) : Fld := ⟨0x7F1000081C + p * 0x1000000, 0, 32, 0⟩
def Reg.TC_SCHED_CNT_PREEMPT (p : Nat) : Fld := ⟨0x7F10000820 + p * 0x1000000, 0, 32, 0⟩
def Reg.TC_SCHED_CNT_FULL_SWITCH (p : Nat) : Fld := ⟨0x7F10000824 + p * 0x1000000, 0, 32, 0⟩
def Reg.TC_SCHED_CNT_OVERRUN (p : Nat) : Fld := ⟨0x7F10000828 + p * 0x1000000, 0, 32, 0⟩
def Reg.TC_SCHED_CNT_DISCARD (p : Nat) : Fld := ⟨0x7F1000082C + p * 0x1000000, 0, 32, 0⟩
def Reg.TC_SCHED_CNT_WORK_DONE (p : Nat) : Fld := ⟨0x7F10000830 + p * 0x1000000, 0, 32, 0⟩
def Reg.TC_SCHED_CNT_LAPSED (p : Nat) : Fld := ⟨0x7F10000834 + p * 0x1000000, 0, 32, 0⟩
def Reg.TC_HB_WRITE (p : Nat) : Fld := ⟨0x7F10000900 + p * 0x1000000, 0, 32, 0⟩
def Reg.TC_HB_STATUS_COUNT (p : Nat) : Fld := ⟨0x7F10000904 + p * 0x1000000, 0, 16, 0⟩
def Reg.TC_HB_STATUS_WATCHED (p : Nat) : Fld := ⟨0x7F10000904 + p * 0x1000000, 16, 1, 0⟩
def Reg.TC_HB_STATUS_HANG (p : Nat) : Fld := ⟨0x7F10000904 + p * 0x1000000, 17, 1, 0⟩
def Reg.TC_HB_STATUS_AGE (p : Nat) : Fld := ⟨0x7F10000904 + p * 0x1000000, 18, 9, 0⟩
def Reg.TC_RECOV_CTRL_RESET (p : Nat) : Fld := ⟨0x7F10000908 + p * 0x1000000, 0, 1, 0⟩
def Reg.TC_RECOV_STATUS_STATE (p : Nat) : Fld := ⟨0x7F1000090C + p * 0x1000000, 0, 3, 0⟩
def Reg.TC_RECOV_STATUS_HOLD (p : Nat) : Fld := ⟨0x7F1000090C + p * 0x1000000, 3, 1, 0⟩
def Reg.TC_RECOV_STATUS_RESTARTS (p : Nat) : Fld := ⟨0x7F1000090C + p * 0x1000000, 4, 2, 0⟩
def Reg.TC_RECOV_STATUS_SUSPECTS (p : Nat) : Fld := ⟨0x7F1000090C + p * 0x1000000, 6, 10, 0⟩
def Reg.TC_RECOV_STATUS_GUILTY (p : Nat) : Fld := ⟨0x7F1000090C + p * 0x1000000, 16, 2, 0⟩
def Reg.TC_RECOV_LAST_CAUSE (p : Nat) : Fld := ⟨0x7F10000910 + p * 0x1000000, 0, 8, 0⟩
def Reg.TC_RECOV_LAST_DURATION (p : Nat) : Fld := ⟨0x7F10000910 + p * 0x1000000, 16, 16, 0⟩
def Reg.TC_RECOV_CNT_HANG (p : Nat) : Fld := ⟨0x7F10000920 + p * 0x1000000, 0, 32, 0⟩
def Reg.TC_RECOV_CNT_RESET (p : Nat) : Fld := ⟨0x7F10000924 + p * 0x1000000, 0, 32, 0⟩
def Reg.TC_RECOV_CNT_RESTART (p : Nat) : Fld := ⟨0x7F10000928 + p * 0x1000000, 0, 32, 0⟩
def Reg.TC_RECOV_CNT_RESCUED (p : Nat) : Fld := ⟨0x7F1000092C + p * 0x1000000, 0, 32, 0⟩
def Reg.TC_RECOV_CNT_LOST (p : Nat) : Fld := ⟨0x7F10000930 + p * 0x1000000, 0, 32, 0⟩
def Reg.TC_RECOV_CNT_GUILTY (p : Nat) : Fld := ⟨0x7F10000934 + p * 0x1000000, 0, 32, 0⟩
def Reg.TC_RECOV_CNT_IGNORED (p : Nat) : Fld := ⟨0x7F10000938 + p * 0x1000000, 0, 32, 0⟩
def Reg.TC_PWR_STATUS (p : Nat) : Fld := ⟨0x7F10000A00 + p * 0x1000000, 0, 32, 0⟩
def Reg.TC_PWR_ENERGY (p : Nat) : Fld := ⟨0x7F10000A04 + p * 0x1000000, 0, 32, 0⟩
def Reg.TC_PWR_CNT_HINT (p : Nat) : Fld := ⟨0x7F10000A08 + p * 0x1000000, 0, 32, 0⟩
def Reg.TC_PWR_CNT_HINT_UNUSED (p : Nat) : Fld := ⟨0x7F10000A0C + p * 0x1000000, 0, 32, 0⟩
def Reg.TC_PWR_CNT_UNHINTED (p : Nat) : Fld := ⟨0x7F10000A10 + p * 0x1000000, 0, 32, 0⟩
def Reg.TC_DET_RUN (p : Nat) : Fld := ⟨0x7F10000B00 + p * 0x1000000, 0, 32, 0⟩
def Reg.TC_DET_FIRST_CAUSE (p : Nat) : Fld := ⟨0x7F10000B04 + p * 0x1000000, 0, 4, 0⟩
def Reg.TC_DET_FIRST_REPLAY (p : Nat) : Fld := ⟨0x7F10000B04 + p * 0x1000000, 4, 1, 0⟩
def Reg.TC_DET_FIRST_PC (p : Nat) : Fld := ⟨0x7F10000B04 + p * 0x1000000, 8, 20, 0⟩
def Reg.TC_DET_RUN_ID (p : Nat) : Fld := ⟨0x7F10000B08 + p * 0x1000000, 0, 32, 0⟩
def Reg.TC_DET_CNT (p : Nat) (n : Nat) : Fld := ⟨0x7F10000B10 + p * 0x1000000 + n * 0x4, 0, 32, 0⟩

/-! ### SEQ (R339) -/

def Reg.TC_SEQ_STATUS_STATE (p : Nat) : Fld := ⟨seqBase p, 0, 2, 0⟩
def Reg.TC_SEQ_STATUS_ROUTINE (p : Nat) : Fld := ⟨seqBase p, 2, 8, 0⟩
def Reg.TC_SEQ_STATUS_CLASS (p : Nat) : Fld := ⟨seqBase p, 10, 1, 0⟩
def Reg.TC_SEQ_PC (p : Nat) : Fld := ⟨seqBase p + 0x4, 0, 32, 0⟩
def Reg.TC_SEQ_ROUTINE_ID (p : Nat) : Fld := ⟨seqBase p + 0x8, 0, 32, 0⟩
def Reg.TC_SEQ_EXC_CODE (p : Nat) : Fld := ⟨seqBase p + 0xC, 0, 8, 0⟩
def Reg.TC_SEQ_EXC_ENGINE (p : Nat) : Fld := ⟨seqBase p + 0xC, 8, 3, 0⟩
def Reg.TC_SEQ_EXC_CLASS (p : Nat) : Fld := ⟨seqBase p + 0xC, 11, 1, 0⟩
def Reg.TC_SEQ_EXC_MULTIPLE (p : Nat) : Fld := ⟨seqBase p + 0xC, 12, 1, 0⟩
def Reg.TC_SEQ_EXC_NEW (p : Nat) : Fld := ⟨seqBase p + 0xC, 13, 1, 0⟩
def Reg.TC_SEQ_EXC_DETAIL (p : Nat) : Fld := ⟨seqBase p + 0xC, 16, 16, 0⟩
def Reg.TC_SEQ_EXC_PC (p : Nat) : Fld := ⟨seqBase p + 0x10, 0, 32, 0⟩
def Reg.TC_SEQ_EXC_TAG (p : Nat) : Fld := ⟨seqBase p + 0x14, 0, 32, 0⟩
def Reg.TC_SEQ_ITAG (p : Nat) : Fld := ⟨seqBase p + 0x18, 0, 32, 0⟩
def Reg.TC_SEQ_SEM (p : Nat) (n : Nat) : Fld := ⟨seqBase p + 0x20 + n * 0x4, 0, 32, 0⟩
def Reg.TC_SEQ_CNT_INSTR (p : Nat) : Fld := ⟨seqBase p + 0x60, 0, 32, 0⟩
def Reg.TC_SEQ_CNT_EXC (p : Nat) : Fld := ⟨seqBase p + 0x64, 0, 32, 0⟩
def Reg.TC_SEQ_CNT_HINT_DROP (p : Nat) : Fld := ⟨seqBase p + 0x68, 0, 32, 0⟩
def Reg.TC_SEQ_CNT_WAIT_CYC (p : Nat) : Fld := ⟨seqBase p + 0x6C, 0, 32, 0⟩
def Reg.TC_SEQ_FIFO_LEVEL_PCOMP (p : Nat) : Fld := ⟨seqBase p + 0x70, 0, 10, 0⟩
def Reg.TC_SEQ_FIFO_LEVEL_RITEM (p : Nat) : Fld := ⟨seqBase p + 0x70, 16, 10, 0⟩

/-! ### CORE (R275, R296, R497) -/

def Reg.TC_CORE_STATUS_RAMP_STATE (p : Nat) (k : Nat) : Fld := ⟨0x7F10040000 + p * 0x1000000 + k * 0x20000, 0, 2, 0⟩
def Reg.TC_CORE_STATUS_RAMP_STEP (p : Nat) (k : Nat) : Fld := ⟨0x7F10040000 + p * 0x1000000 + k * 0x20000, 2, 4, 0⟩
def Reg.TC_CORE_STATUS_MODE (p : Nat) (k : Nat) : Fld := ⟨0x7F10040000 + p * 0x1000000 + k * 0x20000, 6, 1, 0⟩
def Reg.TC_CORE_STATUS_IN_FLIGHT (p : Nat) (k : Nat) : Fld := ⟨0x7F10040000 + p * 0x1000000 + k * 0x20000, 7, 1, 0⟩
def Reg.TC_CORE_STATUS_QUEUED (p : Nat) (k : Nat) : Fld := ⟨0x7F10040000 + p * 0x1000000 + k * 0x20000, 8, 3, 0⟩
def Reg.TC_CORE_STATUS_VEC_BUSY (p : Nat) (k : Nat) : Fld := ⟨0x7F10040000 + p * 0x1000000 + k * 0x20000, 11, 1, 0⟩
def Reg.TC_CORE_CTRL_IDLE_HOLD (p : Nat) (k : Nat) : Fld := ⟨0x7F10040004 + p * 0x1000000 + k * 0x20000, 0, 16, 0x800⟩
def Reg.TC_CORE_CTRL_HOLD_WARM (p : Nat) (k : Nat) : Fld := ⟨0x7F10040004 + p * 0x1000000 + k * 0x20000, 16, 1, 0⟩
def Reg.TC_CORE_LAST_CYCLES (p : Nat) (k : Nat) : Fld := ⟨0x7F10040008 + p * 0x1000000 + k * 0x20000, 0, 32, 0⟩
def Reg.TC_CORE_LAST_WAIT (p : Nat) (k : Nat) : Fld := ⟨0x7F1004000C + p * 0x1000000 + k * 0x20000, 0, 32, 0⟩
def Reg.TC_CORE_WAIT_CAUSE_PREVIOUS (p : Nat) (k : Nat) : Fld := ⟨0x7F10040010 + p * 0x1000000 + k * 0x20000, 0, 1, 0⟩
def Reg.TC_CORE_WAIT_CAUSE_RAMP (p : Nat) (k : Nat) : Fld := ⟨0x7F10040010 + p * 0x1000000 + k * 0x20000, 1, 1, 0⟩
def Reg.TC_CORE_WAIT_CAUSE_NOT_READY (p : Nat) (k : Nat) : Fld := ⟨0x7F10040010 + p * 0x1000000 + k * 0x20000, 2, 1, 0⟩
def Reg.TC_CORE_WAIT_CAUSE_RESERVED (p : Nat) (k : Nat) : Fld := ⟨0x7F10040010 + p * 0x1000000 + k * 0x20000, 3, 1, 0⟩
def Reg.TC_CORE_CNT_ARRAY (p : Nat) (k : Nat) : Fld := ⟨0x7F10040020 + p * 0x1000000 + k * 0x20000, 0, 32, 0⟩
def Reg.TC_CORE_CNT_ARRAY_CYC (p : Nat) (k : Nat) : Fld := ⟨0x7F10040024 + p * 0x1000000 + k * 0x20000, 0, 32, 0⟩
def Reg.TC_CORE_CNT_WAIT_CYC (p : Nat) (k : Nat) : Fld := ⟨0x7F10040028 + p * 0x1000000 + k * 0x20000, 0, 32, 0⟩
def Reg.TC_CORE_CNT_RAMP_UP (p : Nat) (k : Nat) : Fld := ⟨0x7F1004002C + p * 0x1000000 + k * 0x20000, 0, 32, 0⟩
def Reg.TC_CORE_CNT_BALLAST_CYC (p : Nat) (k : Nat) : Fld := ⟨0x7F10040030 + p * 0x1000000 + k * 0x20000, 0, 32, 0⟩
def Reg.TC_CORE_CNT_VECTOR (p : Nat) (k : Nat) : Fld := ⟨0x7F10040034 + p * 0x1000000 + k * 0x20000, 0, 32, 0⟩
def Reg.TC_CORE_CNT_VECTOR_WAIT (p : Nat) (k : Nat) : Fld := ⟨0x7F10040038 + p * 0x1000000 + k * 0x20000, 0, 32, 0⟩
def Reg.TC_CORE_CNT_CLIP_OUT (p : Nat) (k : Nat) : Fld := ⟨0x7F10040040 + p * 0x1000000 + k * 0x20000, 0, 32, 0⟩
def Reg.TC_CORE_CNT_CLIP_ACC (p : Nat) (k : Nat) : Fld := ⟨0x7F10040044 + p * 0x1000000 + k * 0x20000, 0, 32, 0⟩
def Reg.TC_CORE_CNT_BX_FLUSH (p : Nat) (k : Nat) : Fld := ⟨0x7F10040048 + p * 0x1000000 + k * 0x20000, 0, 32, 0⟩
def Reg.TC_CORE_CNT_BX_SAT (p : Nat) (k : Nat) : Fld := ⟨0x7F1004004C + p * 0x1000000 + k * 0x20000, 0, 32, 0⟩
def Reg.TC_CORE_CNT_NONFINITE (p : Nat) (k : Nat) : Fld := ⟨0x7F10040050 + p * 0x1000000 + k * 0x20000, 0, 32, 0⟩
def Reg.TC_CORE_CNT_CLIP_VEC (p : Nat) (k : Nat) : Fld := ⟨0x7F10040054 + p * 0x1000000 + k * 0x20000, 0, 32, 0⟩
def Reg.TC_CORE_FMT_STICKY_CLIP_OUT (p : Nat) (k : Nat) : Fld := ⟨0x7F10040058 + p * 0x1000000 + k * 0x20000, 0, 1, 0⟩
def Reg.TC_CORE_FMT_STICKY_CLIP_ACC (p : Nat) (k : Nat) : Fld := ⟨0x7F10040058 + p * 0x1000000 + k * 0x20000, 1, 1, 0⟩
def Reg.TC_CORE_FMT_STICKY_BX_FLUSH (p : Nat) (k : Nat) : Fld := ⟨0x7F10040058 + p * 0x1000000 + k * 0x20000, 2, 1, 0⟩
def Reg.TC_CORE_FMT_STICKY_BX_SAT (p : Nat) (k : Nat) : Fld := ⟨0x7F10040058 + p * 0x1000000 + k * 0x20000, 3, 1, 0⟩
def Reg.TC_CORE_FMT_STICKY_NONFINITE (p : Nat) (k : Nat) : Fld := ⟨0x7F10040058 + p * 0x1000000 + k * 0x20000, 4, 1, 0⟩
def Reg.TC_CORE_FMT_STICKY_CLIP_VEC (p : Nat) (k : Nat) : Fld := ⟨0x7F10040058 + p * 0x1000000 + k * 0x20000, 5, 1, 0⟩
def Reg.TC_CORE_CHK_CTRL_TOL (p : Nat) (k : Nat) : Fld := ⟨0x7F10040080 + p * 0x1000000 + k * 0x20000, 0, 12, 0x40⟩
def Reg.TC_CORE_CHK_CTRL_LOCALISE (p : Nat) (k : Nat) : Fld := ⟨0x7F10040080 + p * 0x1000000 + k * 0x20000, 12, 1, 0⟩
def Reg.TC_CORE_CHK_STATUS_RESIDUE_ON (p : Nat) (k : Nat) : Fld := ⟨0x7F10040084 + p * 0x1000000 + k * 0x20000, 0, 1, 0⟩
def Reg.TC_CORE_CHK_STATUS_RESIDUE_CAUSE (p : Nat) (k : Nat) : Fld := ⟨0x7F10040084 + p * 0x1000000 + k * 0x20000, 1, 2, 0⟩
def Reg.TC_CORE_CHK_STATUS_CHECK_BYPASSED (p : Nat) (k : Nat) : Fld := ⟨0x7F10040084 + p * 0x1000000 + k * 0x20000, 3, 1, 0⟩
def Reg.TC_CORE_CHK_STATUS_MISMATCH (p : Nat) (k : Nat) : Fld := ⟨0x7F10040084 + p * 0x1000000 + k * 0x20000, 4, 1, 0⟩
def Reg.TC_CORE_CNT_CHK_TILES (p : Nat) (k : Nat) : Fld := ⟨0x7F10040090 + p * 0x1000000 + k * 0x20000, 0, 32, 0⟩
def Reg.TC_CORE_CNT_CHK_FAIL (p : Nat) (k : Nat) : Fld := ⟨0x7F10040094 + p * 0x1000000 + k * 0x20000, 0, 32, 0⟩
def Reg.TC_CORE_CNT_RES_FAIL (p : Nat) (k : Nat) : Fld := ⟨0x7F10040098 + p * 0x1000000 + k * 0x20000, 0, 32, 0⟩
def Reg.TC_CORE_CNT_DRAIN_FAIL (p : Nat) (k : Nat) : Fld := ⟨0x7F1004009C + p * 0x1000000 + k * 0x20000, 0, 32, 0⟩
def Reg.TC_CORE_CNT_VEC_FAIL (p : Nat) (k : Nat) : Fld := ⟨0x7F100400A0 + p * 0x1000000 + k * 0x20000, 0, 32, 0⟩
def Reg.TC_CORE_CNT_RES_CYC (p : Nat) (k : Nat) : Fld := ⟨0x7F100400A4 + p * 0x1000000 + k * 0x20000, 0, 32, 0⟩

/-! ### SCR (R370) -/

def Reg.SCR_STATUS_WIPING (p : Nat) : Fld := ⟨0x7F10080000 + p * 0x1000000, 0, 1, 0⟩
def Reg.SCR_STATUS_HELD (p : Nat) : Fld := ⟨0x7F10080000 + p * 0x1000000, 1, 1, 0⟩
def Reg.SCR_STATUS_DEFAULT_MAP (p : Nat) : Fld := ⟨0x7F10080000 + p * 0x1000000, 2, 1, 1⟩
def Reg.SCR_STATUS_WSCRUB (p : Nat) : Fld := ⟨0x7F10080000 + p * 0x1000000, 3, 1, 0⟩
def Reg.SCR_STATUS_ASCRUB (p : Nat) : Fld := ⟨0x7F10080000 + p * 0x1000000, 4, 1, 0⟩
def Reg.SCR_STATUS_REGIONS0 (p : Nat) : Fld := ⟨0x7F10080000 + p * 0x1000000, 5, 6, 0x30⟩
def Reg.SCR_STATUS_REGIONS1 (p : Nat) : Fld := ⟨0x7F10080000 + p * 0x1000000, 11, 6, 0x30⟩
def Reg.SCR_FORENSIC_RELEASE (p : Nat) : Fld := ⟨0x7F10080004 + p * 0x1000000, 0, 1, 0⟩
def Reg.SCR_FORENSIC_TIMED_OUT (p : Nat) : Fld := ⟨0x7F10080004 + p * 0x1000000, 1, 1, 0⟩
def Reg.SCR_FORENSIC_HOLD_MS (p : Nat) : Fld := ⟨0x7F10080004 + p * 0x1000000, 16, 16, 0⟩
def Reg.SCR_ERR_ADDR_PSA (p : Nat) : Fld := ⟨0x7F10080008 + p * 0x1000000, 0, 26, 0⟩
def Reg.SCR_ERR_ADDR_WEIGHT (p : Nat) : Fld := ⟨0x7F10080008 + p * 0x1000000, 26, 1, 0⟩
def Reg.SCR_ERR_ADDR_POISONED (p : Nat) : Fld := ⟨0x7F10080008 + p * 0x1000000, 27, 1, 0⟩
def Reg.SCR_WEIGHT (p : Nat) (n : Nat) : Fld := ⟨0x7F10080010 + p * 0x1000000 + n * 0x8, 0, 64, 0⟩
/-- The lease code of one bank (R351): 9, unleased, after a partition reset. -/
def Reg.SCR_LEASE (p k bank : Nat) : Fld := ⟨0x7F10080020 + p * 0x1000000 + k * 0x20 + bank / 8 * 4, bank % 8 * 4, 4, 9⟩
def Reg.SCR_CNT_CE (p : Nat) : Fld := ⟨0x7F10080060 + p * 0x1000000, 0, 32, 0⟩
def Reg.SCR_CNT_UE (p : Nat) : Fld := ⟨0x7F10080064 + p * 0x1000000, 0, 32, 0⟩
def Reg.SCR_CNT_POISON_READ (p : Nat) : Fld := ⟨0x7F10080068 + p * 0x1000000, 0, 32, 0⟩
def Reg.SCR_CNT_WSCRUB_PASS (p : Nat) : Fld := ⟨0x7F1008006C + p * 0x1000000, 0, 32, 0⟩
def Reg.SCR_CNT_ASCRUB_PASS (p : Nat) : Fld := ⟨0x7F10080070 + p * 0x1000000, 0, 32, 0⟩
def Reg.SCR_CNT_SCRUB_SKIP (p : Nat) : Fld := ⟨0x7F10080074 + p * 0x1000000, 0, 32, 0⟩
def Reg.SCR_CNT_WIPES (p : Nat) : Fld := ⟨0x7F10080078 + p * 0x1000000, 0, 32, 0⟩
def Reg.SCR_CNT_H_REFUSED (p : Nat) : Fld := ⟨0x7F1008007C + p * 0x1000000, 0, 32, 0⟩
def Reg.SCR_CNT_LEASE_DIVERT (p : Nat) : Fld := ⟨0x7F10080080 + p * 0x1000000, 0, 32, 0⟩
def Reg.SCR_CNT_FORENSIC (p : Nat) : Fld := ⟨0x7F10080084 + p * 0x1000000, 0, 32, 0⟩
def Reg.SCR_READY (p : Nat) (k : Nat) (w : Nat) (i : Nat) : Fld := ⟨0x7F10081000 + p * 0x1000000 + k * 0x400 + w * 0x4, i, 1, 0⟩
def Reg.SCR_HELD (p : Nat) (k : Nat) (w : Nat) (i : Nat) : Fld := ⟨0x7F10081800 + p * 0x1000000 + k * 0x400 + w * 0x4, i, 1, 0⟩
def Reg.SCR_MAP_GRANULE_FIRST (p : Nat) (k : Nat) (r : Nat) : Fld := ⟨0x7F10082000 + p * 0x1000000 + k * 0x200 + r * 0x8, 0, 16, 0⟩
def Reg.SCR_MAP_GRANULE_COUNT (p : Nat) (k : Nat) (r : Nat) : Fld := ⟨0x7F10082000 + p * 0x1000000 + k * 0x200 + r * 0x8, 16, 16, 0⟩
def Reg.SCR_MAP_BANK_FIRST (p : Nat) (k : Nat) (r : Nat) : Fld := ⟨0x7F10082000 + p * 0x1000000 + k * 0x200 + r * 0x8, 32, 8, 0⟩
def Reg.SCR_MAP_BANK_COUNT (p : Nat) (k : Nat) (r : Nat) : Fld := ⟨0x7F10082000 + p * 0x1000000 + k * 0x200 + r * 0x8, 40, 8, 0⟩
def Reg.SCR_MAP_WORD_FIRST (p : Nat) (k : Nat) (r : Nat) : Fld := ⟨0x7F10082000 + p * 0x1000000 + k * 0x200 + r * 0x8, 48, 16, 0⟩

/-! ### KV (R414) -/

def Reg.KV_STATUS_ENABLED (p : Nat) : Fld := ⟨0x7F100C0000 + p * 0x1000000, 0, 1, 0⟩
def Reg.KV_STATUS_ROLLFWD (p : Nat) : Fld := ⟨0x7F100C0000 + p * 0x1000000, 1, 1, 0⟩
def Reg.KV_STATUS_LOW_WATER (p : Nat) : Fld := ⟨0x7F100C0000 + p * 0x1000000, 2, 1, 0⟩
def Reg.KV_STATUS_MSG_BACKLOG (p : Nat) : Fld := ⟨0x7F100C0000 + p * 0x1000000, 3, 1, 0⟩
def Reg.KV_STATUS_LAB_VALID (p : Nat) : Fld := ⟨0x7F100C0000 + p * 0x1000000, 4, 7, 0⟩
def Reg.KV_STATUS_POOL_EPOCH (p : Nat) : Fld := ⟨0x7F100C0000 + p * 0x1000000, 11, 12, 0⟩
def Reg.KV_POOL_FREE (p : Nat) : Fld := ⟨0x7F100C0004 + p * 0x1000000, 0, 24, 0⟩
def Reg.KV_POOL_TFREE (p : Nat) : Fld := ⟨0x7F100C0008 + p * 0x1000000, 0, 24, 0⟩
def Reg.KV_POOL_LOW (p : Nat) : Fld := ⟨0x7F100C000C + p * 0x1000000, 0, 24, 0⟩
def Reg.KV_REMOTE_TIMEOUT (p : Nat) : Fld := ⟨0x7F100C0010 + p * 0x1000000, 0, 16, 0x3E8⟩
def Reg.KV_CMD_CMD (p : Nat) : Fld := ⟨0x7F100C0020 + p * 0x1000000, 0, 4, 0⟩
def Reg.KV_ARG (p : Nat) (n : Nat) : Fld := ⟨0x7F100C0024 + p * 0x1000000 + n * 0x4, 0, 32, 0⟩
def Reg.KV_CMD_STATUS_STATE (p : Nat) : Fld := ⟨0x7F100C0034 + p * 0x1000000, 0, 2, 0⟩
def Reg.KV_CMD_STATUS_REFUSED (p : Nat) : Fld := ⟨0x7F100C0034 + p * 0x1000000, 2, 1, 0⟩
def Reg.KV_CMD_STATUS_REASON (p : Nat) : Fld := ⟨0x7F100C0034 + p * 0x1000000, 16, 16, 0⟩
def Reg.KV_RES (p : Nat) (n : Nat) : Fld := ⟨0x7F100C0040 + p * 0x1000000 + n * 0x4, 0, 32, 0⟩
def Reg.KV_FAULT_LAST_REASON (p : Nat) : Fld := ⟨0x7F100C0050 + p * 0x1000000, 0, 16, 0⟩
def Reg.KV_FAULT_LAST_HANDLE (p : Nat) : Fld := ⟨0x7F100C0050 + p * 0x1000000, 16, 12, 0⟩
def Reg.KV_CNT_LAB_HIT (p : Nat) : Fld := ⟨0x7F100C0060 + p * 0x1000000, 0, 32, 0⟩
def Reg.KV_CNT_LAB_MISS (p : Nat) : Fld := ⟨0x7F100C0064 + p * 0x1000000, 0, 32, 0⟩
def Reg.KV_CNT_COPY (p : Nat) : Fld := ⟨0x7F100C0068 + p * 0x1000000, 0, 32, 0⟩
def Reg.KV_CNT_ALLOC (p : Nat) : Fld := ⟨0x7F100C006C + p * 0x1000000, 0, 32, 0⟩
def Reg.KV_CNT_FREED (p : Nat) : Fld := ⟨0x7F100C0070 + p * 0x1000000, 0, 32, 0⟩
def Reg.KV_CNT_FAULT (p : Nat) : Fld := ⟨0x7F100C0074 + p * 0x1000000, 0, 32, 0⟩
def Reg.KV_CNT_FETCH (p : Nat) : Fld := ⟨0x7F100C0078 + p * 0x1000000, 0, 32, 0⟩
def Reg.KV_CNT_MSG_OUT (p : Nat) : Fld := ⟨0x7F100C007C + p * 0x1000000, 0, 32, 0⟩
def Reg.KV_CNT_ROLLFWD (p : Nat) : Fld := ⟨0x7F100C0080 + p * 0x1000000, 0, 32, 0⟩

/-! ### MEM (R464) -/

def Reg.MEM_STATUS_STATE (ch : Nat) : Fld := ⟨0x7F20000000 + ch * 0x10000, 0, 3, 0⟩
def Reg.MEM_STATUS_REFRESH_2X (ch : Nat) : Fld := ⟨0x7F20000000 + ch * 0x10000, 3, 1, 0⟩
def Reg.MEM_STATUS_CALIBRATING (ch : Nat) : Fld := ⟨0x7F20000000 + ch * 0x10000, 4, 1, 0⟩
def Reg.MEM_STATUS_CAL_OVERDUE (ch : Nat) : Fld := ⟨0x7F20000000 + ch * 0x10000, 5, 1, 0⟩
def Reg.MEM_STATUS_SCRUB_STARVED (ch : Nat) : Fld := ⟨0x7F20000000 + ch * 0x10000, 6, 1, 0⟩
def Reg.MEM_STATUS_CE_BURST (ch : Nat) : Fld := ⟨0x7F20000000 + ch * 0x10000, 7, 1, 0⟩
def Reg.MEM_TEMP (ch : Nat) : Fld := ⟨0x7F20000004 + ch * 0x10000, 0, 8, 0⟩
def Reg.MEM_CAL_AGE (ch : Nat) : Fld := ⟨0x7F20000008 + ch * 0x10000, 0, 20, 0⟩
def Reg.MEM_ERR_ADDR (ch : Nat) : Fld := ⟨0x7F20000010 + ch * 0x10000, 0, 40, 0⟩
def Reg.MEM_ERR_INFO_PC (ch : Nat) : Fld := ⟨0x7F20000018 + ch * 0x10000, 0, 1, 0⟩
def Reg.MEM_ERR_INFO_POISONED (ch : Nat) : Fld := ⟨0x7F20000018 + ch * 0x10000, 1, 1, 0⟩
def Reg.MEM_ERR_INFO_BY_SCRUB (ch : Nat) : Fld := ⟨0x7F20000018 + ch * 0x10000, 2, 1, 0⟩
def Reg.MEM_ERR_INFO_NEW (ch : Nat) : Fld := ⟨0x7F20000018 + ch * 0x10000, 3, 1, 0⟩
def Reg.MEM_CNT_CE (ch : Nat) : Fld := ⟨0x7F20000020 + ch * 0x10000, 0, 32, 0⟩
def Reg.MEM_CNT_UE (ch : Nat) : Fld := ⟨0x7F20000024 + ch * 0x10000, 0, 32, 0⟩
def Reg.MEM_CNT_POISON_READ (ch : Nat) : Fld := ⟨0x7F20000028 + ch * 0x10000, 0, 32, 0⟩
def Reg.MEM_CNT_SCRUB_PASS (ch : Nat) : Fld := ⟨0x7F2000002C + ch * 0x10000, 0, 32, 0⟩
def Reg.MEM_CNT_SCRUB_FIX (ch : Nat) : Fld := ⟨0x7F20000030 + ch * 0x10000, 0, 32, 0⟩
def Reg.MEM_CNT_CAL (ch : Nat) : Fld := ⟨0x7F20000034 + ch * 0x10000, 0, 32, 0⟩
def Reg.MEM_CNT_CAL_OVERDUE (ch : Nat) : Fld := ⟨0x7F20000038 + ch * 0x10000, 0, 32, 0⟩
def Reg.MEM_CNT_SELF_REFRESH (ch : Nat) : Fld := ⟨0x7F2000003C + ch * 0x10000, 0, 32, 0⟩

/-! ### SASH (R443) -/

def Reg.SASH_STATUS_STATE (l : Nat) : Fld := ⟨0x7F30000000 + l * 0x100000, 0, 3, 0⟩
def Reg.SASH_STATUS_PHASE (l : Nat) : Fld := ⟨0x7F30000000 + l * 0x100000, 3, 3, 0⟩
def Reg.SASH_STATUS_HALT_REASON (l : Nat) : Fld := ⟨0x7F30000000 + l * 0x100000, 6, 4, 0⟩
def Reg.SASH_STATUS_SKEW_ALARM (l : Nat) : Fld := ⟨0x7F30000000 + l * 0x100000, 10, 1, 0⟩
def Reg.SASH_STATUS_SKEW_EVENT (l : Nat) : Fld := ⟨0x7F30000000 + l * 0x100000, 11, 1, 0⟩
def Reg.SASH_STATUS_SESSION_CHANGED (l : Nat) : Fld := ⟨0x7F30000000 + l * 0x100000, 12, 1, 0⟩
def Reg.SASH_CTRL_RETRAIN (l : Nat) : Fld := ⟨0x7F30000004 + l * 0x100000, 0, 1, 0⟩
def Reg.SASH_CTRL_UNFENCE (l : Nat) : Fld := ⟨0x7F30000004 + l * 0x100000, 1, 1, 0⟩
def Reg.SASH_CTRL_HOLD (l : Nat) : Fld := ⟨0x7F30000004 + l * 0x100000, 2, 1, 0⟩
def Reg.SASH_PEER_PACKAGE (l : Nat) : Fld := ⟨0x7F30000008 + l * 0x100000, 0, 3, 0⟩
def Reg.SASH_PEER_LINK (l : Nat) : Fld := ⟨0x7F30000008 + l * 0x100000, 3, 2, 0⟩
def Reg.SASH_PEER_SESSION (l : Nat) : Fld := ⟨0x7F3000000C + l * 0x100000, 0, 32, 0⟩
def Reg.SASH_SESSION (l : Nat) : Fld := ⟨0x7F30000010 + l * 0x100000, 0, 32, 0⟩
def Reg.SASH_LANE_LOCK_BLOCK (l : Nat) : Fld := ⟨0x7F30000014 + l * 0x100000, 0, 8, 0⟩
def Reg.SASH_LANE_LOCK_MARKER (l : Nat) : Fld := ⟨0x7F30000014 + l * 0x100000, 8, 8, 0⟩
def Reg.SASH_LANE_MAP (l : Nat) : Fld := ⟨0x7F30000018 + l * 0x100000, 0, 24, 0⟩
def Reg.SASH_DESKEW (l : Nat) : Fld := ⟨0x7F3000001C + l * 0x100000, 0, 6, 0⟩
def Reg.SASH_LINK_DELAY (l : Nat) : Fld := ⟨0x7F30000020 + l * 0x100000, 0, 32, 0⟩
def Reg.SASH_TURN_OFFSET (l : Nat) : Fld := ⟨0x7F30000024 + l * 0x100000, 0, 32, 0⟩
def Reg.SASH_TURN_SKEW (l : Nat) : Fld := ⟨0x7F30000028 + l * 0x100000, 0, 32, 0⟩
def Reg.SASH_TIME_DIFF (l : Nat) : Fld := ⟨0x7F3000002C + l * 0x100000, 0, 32, 0⟩
def Reg.SASH_CNT_RETRAIN (l : Nat) : Fld := ⟨0x7F30000040 + l * 0x100000, 0, 32, 0⟩
def Reg.SASH_CNT_DROP (l : Nat) : Fld := ⟨0x7F30000044 + l * 0x100000, 0, 32, 0⟩
def Reg.SASH_CNT_BIP_ERR (l : Nat) : Fld := ⟨0x7F30000048 + l * 0x100000, 0, 32, 0⟩
def Reg.SASH_CNT_MARKER_BAD (l : Nat) : Fld := ⟨0x7F3000004C + l * 0x100000, 0, 32, 0⟩
def Reg.SASH_CNT_CAND_REJECT (l : Nat) : Fld := ⟨0x7F30000050 + l * 0x100000, 0, 32, 0⟩
def Reg.SASH_CNT_ROW_ERR (l : Nat) : Fld := ⟨0x7F30000054 + l * 0x100000, 0, 32, 0⟩
def Reg.SASH_CNT_CRC_NAK (l : Nat) : Fld := ⟨0x7F30000058 + l * 0x100000, 0, 32, 0⟩
def Reg.SASH_CNT_REPLAY_ROWS (l : Nat) : Fld := ⟨0x7F3000005C + l * 0x100000, 0, 32, 0⟩
def Reg.SASH_CNT_PAGES_SERVED (l : Nat) : Fld := ⟨0x7F30000060 + l * 0x100000, 0, 32, 0⟩
def Reg.SASH_CNT_SLOTS_SENT (l : Nat) : Fld := ⟨0x7F30000064 + l * 0x100000, 0, 32, 0⟩
def Reg.SASH_CNT_SLOTS_RECV (l : Nat) : Fld := ⟨0x7F30000068 + l * 0x100000, 0, 32, 0⟩
def Reg.SASH_CNT_SLOTS_LOST (l : Nat) : Fld := ⟨0x7F3000006C + l * 0x100000, 0, 32, 0⟩
def Reg.SASH_CNT_BAD_POST (l : Nat) : Fld := ⟨0x7F30000070 + l * 0x100000, 0, 32, 0⟩
def Reg.SASH_CNT_STALE (l : Nat) : Fld := ⟨0x7F30000074 + l * 0x100000, 0, 32, 0⟩

/-! ### HOST (R587, R40) -/

def Reg.HOST_STATUS_SPEED : Fld := ⟨0x7F40000000, 0, 4, 0⟩
def Reg.HOST_STATUS_WIDTH : Fld := ⟨0x7F40000000, 4, 5, 0⟩
def Reg.HOST_STATUS_NUMVFS : Fld := ⟨0x7F40000000, 9, 6, 0⟩
def Reg.HOST_STATUS_VF_ENABLE : Fld := ⟨0x7F40000000, 15, 1, 0⟩
def Reg.HOST_STATUS_NVME_READY : Fld := ⟨0x7F40000000, 16, 1, 0⟩
def Reg.HOST_VF_RESETTING : Fld := ⟨0x7F40000010, 0, 64, 0⟩
def Reg.HOST_SAF_REQUEST_ACTION : Fld := ⟨0x7F40000020, 0, 8, 0⟩
def Reg.HOST_SAF_REQUEST_TOKEN : Fld := ⟨0x7F40000020, 16, 16, 0⟩
def Reg.HOST_CNT_UR : Fld := ⟨0x7F40000030, 0, 32, 0⟩
def Reg.HOST_CNT_ERRLOG_LOST : Fld := ⟨0x7F40000034, 0, 32, 0⟩
def Reg.HOST_CNT_RESET_VF : Fld := ⟨0x7F40000038, 0, 32, 0⟩
def Reg.HOST_CNT_EVENT_LOST : Fld := ⟨0x7F4000003C, 0, 32, 0⟩
def Reg.HOST_BAR2_XLAT_PF_PAGE (n : Nat) : Fld := ⟨0x7F40040000 + n * 0x4, 0, 16, 0⟩
def Reg.HOST_BAR2_XLAT_PF_WRITE (n : Nat) : Fld := ⟨0x7F40040000 + n * 0x4, 30, 1, 0⟩
def Reg.HOST_BAR2_XLAT_PF_VALID (n : Nat) : Fld := ⟨0x7F40040000 + n * 0x4, 31, 1, 0⟩
def Reg.HOST_BAR2_XLAT_VF_PAGE (v : Nat) (n : Nat) : Fld := ⟨0x7F40060000 + v * 0x800 + n * 0x4, 0, 16, 0⟩
def Reg.HOST_BAR2_XLAT_VF_WRITE (v : Nat) (n : Nat) : Fld := ⟨0x7F40060000 + v * 0x800 + n * 0x4, 30, 1, 0⟩
def Reg.HOST_BAR2_XLAT_VF_VALID (v : Nat) (n : Nat) : Fld := ⟨0x7F40060000 + v * 0x800 + n * 0x4, 31, 1, 0⟩
def Reg.HOST_HC_CTRL_RESET : Fld := ⟨0x7F40080000, 0, 16, 0⟩
def Reg.HOST_HC_QPEND (c : Nat) (w : Nat) (i : Nat) : Fld := ⟨0x7F40081000 + c * 0x800 + w * 0x4, i, 1, 0⟩

/-! ### QUEUE (R583) -/

def Reg.HOST_Q_CFG_OWNER (q : Nat) : Fld := ⟨0x7F41000000 + q * 0x40, 0, 8, 0⟩
def Reg.HOST_Q_CFG_KIND (q : Nat) : Fld := ⟨0x7F41000000 + q * 0x40, 8, 3, 0⟩
def Reg.HOST_Q_CFG_PARTITION (q : Nat) : Fld := ⟨0x7F41000000 + q * 0x40, 11, 3, 0⟩
def Reg.HOST_Q_CFG_WORK (q : Nat) : Fld := ⟨0x7F41000000 + q * 0x40, 14, 1, 0⟩
def Reg.HOST_Q_CFG_LOCATION (q : Nat) : Fld := ⟨0x7F41000000 + q * 0x40, 15, 1, 0⟩
def Reg.HOST_Q_CFG_STORAGE (q : Nat) : Fld := ⟨0x7F41000000 + q * 0x40, 16, 1, 0⟩
def Reg.HOST_Q_CTRL_ENABLE (q : Nat) : Fld := ⟨0x7F41000004 + q * 0x40, 0, 1, 0⟩
def Reg.HOST_Q_CTRL_SIZE_LOG2 (q : Nat) : Fld := ⟨0x7F41000004 + q * 0x40, 1, 5, 0⟩
def Reg.HOST_Q_STATUS_STATE (q : Nat) : Fld := ⟨0x7F41000008 + q * 0x40, 0, 2, 0⟩
def Reg.HOST_Q_STATUS_ERROR (q : Nat) : Fld := ⟨0x7F41000008 + q * 0x40, 2, 4, 0⟩
def Reg.HOST_Q_STATUS_BAD_INDEX (q : Nat) : Fld := ⟨0x7F41000008 + q * 0x40, 6, 1, 0⟩
def Reg.HOST_Q_STATUS_RESERVED (q : Nat) : Fld := ⟨0x7F41000008 + q * 0x40, 7, 18, 0⟩
def Reg.HOST_Q_IRQ_VECTOR (q : Nat) : Fld := ⟨0x7F4100000C + q * 0x40, 0, 11, 0⟩
def Reg.HOST_Q_IRQ_IRQ_EN (q : Nat) : Fld := ⟨0x7F4100000C + q * 0x40, 11, 1, 0⟩
def Reg.HOST_Q_IRQ_COUNT (q : Nat) : Fld := ⟨0x7F4100000C + q * 0x40, 12, 8, 1⟩
def Reg.HOST_Q_IRQ_TIME (q : Nat) : Fld := ⟨0x7F4100000C + q * 0x40, 20, 12, 0⟩
def Reg.HOST_Q_BASE (q : Nat) : Fld := ⟨0x7F41000010 + q * 0x40, 0, 64, 0⟩
def Reg.HOST_Q_PAY (q : Nat) : Fld := ⟨0x7F41000018 + q * 0x40, 0, 64, 0⟩
def Reg.HOST_Q_PROD (q : Nat) : Fld := ⟨0x7F41000020 + q * 0x40, 0, 32, 0⟩
def Reg.HOST_Q_CONS (q : Nat) : Fld := ⟨0x7F41000024 + q * 0x40, 0, 32, 0⟩
def Reg.HOST_Q_SPILL_USED (q : Nat) : Fld := ⟨0x7F41000028 + q * 0x40, 0, 17, 0⟩
def Reg.HOST_Q_CNT_NOT_OPENED (q : Nat) : Fld := ⟨0x7F4100002C + q * 0x40, 0, 32, 0⟩
def Reg.HOST_Q_CNT_PLACED (q : Nat) : Fld := ⟨0x7F41000030 + q * 0x40, 0, 32, 0⟩

/-! ### LOCK (R590) -/

def Reg.LOCK_CMD_CMD (n : Nat) : Fld := ⟨0x7F42000000 + n * 0x10, 0, 2, 0⟩
def Reg.LOCK_STATE_HOLDER (n : Nat) : Fld := ⟨0x7F42000004 + n * 0x10, 0, 8, 0⟩
def Reg.LOCK_STATE_ABANDONED (n : Nat) : Fld := ⟨0x7F42000004 + n * 0x10, 8, 1, 0⟩
def Reg.LOCK_STATE_OWNER (n : Nat) : Fld := ⟨0x7F42000004 + n * 0x10, 16, 8, 0⟩
def Reg.LOCK_CNT_ABANDONED : Fld := ⟨0x7F42004000, 0, 32, 0⟩

/-! ### SAF (R500, R541) -/

def Reg.SAF_STATUS_STATE : Fld := ⟨0x7F50000000, 0, 2, 2⟩
def Reg.SAF_STATUS_SAFE_N : Fld := ⟨0x7F50000000, 2, 1, 0⟩
def Reg.SAF_STATUS_HB_OUT : Fld := ⟨0x7F50000000, 3, 1, 0⟩
def Reg.SAF_STATUS_ISLAND_MODE : Fld := ⟨0x7F50000000, 4, 2, 0⟩
def Reg.SAF_STATUS_FENCED_CORE : Fld := ⟨0x7F50000000, 6, 2, 0⟩
def Reg.SAF_STATUS_STARTUP_DONE : Fld := ⟨0x7F50000000, 8, 1, 0⟩
def Reg.SAF_STATUS_PARTNER_OK : Fld := ⟨0x7F50000000, 9, 1, 0⟩
def Reg.SAF_STATUS_EXIT_PENDING : Fld := ⟨0x7F50000000, 10, 1, 0⟩
def Reg.SAF_STATUS_EXIT_TOKEN : Fld := ⟨0x7F50000000, 16, 16, 0⟩
def Reg.SAF_CAUSE_SAFE_CAUSE : Fld := ⟨0x7F50000004, 0, 8, 1⟩
def Reg.SAF_CAUSE_DEGRADE : Fld := ⟨0x7F50000004, 8, 5, 0⟩
def Reg.SAF_FATAL_PATH : Fld := ⟨0x7F50000008, 0, 32, 0⟩
def Reg.SAF_LOG_SEQ : Fld := ⟨0x7F5000000C, 0, 32, 0⟩
def Reg.SAF_LAST_FATAL_SEQ : Fld := ⟨0x7F50000010, 0, 32, 0⟩
def Reg.SAF_CNT_SAFE_ENTRIES : Fld := ⟨0x7F50000020, 0, 32, 0⟩
def Reg.SAF_CNT_DEGRADE : Fld := ⟨0x7F50000024, 0, 32, 0⟩
def Reg.SAF_CNT_RESYNC : Fld := ⟨0x7F50000028, 0, 32, 0⟩
def Reg.SAF_CNT_EXIT_REFUSED : Fld := ⟨0x7F5000002C, 0, 32, 0⟩
def Reg.SAF_CNT_ALIVE : Fld := ⟨0x7F50000030, 0, 32, 0⟩
def Reg.SAF_CNT_TEST_FAIL : Fld := ⟨0x7F50000034, 0, 32, 0⟩
def Reg.SAF_CALLER_LAST_REASON : Fld := ⟨0x7F50000100, 0, 4, 0⟩
def Reg.SAF_CALLER_LAST_DISAGREE : Fld := ⟨0x7F50000100, 4, 15, 0⟩
def Reg.SAF_CALLER_LAST_TAG : Fld := ⟨0x7F50000104, 0, 32, 0⟩
def Reg.SAF_CALLER_CNT_ACCEPTED : Fld := ⟨0x7F50000110, 0, 32, 0⟩
def Reg.SAF_CALLER_CNT_REJ_COUNT : Fld := ⟨0x7F50000114, 0, 32, 0⟩
def Reg.SAF_CALLER_CNT_REJ_REGION : Fld := ⟨0x7F50000118, 0, 32, 0⟩
def Reg.SAF_CALLER_CNT_MISS_MAIN : Fld := ⟨0x7F5000011C, 0, 32, 0⟩
def Reg.SAF_CALLER_CNT_MISS_PARTNER : Fld := ⟨0x7F50000120, 0, 32, 0⟩
def Reg.SAF_CALLER_CNT_LATE_GRID : Fld := ⟨0x7F50000124, 0, 32, 0⟩
def Reg.SAF_CALLER_CNT_CRC_FAIL : Fld := ⟨0x7F50000128, 0, 32, 0⟩
def Reg.SAF_CALLER_CNT_SAFE_STATE : Fld := ⟨0x7F5000012C, 0, 32, 0⟩
def Reg.SAF_ETH_STATUS_STATE (n : Nat) : Fld := ⟨0x7F50000200 + n * 0x20, 0, 2, 0⟩
def Reg.SAF_ETH_STATUS_TIME_PORT (n : Nat) : Fld := ⟨0x7F50000200 + n * 0x20, 2, 1, 0⟩
def Reg.SAF_ETH_CNT_TX (n : Nat) : Fld := ⟨0x7F50000204 + n * 0x20, 0, 32, 0⟩
def Reg.SAF_ETH_CNT_RX_DISCARD (n : Nat) : Fld := ⟨0x7F50000208 + n * 0x20, 0, 32, 0⟩
def Reg.SAF_ETH_CNT_ARP (n : Nat) : Fld := ⟨0x7F5000020C + n * 0x20, 0, 32, 0⟩
def Reg.SAF_SPARE_MAP_S0_IN_USE : Fld := ⟨0x7F50000400, 0, 1, 0⟩
def Reg.SAF_SPARE_MAP_S0_PART : Fld := ⟨0x7F50000400, 1, 2, 0⟩
def Reg.SAF_SPARE_MAP_S0_CORE : Fld := ⟨0x7F50000400, 3, 1, 0⟩
def Reg.SAF_SPARE_MAP_S0_FAILED : Fld := ⟨0x7F50000400, 4, 1, 0⟩
def Reg.SAF_SPARE_MAP_S1_IN_USE : Fld := ⟨0x7F50000400, 8, 1, 0⟩
def Reg.SAF_SPARE_MAP_S1_PART : Fld := ⟨0x7F50000400, 9, 2, 0⟩
def Reg.SAF_SPARE_MAP_S1_CORE : Fld := ⟨0x7F50000400, 11, 1, 0⟩
def Reg.SAF_SPARE_MAP_S1_FAILED : Fld := ⟨0x7F50000400, 12, 1, 0⟩
def Reg.SAF_SUSPECT_VSTEP (n : Nat) : Fld := ⟨0x7F50000404 + n * 0x4, 0, 2, 0⟩
def Reg.SAF_SUSPECT_FSTEP (n : Nat) : Fld := ⟨0x7F50000404 + n * 0x4, 2, 1, 0⟩
def Reg.SAF_SUSPECT_FSKIPPED (n : Nat) : Fld := ⟨0x7F50000404 + n * 0x4, 3, 1, 0⟩
def Reg.SAF_SUSPECT_RETIRED (n : Nat) : Fld := ⟨0x7F50000404 + n * 0x4, 4, 2, 0⟩
def Reg.SAF_SUSPECT_HALTED (n : Nat) : Fld := ⟨0x7F50000404 + n * 0x4, 6, 1, 0⟩
def Reg.SAF_SUSPECT_PERMANENT (n : Nat) : Fld := ⟨0x7F50000404 + n * 0x4, 8, 8, 0⟩
def Reg.SAF_SUSPECT_TRANSIENT (n : Nat) : Fld := ⟨0x7F50000404 + n * 0x4, 16, 8, 0⟩
def Reg.SAF_MARGIN_CTRL_PERIOD_S : Fld := ⟨0x7F50000424, 0, 16, 0xE10⟩
def Reg.SAF_MARGIN_CTRL_ENABLE : Fld := ⟨0x7F50000424, 16, 1, 1⟩
def Reg.SAF_MARGIN_STATUS_NEXT : Fld := ⟨0x7F50000428, 0, 4, 0⟩
def Reg.SAF_MARGIN_STATUS_RUNNING : Fld := ⟨0x7F50000428, 4, 1, 0⟩
def Reg.SAF_MARGIN_STATUS_WAITING_TEMP : Fld := ⟨0x7F50000428, 5, 1, 0⟩
def Reg.SAF_HOT_REC_HOTTEST (n : Nat) : Fld := ⟨0x7F50000430 + n * 0x4, 0, 8, 0⟩
def Reg.SAF_HOT_REC_LAST_TEMP (n : Nat) : Fld := ⟨0x7F50000430 + n * 0x4, 8, 8, 0⟩
def Reg.SAF_HOT_REC_LAST_PASS (n : Nat) : Fld := ⟨0x7F50000430 + n * 0x4, 16, 1, 0⟩
def Reg.SAF_HOT_REC_LAST_COOL (n : Nat) : Fld := ⟨0x7F50000430 + n * 0x4, 17, 1, 0⟩

/-! ### PWR (R659) -/

def Reg.PWR_STATUS_CAP_PENDING : Fld := ⟨0x7F60000000, 0, 1, 0⟩
def Reg.PWR_STATUS_CAP_ERROR : Fld := ⟨0x7F60000000, 1, 1, 0⟩
def Reg.PWR_STATUS_CAP_HOLD : Fld := ⟨0x7F60000000, 2, 1, 0⟩
def Reg.PWR_STATUS_CAP_UNMET : Fld := ⟨0x7F60000000, 3, 1, 0⟩
def Reg.PWR_STATUS_OVER_LIMIT : Fld := ⟨0x7F60000000, 4, 1, 0⟩
def Reg.PWR_STATUS_FORCED_SLOW : Fld := ⟨0x7F60000000, 5, 1, 0⟩
def Reg.PWR_STATUS_SHUTDOWN : Fld := ⟨0x7F60000000, 6, 1, 0⟩
def Reg.PWR_CAP : Fld := ⟨0x7F60000004, 0, 9, 0⟩
def Reg.PWR_POWER : Fld := ⟨0x7F60000008, 0, 32, 0⟩
def Reg.PWR_POWER_CTL : Fld := ⟨0x7F6000000C, 0, 32, 0⟩
def Reg.PWR_ENERGY_PKG : Fld := ⟨0x7F60000010, 0, 64, 0⟩
def Reg.PWR_HC_POINT_POINT : Fld := ⟨0x7F60000018, 0, 2, 0⟩
def Reg.PWR_HC_POINT_CAP_LEVEL : Fld := ⟨0x7F60000018, 2, 2, 0⟩
def Reg.PWR_HC_POINT_THERM_LEVEL : Fld := ⟨0x7F60000018, 4, 2, 0⟩
def Reg.PWR_CNT_CAP_STEPS : Fld := ⟨0x7F60000020, 0, 32, 0⟩
def Reg.PWR_CNT_THROTTLE_STEPS : Fld := ⟨0x7F60000024, 0, 32, 0⟩
def Reg.PWR_CNT_CAP_HOLD : Fld := ⟨0x7F60000028, 0, 32, 0⟩
def Reg.PWR_CNT_MARGIN_EXH : Fld := ⟨0x7F6000002C, 0, 32, 0⟩
def Reg.PWR_TEMP_C (n : Nat) : Fld := ⟨0x7F60000100 + n * 0x4, 0, 8, 0⟩
def Reg.PWR_TEMP_FAILED (n : Nat) : Fld := ⟨0x7F60000100 + n * 0x4, 8, 1, 0⟩
def Reg.PWR_PART_STATUS_POINT (p : Nat) : Fld := ⟨0x7F60001000 + p * 0x1000, 0, 3, 0⟩
def Reg.PWR_PART_STATUS_CAP_LEVEL (p : Nat) : Fld := ⟨0x7F60001000 + p * 0x1000, 3, 3, 0⟩
def Reg.PWR_PART_STATUS_THERM_LEVEL (p : Nat) : Fld := ⟨0x7F60001000 + p * 0x1000, 6, 3, 0⟩
def Reg.PWR_PART_STATUS_CHANGING (p : Nat) : Fld := ⟨0x7F60001000 + p * 0x1000, 9, 1, 0⟩
def Reg.PWR_PART_STATUS_LIGHT (p : Nat) : Fld := ⟨0x7F60001000 + p * 0x1000, 10, 1, 0⟩
def Reg.PWR_PART_STATUS_WINDOW (p : Nat) : Fld := ⟨0x7F60001000 + p * 0x1000, 11, 1, 0⟩
def Reg.PWR_PART_STATUS_TRIM_MV (p : Nat) : Fld := ⟨0x7F60001000 + p * 0x1000, 12, 6, 0⟩
def Reg.PWR_PART_STATUS_TRIM_HELD (p : Nat) : Fld := ⟨0x7F60001000 + p * 0x1000, 18, 1, 0⟩
def Reg.PWR_PART_STATUS_THROTTLED (p : Nat) : Fld := ⟨0x7F60001000 + p * 0x1000, 19, 1, 0⟩
def Reg.PWR_PART_RAIL_V_SET (p : Nat) : Fld := ⟨0x7F60001004 + p * 0x1000, 0, 10, 0⟩
def Reg.PWR_PART_RAIL_MEASURED (p : Nat) : Fld := ⟨0x7F60001004 + p * 0x1000, 16, 10, 0⟩
def Reg.PWR_PART_CURRENT (p : Nat) : Fld := ⟨0x7F60001008 + p * 0x1000, 0, 16, 0⟩
def Reg.PWR_PART_AGE (p : Nat) : Fld := ⟨0x7F6000100C + p * 0x1000, 0, 8, 0⟩
def Reg.PWR_PART_E_SERVICE (p : Nat) : Fld := ⟨0x7F60001010 + p * 0x1000, 0, 64, 0⟩
def Reg.PWR_PART_E_RECOVERY (p : Nat) : Fld := ⟨0x7F60001018 + p * 0x1000, 0, 64, 0⟩
def Reg.PWR_PART_E_IDLE (p : Nat) : Fld := ⟨0x7F60001020 + p * 0x1000, 0, 64, 0⟩
def Reg.PWR_PART_E_TOTAL (p : Nat) : Fld := ⟨0x7F60001028 + p * 0x1000, 0, 64, 0⟩
def Reg.PWR_PART_E_ROUTINE (p : Nat) (r : Nat) : Fld := ⟨0x7F60001800 + p * 0x1000 + r * 0x8, 0, 64, 0⟩

/-! ### PTN (R544) -/

def Reg.PTN_STATUS_STATE : Fld := ⟨0x7F70000000, 0, 2, 0⟩
def Reg.PTN_STATUS_TEST_PASS : Fld := ⟨0x7F70000000, 2, 1, 0⟩
def Reg.PTN_STATUS_ROUTINE_RUNNING : Fld := ⟨0x7F70000000, 3, 1, 0⟩
def Reg.PTN_STATUS_CLOCK_DEV : Fld := ⟨0x7F70000000, 16, 16, 0⟩
def Reg.PTN_CNT_RUNS : Fld := ⟨0x7F70000010, 0, 32, 0⟩
def Reg.PTN_CNT_FAULTS : Fld := ⟨0x7F70000014, 0, 32, 0⟩
def Reg.PTN_CNT_DROPS : Fld := ⟨0x7F70000018, 0, 32, 0⟩
def Reg.PTN_CNT_LATE_GRIDS : Fld := ⟨0x7F7000001C, 0, 32, 0⟩

/-! ### PTNSEQ (R544, R339) -/


end Sys2Proof.Machine
end

