-- ==== Sys2Proof/Machine/State.lean ====
section
/-!
DEFINITION. The state of the part as plain data: the register file, memories, and every queue, engine, timer and pin
the spec gives it, with the state after reset. A structure's fields start at their reset values.
-/

namespace Sys2Proof.Machine

/-! ### Items and records -/

/-- STATUS codes of a record (R630). -/
inductive Status where
  | ok | late | failedFault | failedData | failedReset | failedDeadline | invalidSafe | skippedQuickstep | resetVf
deriving DecidableEq, Repr, Inhabited

/-- The status fixed for an item, before it is decided (R628): with the payload and user fields of its RESULT (R332). -/
structure Fixed where
  status    : Status := .ok
  reason    : Nat := 0
  userFlags : Nat := 0
  userWord  : Nat := 0
  payload   : List Byte := []
deriving DecidableEq, Repr, Inhabited

/-- An item that ingress opened and that has no final record yet (R153, R627). -/
structure Item where
  stream    : Nat := 0
  seq       : Nat := 0
  part      : Nat := 0
  routine   : Nat := 0
  lc        : Bool := false   -- its stream is latency-critical
  safety    : Bool := false   -- its stream has SAFETY set (R523)
  range     : Bool := false
  queue     : Nat := 0        -- RESULT_QUEUE, where it holds a reservation (R555)
  stamp     : Nat := 0
  stampTq   : Nat := 0
  deadline  : Nat := 0        -- R105
  itemFlags : Nat := 0        -- R175
  ispFlags  : Nat := 0        -- R207
  slot      : Nat := 0        -- raw slot and ring generation (R161, R166)
  gen       : Nat := 0
  slotAddr  : Nat := 0
  scr       : Nat := 0        -- scratch offset of its tensor, and the turn of its job, once a job has placed it (R204, R615)
  jobTurn   : Nat := 0
  hasSlot   : Bool := false   -- its raw slot is not FREE yet
  closed    : Bool := false   -- its frame has closed (R169)
  handed    : Bool := false   -- ingress has handed it on (R160)
  turnEnd   : Option Nat := none  -- the turn deadline, once its grid tick has occurred (R105)
  turnOf    : Option Nat := none  -- the turn in which its routine is placed
  fixed     : Option Fixed := none
  verdict   : Option Bool := none -- the Caller's verdict: accepted or not (R523)
  orphan    : Bool := false   -- its reservation lies on a ring whose function was reset (R575)
deriving DecidableEq, Repr, Inhabited

/-- A decided record on its way to its ring (R556, R561). KIND 0 item, 1 completion, 2 event. -/
structure Rec where
  queue     : Nat := 0
  kind      : Nat := 0
  tag       : Nat := 0
  fixed     : Fixed := {}
  itemFlags : Nat := 0
  ispFlags  : Nat := 0
  stamp     : Nat := 0
  stampTq   : Nat := 0
  decided   : Nat := 0
  decidedTq : Nat := 0
  turn      : Nat := 0
  descTag   : Nat := 0
  step      : Nat := 0        -- bytes 0x28 to 0x2F of an EVENT entry (R563)
  spilled   : Bool := false
  orphan    : Bool := false   -- decided for a ring whose function was reset (R575)
deriving DecidableEq, Repr, Inhabited

/-! ### Rings and functions -/

/-- A fetched descriptor (R558) with its ring index. -/
structure Desc where
  ring    : Nat := 0
  index   : Nat := 0
  opcode  : Nat := 0
  flags   : Nat := 0
  tag     : Nat := 0
  a       : Nat := 0
  b       : Nat := 0
  bytes   : Nat := 0
  c       : Nat := 0
  reserved : Bool := false    -- some reserved byte or bit is not zero
  started : Bool := false
  done    : Nat := 0          -- bytes moved so far (R560)
  nvmeNext : Nat := 0         -- bytes for which NVMe commands have been issued, and offset and length of those not completed (R568)
  nvmeOpen : List (Nat × Nat) := []
  nvmeStatus : Nat := 0       -- status field of the first failing command (R569)
  nvmeBad  : Bool := false
  cancelled : Bool := false   -- its function was reset (R574)
deriving DecidableEq, Repr, Inhabited

/-- What a ring holds beside its context registers (R551 to R556, R566). -/
structure Ring where
  k         : Nat := 0        -- SIZE_LOG2, BASE and payload base latched at enable (R551)
  base      : Nat := 0
  pay       : Nat := 0
  spill     : List Rec := []
  fetched   : List Desc := [] -- fetched and not completed, oldest first
  unsignalled : Nat := 0      -- placements since the last signal (R566)
  firstPlaced : Option Nat := none
  notOpened : Bool := false   -- an episode of R555 is logged
  lost      : Bool := false   -- it has moved to ERROR with BUS_MASTER and has not been enabled since (R553)
deriving DecidableEq, Repr, Inhabited

/-- What a PCIe function holds (R545 to R547, R574): function 0 is the PF, v is VF v. -/
structure Func where
  busMaster : Bool := false
  d3hot     : Bool := false
  resetting : Bool := false
  msixPending : List Nat := []  -- vectors withheld or masked, pending (R566, R545)
  msixTab   : List (Nat × Nat) := [] -- words of the MSI-X table; a vector's control word starts masked
  resetAt   : Nat := 0        -- start of its reset
deriving DecidableEq, Repr, Inhabited

/-! ### Error log (R485, R533, R540) -/

/-- One error record, field by field as R485 lays it out; `detail` is its 16 bytes from 0x2C. -/
structure LogRec where
  seq       : Nat := 0
  path      : Nat := 0
  source    : Nat := 0
  fatal     : Bool := false
  cls       : Nat := 0
  tq        : Nat := 0
  count     : Nat := 0
  routineId : Nat := 0
  instrAddr : Nat := 0
  opcode    : Nat := 0
  seam      : Nat := 0
  exc       : Nat := 0
  tempC     : Nat := 0
  railMv    : Nat := 0
  detail16  : Nat := 0
  tag       : Nat := 0
  time      : Nat := 0
  turn      : Nat := 0
  detail    : List Byte := []
deriving DecidableEq, Repr, Inhabited

/-! ### What leaves the part -/

/-- What the part sends or answers; the state keeps it newest first. -/
inductive Output where
  | readData (who : Requester) (w : Nat)           -- a register read's answer
  | readBytes (who : Requester) (bs : List Byte)   -- a memory read's data
  | readPoisoned (who : Requester) (n : Nat)       -- n bytes of a memory read marked damaged: EP on PCIe, a failed verdict to an engine (R456)
  | busError (who : Requester)                     -- to an internal master (R12, R34)
  | unsupported (who : Requester)                  -- Unsupported Request to a PCIe requester (R12, R34, R41)
  | retryStatus (who : Requester)                  -- Configuration Request Retry Status (R48)
  | busWrite (owner addr : Nat) (bs : List Byte)   -- a posted write into a function's bus space (R552)
  | msix (fn vector : Nat)                         -- an MSI-X message (R566)
  | safetyFrame (port : Nat) (payload : List Byte) -- UDP payload on a safety port (R527, R528)
  | ethFrame (port : Nat) (bs : List Byte)         -- a frame a port sends: ARP, PTP
  | sashRow (l kind : Nat) (fields : List Nat)     -- a control row (R425); kind is its type
  | sashFrame (l vc kind seq : Nat) (fields : List Nat) (data : List Byte) -- a frame (R435)
  | hcSignal (p : Nat)                             -- the walker of PART[p] signals the host cluster (R403)
  | marker (l lane : Nat) (fields : List Nat)      -- a marker block (R427)
  | cciStart (port : Nat) (cmd : Nat)              -- an I2C transfer over an A-PHY port (R187)
  | gpio (port n time : Nat) (rise : Bool)         -- a TRIG edge forwarded to a camera's GPIO (R186)
  | ptp (port kind seq : Nat) (time : Int) (clockClass : Nat) -- kind 1 Sync, 2 Follow_Up, 3 Pdelay_Req, 4 Pdelay_Resp, 6 Announce
  | pulse (ball start width : Nat)               -- a pulse of TRIG[ball], or of PPS_OUT for 32
  | jtag (bs : List Byte)
  | smbus (bs : List Byte)                         -- Block Read data (R693)
  | smbusNack
  | nvme (cmd : Nat) (nsid lba blocks addr : Nat)  -- an NVMe command issued (R568)
  | flashOp (copy : Nat)                           -- an erase, program or read-back operation starts (R88)
  | debugBusy                                      -- the replay buffer is full (R532)
  | debugEvent                                     -- the session's event register (R532)
deriving DecidableEq, Repr


/-! ### Fuses, loader and pattern (ch. 02) -/

/-- The fuses (R2, R55, R76, R77, R80). They outlast every reset. -/
structure Fuses where
  grade     : Nat := 0           -- 0 FK8-1024X, 1 FK8-1024L, 2 FK8-0512S
  lifecycle : Nat := 0           -- 0 DEVELOPMENT, 1 PRODUCTION, 2 RETURNED; any other code encodes no state
  sv        : Nat := 0           -- security-version fuses blown
  keyHash   : List (Nat × Nat) := []  -- SHA-384 of the public key of each fused customer slot
  revoked   : List Nat := []
  vendorHash : Option Nat := none
  uid       : Nat := 0
deriving DecidableEq, Repr, Inhabited

/-- One section of an applied or staged container (R51, R56). -/
structure Sec where
  type     : Nat := 0
  instnc   : Nat := 0
  offset   : Nat := 0
  bytes    : List Byte := []
deriving DecidableEq, Repr, Inhabited

/-- An alteration on its way (R69 to R74). -/
inductive AlterStage where
  | none | staging | pending | resetting
deriving DecidableEq, Repr, Inhabited

/-- The pattern loader (R46 to R90). -/
structure Loader where
  flashHalf  : Option Nat := none  -- half the density SFDP reports
  copy       : Nat := 0            -- container being read: 0 none, 1 flash primary, 2 flash secondary, 3 mailbox
  cmd        : Nat := 0            -- mailbox command running (code of R85), 0 none
  cmdLen     : Nat := 0            -- PAT_MBX_LEN when it began
  prev       : Nat := 0            -- PAT_STATUS.STATE before a LOAD_FULL
  header     : List Byte := []     -- header of the applied base pattern
  sections   : List Sec := []      -- sections of the applied base pattern, alterations included
  store      : List Byte := []     -- container a STORE is writing
  alter      : AlterStage := .none
  altSecs    : List Sec := []
  altNamed   : List Nat := []
  altLeft    : List Nat := []      -- named partitions whose reset has not completed
  trained    : Bool := false       -- HBM training completed
  hostfwDone : Bool := false       -- the HOSTFW copy has been checked, or the pattern has none (R63)
  hcUp       : Bool := false       -- the host cluster is out of reset (R63, R655)
  passed     : List Nat := []      -- PRELOAD entries whose check passed
  failed     : List Nat := []      -- PRELOAD entries that failed
  reload     : Bool := false       -- a RELOAD_FULL between its first checks and its end
  releasedAt : Nat := 0            -- time of PORST_n release, for PAT_BOOT (R81)
  testHold   : Bool := false       -- TEST_EN read high at release (R678)
  challenge  : Option Nat := none  -- challenge of the debug port (R78)
  hold       : Option Nat := none  -- when the 1 s hold after a failed attempt began
  sessionSlot : Nat := 0
  extest     : Bool := false       -- EXTEST selected (R79)
deriving DecidableEq, Repr, Inhabited

/-! ### Time (ch. 04) -/

/-- A step on its way (R129). -/
structure StepPending where
  amount : Int := 0            -- the offset to be removed: the counter jumps by minus this
  atTime : Nat := 0            -- the instant, in old time, at which it takes effect
  source : Nat := 0            -- the source that the offset was measured against: 1 PTP, 2 PPS_IN
deriving DecidableEq, Repr, Inhabited

/-- The time unit beside its registers (R113 to R130). -/
structure TimeUnit where
  frac       : Nat := 0        -- fraction of a nanosecond, in units of 2^-32 (R113)
  resid      : Nat := 0        -- what the rate correction has not yet added to it, in units of 2^-32 × 10^-12 ns
  disciplined : Bool := false  -- a source has disciplined the time since the base pattern was applied
  offset     : Int := 0        -- offset being removed by slewing, in units of 10^-4 ns (R128)
  rate       : Int := 0        -- last disciplined rate, in units of 0.001 ppb
  step       : Option StepPending := none
  reanchorAt : Option Nat := none -- first whole second of new time after a step (R129)
  oldShift   : Int := 0        -- new time less old time while outputs keep the old cadence (R129)
  lastTick   : Nat := 0        -- latest grid tick, moved with each step (R94)
  gridShift  : Int := 0        -- new time less old time while grid ticks keep the old phase (R94)
  gridAnchor : Option Nat := none -- first whole second of new time, while the grid waits for it (R94)
  master     : Option Nat := none -- clockIdentity of the best master
  masterRank : Nat := 0        -- its priority vector, lower is better
  syncs      : Nat := 0        -- Sync exchanges from it since it became the best master or PTP was lost
  pdelayDone : Bool := false
  pdelay     : Int := 0        -- peer delay of the time port, ns
  pdelayT1   : Option Nat := none -- departure of our Pdelay_Req
  pendingSync : Option (Nat × Int × Int) := none -- two-step Sync: sequence, arrival, correction
  search     : Bool := false   -- search for a master under way (R122)
  ppsRun     : Nat := 0        -- consecutive edges 1 s apart while PPS_IN is absent (R119)
  lastEdge   : Option Nat := none -- last PPS_IN edge, and the last one accepted
  lastPps    : Option Nat := none
  outliers   : List Nat := []  -- instants of consecutive outliers, newest first (R136)
  txSeq      : Nat := 0        -- sequence of the messages sent
deriving DecidableEq, Repr, Inhabited

/-- Settings of one TRIG output (R131, R132, R140). MODE 0 off, 1 periodic, 2 one-shot. -/
structure TrigSet where
  mode  : Nat := 0
  pol   : Bool := false
  rate  : Nat := 0
  phase : Nat := 0
  width : Nat := 0
  start : Nat := 0
deriving DecidableEq, Repr, Inhabited

/-- One TRIG output (R131 to R135). -/
structure Trig where
  active  : TrigSet := {}
  pending : Option TrigSet := none
  applyAt : Nat := 0           -- whole second at which the pending settings take effect
  armed   : Bool := false      -- a one-shot that has not fired
  level   : Bool := false      -- the ball, relative to its inactive level
  lastPulse : Option Nat := none
  notBefore : Nat := 0         -- earliest pulse of a train that has re-anchored (R129)
deriving DecidableEq, Repr, Inhabited

/-- One capture of EVT_IN (R137). -/
structure Capture where
  time : Nat := 0
  tq   : Nat := 0
  rise : Bool := false
deriving DecidableEq, Repr, Inhabited

/-- One EVT_IN input. -/
structure EvtIn where
  fifo : List Capture := []
  last : Option Nat := none    -- time of the last captured edge
deriving DecidableEq, Repr, Inhabited

/-! ### Turns of one partition (ch. 03, 19) -/

/-- Where a partition's turn stands. -/
inductive TurnPhase where
  | idle | window | open
deriving DecidableEq, Repr, Inhabited

/-- The turn of one partition (R93 to R106, R591 to R593). -/
structure PTurn where
  begun    : Bool := false     -- it has had a partition tick
  tick     : Nat := 0          -- s[n]
  grid     : Nat := 0          -- g[n]
  ext      : Nat := 0          -- x[n] of R103
  lcEnd    : Nat := 0          -- lc_end[n]
  phase    : TurnPhase := .idle
  windowEnd : Nat := 0
  quick    : Bool := false
  lcTodo   : List Nat := []    -- latency-critical routines still to start, in the order of R591
  lcDone   : Bool := true      -- the turn's latency-critical work has ended (R622)
  beDue    : List Nat := []    -- best-effort stream routines due and not yet started (R593)
  margin   : Bool := false     -- a margin test takes what is left of the window (R494)
  pendWin  : Bool := false     -- the window waits for a reset or a pre-emption to end (R604, R621)
  gticks   : List (Nat × Nat) := []  -- grid ticks not yet taken, with their turn numbers
  deferred : List (Nat × Nat) := []  -- periodic test rows deferred, with the turn of the deferral (R99)
  overdue  : List Nat := []
  deadlined : Bool := false    -- the episode of R106 has raised its fault
  waiting  : Bool := true      -- WAITERS of a WHEN 1 blob keep its routines from starting (R62)
deriving DecidableEq, Repr, Inhabited


/-! ### Sequencers and engines (ch. 10, 19, 20) -/

/-- An instruction in an engine's queue, with the copies it took at dispatch (R304). -/
structure EngOp where
  opcode : Nat := 0
  word   : Nat := 0                 -- bits [55:0] of the instruction
  descs  : List (BitVec 512) := []  -- the descriptors it names, in the order of its form
  vals   : List Nat := []           -- the scalar values it names
  pc     : Nat := 0
  tag    : Nat := 0                 -- current item tag at dispatch
  rid    : Nat := 0                 -- ROUTINE_ID
  waited : Nat := 0                 -- causes that held it at the head (R278)
  unhinted : Bool := false          -- it waited for the rail (R647)
  headAt : Option Nat := none       -- time at which it reached the head of its queue and could not issue
  issued : Nat := 0                 -- time of its issue, and when it completes
  ends   : Nat := 0
  cycles : Nat := 0                 -- its exact cycle count
deriving DecidableEq, Repr, Inhabited

/-- One engine: its queue, oldest first, and what it has in flight, in order of issue (R304, R269, R273). -/
structure Engine where
  queue  : List EngOp := []
  flight : List EngOp := []
deriving DecidableEq, Repr, Inhabited

/-- An entry of a completion, notice or chunk FIFO: the two 64-bit words PCOMP, RITEM or PIN returns (R330, R338). -/
structure Notice where
  tag : Nat := 0
  lo  : Nat := 0
  hi  : Nat := 0
deriving DecidableEq, Repr, Inhabited

/-- A routine a sequencer runs. KIND 0 latency-critical, 1 best-effort stream routine, 2 WORK, 3 Partner. -/
structure Run where
  index : Nat := 0
  kind  : Nat := 0
  id    : Nat := 0            -- ROUTINE_ID
  base  : Nat := 0            -- instruction-memory address of its first instruction
  code  : Nat := 0            -- CODE_BYTES
  const : Nat := 0            -- CONST_BYTES
  entry : Nat := 0
  high  : Bool := false       -- HIGH_INTEGRITY
  replayOf : Option Nat := none -- the suspect of a replay run (R624)
deriving DecidableEq, Repr, Inhabited

/-- A sequencer beside its registers (R303, R304): of PART[p] for 0 to 7, of the Partner engine for 8. -/
structure Seq where
  s       : List (Nat × DWord) := []
  t       : List (Nat × BitVec 512) := []
  waiting : Option (Nat × Nat) := none  -- opcode and word of an instruction that waits
  waitAt  : Nat := 0                    -- since when
  excAt   : Option Nat := none          -- time of its last exception (R336)
  ended   : Bool := false               -- END executed, queues draining
  run     : Option Run := none
  taken   : List Notice := []           -- entries PCOMP and RITEM took in this run, in order (R613)
  results : List Nat := []              -- tags whose RESULT has been dispatched and not committed
  commits : List Nat := []              -- tags whose RESULT committed in this run
  grids   : List Nat := []              -- tags whose grid this run has posted
  kvFirst : List Nat := []              -- tags whose first temporal KVLD has run (R665)
deriving DecidableEq, Repr, Inhabited

/-- What a core holds beside its registers: its ramp timer, when its array fell idle, and its vector registers (R245,
R265, R267); what it last waited for (R275, R278). -/
structure CoreSt where
  lastStep : Option Nat := none
  idleAt   : Option Nat := none
  ballast  : Option Nat := none   -- since when its columns run ballast (R266)
  resOn    : Option Nat := none   -- since when residue codes are on (R497)
  vregs    : List (Nat × BitVec 1024) := []
  vaccs    : List (Nat × BitVec 4096) := []
  vbad     : List Nat := []       -- poisoned registers (R321): v0 to v31 are 0 to 31, vacc0 to vacc3 are 32 to 35
deriving DecidableEq, Repr, Inhabited

/-- The light state of a pre-empted context (R602). -/
structure Light where
  pc    : Nat := 0
  itag  : Nat := 0
  s     : List (Nat × DWord) := []
  t     : List (Nat × BitVec 512) := []
  sems  : List Nat := []
  queues : List (Nat × List EngOp) := []
  vregs : List (Nat × BitVec 1024) := []
  vaccs : List (Nat × BitVec 4096) := []
  leases : List (Nat × Nat) := []       -- lease codes, as they stand in the register file
  taken : List Notice := []             -- what the run has taken, dispatched, committed and posted
  results : List Nat := []
  commits : List Nat := []
  grids : List Nat := []
  kvFirst : List Nat := []
deriving DecidableEq, Repr, Inhabited

/-- A scratch image under FULL (R599): bytes, damaged words, ready bits and leases. -/
structure Image where
  bytes : List (Nat × Byte) := []
  bad   : List (Nat × Nat) := []
  regs  : List (Nat × Nat) := []
deriving DecidableEq, Repr, Inhabited

/-- A best-effort context, running or saved (R593, R602). KIND 1 stream routine, 2 WORK. -/
structure BeCtx where
  run   : Run := {}
  desc  : Option Desc := none
  saved : Option Light := none
  image : Image := {}
deriving DecidableEq, Repr, Inhabited

/-- Where a pre-emption or a resumption stands (R602 to R605). -/
inductive Switch where
  | none | draining | saving | savingLc | restoring | clearing | restoringLc
deriving DecidableEq, Repr, Inhabited

/-- Why a kill runs (R612, R622). -/
inductive KillWhy where
  | exception (cls : Nat) | permanent | hang | host
deriving DecidableEq, Repr, Inhabited

/-- A failed check on its way to its CLASSIFY record (R487): the computation, and what its record says. `live` is set once the
restarted routine runs. -/
structure Detect where
  rid  : Nat := 0
  addr : Nat := 0
  tag  : Nat := 0
  tile : Nat := 0
  core : Nat := 0
  seq  : Nat := 0
  path : Nat := 0
  live : Bool := false
deriving DecidableEq, Repr, Inhabited

/-- The scheduling and recovery state of a partition (ch. 19, 20). -/
structure Recov where
  work     : List Desc := []            -- WORK FIFO (R594)
  be       : Option BeCtx := none       -- the open best-effort context
  switch   : Switch := .none
  requested : Nat := 0                  -- time of the pre-emption request
  killing  : Option KillWhy := none     -- a kill is draining or rescuing (R612)
  retained : List Notice := []          -- retained items of the last kill, in order (R613)
  first    : List Notice := []          -- entries presented again, ahead of the FIFOs (R616)
  rescue   : List Nat := []             -- tags still in the rescue (R615)
  rescued  : Nat := 0
  rescueAt : Nat := 0                   -- when the rescue began
  wipeAt   : Nat := 0                   -- when the wipe began
  killAt   : Nat := 0                   -- when the kill began
  toRetire : List Nat := []             -- cores to be retired at the next partition tick (R536)
  lcImage  : Option Image := none       -- the latency-critical image, while it is not resident (R599)
  catchUp  : Bool := false              -- recovery catch-up waits for the next window (R621)
  restart  : Option Run := none         -- the routine to start again at the end of the wipe or reset (R621)
  retries  : Nat := 0                   -- class H exceptions of the routine in the turn (R622)
  detect   : Option Detect := none      -- a failed check that awaits its CLASSIFY record (R487)
  events   : List Nat := []             -- cores of permanent events whose step of R489 is still to be taken
  cause    : Nat := 0                   -- cause of the reset under way (R617), 0 none
  resetAt  : Nat := 0
  nextCauses : List Nat := []           -- causes waiting for their next reset
  failedN  : Nat := 0                   -- items failed under R619
  hangSeq  : Nat := 0                   -- RECORD_SEQ of the last HANG record, and of the one that began the replay
  episode  : Nat := 0
  hbLast   : Nat := 0                   -- time of the last heartbeat write
  hbDue    : Bool := false              -- the timer has expired and its entry has not been taken
  suspects : List Notice := []          -- of the replay (R624)
  again    : List Notice := []          -- suspects without RESULT, presented again at its end (R625)
  replayRun : Option Run := none
  testFails : List Nat := []            -- rows 5 to 7 of R536 failed since the last full load
  forensic : Option Nat := none         -- a forensic hold, with its start (R369)
  had      : Bool := false              -- the replay had suspects
deriving DecidableEq, Repr, Inhabited


/-! ### The safety side (ch. 17) -/

/-- Causes of the safe state (R538), in the order of their codes from 1. -/
inductive Cause where
  | notStarted | islandVote | islandWdog | faultCollector | caller | xoTime | ucie | hbmTrain | extest | debugHalt
  | hostRequest | reload | deadline | quarantine | reject | partner | selftest | lifecycle | power | islandMemory
deriving DecidableEq, Repr, Inhabited

/-- One item's grids at the Caller (R520 to R522): present main and Partner cells. -/
structure CallerItem where
  main    : Option (List Byte) := none
  partner : Option (List Byte) := none
  crc     : Bool := false        -- a grid of it failed its CRC
deriving DecidableEq, Repr, Inhabited

/-- An accepted safe-state exit (R539): when it began, whether its tests have ended, and the grid turns counted since the first tick
behind them. -/
structure ExitTry where
  at0    : Nat := 0
  tested : Bool := false
  turns  : Option Nat := none
deriving DecidableEq, Repr, Inhabited

/-- What the alive frame of a grid tick reports of the turn that it ended (R527). -/
structure Alive where
  turn     : Nat := 0
  tick     : Nat := 0
  accepted : Nat := 0
  rejected : Nat := 0
  missing  : Nat := 0
  first    : Option Nat := none
deriving DecidableEq, Repr, Inhabited

/-- The island, the fault collector and the Caller beside their registers. -/
structure Safety where
  latchA   : Bool := true
  latchB   : Bool := true
  causes   : List Cause := [.notStarted]  -- causes held, first first
  exit     : Option ExitTry := none
  started  : Bool := false       -- a first turn tick has passed since the last full load
  testsDone : Bool := false
  voterBad : Bool := false       -- the voter test failed: the island stays in reset (R535)
  aliveSeq : Nat := 0
  gseq     : Nat := 0
  accepted : Nat := 0            -- of the turn that the next tick ends (R527)
  rejected : Nat := 0
  missing  : Nat := 0
  firstRej : Option Nat := none
  runs     : List (Nat × Nat) := []  -- rejection run of each stream (R523)
  raised   : List Nat := []      -- streams whose run has raised class G
  condDeadline : Bool := false   -- conditions of R513 that hold
  condQuar     : List Nat := []  -- streams with SAFETY in quarantine
  condReject   : List Nat := []  -- streams that started a run and have had no grid accepted since
  condPartner  : Bool := false
  reasons  : List (Nat × Nat) := []  -- reject reason of each item rejected (R540)
  caller   : List (Nat × CallerItem) := []
  aliveDue : Option Alive := none
  odd      : Option Nat := none  -- core being resynchronised (R530)
  oddAt    : Nat := 0
  resyncs  : List (Nat × List Nat) := []  -- times of each core's resynchronisations
  fenced   : List Nat := []
  wdogLast : Option Nat := none  -- last watchdog write, or the start of the island firmware (R531)
  wdogFresh : Bool := true       -- no write since then
  halted   : Bool := false       -- debug halt (R532)
  replay   : List (Nat × Nat) := []
  islandUp : Bool := true        -- the island firmware runs and votes
  ptnWipeAt : Nat := 0           -- when the Partner engine's wipe began (R518)
  ptnIn    : List (Nat × Bool) := []  -- Partner items coming in, by tag: written, or dropped for want of their slot (R516)
deriving DecidableEq, Repr, Inhabited

/-! ### Ingress (ch. 05) -/

/-- An open frame of a stream (R153, R167 to R169). -/
structure Frame where
  tag      : Nat := 0
  stamp    : Nat := 0
  slot     : Option Nat := none   -- none: no free slot, its data is discarded (R161)
  addr     : Nat := 0             -- address of its slot
  gen      : Nat := 0
  lines    : Nat := 0             -- lines seen, discarded ones included, or packets stored
  stored   : Nat := 0
  bad      : Nat := 0
  missing  : Nat := 0
  emb      : Nat := 0             -- embedded bytes kept
  bytes    : Nat := 0             -- record bytes of a range frame
  flags    : Nat := 0             -- ITEM_FLAGS so far (R175)
  frameNo  : Nat := 0
  counter  : Option Nat := none
  lastSeq  : Option Nat := none
  bufBad   : Bool := false        -- a word failed its port-buffer code (R239)
  decim    : List (Option (List Byte)) := [] -- lines of the block row being decimated, newest first; none: not valid
  chunks   : Nat := 0             -- chunks sent
deriving DecidableEq, Repr, Inhabited

/-- A raw ring (R161, R166): its base, its generation bit, and its slots that are not FREE (true: HELD, false: FILLING). -/
structure RawRing where
  base  : Nat := 0
  gen   : Nat := 0
  slots : List (Nat × Bool) := []
deriving DecidableEq, Repr, Inhabited

/-- One stream beside its registers (R148 to R177). -/
structure Stream where
  ring      : RawRing := {}
  retire    : Option RawRing := none
  pending   : Option Nat := none  -- committed ring base (R163)
  seq       : Nat := 0            -- sequence of the next item (R153)
  frame     : Option Frame := none
  lastStart : Option Nat := none  -- stamp of the last accepted frame start or missing-frame item (R168)
  accepted  : Option Nat := none  -- stamp of the last accepted frame start (R167)
  late      : Bool := false       -- missing-frame items since the last opened item (R168)
  discard   : Nat := 0            -- what arrives is dropped: 1 of an early frame, 2 of a quarantined one, 3 of one not opened
  dropVal   : Option Nat := none  -- counter value of the range frame that is dropped
  dropN     : Nat := 0            -- packets of it so far
  slice     : Nat := 0            -- start of the time slice under way, and whether it had a packet (R157)
  sliceHad  : Bool := false
  frameNo   : Nat := 0            -- frame number of the last frame start (R172)
  closed    : Option Nat := none  -- counter value of the frame closed last (R157)
  enable    : Option Bool := none -- ENABLE that the next grid tick takes up (R183)
  clean     : Nat := 0            -- clean turns in quarantine (R177)
  startSeen : Bool := false       -- a frame start in this grid turn
deriving DecidableEq, Repr, Inhabited

/-- One A-PHY port beside its registers (R179, R187). -/
structure Aphy where
  ended   : Bool := false         -- its group has ended (R179)
  failed  : Bool := false         -- it waits to train again
  cmds    : List Nat := []        -- I2C commands waiting, the first under way
  results : List Nat := []        -- result words, oldest first
  lostCmd : Bool := false         -- OVERFLOW since the last read
deriving DecidableEq, Repr, Inhabited

/-- A chunk on the lane group to the Partner engine (R184, R185); index 0xFFFF_FFFF closes an item, `stamp` its count of chunks. -/
structure Chunk where
  tag   : Nat := 0
  index : Nat := 0
  valid : Bool := true
  data  : List Byte := []
  stamp : Nat := 0
deriving DecidableEq, Repr, Inhabited

/-- Ingress beside its ports and streams. -/
structure Ingress where
  group    : Nat := 8             -- group in training, 8 when every group has ended (R179)
  groupAt  : Nat := 0
  ethDone  : Bool := false        -- 600 ms have passed (R180)
  appliedAt : Nat := 0
  lastAdmit : Nat := 0            -- admission tick (R181)
  firstTick : Nat := 0
deriving DecidableEq, Repr, Inhabited

/-! ### The image pipeline (ch. 06) -/

/-- A parameter version of a stream (R225, R226). -/
structure IspVer where
  id    : Nat := 0
  param : List Byte := []
  scr   : Nat := 0
  outB  : Nat := 0
  seq   : Nat := 0                -- APPLY_SEQ of its transfer
deriving DecidableEq, Repr, Inhabited

/-- One camera stream in the pipeline. -/
structure IspStream where
  vers    : List IspVer := []
  active  : Nat := 0
  pending : Option Nat := none
  nextId  : Nat := 0
  held    : List (Nat × Nat) := []  -- HELD output slots by address, with their item (R205)
  outBase : Nat := 0                -- base the next slot counts from
  waiting : List (Nat × Nat) := []  -- items handed on and not taken, with the time of hand-off (R201)
  tapWait : Bool := false           -- a tap is armed and no job has taken it (R224)
  bound   : List (Nat × Nat) := []  -- items whose job has not ended, with their version
deriving DecidableEq, Repr, Inhabited

/-- A job of a pipe (R202). -/
structure Job where
  stream  : Nat := 0
  tag     : Nat := 0
  start   : Nat := 0
  dur     : Nat := 0
  toHbm   : Bool := false
  slot    : Nat := 0
  addr    : Nat := 0               -- output slot address, or scratch offset
  core    : Nat := 0
  part    : Nat := 0
  flags   : Nat := 0               -- ISP_FLAGS so far
  turn    : Nat := 0
  ver     : Nat := 0
  tap     : Bool := false
  rslot   : Nat := 0               -- raw slot, ring generation and address of the item
  rgen    : Nat := 0
  raddr   : Nat := 0
deriving DecidableEq, Repr, Inhabited

/-- One pipe: its running job, and the jobs that wait for it with their planned starts (R202). -/
structure Pipe where
  job   : Option Job := none
  wait  : List (Nat × Nat × Nat) := []  -- stream, item, planned start
  lastEnd : Nat := 0                    -- end of its last job
  out   : Bool := false                 -- out of service (R537)
  done  : List Nat := []                -- slot entries taken in this turn (R201)
deriving DecidableEq, Repr, Inhabited

/-! ### Scratch (ch. 11) -/

/-- One region of a bank map (R343, R344). -/
structure MapRegion where
  gf : Nat := 0
  gc : Nat := 0
  bf : Nat := 0
  bn : Nat := 1
  wf : Nat := 0
deriving DecidableEq, Repr, Inhabited

/-! ### KV walkers (ch. 13) -/

/-- A reference message (R406): an INC or DEC of a page of another walker, with its sequence number for that destination;
`pkg` and `part` name the owner, `link` the link that reaches it (4: this package). -/
structure KvMsg where
  inc   : Bool := false
  pkg   : Nat := 0
  part  : Nat := 0
  link  : Nat := 4
  seq   : Nat := 0
  page  : Nat := 0
  epoch : Nat := 0
deriving DecidableEq, Repr, Inhabited

/-- What waits at the boundary of R410 ahead of commands: a message of another walker, or a peer's page request. `src` is the
sender: partition of this package, or 8 + link × 8 + partition. -/
inductive KvIn where
  | ref (src : Nat) (msg : KvMsg)
  | page (link : Nat) (req page epoch : Nat)
deriving DecidableEq, Repr

/-- A page read from another package (R395, R437). -/
structure KvRead where
  req    : Nat := 0
  addr   : Nat := 0          -- address of its PTE
  mirror : Nat := 0
  link   : Nat := 0
  part   : Nat := 0
  page   : Nat := 0
  epoch  : Nat := 0
  frames : Nat := 0          -- good frames written
  downAt : Option Nat := none -- since when its link has been down
  lost   : Bool := false      -- its link has dropped (R433)
deriving DecidableEq, Repr, Inhabited

/-- What a walker works at (R410): a command of KV_CMD, or the instruction in flight; `mapRemote` awaits its owner's answer. -/
inductive KvOp where
  | idle | instr | cmd (code : Nat) | fetchInstr | fetchCmd (code : Nat) | mapRemote (handle j pte seq : Nat)
deriving DecidableEq, Repr

/-- A walker beside its registers and its pool (R387 to R412). -/
structure Kv where
  op       : KvOp := .idle
  pending  : Option Nat := none        -- a command written while an operation runs
  inbox    : List KvIn := []
  reads    : List KvRead := []         -- page reads of the operation under way
  fetched  : Nat := 0
  fail     : Option Nat := none        -- first reason that one of them met
  nextReq  : Nat := 0
  lab      : List (Nat × Nat) := []    -- lines by handle index and line index, most recently used first (R394)
  headG    : Option Nat := none        -- first free pages of the general and the temporal sub-pool (R393)
  headT    : Option Nat := none
  zeroing  : List Nat := []            -- pages being written as zero, in order
  msgs     : List KvMsg := []          -- the message ring; behind its 1,024 entries, releases that wait for one (R406)
  seqOut   : List (Nat × Nat) := []    -- last sequence number by destination: package × 8 + partition
  seqIn    : List (Nat × Nat) := []    -- last sequence number applied, by sender
  building : Bool := false             -- the pool is being zeroed or rebuilt (R389)
  journal  : Option (Nat ⊕ EngOp) := none -- an operation to be completed after a partition reset (R411): command or instruction
deriving DecidableEq, Repr, Inhabited

/-! ### Sash links (ch. 14) -/

/-- A box of the SASH section (R439, R440). -/
structure Box where
  used   : List Nat := []        -- POSTED slots of an outbox, ARRIVED slots of an inbox, oldest first
  next   : Nat := 0              -- next slot in ring order to be sent, or to receive
  grants : Nat := 0              -- outbox: free slots of the peer's inbox not yet used
  sent   : List Nat := []        -- outbox: slots sent whose last frame the peer has not acknowledged
  frames : Nat := 0              -- inbox: frames of the slot being received
  bad    : Bool := false         -- inbox: a frame of it failed
deriving DecidableEq, Repr, Inhabited

/-- A frame (R435): VC, KIND, SEQ, and the fields that its KIND carries. -/
structure SFrame where
  vc     : Nat := 0
  kind   : Nat := 0
  seq    : Nat := 0
  fields : List Nat := []
  data   : List Byte := []
deriving DecidableEq, Repr, Inhabited

/-- A page read that a link serves for its peer (R437). -/
structure Serve where
  req  : Nat := 0
  part : Nat := 0
  page : Nat := 0
  epoch : Nat := 0
  held : Bool := false           -- the walker has added its temporary reference
deriving DecidableEq, Repr, Inhabited

/-- A marker candidate of a lane (R428): the block at which its next marker is due, its pattern's lane, the counter due, and how
often it has been confirmed. -/
structure Cand where
  due   : Nat := 0
  lane  : Nat := 0
  count : Nat := 0
  good  : Nat := 0
deriving DecidableEq, Repr, Inhabited

/-- A receive lane (R428, R429). -/
structure SLane where
  block : Bool := false          -- block lock
  cands : List Cand := []
  lock  : Option Cand := none    -- marker lock: the marker that is due
  miss  : Nat := 0               -- consecutive missing or bad markers
deriving DecidableEq, Repr, Inhabited

/-- A link beside its registers (R423 to R442). -/
structure SLink where
  attemptAt : Nat := 0           -- start of the training or retraining attempt
  fenced  : Bool := false        -- a retraining link was FENCED
  lanes   : List (Nat × SLane) := []
  known   : Bool := false        -- a SESSION has been recorded since the base pattern
  txSeq   : Nat := 0             -- SEQ of the next frame to be sent
  rxSeq   : Nat := 0             -- SEQ of the next frame in order
  credits : List Nat := [256, 4096, 4096]  -- rows that may be sent, by VC
  owed    : List Nat := [0, 0, 0]          -- rows taken and not yet granted again
  queue   : List SFrame := []
  unacked : List SFrame := []
  ackAt   : Nat := 0             -- when an ACK last advanced, or frames became outstanding
  fails   : Nat := 0             -- replays running without an advance
  nak     : Bool := false
  rows    : Nat := 0             -- rows received since the last ACK row sent, and when that was
  ackSent : Nat := 0
  vcTurn  : Bool := false        -- VC 2 goes next
  serving : List Serve := []
  waiting : List Serve := []
  delayT1 : Option Nat := none   -- departure of the DELAY request under way
  delayAt : Nat := 0             -- last DELAY exchange begun
  marker  : Nat := 0             -- counter of the next marker sent
deriving DecidableEq, Repr, Inhabited

/-! ### HBM (ch. 15) -/

/-- An access that waits for a channel to leave self-refresh (R462), with what its read finds: words with a correctable
error, and words uncorrectable. -/
structure HeldAcc where
  who   : Requester := .pf
  bar2  : Bool := false
  write : Bool := false
  addr  : Nat := 0
  len   : Nat := 0
  data  : List Byte := []
  ce    : List Nat := []
  ue    : List Nat := []
deriving DecidableEq, Repr, Inhabited

/-- One HBM channel beside its registers (R456 to R459). -/
structure MemCh where
  ceTurn  : Nat := 0             -- correctable errors since the last grid tick
  calAt   : Nat := 0             -- its last calibration, and turns for which it has been deferred since
  calDefer : Nat := 0
  deferAt : Nat := 0             -- when its deferral began
  passAt  : Nat := 0             -- start of the scrub pass under way, and the ECC words it has read
  scrubbed : Nat := 0
deriving DecidableEq, Repr, Inhabited

/-- A grid on its way to the Caller (R333, R520). -/
structure GridMsg where
  partner : Bool := false
  tag     : Nat := 0
  data    : List Byte := []
deriving DecidableEq, Repr, Inhabited

/-! ### Power (ch. 21) -/

/-- A HINT window (R646): when it opened, its lead in µs, the arrays it names, those of them that left COLD in it, and since
when all of these have been COLD again. -/
structure HintWin where
  opened : Nat := 0
  lead   : Nat := 0
  cores  : Nat := 0
  left   : Nat := 0
  coldAt : Option Nat := none
deriving DecidableEq, Repr, Inhabited

/-- The power manager's view of one partition beside its registers (R638 to R653). -/
structure PwrPart where
  wins    : List HintWin := []
  fullAt  : Nat := 0               -- when a rail that rises reaches the full level (R646)
  held    : Bool := false          -- full level from a reset's phase A until the first routine starts (R648)
  change  : Option Nat := none     -- point that a change under way leads to (R638), and when it began
  changeAt : Nat := 0
  fine    : Option Nat := none     -- since when the least slack has been at least 40 ps (R649)
  exhaust : Option Nat := none     -- when V_trim was last forced to 0
  capAt   : Option Nat := none     -- last change of CAP_LEVEL (R643)
  thermDn : Option Nat := none     -- last steps of THERM_LEVEL (R653)
  thermUp : Option Nat := none
  dieEp   : Bool := false          -- an episode of THROTTLE_DIE or THROTTLE_STACK is recorded
  stackEp : Bool := false
  aged    : Bool := false          -- an AGEING record is written (R651)
  ballast : Option Nat := none     -- routine whose array instruction began the ramp (R657)
deriving DecidableEq, Repr, Inhabited

/-- The power manager beside its registers (R641 to R656). -/
structure Power where
  capNext  : Option Nat := none    -- a written cap that awaits its grid tick (R643)
  samples  : List Nat := []        -- package power of the last 10 ms in mW, one per µs, newest first (R641)
  above     : Option Nat := none    -- since when the power has exceeded the cap with no unit to lower (R644)
  under    : Option Nat := none    -- since when it has been below the cap less the hysteresis
  heldAt   : Nat := 0              -- when cap hold began
  hcAt     : Option Nat := none    -- last change of the host cluster's CAP_LEVEL, and steps of its THERM_LEVEL
  hcDn     : Option Nat := none
  hcUp     : Option Nat := none
  cold     : Bool := false         -- the episode of COLD (R656)
  conds    : List Nat := []        -- conditions of R654 that hold, by event code
  lastCond : Option Nat := none    -- when a condition of R654 last held
  heat     : Option Nat := none    -- when an over-temperature condition last held (R655)
  hcChange : Option Nat := none    -- the host cluster's change of point, and when it began
  hcChangeAt : Nat := 0
  hcEp     : Bool := false         -- its throttle episode is recorded
  ctlAt    : Nat := 0              -- the last comparison with the cap
  energy   : Nat := 0              -- nJ of package energy not yet counted in PWR_ENERGY_PKG
deriving DecidableEq, Repr, Inhabited

/-- Margin tests (R494 to R496): units 0 to 7 partitions, 8 and 9 spares. -/
structure Margin where
  last   : List (Nat × Nat) := []  -- when each unit's test last fell due
  dueAt  : Option Nat := none      -- since when the next unit's test is due
  cool   : Bool := false           -- it runs without its temperature band
  endAt  : Nat := 0                -- earliest end of the test that runs
deriving DecidableEq, Repr, Inhabited

/-! ### The whole part -/

/-- Everything the part holds but the queue of commands and the fuses. A field starts at its reset value. -/
structure Mach where
  regs     : List (Nat × Nat) := []        -- the register file: field key to value, unlisted fields at their reset (R15)
  latches  : List (Nat × Nat) := []        -- full `_HI` latches of R17, by pair and requester
  holds    : List (Nat × Nat) := []        -- full holding values of R17, by pair and requester
  mem      : List Host.Cell := []          -- HBM, scratch and Partner SRAM by device address (R32)
  bad      : List (Nat × Nat) := []        -- damaged 8-byte words: 1 uncorrectable, 2 poison (R456, R364, R518)
  soft     : List (Nat × Nat) := []        -- HBM ECC words with a correctable error, by their first 8-byte word (R456)
  imem     : List Host.Cell := []          -- instruction memory of the sequencers: sequencer × 2^20 + address (R59)
  out      : List Output := []             -- what left the part, newest first
  draws    : Nat := 0                      -- how many free values have been drawn
  powered  : Bool := false                 -- PORST_n high
  pe       : Bool := false                 -- PCIe link up
  endpoint : Bool := false                 -- the endpoint has completed its start-up (R48)
  perst    : Bool := false                 -- PERST_n low
  serdes   : Bool := true                  -- SERDES_REFCLK present (R685)
  ldr      : Loader := {}
  time     : TimeUnit := {}
  trigs    : List (Nat × Trig) := []
  ppsLevel : Bool := false                 -- PPS_OUT
  lastPpsOut : Option Nat := none
  evts     : List (Nat × EvtIn) := []
  turns    : List (Nat × PTurn) := []
  items    : List (Nat × Item) := []       -- by item tag
  deadlined : List Nat := []               -- tags that received FAILED_DEADLINE (R105, R332)
  decided  : List Rec := []                -- decided records not yet placed, in decision order (R556)
  log      : List LogRec := []             -- the island's log ring, newest first (R533)
  logCount : List (Nat × Nat) := []        -- COUNT of R485 by unit path × 256 + source
  rings    : List (Nat × Ring) := []
  funcs    : List (Nat × Func) := []
  saf      : Safety := {}
  ing      : Ingress := {}
  aphy     : List (Nat × Aphy) := []
  streams  : List (Nat × Stream) := []
  lane     : List Chunk := []              -- the lane group to the Partner engine, oldest first
  isps     : List (Nat × IspStream) := []
  pipes    : List (Nat × Pipe) := []
  comps    : List (Nat × List Notice) := []   -- pipeline completion FIFO of each partition (R206)
  rnotes   : List (Nat × List Notice) := []   -- range notice FIFO of each partition; 8: chunk notices (R330, R338)
  seqs     : List (Nat × Seq) := []        -- sequencers: partitions 0 to 7, the Partner engine 8
  engines  : List (Nat × Engine) := []     -- engine queues: sequencer × 8 + engine
  cores    : List (Nat × CoreSt) := []     -- cores: sequencer × 2 + k
  recov    : List (Nat × Recov) := []
  grans    : List (Nat × Nat) := []        -- granules held (R354): partition × 2^14 + number to 2 × pins + reservation
  poisonq  : List (Nat × List Nat) := []   -- poison queues (R364): (partition × 2 + core) × 64 + bank to ECC words by PSA ÷ 32
  ascrub   : List (Nat × Nat) := []        -- where activation scrub resumes in each core's banks (R366)
  pparts   : List (Nat × PwrPart) := []
  power    : Power := {}
  margin   : Margin := {}
  grids    : List GridMsg := []            -- grids on their way to the Caller, oldest first
  chans    : List (Nat × MemCh) := []
  held     : List HeldAcc := []            -- accesses held in self-refresh, in order of arrival (R462)
  boxes    : List (Nat × Box) := []
  links    : List (Nat × SLink) := []
  kvs      : List (Nat × Kv) := []
  ucie     : List (Nat × List Nat) := []   -- times of each UCIe module's retries of the last 1 µs (R29)
deriving DecidableEq, Repr, Inhabited

/-- The state of the part: the commands that wait, first in first out; the fuses, which outlast every reset; and the
rest. -/
structure State where
  pending : List Instr := []
  fuses   : Fuses := {}
  m       : Mach := {}
deriving DecidableEq, Repr

/-- Why a command stops the model. No command of this part has an effect that the spec leaves out, so no meaning
raises it; it would be safe. -/
inductive Fault where
  /-- Raised by no meaning; safe: the model would stop where the part goes on. -/
  | unreachable
deriving DecidableEq, Repr

/-- Why a command is refused. -/
inductive Refusal where
  /-- Raised by an arm of `exec` whose meaning is not written yet; safe. -/
  | notModelled (mnemonic : String)
deriving DecidableEq, Repr

/-- The part before its first PORST_n release: every register at its reset value, nothing in memory, no pattern. -/
def State.reset : State := {}

end Sys2Proof.Machine
end

