-- ==== Sys2Proof/Machine/Ops.lean ====
section
/-!
DEFINITION. The named operations over registers, memory and the outside: every meaning reads and writes the state
through them.
-/

namespace Sys2Proof.Machine

/-- What a command answers. -/
abbrev Out := Host.Outcome State Fault Refusal

/-- A command whose effect is `f` on the part, queue and fuses unchanged: while PORST_n holds every unit in reset, a
command finds nothing that takes it (R677, R678). -/
def State.run (s : State) (f : Mach → Mach) : Out := .next (if s.m.powered then { s with m := f s.m } else s)

/-! ### Registers (R12 to R16) -/

/-- The key of a field in the register file. -/
def Fld.key (f : Fld) : Nat := f.addr * 64 + f.lo

/-- A field's value. -/
def rd (m : Mach) (f : Fld) : Nat := getD f.reset m.regs f.key

/-- A field's value as a truth value. -/
def rdb (m : Mach) (f : Fld) : Bool := rd m f != 0

/-- Write a field: the value is taken modulo its width. -/
def wr (f : Fld) (v : Nat) (m : Mach) : Mach :=
  { m with regs := setD f.reset m.regs f.key (v % 2 ^ f.width) }

/-- Write a one-bit field. -/
def wrb (f : Fld) (b : Bool) (m : Mach) : Mach := wr f (b2n b) m

/-- Write a signed number into a field. -/
def wri (f : Fld) (i : Int) (m : Mach) : Mach := wr f (fieldOf f.width i) m

/-- Add to a counter, which saturates at its width's largest value. -/
def addTo (f : Fld) (n : Nat) (m : Mach) : Mach := wr f (satAdd (2 ^ f.width - 1) (rd m f) n) m

/-- Add one to a counter. -/
def inc (f : Fld) (m : Mach) : Mach := addTo f 1 m

/-- A field back at its reset value. -/
def clr (f : Fld) (m : Mach) : Mach := wr f f.reset m

/-- Every field of the registers in `lo ≤ address < hi` back at its reset value. -/
def clearRegs (lo hi : Nat) (m : Mach) : Mach := { m with regs := clearRange m.regs (lo * 64) (hi * 64) }

/-- Apply `f` for each element of a list, first to last. -/
def forEach {α : Type} (l : List α) (f : α → Mach → Mach) (m : Mach) : Mach := l.foldl (fun m a => f a m) m

/-- `f` where the condition holds. -/
def whenB (c : Bool) (f : Mach → Mach) (m : Mach) : Mach := if c then f m else m

/-! ### The outside -/

/-- Something leaves the part. -/
def emit (o : Output) (m : Mach) : Mach := { m with out := o :: m.out }

/-- The next free value of `w` bits (notes/assumptions/2.md), and the state after the draw. -/
def draw (w : Nat) (m : Mach) : Nat × Mach :=
  (Config.freeValue m.draws w % 2 ^ w, { m with draws := m.draws + 1 })

/-! ### Time (R113, R116) -/

/-- The PTP time in nanoseconds. -/
def now (m : Mach) : Nat := rd m Reg.TIME_NOW

/-- The time quality: 0 LOCKED, 1 HOLDOVER, 2 FREE_RUN. -/
def tq (m : Mach) : Nat := rd m Reg.TIME_STATUS_TQ

/-- The number of the grid turn under way. -/
def gridTurn (m : Mach) : Nat := rd m Reg.TIME_TURN_NUMBER

/-! ### The part -/

/-- The grade: 0 FK8-1024X, 1 FK8-1024L, 2 FK8-0512S (R5). -/
def grade (m : Mach) : Nat := rd m Reg.PAT_ID_GRADE

/-- Cores per partition of the logical shape (R3). -/
def coresPer (m : Mach) : Nat := if grade m = 2 then 1 else 2

/-- Bytes of populated HBM (R32). -/
def hbmBytes (m : Mach) : Nat := if grade m = 1 then 0x1200000000 else 0xC00000000

/-- One eighth of HBM (R33). -/
def hbmEighth (m : Mach) : Nat := hbmBytes m / 8

/-- Logical core number of core `k` of partition `p` (R23). -/
def coreNo (m : Mach) (p k : Nat) : Nat := p * coresPer m + k

/-- Device address of offset `o` in the scratch of core `k` of partition `p` (R32). -/
def scrAddr (m : Mach) (p k o : Nat) : Nat := 0x4000000000 + coreNo m p k * 0x2000000 + o

/-- Device address of an offset in the Partner-engine SRAM (R32). -/
def ptnAddr (o : Nat) : Nat := 0x4800000000 + o

/-- Bytes of scratch per core (R32). -/
def scrBytes : Nat := 0x1800000

/-- The HBM channel of an address (R33). -/
def hbmChannel (m : Mach) (a : Nat) : Nat := 4 * (a / hbmEighth m) + a / 256 % 4

/-! ### Memory -/

/-- The canonical form of memory: addresses strictly rising, and no byte listed that reads as an unlisted one. -/
def Memory.wf (l : List Host.Cell) : Bool := canonical 0 l

/-- The byte at a device address: an unlisted byte reads 0 (notes/assumptions/1.md). -/
def rb (m : Mach) (a : Nat) : Byte := getD 0 m.mem a

/-- Bytes `a` to `a + n - 1`. -/
def readMem (m : Mach) (a n : Nat) : List Byte := (List.range n).map (fun i => rb m (a + i))

/-- Write bytes from address `a` up. -/
def writeCells (l : List Host.Cell) (a : Nat) : List Byte → List Host.Cell
  | [] => l
  | b :: r => writeCells (setD 0 l a b) (a + 1) r

/-- 8-byte words of the ECC word at a device address: 32 bytes in HBM and scratch (R361, R454), 8 in the Partner-engine SRAM
(R518). -/
def eccWords (a : Nat) : Nat := if a < 0x4800000000 then 4 else 1

/-- First 8-byte words of the ECC words that bytes `a` to `a + n - 1` touch: from the first to below the second. -/
def eccSpan (a n : Nat) : Nat × Nat :=
  let u := eccWords a
  if n = 0 then (0, 0) else (a / (8 * u) * u, ((a + n - 1) / (8 * u) + 1) * u)

/-- The damaged ECC words that a range touches, by their first 8-byte word: 1 uncorrectable, 2 poison. -/
def damaged (m : Mach) (a n : Nat) : List (Nat × Nat) :=
  m.bad.filter (fun c => decide ((eccSpan a n).1 ≤ c.1) && decide (c.1 < (eccSpan a n).2))

/-- An ECC word becomes poison: its data is zero (R363, R455). -/
def poisonWord (w : Nat) (m : Mach) : Mach :=
  { m with mem := clearRange m.mem (w * 8) ((w + eccWords (w * 8)) * 8), bad := setD 0 m.bad w 2 }

/-- Store bytes from device address `a` up. ECC words written whole are whole again; a damaged one written in part becomes
poison, and the written bytes are not kept (R454, R359). -/
def writeMem (a : Nat) (bs : List Byte) (m : Mach) : Mach :=
  let u := eccWords a
  let n := bs.length
  let part := (damaged m a n).filter (fun c => decide (c.1 * 8 < a) || decide (a + n < (c.1 + u) * 8))
  forEach part (fun c => poisonWord c.1)
    { m with mem := writeCells m.mem a bs,
             bad := clearRange m.bad ((a + 8 * u - 1) / (8 * u) * u) ((a + n) / (8 * u) * u),
             soft := clearRange m.soft (eccSpan a n).1 (eccSpan a n).2 }

/-- Bytes `lo` to `hi - 1` as zero, their words whole. -/
def zeroMem (lo hi : Nat) (m : Mach) : Mach :=
  { m with mem := clearRange m.mem lo hi, bad := clearRange m.bad (lo / 8) ((hi + 7) / 8),
           soft := clearRange m.soft (lo / 8) ((hi + 7) / 8) }

/-- The damage of a range: 0 none, 1 uncorrectable, 2 poison. -/
def damage (m : Mach) (a n : Nat) : Nat := ((damaged m a n).head?.map (·.2)).getD 0

/-- The first damaged word of a range, by its number. -/
def firstBad (m : Mach) (a n : Nat) : Option Nat := (damaged m a n).head?.map (·.1)

/-- Mark a word uncorrectable or poisoned. -/
def markBad (w kind : Nat) (m : Mach) : Mach := { m with bad := setD 0 m.bad w kind }

/-! ### Bytes -/

/-- A little-endian number. -/
def leNat : List Byte → Nat
  | [] => 0
  | b :: r => b.toNat + 256 * leNat r

/-- The `n` little-endian bytes of a number. -/
def leBytes : Nat → Nat → List Byte
  | 0, _ => []
  | n + 1, v => BitVec.ofNat 8 v :: leBytes n (v / 256)

/-- A big-endian number. -/
def beNat (bs : List Byte) : Nat := leNat bs.reverse

/-- The `n` big-endian bytes of a number. -/
def beBytes (n v : Nat) : List Byte := (leBytes n v).reverse

/-- `n` zero bytes. -/
def zeros (n : Nat) : List Byte := List.replicate n 0

/-- The `n` bytes at an offset, zero where the list ends. -/
def slice (bs : List Byte) (off n : Nat) : List Byte :=
  let p := (bs.drop off).take n
  p ++ zeros (n - p.length)

/-- The little-endian field of `n` bytes at an offset. -/
def le (bs : List Byte) (off n : Nat) : Nat := leNat ((bs.drop off).take n)

/-- The little-endian number of `n` bytes in memory. -/
def memLe (m : Mach) (a n : Nat) : Nat := leNat (readMem m a n)

/-- A list cut, or filled with zero bytes, to `n` bytes. -/
def padTo (n : Nat) (bs : List Byte) : List Byte := slice bs 0 n

/-! ### Requesters (R17, R35, R548) -/

/-- The owner or holder code of a requester (R548); a master that has none is 0 (notes/assumptions/5.md). -/
def reqCode : Requester → Nat
  | .pf => 1
  | .vf v => v + 1
  | .hc c => 0x70 + c
  | .mi _ => 0x60
  | .seq p => 0x58 + p
  | .seqfw p => 0x58 + p
  | .dma p => 0x58 + p
  | .walker p => 0x58 + p
  | _ => 0

/-- The code under which a requester owns queues and locks: the host cluster has one for all its cores (R548). -/
def ownerCode : Requester → Nat
  | .hc _ => 0x41
  | w => reqCode w

/-- Whether an access comes over PCIe. -/
def isPcie : Requester → Bool
  | .pf => true
  | .vf _ => true
  | _ => false

/-- Number of the latch and holding value a requester has (R17); the host cluster has one for all its cores. -/
def latchNo : Requester → Nat
  | .pf => 0
  | .vf v => v
  | .hc _ => 64
  | .mi _ => 65
  | .seq p => 66 + p
  | .seqfw p => 66 + p
  | _ => 80

/-- The PCIe function of a requester: 0 the PF, v VF v. -/
def fnOf : Requester → Option Nat
  | .pf => some 0
  | .vf v => some v
  | _ => none

/-- Whether a core that makes requests of its own accord runs: the host cluster out of reset (R63), the island's firmware up (R535). -/
def awake (m : Mach) : Requester → Bool
  | .hc _ => m.ldr.hcUp
  | .mi _ => m.saf.islandUp
  | _ => true

/-! ### Unit paths (R45) -/

/-- The binary form of a unit path (R45); 63 stands for no index, row or column. -/
def unitPath (pkg die group index elem row col : Nat) : Nat :=
  pkg * 2 ^ 29 + die * 2 ^ 27 + group * 2 ^ 22 + index * 2 ^ 16 + elem * 2 ^ 12 + row * 2 ^ 6 + col

end Sys2Proof.Machine
end

