-- ==== Sys2Proof/Machine/Flags.lean ====
section
/-!
DEFINITION. Check words and flag bytes: CRC-32C (R233), the CRC-32 of the safety frames (R526), and the FLAGS bytes of
error records (R485) and records (R561).
-/

namespace Sys2Proof.Machine

/-- One bit of a reflected CRC with polynomial `poly`. -/
def crcBit (poly c : BitVec 32) : BitVec 32 :=
  if c.getLsbD 0 then (c >>> 1) ^^^ poly else c >>> 1

/-- Eight bits of a reflected CRC. -/
def crcByte (poly c : BitVec 32) (b : Byte) : BitVec 32 :=
  let f := crcBit poly
  f (f (f (f (f (f (f (f (c ^^^ b.setWidth 32))))))))

/-- A reflected CRC over bytes, initial value and final XOR all ones. -/
def crc32r (poly : BitVec 32) (bs : List Byte) : BitVec 32 :=
  bs.foldl (crcByte poly) 0xFFFFFFFF ^^^ 0xFFFFFFFF

/-- CRC-32C (R233). -/
def crc32c (bs : List Byte) : Nat := (crc32r 0x82F63B78 bs).toNat

/-- CRC-32 of IEEE 802.3 (R526). -/
def crc32 (bs : List Byte) : Nat := (crc32r 0xEDB88320 bs).toNat

/-- FLAGS of an error record (R485): FATAL, CLASS, TQ. -/
def errFlags (fatal : Bool) (cls t : Nat) : Nat := b2n fatal + cls % 4 * 2 + t % 4 * 8

/-- FLAGS of a record (R561): HOLDOVER and FREE_RUN of FS_STAMP and of DECIDED_TIME, HAS_PAYLOAD, SPILLED. -/
def recFlags (stampTq decTq : Nat) (payload spilled : Bool) : Nat :=
  b2n (stampTq == 1) + b2n (stampTq == 2) * 2 + b2n (decTq == 1) * 4 + b2n (decTq == 2) * 8 +
    b2n payload * 16 + b2n spilled * 32

/-- The 64 bytes of an error record (R485). -/
def LogRec.bytes (r : LogRec) : List Byte :=
  let b := leBytes 4 r.seq ++ leBytes 4 r.path ++ leBytes 1 r.source ++ leBytes 1 (errFlags r.fatal r.cls r.tq) ++
    leBytes 2 r.count ++ leBytes 4 r.routineId ++ leBytes 4 r.instrAddr ++ leBytes 1 r.opcode ++ leBytes 1 r.seam ++
    leBytes 1 r.exc ++ leBytes 1 r.tempC ++ leBytes 2 r.railMv ++ leBytes 2 r.detail16 ++ leBytes 4 r.tag ++
    leBytes 8 r.time ++ leBytes 4 r.turn ++ padTo 16 r.detail
  b ++ leBytes 4 (crc32c b)

end Sys2Proof.Machine
end

