-- ==== Sys2Proof/Machine/Pattern.lean ====
section
/-!
DEFINITION. Reading the applied pattern: sections by type and instance (R51, R56), and the fields of the DEVICE, PARTITION,
DEBUG, PRELOAD, HOST and SAFETY sections at the offsets their rules give.
-/

namespace Sys2Proof.Machine

/-- The applied section of a type and instance (R56). -/
def secOf (m : Mach) (type inst : Nat) : Option (List Byte) :=
  (m.ldr.sections.find? (fun x => x.type == type && x.instnc == inst)).map (·.bytes)

/-- The applied section, empty where the pattern has none. -/
def sec (m : Mach) (type inst : Nat) : List Byte := (secOf m type inst).getD []

/-- A little-endian field of an applied section, zero where the section is absent. -/
def secLe (m : Mach) (type inst off n : Nat) : Nat := le (sec m type inst) off n

/-- A base pattern is applied. -/
def applied (m : Mach) : Bool := (secOf m 1 0).isSome

/-! ### DEVICE (R57) -/

def packageIndex (m : Mach) : Nat := secLe m 1 0 0 1
/-- TURN_PERIOD_US in nanoseconds: P. -/
def periodNs (m : Mach) : Nat := 1000 * secLe m 1 0 4 4
/-- SERVICE_WINDOW_US in nanoseconds: W. -/
def windowNs (m : Mach) : Nat := 1000 * secLe m 1 0 8 4
def lagLimitNs (m : Mach) : Nat := 1000 * secLe m 1 0 0xC 4
def tickOffsetNs (m : Mach) : Nat := 1000 * secLe m 1 0 0x10 4
/-- The shortening step Q of R103: floor(P × f), f from 1/32 to 1/4. -/
def shortenNs (m : Mach) : Nat := periodNs m * 2 ^ (secLe m 1 0 1 1) / 32
def stagingBase (m : Mach) : Nat := secLe m 1 0 0x18 8
def hostImageBase (m : Mach) : Nat := secLe m 1 0 0x20 8

/-! ### PARTITION (R58) -/

def partRole (m : Mach) (p : Nat) : Nat := secLe m 6 p 0 1
def partStationarity (m : Mach) (p k : Nat) : Bool := bitOf (secLe m 6 p 1 1) k
def partFastest (m : Mach) (p : Nat) : Nat := secLe m 6 p 2 1
def partSlowest (m : Mach) (p : Nat) : Nat := secLe m 6 p 3 1
def kvBase (m : Mach) (p : Nat) : Nat := secLe m 6 p 8 8
def kvPages (m : Mach) (p : Nat) : Nat := secLe m 6 p 0x10 4
def kvTemporal (m : Mach) (p : Nat) : Nat := secLe m 6 p 0x14 4

/-! ### DEBUG (R64) -/

def forensicEnabled (m : Mach) : Bool := secLe m 0x12 0 0 1 == 1

/-! ### PRELOAD (R60) -/

/-- Entry `i` of the PRELOAD section. -/
def preload (m : Mach) (i : Nat) : List Byte := slice (sec m 0x10 0) (128 * i) 128
def preloadCount (m : Mach) : Nat := (sec m 0x10 0).length / 128

/-! ### HOST (R549) -/

def vfTotal (m : Mach) : Nat := secLe m 0xD 0 0 1
def queueCount (m : Mach) : Nat := secLe m 0xD 0 2 2
def regionCount (m : Mach) : Nat := secLe m 0xD 0 4 2
/-- The rings of a header field, 0xFFFF for none. -/
def ringField (m : Mach) (off : Nat) : Option Nat :=
  match secOf m 0xD 0 with
  | none => none
  | some b => if le b off 2 = 0xFFFF then none else some (le b off 2)
def errorQ (m : Mach) : Option Nat := ringField m 6
def hcErrorQ (m : Mach) : Option Nat := ringField m 8
def eventQ (m : Mach) : Option Nat := ringField m 0xA
def nvmePairs (m : Mach) : Nat := secLe m 0xD 0 0x10 1

/-- The queue entries of the HOST section. -/
def queueEntries (m : Mach) : List (List Byte) :=
  (List.range (queueCount m)).map (fun i => slice (sec m 0xD 0) (64 + 32 * i) 32)

/-- The entry of queue `q`, if the HOST section has one. -/
def queueEntry (m : Mach) (q : Nat) : Option (List Byte) := (queueEntries m).find? (fun e => le e 0 2 == q)

def qOwner (m : Mach) (q : Nat) : Nat := rd m (Reg.HOST_Q_CFG_OWNER q)
def qKind (m : Mach) (q : Nat) : Nat := rd m (Reg.HOST_Q_CFG_KIND q)
def qInHbm (m : Mach) (q : Nat) : Bool := rdb m (Reg.HOST_Q_CFG_LOCATION q)
def qCompletion (m : Mach) (q : Nat) : Nat := le ((queueEntry m q).getD []) 6 2
def qPaySlot (m : Mach) (q : Nat) : Nat := le ((queueEntry m q).getD []) 8 4
def qSpill (m : Mach) (q : Nat) : Nat := le ((queueEntry m q).getD []) 0xC 4
def qSpillBase (m : Mach) (q : Nat) : Nat := le ((queueEntry m q).getD []) 0x10 8

/-- A region of the HOST section: its first byte, its length, its owner and its access bits. -/
structure Region where
  base   : Nat
  bytes  : Nat
  owner  : Nat
  access : Nat
deriving DecidableEq, Repr

/-- The region entries of the HOST section. -/
def regions (m : Mach) : List Region :=
  let b := sec m 0xD 0
  (List.range (regionCount m)).map (fun i =>
    let o := 64 + 32 * queueCount m + 32 * i
    ⟨le b o 8, le b (o + 8) 8, le b (o + 0x10) 1, le b (o + 0x11) 1⟩)

/-- The owner code of lock `n`. -/
def lockOwner (m : Mach) (n : Nat) : Nat := secLe m 0xD 0 (64 + 32 * queueCount m + 32 * regionCount m + n) 1

/-! ### SAFETY (R510) -/

def reactDeadline (m : Mach) : Nat := secLe m 0x11 0 0 1
def reactQuarantine (m : Mach) : Nat := secLe m 0x11 0 1 1
def reactReject (m : Mach) : Nat := secLe m 0x11 0 2 1
def reactPartner (m : Mach) : Nat := secLe m 0x11 0 3 1
def rejectRun (m : Mach) : Nat := secLe m 0x11 0 4 1
def exitMode (m : Mach) : Nat := secLe m 0x11 0 5 1
def exitTurns (m : Mach) : Nat := secLe m 0x11 0 6 1
def safEthEnabled (m : Mach) (e : Nat) : Bool := bitOf (secLe m 0x11 0 7 1) e
/-- The 48 bytes of PORT[e]. -/
def safPort (m : Mach) (e : Nat) : List Byte := slice (sec m 0x11 0) (0x10 + 0x30 * e) 48

/-! ### STREAMS (R148, R149, R155) -/

def streamCount (m : Mach) : Nat := secLe m 4 0 0 2
/-- The 64-byte stream entries, in stream-table order. -/
def streamEntries (m : Mach) : List (List Byte) :=
  (List.range (streamCount m)).map (fun i => slice (sec m 4 0) (16 + 64 * i) 64)
/-- The stream numbers of the table. -/
def streamNos (m : Mach) : List Nat := (streamEntries m).map (fun e => le e 0 2)
/-- The entry of a stream, if it has one. -/
def streamEntry? (m : Mach) (i : Nat) : Option (List Byte) := (streamEntries m).find? (fun e => le e 0 2 == i)
/-- The entry of a stream, all zero where it has none. -/
def streamEntry (m : Mach) (i : Nat) : List Byte := (streamEntry? m i).getD []
def strCamera (e : List Byte) : Bool := le e 2 1 == 0
def strPort (e : List Byte) : Nat := le e 3 1
def strVc (e : List Byte) : Nat := le e 4 1
def strDt (e : List Byte) : Nat := le e 5 1
def strLc (e : List Byte) : Bool := bitOf (le e 6 1) 0
def strSafety (e : List Byte) : Bool := bitOf (le e 6 1) 1
def strPart (e : List Byte) : Nat := le e 7 1
def strWidth (e : List Byte) : Nat := le e 8 2
def strHeight (e : List Byte) : Nat := le e 0xA 2
def strEmb (e : List Byte) : Nat := le e 0xC 2
def strRoutine (e : List Byte) : Nat := le e 0xE 1
def strProfile (e : List Byte) : Nat := le e 0xF 1
def strFrameUs (e : List Byte) : Nat := le e 0x10 4
def strSlots (e : List Byte) : Nat := le e 0x16 1
def strDecim (e : List Byte) : Nat := le e 0x17 1
def strStampOff (e : List Byte) : Int := signedOf 32 (le e 0x18 4)
def strSlotBytes (e : List Byte) : Nat := le e 0x1C 4
def strRingBase (e : List Byte) : Nat := le e 0x20 8
def strRegion (e : List Byte) : Nat := le e 0x28 8
def strRegionBytes (e : List Byte) : Nat := le e 0x30 4
def strFailOnError (e : List Byte) : Bool := bitOf (le e 0x34 1) 0
def strSoftRelease (e : List Byte) : Bool := bitOf (le e 0x34 1) 1
def strBadLimit (e : List Byte) : Nat := le e 0x35 1
def strViolLimit (e : List Byte) : Nat := le e 0x36 1
def strQuarTurns (e : List Byte) : Nat := le e 0x37 1
def strQueue (e : List Byte) : Nat := le e 0x38 2
def strJitterUs (e : List Byte) : Nat := le e 0x3C 4
/-- Raw bits per sample of a data type (R144): YUV422 carries two bytes a pixel. -/
def dtBits (dt : Nat) : Nat :=
  match dt with
  | 0x1E => 16 | 0x2A => 8 | 0x2B => 10 | 0x2C => 12 | 0x2D => 14 | 0x2E => 16 | 0x2F => 20 | _ => 0
/-- LINE_BYTES of R158. -/
def lineBytes (e : List Byte) : Nat := strWidth e * dtBits (strDt e) / 8
/-- Offsets of a camera slot (R158): embedded data, lines, and the line pitch. -/
def embOff (e : List Byte) : Nat := 128 + roundUp (strHeight e * 8) 64
def linesOff (e : List Byte) : Nat := embOff e + roundUp (strEmb e) 64
def linePitch (e : List Byte) : Nat := roundUp (lineBytes e) 64
/-- The classifier entry of a range stream. -/
def clsEntries (m : Mach) : List (List Byte) :=
  (List.range (secLe m 4 0 2 2)).map (fun i => slice (sec m 4 0) (16 + 64 * streamCount m + 64 * i) 64)
def clsEntry (m : Mach) (i : Nat) : List Byte := ((clsEntries m).find? (fun e => le e 0 2 == i)).getD []

/-! ### ROUTINES, SEQFW (R298, R299, R301) -/

/-- A routine binary: where it lies in instruction memory, and its header fields. -/
structure Routine where
  index  : Nat := 0
  base   : Nat := 0            -- instruction-memory address of its first instruction
  cls    : Nat := 0
  flags  : Nat := 0
  id     : Nat := 0
  code   : Nat := 0
  const  : Nat := 0
  entry  : Nat := 0
  start  : Nat := 0
  cycles : Nat := 0
  fixed  : Nat := 0
deriving DecidableEq, Repr, Inhabited

/-- The routine whose header begins at section offset `off`, loaded at instruction-memory address `at0 + off`. -/
def readRoutine (b : List Byte) (at0 off i : Nat) : Routine :=
  { index := i, base := at0 + off + 64, cls := le b (off + 6) 1, flags := le b (off + 7) 1, id := le b (off + 8) 4,
    code := le b (off + 0xC) 4, const := le b (off + 0x10) 4, entry := le b (off + 0x14) 4, start := le b (off + 0x18) 4,
    cycles := le b (off + 0x1C) 4, fixed := le b (off + 0x20) 4 }

/-- The `n` routines from section offset `off` on, each at the next 64-byte boundary (R298). -/
def readRoutines (b : List Byte) (at0 : Nat) : Nat → Nat → Nat → List Routine
  | 0, _, _ => []
  | n + 1, off, i =>
    let r := readRoutine b at0 off i
    r :: readRoutines b at0 n (roundUp (off + 64 + r.code + r.const) 64) (i + 1)

/-- Where the ROUTINES section lies in instruction memory: behind SEQFW, at its LENGTH (R59; notes/assumptions/7.md). -/
def routinesAt (m : Mach) : Nat := (sec m 8 0).length

/-- The routines of a partition. -/
def routines (m : Mach) (p : Nat) : List Routine :=
  readRoutines (sec m 7 p) (routinesAt m) (secLe m 7 p 0 2) 64 0

def routineAt (m : Mach) (p i : Nat) : Option Routine := (routines m p).find? (fun r => r.index == i)
def budgetNs (m : Mach) (p : Nat) : Nat := secLe m 7 p 4 4
/-- Latency-critical routines in the order of R591. -/
def lcRoutines (m : Mach) (p : Nat) : List Routine :=
  sortBy (fun a b => decide (a.start ≤ b.start)) ((routines m p).filter (fun r => r.cls == 0))

/-- The last `n` bytes but `skip` of the constant pool of routine index 0: bank map and schedule block (R344, R596). -/
def constTail (m : Mach) (p fromEnd n : Nat) : List Byte :=
  match routineAt m p 0 with
  | none => []
  | some r =>
    if r.const < fromEnd then []
    else slice (sec m 7 p) (r.base - routinesAt m + r.code + r.const - fromEnd) n

/-- The schedule block (R596). -/
def schedBlock (m : Mach) (p : Nat) : List Byte := constTail m p 1088 64
/-- MODE: 0 NONE, 1 LIGHT, 2 FULL. -/
def schedMode (m : Mach) (p : Nat) : Nat := le (schedBlock m p) 0 1
def beFirst (m : Mach) (p k : Nat) : Nat := le (schedBlock m p) (4 + 4 * k) 2
def beCount (m : Mach) (p k : Nat) : Nat := le (schedBlock m p) (6 + 4 * k) 2
def drainNs (m : Mach) (p : Nat) : Nat := le (schedBlock m p) 0xC 4
def saveNs (m : Mach) (p : Nat) : Nat := le (schedBlock m p) 0x10 4
def restoreNs (m : Mach) (p : Nat) : Nat := le (schedBlock m p) 0x14 4
def saveBase (m : Mach) (p : Nat) : Nat := le (schedBlock m p) 0x18 8

/-! ### ISP (R196 to R198, R210) -/

def ispProfiles (m : Mach) : Nat := secLe m 5 0 0 1
def cycleTurns (m : Mach) : Nat := secLe m 5 0 1 1
def ispCount (m : Mach) : Nat := secLe m 5 0 2 2
def ispSlots (m : Mach) : Nat := secLe m 5 0 4 2
def ispProfile (m : Mach) (i : Nat) : List Byte := slice (sec m 5 0) (64 + 1024 * i) 1024
def ispEntries (m : Mach) : List (List Byte) :=
  (List.range (ispCount m)).map (fun i => slice (sec m 5 0) (64 + 1024 * ispProfiles m + 64 * i) 64)
def ispEntry? (m : Mach) (i : Nat) : Option (List Byte) := (ispEntries m).find? (fun e => le e 0 2 == i)
def ispEntry (m : Mach) (i : Nat) : List Byte := (ispEntry? m i).getD []
def ispSlot (m : Mach) (i : Nat) : List Byte := slice (sec m 5 0) (64 + 1024 * ispProfiles m + 64 * ispCount m + 16 * i) 16
def ispDest (e : List Byte) : Nat := le e 2 1
def ispPlanes (e : List Byte) : Nat := le e 3 1
def ispFormat (e : List Byte) : Nat := le e 4 1
def ispCore (e : List Byte) : Nat := le e 5 1
def ispOutW (e : List Byte) : Nat := le e 6 2
def ispOutH (e : List Byte) : Nat := le e 8 2
def ispOutSlots (e : List Byte) : Nat := le e 0xA 1
def ispStats (e : List Byte) : Nat := le e 0xB 1
def ispScrOffset (e : List Byte) : Nat := le e 0xC 4
def ispOutBase (e : List Byte) : Nat := le e 0x10 8
def ispRegion (e : List Byte) : Nat := le e 0x18 8
def ispRegionBytes (e : List Byte) : Nat := le e 0x20 4
def ispSlotBytes (e : List Byte) : Nat := le e 0x24 4
def ispStatsBase (e : List Byte) : Nat := le e 0x28 8
def ispTapBase (e : List Byte) : Nat := le e 0x30 8
def ispTapBytes (e : List Byte) : Nat := le e 0x38 4
def rowPitch (e : List Byte) : Nat := roundUp (ispOutW e) 64
def planeStride (e : List Byte) : Nat := roundUp (rowPitch e * ispOutH e) 4096
/-- Bytes of the planar tensor (R220). -/
def tensorBytes (e : List Byte) : Nat := ispPlanes e * planeStride e

end Sys2Proof.Machine
end

