-- ==== Sys2Proof/Machine/Log.lean ====
section
/-!
DEFINITION. Out-going rings (R550 to R557), their interrupts (R566), the error log (R485, R533, R557, R576), host-interface
events (R579 to R582), event records (R563), and the safe state's entry and reactions (R506 to R513, R538 to R540).
-/

namespace Sys2Proof.Machine

/-! ### Functions and rings -/

/-- A function's Bus Master Enable, by owner code: the host cluster's rings are never on PCIe. -/
def busMaster (m : Mach) (owner : Nat) : Bool := (mget m.funcs (owner - 1)).busMaster

/-- Whether the FK8 can write a ring: LOCATION 1, or its owner's Bus Master Enable is 1 (R553). -/
def reachable (m : Mach) (q : Nat) : Bool := qInHbm m q || busMaster m (qOwner m q)

/-- States of HOST_Q_STATUS.STATE (R585). -/
def qState (m : Mach) (q : Nat) : Nat := rd m (Reg.HOST_Q_STATUS_STATE q)

/-- Entries a ring holds: PROD − CONS modulo 2^32 (R550). -/
def qHeld (m : Mach) (q : Nat) : Nat := (rd m (Reg.HOST_Q_PROD q) + 2 ^ 32 - rd m (Reg.HOST_Q_CONS q)) % 2 ^ 32

/-- 2^k of an enabled ring (R551). -/
def qSize (m : Mach) (q : Nat) : Nat := 2 ^ (mget m.rings q).k

/-- Write bytes where a ring's owner sees them: HBM, or the owner's bus space (R553). -/
def ringWrite (q a : Nat) (bs : List Byte) (m : Mach) : Mach :=
  if qInHbm m q then writeMem a bs m else emit (.busWrite (qOwner m q) a bs) m

/-- Change a ring's own state. -/
def modRing (q : Nat) (f : Ring → Ring) (m : Mach) : Mach := { m with rings := mmod m.rings q f }

/-- Change a function's own state. -/
def modFunc (v : Nat) (f : Func → Func) (m : Mach) : Mach := { m with funcs := mmod m.funcs v f }

/-- A word of a function's MSI-X table: four to a vector, whose control word, the last, starts with its mask bit set. -/
def msixWord (f : Func) (w : Nat) : Nat := getD (b2n (w % 4 == 3)) f.msixTab w

/-- Send an MSI-X message of a function, or leave it pending: masked, or the function in D3hot (R545, R566). -/
def sendMsix (v vec : Nat) (m : Mach) : Mach :=
  let f := mget m.funcs v
  if f.d3hot || bitOf (msixWord f (4 * vec + 3)) 0 then
    if f.msixPending.contains vec then m else modFunc v (fun f => { f with msixPending := f.msixPending ++ [vec] }) m
  else emit (.msix v vec) m

/-- A ring signals its vector, or its host-cluster core (R566, R570). -/
def ringSignal (q : Nat) (m : Mach) : Mach :=
  let vec := rd m (Reg.HOST_Q_IRQ_VECTOR q)
  let m := modRing q (fun r => { r with unsignalled := 0, firstPlaced := none }) m
  if qOwner m q = 0x41 then
    wr (Reg.HOST_HC_QPEND (vec % 16) (q / 32) (q % 32)) 1 m
  else sendMsix (qOwner m q - 1) vec m

/-- After a placement: signal at COUNT placements, or at once where TIME is 0 (R566, R586). -/
def ringPlaced (q : Nat) (m : Mach) : Mach :=
  let m := modRing q (fun r => { r with unsignalled := r.unsignalled + 1, firstPlaced := r.firstPlaced <|> some (now m) }) m
  if !rdb m (Reg.HOST_Q_IRQ_IRQ_EN q) then m
  else if rd m (Reg.HOST_Q_IRQ_TIME q) = 0 ∨ rd m (Reg.HOST_Q_IRQ_COUNT q) ≤ (mget m.rings q).unsignalled then
    ringSignal q m
  else m

/-- Write an entry at PROD, then the index block, then the interrupt, in that order (R552). -/
def ringPut (q : Nat) (entry : List Byte) (m : Mach) : Mach :=
  let r := mget m.rings q
  let i := rd m (Reg.HOST_Q_PROD q)
  let m := ringWrite q (r.base + i % 2 ^ r.k * 64) entry m
  let m := wr (Reg.HOST_Q_PROD q) (i + 1) m
  let m := ringWrite q (r.base + 2 ^ r.k * 64) (leBytes 4 ((i + 1) % 2 ^ 32)) m
  let m := inc (Reg.HOST_Q_CNT_PLACED q) m
  ringPlaced q m

/-- Whether a ring of KIND 4 or 5 takes a record: ENABLED with a free entry, and writable (R557). -/
def ringTakes (m : Mach) (q : Nat) : Bool :=
  qState m q == 1 && decide (qHeld m q < qSize m q) && reachable m q

/-- An enabled ring whose owner's Bus Master Enable is 0 moves to ERROR with code 5 at the record it cannot place
(R553). -/
def ringUnreachable (q : Nat) (m : Mach) : Mach :=
  if qState m q = 1 ∧ !reachable m q then
    m |> wr (Reg.HOST_Q_STATUS_STATE q) 3 |> wr (Reg.HOST_Q_STATUS_ERROR q) 5
  else m

/-! ### The error log -/

/-- The partition of a unit path of the compute die, for its turn number, rail and sensors (R45). A spare's rail is
that of the partition it serves (R485). -/
def pathPart (m : Mach) (path : Nat) : Option Nat :=
  let die := bitsAt path 27 2
  let g := bitsAt path 22 5
  if die ≠ 0 then none
  else if g < 8 then some g
  else if g = 8 then
    if bitsAt path 16 6 = 0 then
      if rdb m Reg.SAF_SPARE_MAP_S0_IN_USE then some (rd m Reg.SAF_SPARE_MAP_S0_PART) else none
    else if rdb m Reg.SAF_SPARE_MAP_S1_IN_USE then some (rd m Reg.SAF_SPARE_MAP_S1_PART + 4) else none
  else none

/-- First sensor and number of sensors of the unit a path names (R652): which of several lies nearest is open. -/
def pathSensors (path : Nat) : Nat × Nat :=
  let die := bitsAt path 27 2
  let g := bitsAt path 22 5
  if die = 1 then (48, 16)
  else if die ≠ 0 then (0, 48)
  else if g < 8 then (4 * g, 4)
  else if g = 8 then (32 + 2 * (bitsAt path 16 6 % 2), 2)
  else if g = 9 then (36, 4)
  else if g = 14 ∨ g = 15 then (40, 2)
  else if 10 ≤ g ∧ g ≤ 13 then (42, 2)
  else if g = 21 then (44, 1)
  else if g = 22 then (45, 1)
  else if g = 20 then (46, 1)
  else if g = 16 then (47, 1)
  else (0, 48)

/-- TEMP_C and RAIL_MV of a record: the sensor of the unit (one of them, a free choice, where it has several), and the
partition's rail; the rail of any other unit is a free value (notes/assumptions/3.md). -/
def sampleUnit (path : Nat) (m : Mach) : (Nat × Nat) × Mach :=
  let (first, count) := pathSensors path
  let (d, m) := draw 6 m
  let t := rd m (Reg.PWR_TEMP_C (first + d % count))
  match pathPart m path with
  | some p => ((t, rd m (Reg.PWR_PART_RAIL_MEASURED p)), m)
  | none => let (v, m) := draw 16 m; ((t, v), m)

/-- The ring that takes an error record: ERROR_Q; a HOST_IF record that ERROR_Q cannot take goes to HC_ERROR_Q while
the PF is resetting, while its Bus Master Enable is 0 and ERROR_Q has LOCATION 0, or where ERROR_Q is 0xFFFF (R576). -/
def errorRing (m : Mach) (hostIf : Bool) : Option Nat :=
  match errorQ m with
  | some q =>
    if hostIf && ((mget m.funcs 0).resetting || (!(mget m.funcs 0).busMaster && !qInHbm m q)) then hcErrorQ m
    else some q
  | none => if hostIf then hcErrorQ m else none

/-- Place an error record on its ring, or count it lost (R557, R576). -/
def placeError (r : LogRec) (m : Mach) : Mach :=
  match errorRing m (r.source == 0x5E) with
  | none => inc Reg.HOST_CNT_ERRLOG_LOST m
  | some q =>
    if ringTakes m q then ringPut q r.bytes m
    else m |> ringUnreachable q |> inc Reg.HOST_CNT_ERRLOG_LOST

/-- Records with this unit path and source so far (R485). -/
def logCountOf (m : Mach) (path source : Nat) : Nat := getD 0 m.logCount (path * 256 + source)

/-- Write an error record (R485, R533): its sequence, count, time, turn and samples are taken here. -/
def logErr (r : LogRec) (m : Mach) : Mach :=
  let ((t, rail), m) := sampleUnit r.path m
  let seq := (rd m Reg.SAF_LOG_SEQ + 1) % 2 ^ 32
  let cnt := satAdd 65535 (logCountOf m r.path r.source) 1
  let turn := match pathPart m r.path with
    | some p => if bitsAt r.path 22 5 < 8 then rd m (Reg.TC_TURN_NUMBER p) else gridTurn m
    | none => gridTurn m
  let r := { r with seq := seq, count := cnt, tq := tq m, time := now m, turn := turn, tempC := t, railMv := rail }
  let m := { m with log := (r :: m.log).take 4096, logCount := setD 0 m.logCount (r.path * 256 + r.source) cnt }
  let m := wr Reg.SAF_LOG_SEQ seq m
  let m := if r.fatal then wr Reg.SAF_LAST_FATAL_SEQ seq m else m
  placeError r m

/-- A unit path in this package. -/
def upath (m : Mach) (die group index elem row col : Nat) : Nat := unitPath (packageIndex m) die group index elem row col

/-- 0.C.p.E for a partition-level element: Q 6, DM 7, KW 8, MC 9, VR 10 (R45). -/
def pathPartElem (m : Mach) (p elem : Nat) : Nat := upath m 0 p 63 elem 63 63

/-- A group of the compute die with no further field. -/
def pathGroup (m : Mach) (g : Nat) : Nat := upath m 0 g 63 0 63 63

/-- The physical core that serves core `k` of partition `p` (R22, R44). -/
def pathCore (m : Mach) (p k elem row col : Nat) : Nat :=
  if p < 4 ∧ rdb m Reg.SAF_SPARE_MAP_S0_IN_USE ∧ rd m Reg.SAF_SPARE_MAP_S0_PART = p ∧
      rd m Reg.SAF_SPARE_MAP_S0_CORE = k then upath m 0 8 0 elem row col
  else if 4 ≤ p ∧ rdb m Reg.SAF_SPARE_MAP_S1_IN_USE ∧ rd m Reg.SAF_SPARE_MAP_S1_PART = p - 4 ∧
      rd m Reg.SAF_SPARE_MAP_S1_CORE = k then upath m 0 8 1 elem row col
  else upath m 0 p k elem row col

/-! ### Host-interface events (R579 to R582) -/

/-- Event codes of R582. -/
inductive HostEvent where
  | ur | outOfView | writeRefused | resetVfDesc | resetVf | queueError | notOpened | lockRefused | badIndex
  | ringUnreachable
deriving DecidableEq, Repr

def HostEvent.code : HostEvent → Nat
  | .ur => 1 | .outOfView => 2 | .writeRefused => 3 | .resetVfDesc => 4 | .resetVf => 5 | .queueError => 6
  | .notOpened => 7 | .lockRefused => 8 | .badIndex => 9 | .ringUnreachable => 10

/-- Write a HOST_IF record (R579): its path is that of the PCIe endpoint, the queue manager or the lock table that
raises it (notes/assumptions/6.md). -/
def hostIf (e : HostEvent) (req thing index descTag addr tag : Nat) (m : Mach) : Mach :=
  let g := match e with
    | .queueError | .notOpened | .badIndex | .ringUnreachable | .resetVfDesc | .resetVf => 18
    | .lockRefused => 19
    | _ => 16
  logErr { path := pathGroup m g, source := 0x5E, tag := tag,
           detail := leBytes 1 e.code ++ leBytes 1 req ++ leBytes 2 thing ++ leBytes 4 index ++ leBytes 4 descTag ++
             leBytes 4 addr } m

/-- A UR, OUT_OF_VIEW or WRITE_REFUSED record: the address as presented, and its space (R580). -/
def hostIfAddr (e : HostEvent) (w : Requester) (space addr : Nat) (m : Mach) : Mach :=
  hostIf e (reqCode w) 0 (bitsAt addr 32 8 + space * 256) 0 (addr % 2 ^ 32) 0 m

/-- An access that is not performed (R34): bus error or Unsupported Request, counted and logged. -/
def refuseAccess (w : Requester) (space addr : Nat) (m : Mach) : Mach :=
  let m := if isPcie w then m |> emit (.unsupported w) |> inc Reg.HOST_CNT_UR else emit (.busError w) m
  hostIfAddr .ur w space addr m

/-! ### Event records (R563) -/

/-- STATUS codes (R630). -/
def Status.code : Status → Nat
  | .ok => 0 | .late => 1 | .failedFault => 2 | .failedData => 3 | .failedReset => 4 | .failedDeadline => 5
  | .invalidSafe => 6 | .skippedQuickstep => 7 | .resetVf => 8

/-- The 64-byte header of a record (R561) with the CRC over header and payload (R241). -/
def Rec.bytes (r : Rec) (spilled : Bool) (payAddr ringSeq : Nat) : List Byte :=
  let pay := r.fixed.payload
  let b := leBytes 4 r.tag ++ leBytes 1 (r.fixed.status.code + r.kind * 16) ++
    leBytes 1 (recFlags r.stampTq r.decidedTq (!pay.isEmpty) spilled) ++ leBytes 2 r.fixed.userFlags ++
    leBytes 4 r.itemFlags ++ leBytes 2 r.ispFlags ++ leBytes 1 r.fixed.reason ++ [0] ++
    leBytes 8 r.stamp ++ leBytes 8 r.decided ++ leBytes 4 r.turn ++ leBytes 4 r.fixed.userWord ++
    (if r.kind = 2 then leBytes 8 r.step else leBytes 8 (if pay.isEmpty then 0 else payAddr)) ++
    leBytes 4 (if r.kind = 2 then 0 else pay.length) ++ leBytes 4 ringSeq ++ leBytes 4 r.descTag
  b ++ leBytes 4 (crc32c (b ++ pay))

/-- Write an EVENT ring entry (R563): code 1 TIME_STEP, 2 SOURCE_CHANGE; `step` is the signed step in ns. A record that no
ring takes is counted (R557). -/
def eventRec (code instant : Nat) (step : Int) (m : Mach) : Mach :=
  match eventQ m with
  | none => inc Reg.HOST_CNT_EVENT_LOST m
  | some q =>
    if ringTakes m q then
      let r : Rec := { queue := q, kind := 2, tag := code, stamp := instant, stampTq := tq m, decided := now m,
                       decidedTq := tq m, turn := gridTurn m, step := fieldOf 64 step }
      ringPut q (r.bytes false 0 (rd m (Reg.HOST_Q_PROD q))) m
    else m |> ringUnreachable q |> inc Reg.HOST_CNT_EVENT_LOST

/-! ### The safe state (R506 to R513, R538, R539) -/

/-- Codes of R538. -/
def Cause.code : Cause → Nat
  | .notStarted => 1 | .islandVote => 2 | .islandWdog => 3 | .faultCollector => 4 | .caller => 5 | .xoTime => 6
  | .ucie => 7 | .hbmTrain => 8 | .extest => 9 | .debugHalt => 10 | .hostRequest => 11 | .reload => 12
  | .deadline => 13 | .quarantine => 14 | .reject => 15 | .partner => 16 | .selftest => 17 | .lifecycle => 18
  | .power => 19 | .islandMemory => 20

/-- Whether a cause is a class F fault: its SAFE_ENTER record carries FATAL (R540). -/
def Cause.classF (c : Cause) : Bool :=
  (decide (2 ≤ c.code) && decide (c.code ≤ 9)) || c.code == 17 || c.code == 19 || c.code == 20

/-- In the safe state. -/
def inSafe (m : Mach) : Bool := rd m Reg.SAF_STATUS_STATE == 2

/-- Pair mode or resynchronising (R513, R530). -/
def pairMode (m : Mach) : Bool := rd m Reg.SAF_STATUS_ISLAND_MODE != 0

/-- The DEGRADE byte of R527: each condition of R513 that holds and whose reaction is DEGRADE, and pair mode, which a fenced core
raises (R530) and a resynchronisation does not (notes/assumptions/24.md). -/
def degradeByte (m : Mach) : Nat :=
  b2n (m.saf.condDeadline && reactDeadline m == 1) + 2 * b2n (!m.saf.condQuar.isEmpty && reactQuarantine m == 1) +
    4 * b2n (!m.saf.condReject.isEmpty && reactReject m == 1) + 8 * b2n (m.saf.condPartner && reactPartner m == 1) +
    16 * b2n (rd m Reg.SAF_STATUS_ISLAND_MODE == 2)

/-- Unit path of the island, or of one of its cores. -/
def pathIsland (m : Mach) (core : Nat) : Nat := upath m 0 10 core 0 63 63

/-- SAF_CAUSE and SAF_STATUS.STATE as the conditions and the causes held give them (R527, R542, R543); a DEGRADE record
when a condition is added (R513, R540). -/
def refreshSafe (m : Mach) : Mach :=
  let old := rd m Reg.SAF_CAUSE_DEGRADE
  let d := degradeByte m
  let m := wr Reg.SAF_CAUSE_DEGRADE d m
  let m := wr Reg.SAF_CAUSE_SAFE_CAUSE ((m.saf.causes.head?.map Cause.code).getD 0) m
  let m := wr Reg.SAF_STATUS_STATE (if m.saf.latchA || m.saf.latchB then 2 else if d = 0 then 0 else 1) m
  if (List.range 5).any (fun i => bitOf d i && !bitOf old i) then
    m |> logErr { path := pathIsland m 63, source := 0x42, detail := leBytes 4 d } |> inc Reg.SAF_CNT_DEGRADE
  else m

/-- An accepted exit ends without its effect (R539). -/
def endExit (m : Mach) : Mach :=
  let m := { m with saf := { m.saf with exit := none } }
  wrb Reg.SAF_STATUS_EXIT_PENDING false m

/-- Enter the safe state for a cause (R506, R507): both latches, SAFE_n low, the cause held behind those held already, a new
EXIT_TOKEN and a SAFE_ENTER record (R539, R540). A cause already held adds nothing (notes/assumptions/8.md). -/
def enterSafe (c : Cause) (m : Mach) : Mach :=
  let m := endExit m
  let held := m.saf.causes.contains c
  let m := { m with saf := { m.saf with latchA := true, latchB := true,
                                        causes := if held then m.saf.causes else m.saf.causes ++ [c] } }
  let m := wr Reg.SAF_STATUS_SAFE_N 0 m
  if held then refreshSafe m
  else
    let (t, m) := draw 16 m
    m |> wr Reg.SAF_STATUS_EXIT_TOKEN t |> inc Reg.SAF_CNT_SAFE_ENTRIES |> refreshSafe
      |> logErr { path := pathIsland m 63, source := 0x40, fatal := c.classF, detail := leBytes 4 c.code }

/-- A fatal indication (R507, R512): its record, the first path since PORST_n (R541), and the safe state. -/
def fatal (c : Cause) (r : LogRec) (m : Mach) : Mach :=
  let m := if rd m Reg.SAF_FATAL_PATH = 0 then wr Reg.SAF_FATAL_PATH r.path m else m
  m |> logErr { r with fatal := true } |> enterSafe c

/-- A reaction of R513 to an event with its record: 0 REPORT, 1 DEGRADE (through `refreshSafe`), 2 SAFE. -/
def react (code : Nat) (c : Cause) (r : LogRec) (m : Mach) : Mach :=
  let m := logErr r m
  if code = 2 then enterSafe c m else refreshSafe m

end Sys2Proof.Machine
end

