-- ==== Sys2Proof/Machine/Items.lean ====
section
/-!
DEFINITION. Items and their records: tags (R153), reservations (R555), the status an item is given and the decision of
its record in stream order (R105, R523, R628 to R631), and the counts of timing-dependent choices (R665, R666).
-/

namespace Sys2Proof.Machine

/-! ### Timing-dependent choices -/

/-- Count an event of R665 on partition `p`; `pc` is the instruction's address where the event is charged to a running
routine. -/
def detEvent (p cause : Nat) (pc : Option Nat) (m : Mach) : Mach :=
  let m := inc (Reg.TC_DET_CNT p cause) m
  match pc with
  | none => m
  | some a =>
    let first := rd m (Reg.TC_DET_RUN p) = 0
    let m := inc (Reg.TC_DET_RUN p) m
    if first then
      let rep := ((mget m.seqs p).run.map (fun r => r.replayOf.isSome)).getD false
      m |> wr (Reg.TC_DET_FIRST_CAUSE p) cause |> wrb (Reg.TC_DET_FIRST_REPLAY p) rep |> wr (Reg.TC_DET_FIRST_PC p) a
    else m

/-- The instruction a partition's running routine stands at; none where no routine runs. -/
def runningPc (m : Mach) (p : Nat) : Option Nat :=
  if (mget m.seqs p).run.isSome then some (rd m (Reg.TC_SEQ_PC p)) else none

/-! ### Tags and times -/

/-- The tag of sequence `q` of stream `i` (R153). -/
def tagOf (i q : Nat) : Nat := i % 1024 * 2 ^ 22 + q % 2 ^ 22

/-- Stream and sequence of a tag. -/
def tagStream (t : Nat) : Nat := t / 2 ^ 22
def tagSeq (t : Nat) : Nat := t % 2 ^ 22

/-- The tag of the item of the same stream whose sequence is one lower. -/
def tagPred (t : Nat) : Nat := tagOf (tagStream t) (tagSeq t + 2 ^ 22 - 1)

/-- The tag of the item of the same stream whose sequence is one higher. -/
def tagSucc (t : Nat) : Nat := tagOf (tagStream t) (tagSeq t + 1)

/-- Change an item. -/
def modItem (t : Nat) (f : Item → Item) (m : Mach) : Mach :=
  match lookup m.items t with
  | none => m
  | some it => { m with items := insertKey (eraseKey m.items t) t (f it) }

/-! ### Reservations (R555) -/

/-- Whether a RESULT or COMPLETION ring takes one more reservation. -/
def canReserve (m : Mach) (q : Nat) : Bool :=
  qState m q == 1 &&
    decide (qHeld m q + (mget m.rings q).spill.length + rd m (Reg.HOST_Q_STATUS_RESERVED q) < qSize m q + qSpill m q)

/-- Take a reservation; it ends an episode of NOT_OPENED. -/
def reserve (q : Nat) (m : Mach) : Mach :=
  m |> inc (Reg.HOST_Q_STATUS_RESERVED q) |> modRing q (fun r => { r with notOpened := false })

/-- Give a reservation back. A DRAINING ring whose last one goes becomes DISABLED (R554). -/
def unreserve (q : Nat) (m : Mach) : Mach :=
  let n := rd m (Reg.HOST_Q_STATUS_RESERVED q)
  let m := wr (Reg.HOST_Q_STATUS_RESERVED q) (n - 1) m
  if qState m q = 2 ∧ n ≤ 1 ∧ (mget m.rings q).spill.isEmpty then wr (Reg.HOST_Q_STATUS_STATE q) 0 m else m

/-- A frame is not opened for want of a reservation: counted, and logged once per episode. -/
def notOpened (q : Nat) (m : Mach) : Mach :=
  let m := inc (Reg.HOST_Q_CNT_NOT_OPENED q) m
  if (mget m.rings q).notOpened then m
  else m |> modRing q (fun r => { r with notOpened := true }) |> hostIf .notOpened 0 q 0 0 0 0

/-! ### Slots (R161, R166, R205) -/

/-- The raw slots of a stream that are not FREE, and whether a ring retires (R190). -/
def syncStream (i : Nat) (m : Mach) : Mach :=
  let st := mget m.streams i
  let r := (st.retire.map (·.slots.length)).getD 0
  m |> wr (Reg.ING_STR_STATUS_HELD i) (min 127 (st.ring.slots.length + r))
    |> wrb (Reg.ING_STR_STATUS_RETIRING i) (r != 0)
    |> wrb (Reg.ING_STR_STATUS_FRAME_OPEN i) st.frame.isSome

/-- Free the slot of a generation: the active ring's, or the retiring ring's, which stops retiring at its last (R166). -/
def freeSlot (i slot gen : Nat) (m : Mach) : Mach :=
  let f (st : Stream) : Stream :=
    if st.ring.gen = gen then { st with ring := { st.ring with slots := eraseKey st.ring.slots slot } }
    else match st.retire with
      | none => st
      | some r =>
        let l := eraseKey r.slots slot
        { st with retire := if l.isEmpty then none else some { r with slots := l } }
  syncStream i { m with streams := mmod m.streams i f }

/-- Whether a slot of a generation is HELD. -/
def slotHeld (m : Mach) (i slot gen : Nat) : Bool :=
  let st := mget m.streams i
  let l := if st.ring.gen = gen then st.ring.slots else (st.retire.map (·.slots)).getD []
  lookup l slot == some true

/-- ISP_STR_STATUS of a stream: items waiting, and versions in use: active, pending, or bound to an item whose job has not
ended (R226, R229). -/
def syncIsp (i : Nat) (m : Mach) : Mach :=
  let used (x : IspStream) (v : IspVer) : Bool :=
    v.id == x.active || x.pending == some v.id || x.bound.any (fun b => b.2 == v.id)
  let m := { m with isps := mmod m.isps i (fun x => { x with vers := x.vers.filter (used x) }) }
  let x := mget m.isps i
  m |> wr (Reg.ISP_STR_STATUS_VERSIONS i) x.vers.length
    |> wr (Reg.ISP_STR_STATUS_WAITING i) (min 63 x.waiting.length)
    |> wrb (Reg.ISP_STR_APPLY_PENDING i) x.pending.isSome

/-- An item's job has ended, or no job takes it any more: its version is free of it. -/
def unbindIsp (t : Nat) (m : Mach) : Mach :=
  let i := tagStream t
  syncIsp i { m with isps := mmod m.isps i (fun x =>
    { x with waiting := x.waiting.filter (fun w => w.1 != t), bound := x.bound.filter (fun b => b.1 != t) }) }

/-- Whether a job of a pipe runs or waits for an item. -/
def inPipe (m : Mach) (t : Nat) : Bool :=
  m.pipes.any (fun p => (p.2.job.map (fun j => j.tag == t)).getD false)

/-! ### Status and decision -/

/-- Whether an item's record may be decided: its status is fixed, its predecessor is decided (R628), and a SAFETY item
placed in a turn has its verdict (R523). -/
def decidable (m : Mach) (t : Nat) : Bool :=
  match lookup m.items t with
  | none => false
  | some it => it.fixed.isSome && (lookup m.items (tagPred t)).isNone &&
      (!it.safety || it.turnOf.isNone || it.verdict.isSome)

/-- The status an item's record carries: a rejected grid turns OK and LATE into INVALID_SAFE (R523, R631). -/
def finalOf (it : Item) (f : Fixed) : Fixed :=
  if it.verdict = some false ∧ (f.status = .ok ∨ f.status = .late) then
    { f with status := .invalidSafe, reason := 0x90 }
  else f

/-- Causes of R665 at a decision: a status by time. -/
def decidedByTime (m : Mach) (t : Nat) (st : Status) : Bool :=
  st == .late || st == .failedDeadline || st == .skippedQuickstep ||
    (st == .invalidSafe && (getD 0 m.saf.reasons t == 3 || getD 0 m.saf.reasons t == 4 || getD 0 m.saf.reasons t == 5))

/-- Decide an item's record (R105, R556): it joins the decided records, its output slots become FREE (R205), and a raw
slot that no job takes any more is freed (R161). -/
def decideItem (t : Nat) (m : Mach) : Mach :=
  match lookup m.items t with
  | none => m
  | some it =>
    let f := finalOf it (it.fixed.getD {})
    let r : Rec := { queue := it.queue, kind := 0, tag := t, fixed := f, itemFlags := it.itemFlags, ispFlags := it.ispFlags,
                     stamp := it.stamp, stampTq := it.stampTq, decided := now m, decidedTq := tq m,
                     turn := rd m (Reg.TC_TURN_NUMBER it.part), orphan := it.orphan }
    let m := if decidedByTime m t f.status then detEvent it.part 6 none m else m
    let m := { m with decided := m.decided ++ [r], items := eraseKey m.items t,
                      isps := mmod m.isps it.stream (fun x => { x with held := x.held.filter (fun h => h.2 != t) }) }
    let m := if f.status = .failedDeadline then { m with deadlined := t :: m.deadlined } else m
    let m := if inPipe m t then m else unbindIsp t m
    if it.hasSlot && !it.range && it.closed && !inPipe m t then freeSlot it.stream it.slot it.gen m else m

/-- Decide an item and the items of its stream that wait behind it (R628). -/
def decideFrom : Nat → Nat → Mach → Mach
  | 0, _, m => m
  | n + 1, t, m => if decidable m t then decideFrom n (tagSucc t) (decideItem t m) else m

/-- Decide what can be decided from an item on. -/
def tryDecide (t : Nat) (m : Mach) : Mach := decideFrom (m.items.length + 1) t m

/-- Fix an item's status (R628, R630); an item whose status is fixed keeps it (R629). -/
def fixItem (t : Nat) (f : Fixed) (m : Mach) : Mach :=
  match lookup m.items t with
  | none => m
  | some it =>
    if it.fixed.isSome then m
    else m |> modItem t (fun it => { it with fixed := some f }) |> tryDecide t

/-- An item fails with a status and a reason (R631). -/
def failItem (t : Nat) (st : Status) (reason : Nat) (m : Mach) : Mach := fixItem t { status := st, reason := reason } m

/-- REASON codes of R631 and R562. -/
def Reason.badDesc : Nat := 1
def Reason.badLength : Nat := 2
def Reason.bounds : Nat := 3
def Reason.role : Nat := 4
def Reason.payloadSize : Nat := 5
def Reason.hostIo : Nat := 6
def Reason.nvmeError : Nat := 7
def Reason.noStorage : Nat := 8
def Reason.ingress : Nat := 0x80
def Reason.pipe : Nat := 0x81
def Reason.fifoFull : Nat := 0x82
def Reason.seam : Nat := 0x83
def Reason.exception : Nat := 0x84
def Reason.permanent : Nat := 0x85
def Reason.restartLimit : Nat := 0x86
def Reason.hang : Nat := 0x87
def Reason.replayLimit : Nat := 0x88
def Reason.scratchLost : Nat := 0x89
def Reason.rescueFailed : Nat := 0x8A
def Reason.reset : Nat := 0x8B
def Reason.alteration : Nat := 0x8C
def Reason.halted : Nat := 0x8D
def Reason.deadline : Nat := 0x8E
def Reason.quickstep : Nat := 0x8F
def Reason.caller : Nat := 0x90

/-- The deadline of a latency-critical item: its stamp, its frame duration and 2P (R105). -/
def itemDeadline (m : Mach) (e : List Byte) (stamp : Nat) : Nat := stamp + 1000 * strFrameUs e + 2 * periodNs m

/-- The turn in which an item's routine is placed (R105; notes/assumptions/9.md): the grid turn under way where the
routine's planned start has not passed, else the next. -/
def placeTurn (t : Nat) (m : Mach) : Mach :=
  match lookup m.items t with
  | none => m
  | some it =>
    let start := ((routineAt m it.part it.routine).map (·.start)).getD 0
    let g := rd m Reg.TIME_TURN_TICK
    let n := if now m ≤ g + windowNs m + start then gridTurn m else (gridTurn m + 1) % 2 ^ 32
    modItem t (fun it => { it with turnOf := some n }) m

/-- Open an item of stream `i` (R153): its tag takes the stream's next sequence, and its reservation is taken (R555). The
first item behind missing-frame items carries LATE_START (R168); `miss` is a missing-frame item. -/
def openItem (i : Nat) (miss : Bool) (it : Item) (m : Mach) : Mach :=
  let e := streamEntry m i
  let st := mget m.streams i
  let q := strQueue e
  let it := { it with stream := i, seq := st.seq, part := strPart e, routine := strRoutine e, lc := strLc e,
                      safety := strSafety e, range := !strCamera e, queue := q, stampTq := tq m,
                      deadline := itemDeadline m e it.stamp,
                      itemFlags := it.itemFlags ||| (if st.late && !miss then 2 ^ 7 else 0) }
  let m := reserve q m
  let m := { m with items := insertKey (eraseKey m.items (tagOf i st.seq)) (tagOf i st.seq) it,
                    streams := mmod m.streams i (fun s => { s with seq := (s.seq + 1) % 2 ^ 22, late := miss }) }
  inc (Reg.ING_STR_CNT_ITEMS i) m

end Sys2Proof.Machine
end

