-- ==== Sys2Proof/Machine/Reach.lean ====
section
/-!
DEFINITION. Who reaches what (R35 to R39): BAR0 offsets and device addresses of the register blocks (R36), the view of a VF
(R39), the write permissions of registers, and the guard every register write passes.
-/

namespace Sys2Proof.Machine

/-- One row of R36: device base, device stride, count, span, BAR0 offset, BAR0 stride. -/
structure BlockRow where
  dev    : Nat
  stride : Nat
  count  : Nat
  span   : Nat
  bar    : Nat
  barStr : Nat
deriving DecidableEq, Repr

/-- The register blocks (R36) but the function status page, which has no device address. -/
def blockRows : List BlockRow := [
  ⟨0x7F00000000, 0, 1, 0x10000, 0, 0⟩,
  ⟨0x7F00100000, 0, 1, 0x10000, 0x10000, 0⟩,
  ⟨0x7F01000000, 0, 1, 0x400000, 0x400000, 0⟩,
  ⟨0x7F02000000, 0, 1, 0x100000, 0x800000, 0⟩,
  ⟨0x7F10000000, 0x1000000, 8, 0x100000, 0x1000000, 0x100000⟩,
  ⟨0x7F20000000, 0x10000, 32, 0x10000, 0x1800000, 0x10000⟩,
  ⟨0x7F30000000, 0x100000, 4, 0x10000, 0x1A00000, 0x10000⟩,
  ⟨0x7F40000000, 0, 1, 0x100000, 0x1B00000, 0⟩,
  ⟨0x7F41000000, 0, 1, 0x100000, 0x2000000, 0⟩,
  ⟨0x7F42000000, 0, 1, 0x10000, 0x2100000, 0⟩,
  ⟨0x7F50000000, 0, 1, 0x10000, 0x2200000, 0⟩,
  ⟨0x7F60000000, 0, 1, 0x10000, 0x2300000, 0⟩,
  ⟨0x7F70000000, 0, 1, 0x100000, 0x2400000, 0⟩]

/-- Offset of the function status page in BAR0 (R36). -/
def statusPage : Nat := 0x1FFF000

/-- A row's image of an address in another map. -/
def mapRow (fromB fromS count span toB toS a : Nat) : Option Nat :=
  if a < fromB then none
  else
    let i := if fromS = 0 then 0 else (a - fromB) / fromS
    let o := a - fromB - i * fromS
    if i < count ∧ o < span then some (toB + i * toS + o) else none

/-- The device address of a BAR0 offset, if a row of R36 holds it. -/
def barToDev (off : Nat) : Option Nat :=
  blockRows.findSome? (fun r => mapRow r.bar r.barStr r.count r.span r.dev r.stride off)

/-- The BAR0 offset of a register's device address. -/
def devToBar (a : Nat) : Option Nat :=
  blockRows.findSome? (fun r => mapRow r.dev r.stride r.count r.span r.bar r.barStr a)

/-- Whether a device address lies in a register block's span. -/
def inBlock (a : Nat) : Bool := (devToBar a).isSome

/-- The address of a register as a requester presents it (R580): a BAR0 offset over PCIe. -/
def presented (w : Requester) (a : Nat) : Nat := if isPcie w then (devToBar a).getD a else a

/-- SPACE of R580 for a register access. -/
def regSpace (w : Requester) : Nat := if isPcie w then 1 else 0

/-- What becomes of an access to the register space. -/
inductive Reach where
  | ok (dev : Nat)          -- a register block's address
  | status (off : Nat)      -- the function status page
  | outOfView               -- a VF outside its view (R39)
  | unpopulated             -- R34, R35, R37
  | resetting               -- the function's reset is under way (R574), or the VF does not exist (R546)
  | retry                   -- the endpoint has not completed its start-up (R48)
  | noLink                  -- no PCIe link (R679), or a core that does not run: the request cannot be made
deriving DecidableEq, Repr

/-- Whether a VF's view holds a device address: its own queue contexts and its own locks (R39). -/
def inView (m : Mach) (v a : Nat) : Bool :=
  if 0x7F41000000 ≤ a ∧ a < 0x7F41100000 then qOwner m ((a - 0x7F41000000) / 64) == v + 1
  else if 0x7F42000000 ≤ a ∧ a < 0x7F42004000 then lockOwner m ((a - 0x7F42000000) / 16) == v + 1
  else false

/-- Whether an internal master reaches a register block (R35). -/
def masterReaches : Requester → Nat → Bool
  | .hc _, _ => true
  | .mi _, _ => true
  | .seq p, a => decide (0x7F10000000 + p * 0x1000000 ≤ a) && decide (a < 0x7F10100000 + p * 0x1000000)
  | .seqfw p, a => decide (0x7F10000000 + p * 0x1000000 ≤ a) && decide (a < 0x7F10100000 + p * 0x1000000)
  | .partner, a => decide (0x7F70000000 ≤ a) && decide (a < 0x7F70100000)
  | _, _ => false

/-- Whether a function exists: the PF, and with VF Enable set the VFs up to NumVFs (R546). -/
def fnExists (m : Mach) (v : Nat) : Bool :=
  v == 0 || (rdb m Reg.HOST_STATUS_VF_ENABLE && decide (v ≤ rd m Reg.HOST_STATUS_NUMVFS))

/-- What stops every BAR access of a function. -/
def pcieGate (m : Mach) (v : Nat) : Option Reach :=
  if !m.pe then some .noLink
  else if !m.endpoint then some .retry
  else if (mget m.funcs v).resetting || !fnExists m v then some .resetting
  else none

/-- What a register access reaches: `addr` is a BAR0 offset over PCIe, else a device address. -/
def reach (m : Mach) (w : Requester) (addr : Nat) : Reach :=
  match fnOf w with
  | some v =>
    match pcieGate m v with
    | some g => g
    | none =>
    if statusPage ≤ addr ∧ addr < statusPage + 0x1000 then .status (addr - statusPage)
    else match barToDev addr with
      | none => .unpopulated
      | some a => if v = 0 ∨ inView m v a then .ok a else .outOfView
  | none => if !awake m w then .noLink else if inBlock addr && masterReaches w addr then .ok addr else .unpopulated

/-- Whether a requester may write a register whose chapter restricts its writers. -/
def mayWrite (m : Mach) (w : Requester) (k : Writers) (a : Nat) : Bool :=
  let pf := w == .pf
  let hc := match w with | .hc _ => true | _ => false
  let mi := match w with | .mi _ => true | _ => false
  let fw := match w with | .seqfw _ => true | _ => false
  let sq := match w with | .seq _ => true | .seqfw _ => true | _ => false
  match k with
  | .any => true
  | .pfMi => pf || mi
  | .pfHcMi => pf || hc || mi
  | .pfHc => pf || hc
  | .mi => mi
  | .leadMi => w == .mi true
  | .seqfw => fw
  | .seqHcMi => sq || hc || mi
  | .seqfwHcMi => fw || hc || mi
  | .seqfwPfHcMi => fw || pf || hc || mi
  | .queueOwner => pf || hc || mi || ownerCode w == qOwner m ((a - 0x7F41000000) / 64)
  | .sem => true

/-- Whether an address lies in the SAF block. -/
def inSaf (a : Nat) : Bool := decide (0x7F50000000 ≤ a) && decide (a < 0x7F50010000)

/-- A write that is not performed, and is logged (R37, R582). -/
def refuseWrite (w : Requester) (addr : Nat) (m : Mach) : Mach := hostIfAddr .writeRefused w (regSpace w) addr m

/-- An access of a function whose reset runs, or that does not exist, completes with Unsupported Request (R574). -/
def resettingAccess (w : Requester) (m : Mach) : Mach := m |> emit (.unsupported w) |> inc Reg.HOST_CNT_UR

/-- Perform a register write that reaches its register: `act` is its effect at the device address. -/
def writeAt (w : Requester) (addr : Nat) (k : Nat → Writers) (act : Nat → Mach → Mach) (m : Mach) : Mach :=
  match reach m w addr with
  | .resetting => resettingAccess w m
  | .retry => emit (.retryStatus w) m
  | .noLink => m
  | .outOfView => hostIfAddr .outOfView w (regSpace w) addr m
  | .unpopulated => refuseAccess w (regSpace w) addr m
  | .status _ => m
  | .ok a =>
    if inSaf a && !mayWrite m w .mi a then refuseWrite w addr m
    else if mayWrite m w (k a) a then act a m
    else refuseWrite w addr m

/-- A write to one register that has a row of its own: the requester presents its address in its own map. -/
def regWrite (w : Requester) (f : Fld) (k : Writers) (act : Mach → Mach) (m : Mach) : Mach :=
  writeAt w (presented w f.addr) (fun _ => k) (fun _ => act) m

/-- Whether one internal or PCIe requester reads a register; a VF outside its view reads zero and is logged. -/
def readAt (w : Requester) (addr : Nat) (val : Nat → Nat) (act : Nat → Mach → Mach) (m : Mach) : Mach :=
  match reach m w addr with
  | .resetting => resettingAccess w m
  | .retry => emit (.retryStatus w) m
  | .noLink => m
  | .outOfView => m |> emit (.readData w 0) |> hostIfAddr .outOfView w (regSpace w) addr
  | .unpopulated => refuseAccess w (regSpace w) addr m
  | .status off =>
    let v := (fnOf w).getD 0
    let f := mget m.funcs v
    emit (.readData w (if off = 0 then reqCode w + b2n f.resetting * 256 + b2n f.busMaster * 512 else 0)) m
  | .ok a => m |> emit (.readData w (val a)) |> act a

end Sys2Proof.Machine
end

