-- ==== Sys2Proof/Machine/Shift.lean ====
section
/-!
DEFINITION. A step of the time (R129, R130): every time that the part counts from moves with the counter.
-/

namespace Sys2Proof.Machine

/-- A time moved by a step. -/
def shiftBy (d : Int) (t : Nat) : Nat := ((t : Int) + d).toNat

/-- A time of which 0 says that there is none. -/
def shiftSet (d : Int) (t : Nat) : Nat := if t = 0 then 0 else shiftBy d t

/-- The values of a map moved by `f`. -/
def mapVals {α : Type} (f : α → α) (l : List (Nat × α)) : List (Nat × α) := l.map (fun x => (x.1, f x.2))

def shiftOp (sh : Nat → Nat) (o : EngOp) : EngOp := { o with headAt := o.headAt.map sh, issued := sh o.issued, ends := sh o.ends }

def shiftPipe (sh : Nat → Nat) (p : Pipe) : Pipe :=
  { p with job := p.job.map (fun j => { j with start := sh j.start }), wait := p.wait.map (fun w => (w.1, w.2.1, sh w.2.2)), lastEnd := sh p.lastEnd }

def shiftRecov (sh : Nat → Nat) (r : Recov) : Recov :=
  { r with requested := sh r.requested, rescueAt := sh r.rescueAt, wipeAt := sh r.wipeAt, killAt := sh r.killAt, resetAt := sh r.resetAt,
           hbLast := sh r.hbLast, forensic := r.forensic.map sh }

def shiftPwr (sh : Nat → Nat) (x : PwrPart) : PwrPart :=
  { x with wins := x.wins.map (fun w => { w with opened := sh w.opened, coldAt := w.coldAt.map sh }), fullAt := sh x.fullAt,
           changeAt := sh x.changeAt, fine := x.fine.map sh, exhaust := x.exhaust.map sh, capAt := x.capAt.map sh,
           thermDn := x.thermDn.map sh, thermUp := x.thermUp.map sh }

def shiftPower (sh : Nat → Nat) (x : Power) : Power :=
  { x with above := x.above.map sh, under := x.under.map sh, heldAt := sh x.heldAt, hcAt := x.hcAt.map sh, hcDn := x.hcDn.map sh,
           hcUp := x.hcUp.map sh, lastCond := x.lastCond.map sh, heat := x.heat.map sh, hcChangeAt := sh x.hcChangeAt, ctlAt := sh x.ctlAt }

def shiftSafety (sh : Nat → Nat) (x : Safety) : Safety :=
  { x with exit := x.exit.map (fun e => { e with at0 := sh e.at0 }), oddAt := sh x.oddAt, resyncs := mapVals (·.map sh) x.resyncs,
           wdogLast := x.wdogLast.map sh, ptnWipeAt := sh x.ptnWipeAt }

/-- Every time that a timer of the part counts from. -/
def shiftTimers (d : Int) (m : Mach) : Mach :=
  let sh := shiftSet d
  { m with
    rings := mapVals (fun r => { r with firstPlaced := r.firstPlaced.map sh }) m.rings,
    ldr := { m.ldr with hold := m.ldr.hold.map sh },
    saf := shiftSafety sh m.saf,
    ing := { m.ing with groupAt := sh m.ing.groupAt, appliedAt := sh m.ing.appliedAt, lastAdmit := sh m.ing.lastAdmit,
                        firstTick := sh m.ing.firstTick },
    isps := mapVals (fun x => { x with waiting := x.waiting.map (fun w => (w.1, sh w.2)) }) m.isps,
    pipes := mapVals (shiftPipe sh) m.pipes,
    seqs := mapVals (fun x => { x with waitAt := sh x.waitAt, excAt := x.excAt.map sh }) m.seqs,
    engines := mapVals (fun e => { e with queue := e.queue.map (shiftOp sh), flight := e.flight.map (shiftOp sh) }) m.engines,
    cores := mapVals (fun c => { c with lastStep := c.lastStep.map sh, idleAt := c.idleAt.map sh, ballast := c.ballast.map sh,
                                        resOn := c.resOn.map sh }) m.cores,
    recov := mapVals (shiftRecov sh) m.recov,
    pparts := mapVals (shiftPwr sh) m.pparts,
    power := shiftPower sh m.power,
    margin := { m.margin with last := mapVals sh m.margin.last, dueAt := m.margin.dueAt.map sh, endAt := sh m.margin.endAt },
    chans := mapVals (fun c => { c with calAt := sh c.calAt, deferAt := sh c.deferAt, passAt := sh c.passAt }) m.chans,
    links := mapVals (fun l => { l with attemptAt := sh l.attemptAt, ackAt := sh l.ackAt, ackSent := sh l.ackSent,
                                        delayT1 := l.delayT1.map sh, delayAt := sh l.delayAt }) m.links,
    ucie := mapVals (·.map sh) m.ucie,
    kvs := mapVals (fun k => { k with reads := k.reads.map (fun x => { x with downAt := x.downAt.map sh }) }) m.kvs }

end Sys2Proof.Machine
end

