-- ==== Sys2Proof/Machine/Time.lean ====
section
/-!
DEFINITION. The time unit (ch. 04): the counter, its sources, holdover, slew and step, PTP, TRIG and PPS outputs, PPS_IN and
event capture.
-/

namespace Sys2Proof.Machine

/-- Change the time unit. -/
def modTime (f : TimeUnit → TimeUnit) (m : Mach) : Mach := { m with time := f m.time }

/-! ### TIME section (R118) -/

def timePort (m : Mach) : Nat := secLe m 2 0 0 1
def timeSource (m : Mach) : Nat := secLe m 2 0 1 1
def timeDomain (m : Mach) : Nat := secLe m 2 0 2 1
def stepEnable (m : Mach) : Bool := secLe m 2 0 3 1 == 1
def stepThreshold (m : Mach) : Nat := secLe m 2 0 4 4
def ppsInDelay (m : Mach) : Int := signedOf 32 (secLe m 2 0 8 4)
def ppsInFalling (m : Mach) : Bool := secLe m 2 0 0xC 1 == 1
def ppsOutMode (m : Mach) : Nat := secLe m 2 0 0xD 1
def masterPort (m : Mach) (n : Nat) : Bool := bitOf (secLe m 2 0 0xE 2) n
def ppsOutWidth (m : Mach) : Nat := secLe m 2 0 0x10 4
def ppsOutOffset (m : Mach) : Nat := secLe m 2 0 0x14 4

/-- Codes of TIME_STATUS.IN_USE: 1 PTP, 2 PPS_IN. -/
def namedSources (m : Mach) : List Nat :=
  match timeSource m with
  | 0 => [1, 2]
  | 1 => [2, 1]
  | 2 => [1]
  | 3 => [2]
  | _ => []

/-- One second in nanoseconds. -/
def second : Nat := 1000000000

/-! ### The counter (R113) -/

/-- One advance of the counter: 2 ns and the rate correction, 100 ppm faster or slower while it slews (R128). -/
def advance (m : Mach) : Mach :=
  let t := m.time
  let slew := rdb m Reg.TIME_STATUS_SLEWING
  let rate : Int := signedOf 32 (rd m Reg.TIME_RATE_ADJ)
  let acc : Int := (t.resid : Int) + rate * (2 * 2 ^ 32 : Nat)
  let fr : Int := (t.frac : Int) + acc / (1000000000000 : Nat)
  let resid := (acc % (1000000000000 : Nat)).toNat
  let add := 2 + fr / (2 ^ 32 : Nat)
  let off := if slew then (if t.offset > 0 then t.offset - 2 else t.offset + 2) else t.offset
  let m := modTime (fun t => { t with frac := (fr % (2 ^ 32 : Nat)).toNat, resid := resid, offset := off }) m
  wri Reg.TIME_NOW ((now m : Int) + add) m

/-! ### Sources and offsets (R116 to R120, R128, R129) -/

/-- 100 ppm in units of 0.001 ppb. -/
def slewRate : Int := 100000000

/-- LOCKED: the servo takes over at the last disciplined rate. -/
def lockTime (m : Mach) : Mach :=
  m |> wr Reg.TIME_STATUS_TQ 0 |> wrb Reg.TIME_STATUS_SLEWING false |> wri Reg.TIME_RATE_ADJ m.time.rate
    |> modTime (fun t => { t with offset := 0, disciplined := true })

/-- The servo's next rate correction, within ±250 ppm: its law is open, so the value is free (notes/assumptions/10.md). -/
def servo (m : Mach) : Mach :=
  let (v, m) := draw 29 m
  let r : Int := (v % 500000001 : Nat) - 250000000
  m |> wri Reg.TIME_RATE_ADJ r |> modTime (fun t => { t with rate := r })

/-- Begin a step (R129): the TIME_STEP record, the island's record, and the jump 100 µs later. -/
def beginStep (off : Int) (m : Mach) : Mach :=
  let at0 := now m + 100000
  m |> eventRec 1 at0 (-off)
    |> logErr { path := upath m 1 5 63 0 63 63, source := 0x54, detail := leBytes 16 (fieldOf 64 off) }
    |> wr Reg.TIME_STATUS_TQ 1 |> wrb Reg.TIME_STATUS_SLEWING false |> wrb Reg.TIME_STATUS_STEP_PENDING true
    |> wri Reg.TIME_RATE_ADJ m.time.rate
    |> modTime (fun t => { t with step := some { amount := off, atTime := at0, source := rd m Reg.TIME_STATUS_IN_USE }, offset := 0, disciplined := true })

/-- Handle an offset as a return (R120, R128, R129): below 1 µs lock; above the threshold step, where allowed; else slew. -/
def handleReturn (off : Int) (m : Mach) : Mach :=
  if off.natAbs < 1000 then lockTime m
  else if stepThreshold m < off.natAbs ∧ (stepEnable m ∨ tq m = 2) then beginStep off m
  else
    m |> wr Reg.TIME_STATUS_TQ 1 |> wrb Reg.TIME_STATUS_SLEWING true
      |> wri Reg.TIME_RATE_ADJ (if off > 0 then m.time.rate - slewRate else m.time.rate + slewRate)
      |> modTime (fun t => { t with offset := off * 10000, disciplined := true })

/-- An offset measured against the source in use (R120): LOCKED keeps it while it is at most 10 µs; while a step is pending
it changes nothing. -/
def measured (off : Int) (m : Mach) : Mach :=
  let m := wri Reg.TIME_OFFSET (clampSym 32 off) m
  if m.time.step.isSome then m
  else if tq m = 0 ∧ off.natAbs ≤ 10000 then servo m
  else if tq m = 0 then m |> wr Reg.TIME_STATUS_TQ 1 |> handleReturn off
  else handleReturn off m

/-- Whether a source is present: 1 PTP, 2 PPS_IN. -/
def sourcePresent (m : Mach) (x : Nat) : Bool :=
  if x = 1 then rdb m Reg.TIME_STATUS_PTP_PRESENT else rdb m Reg.TIME_STATUS_PPS_PRESENT

/-- Choose the source in use: the first named one that is present. A change writes SOURCE_CHANGE (R563); with none left the
unit holds over at the last disciplined rate (R120). -/
def chooseSource (m : Mach) : Mach :=
  let x := ((namedSources m).find? (sourcePresent m)).getD 0
  if x = rd m Reg.TIME_STATUS_IN_USE then m
  else
    let m := m |> wr Reg.TIME_STATUS_IN_USE x |> eventRec 2 (now m) 0
    if x = 0 then
      m |> wrb Reg.TIME_STATUS_SLEWING false |> wri Reg.TIME_RATE_ADJ m.time.rate
        |> wr Reg.TIME_STATUS_TQ (if m.time.disciplined then 1 else 2) |> modTime (fun t => { t with offset := 0 })
    else if tq m = 0 then wr Reg.TIME_STATUS_TQ 1 m
    else m

/-- A source is lost (R119). -/
def sourceLost (x : Nat) (m : Mach) : Mach :=
  if sourcePresent m x then
    let m := wrb (if x = 1 then Reg.TIME_STATUS_PTP_PRESENT else Reg.TIME_STATUS_PPS_PRESENT) false m
    let m := inc Reg.TIME_CNT_SRC_LOSS m
    let m := if x = 1 then m |> wr Reg.TIME_GM_ID 0 |> modTime (fun t => { t with syncs := 0, pendingSync := none })
      else modTime (fun t => { t with ppsRun := 0, outliers := [] }) m
    chooseSource m
  else m

/-- A source is present from now on (R119), its offset measured where it comes into use. -/
def sourceReturns (x : Nat) (off : Int) (m : Mach) : Mach :=
  let m := wrb (if x = 1 then Reg.TIME_STATUS_PTP_PRESENT else Reg.TIME_STATUS_PPS_PRESENT) true m
  let was := rd m Reg.TIME_STATUS_IN_USE
  let m := chooseSource m
  if rd m Reg.TIME_STATUS_IN_USE = x then
    if was = x then measured off m else m |> wri Reg.TIME_OFFSET (clampSym 32 off) |> handleReturn off
  else m

/-- PTP is lost when the time port goes down (R119). -/
def timePortDown (n : Nat) (m : Mach) : Mach := if timePort m = n then sourceLost 1 m else m

/-- The search for a master begins when the time port reports link-up (R122). -/
def timePortUp (n : Nat) (m : Mach) : Mach :=
  if applied m ∧ timePort m = n then modTime (fun t => { t with search := true, master := none, syncs := 0 }) m else m

/-! ### PTP (R121 to R124) -/

/-- Ethernet ports that the PORTS section enables. -/
def ethEnabled (m : Mach) (n : Nat) : Bool := bitOf (secLe m 3 0 4 2) n
def ethEnabledCount (m : Mach) : Nat := ((List.range 16).filter (ethEnabled m)).length
def ethSpeed (m : Mach) (n : Nat) : Nat := secLe m 3 0 (0x210 + 64 * n) 1

/-- The arrival stamp of a frame on an Ethernet or safety port (R124). -/
def rxStamp (m : Mach) (port : Nat) : Int :=
  let c : Int := if port < 16 ∧ 8 < ethEnabledCount m then
      (match ethSpeed m port with | 0 => 520 | 1 => 880 | _ => 1590) else 0
  (now m : Int) - c

/-- The departure stamp of a frame (R124). -/
def txStamp (m : Mach) (port : Nat) : Int :=
  let c : Int := if port < 16 ∧ 8 < ethEnabledCount m then
      (match ethSpeed m port with | 0 => 390 | 1 => 660 | _ => 1190) else 0
  (now m : Int) + c

/-- A PTP message that the profile does not take is discarded and counted (R121, R123). -/
def ptpDiscard (m : Mach) : Mach := inc Reg.TIME_CNT_PTP_DISCARD m

/-- Take a PTP message: before a base pattern is applied every one is discarded (R122); outside the profile it is counted. -/
def ptpTake (msg : PtpMsg) (onMaster : Bool) (f : Mach → Mach) (m : Mach) : Mach :=
  if !rdb m Reg.TIME_STATUS_ENABLED then m
  else if msg.layer2 && msg.domain == timeDomain m &&
      (msg.port == timePort m || (onMaster && decide (msg.port < 16) && masterPort m msg.port)) then f m
  else ptpDiscard m

/-- A Sync exchange with the best master is complete: `arr` its arrival, `org` the origin time with its corrections. -/
def syncDone (arr org : Int) (m : Mach) : Mach :=
  let m := modTime (fun t => { t with syncs := t.syncs + 1 }) m
  let off := arr - (org + m.time.pdelay)
  if sourcePresent m 1 then
    if rd m Reg.TIME_STATUS_IN_USE = 1 then measured off m else m
  else if 2 ≤ m.time.syncs ∧ m.time.pdelayDone ∧ (1 ∈ namedSources m) then sourceReturns 1 off m
  else m

/-- A Sync of the best master (R121); a two-step Sync waits for its Follow_Up. -/
def ptpSync (msg : PtpMsg) (m : Mach) : Mach :=
  if m.time.master ≠ some msg.clock ∨ (m.time.pdelayDone ∧ 800 < m.time.pdelay) then m
  else
    let arr := rxStamp m msg.port
    if msg.twoStep then modTime (fun t => { t with pendingSync := some (msg.seq, arr, msg.corr) }) m
    else syncDone arr (msg.time + msg.corr) m

/-- A Follow_Up completes the two-step Sync of its sequence. -/
def ptpFollowUp (msg : PtpMsg) (m : Mach) : Mach :=
  match m.time.pendingSync with
  | some (q, arr, c) =>
    if m.time.master = some msg.clock ∧ q = msg.seq then
      m |> modTime (fun t => { t with pendingSync := none }) |> syncDone arr (msg.time + c + msg.corr)
    else m
  | none => m

/-- The BMCA over an Announce of the time port (R121): the lower priority vector wins, then the lower clockIdentity. A
changed grandmaster takes LOCKED to HOLDOVER (R120). -/
def ptpAnnounce (msg : PtpMsg) (m : Mach) : Mach :=
  let better := match m.time.master with
    | none => true
    | some c => c == msg.clock || decide (msg.rank < m.time.masterRank) ||
        (msg.rank == m.time.masterRank && decide (msg.clock < c))
  if !better then m
  else
    let fresh := m.time.master ≠ some msg.clock
    let old := rd m Reg.TIME_GM_ID
    let m := modTime (fun t => { t with master := some msg.clock, masterRank := msg.rank, search := false,
                                        syncs := if fresh then 0 else t.syncs }) m
    let m := wr Reg.TIME_GM_ID msg.gm m
    if old ≠ msg.gm ∧ rd m Reg.TIME_STATUS_IN_USE = 1 ∧ tq m = 0 then wr Reg.TIME_STATUS_TQ 1 m else m

/-- A Pdelay_Req of the time port or a master port is answered with its receipt time (R121). -/
def ptpPdelayReq (msg : PtpMsg) (m : Mach) : Mach :=
  emit (.ptp msg.port 4 msg.seq (rxStamp m msg.port) 0) m

/-- A Pdelay response measures the peer delay of the time port: half the round trip less the turnaround `corr`. -/
def ptpPdelayResp (msg : PtpMsg) (m : Mach) : Mach :=
  match m.time.pdelayT1 with
  | some t1 =>
    if msg.ours ∧ msg.port = timePort m then
      let d := (rxStamp m msg.port - t1 - msg.corr) / 2
      modTime (fun t => { t with pdelay := d, pdelayDone := true, pdelayT1 := none }) m
    else m
  | none => m

/-- clockClass of the Announce messages sent as master (R121). -/
def clockClass (m : Mach) : Nat :=
  match tq m with
  | 0 => 6
  | 1 => 7
  | _ => 248

def execPtpSyncRx (msg : PtpMsg) (s : State) : Out := s.run (ptpTake msg false (ptpSync msg))
def execPtpFollowUpRx (msg : PtpMsg) (s : State) : Out := s.run (ptpTake msg false (ptpFollowUp msg))
def execPtpAnnounceRx (msg : PtpMsg) (s : State) : Out := s.run (ptpTake msg false (ptpAnnounce msg))
def execPtpPdelayReqRx (msg : PtpMsg) (s : State) : Out := s.run (ptpTake msg true (ptpPdelayReq msg))
def execPtpPdelayRespRx (msg : PtpMsg) (s : State) : Out := s.run (ptpTake msg false (ptpPdelayResp msg))

/-- A two-step Sync and its Follow_Up leave a master port. -/
def execPtpSyncTx (port : Fin 16) (s : State) : Out := s.run (fun m =>
  if rdb m Reg.TIME_STATUS_ENABLED && masterPort m port then
    let t := txStamp m port
    m |> emit (.ptp port 1 m.time.txSeq 0 0) |> emit (.ptp port 2 m.time.txSeq t 0)
      |> modTime (fun t => { t with txSeq := (t.txSeq + 1) % 65536 })
  else m)

/-- An Announce leaves a master port with the clockClass of the quality. -/
def execPtpAnnounceTx (port : Fin 16) (s : State) : Out := s.run (fun m =>
  if rdb m Reg.TIME_STATUS_ENABLED && masterPort m port then
    m |> emit (.ptp port 6 m.time.txSeq 250 (clockClass m))
      |> modTime (fun t => { t with txSeq := (t.txSeq + 1) % 65536 })
  else m)

/-- A Pdelay_Req leaves the time port. -/
def execPtpPdelayReqTx (s : State) : Out := s.run (fun m =>
  if rdb m Reg.TIME_STATUS_ENABLED ∧ timePort m ≤ 17 then
    let t := txStamp m (timePort m)
    m |> emit (.ptp (timePort m) 3 m.time.txSeq 0 0)
      |> modTime (fun x => { x with pdelayT1 := some t.toNat, txSeq := (x.txSeq + 1) % 65536 })
  else m)

/-- No Sync or no Announce for three intervals: PTP is lost (R119). -/
def execPtpSourceLost (s : State) : Out := s.run (fun m =>
  m |> modTime (fun t => { t with master := none }) |> wr Reg.TIME_GM_ID 0 |> sourceLost 1)

/-- No master within 500 ms of link-up: the unit stays in FREE_RUN and keeps searching (R122). -/
def execPtpMasterSearchTimeout (s : State) : Out := s.run (fun m =>
  if m.time.search && m.time.master.isNone then modTime (fun t => { t with search := true }) m else m)

/-! ### XO_TIME (R114) -/

def execXoTimeFault (s : State) : Out := s.run (fun m =>
  fatal .xoTime { path := upath m 1 5 63 0 63 63, source := 0x54 } m)

/-! ### PPS_IN (R119, R136) -/

/-- The signed distance of an instant from the nearest whole second. -/
def fromSecond (t : Int) : Int :=
  let r := t % (second : Nat)
  if r * 2 < (second : Nat) then r else r - (second : Nat)

/-- Whether two instants agree within 10 µs modulo 1 s. -/
def agreeMod (a b : Nat) : Bool := decide ((fromSecond ((a : Int) - b)).natAbs ≤ 10000)

/-- An edge while PPS_IN is present: accepted within 1 ms of a whole second, else an outlier; the fourth of four agreeing
outliers is taken as a new phase. -/
def ppsPresentEdge (inst : Int) (m : Mach) : Mach :=
  let off := fromSecond inst
  if off.natAbs ≤ 1000000 then
    let m := m |> wri Reg.TIME_PPS_IN_OFFSET off |> modTime (fun t => { t with lastPps := some (now m), outliers := [] })
    if rd m Reg.TIME_STATUS_IN_USE = 2 then measured off m else m
  else
    let l := inst.toNat :: m.time.outliers
    let m := m |> inc Reg.TIME_CNT_PPS_OUTLIER |> modTime (fun t => { t with outliers := l.take 4 })
    if 4 ≤ l.length ∧ (l.take 4).all (agreeMod inst.toNat) then
      let m := m |> wri Reg.TIME_PPS_IN_OFFSET off |> modTime (fun t => { t with lastPps := some (now m), outliers := [] })
      if rd m Reg.TIME_STATUS_IN_USE = 2 then
        m |> wri Reg.TIME_OFFSET (clampSym 32 off) |> (fun m => if tq m = 0 then wr Reg.TIME_STATUS_TQ 1 m else m)
          |> handleReturn off
      else m
    else m

/-- An edge while PPS_IN is absent: the fourth of four consecutive edges 1 s ± 10 µs apart brings it back (R119). -/
def ppsAbsentEdge (inst : Int) (m : Mach) : Mach :=
  let good := match m.time.lastEdge with
    | some t => decide (((now m : Int) - t - (second : Nat)).natAbs ≤ 10000)
    | none => false
  let n := if good then m.time.ppsRun + 1 else 1
  let m := modTime (fun t => { t with ppsRun := n, lastEdge := some (now m) }) m
  if 4 ≤ n then
    let off := fromSecond inst
    m |> wri Reg.TIME_PPS_IN_OFFSET off |> modTime (fun t => { t with lastPps := some (now m), outliers := [] })
      |> sourceReturns 2 off
  else m

/-- An edge of PPS_IN: only the polarity PPS_IN_EDGE selects counts, and only where SOURCE names PPS_IN. -/
def execPpsInEdge (rising : Bool) (s : State) : Out := s.run (fun m =>
  if !rdb m Reg.TIME_STATUS_ENABLED || rising == ppsInFalling m || !(namedSources m).contains 2 then m
  else
    let inst := (now m : Int) - ppsInDelay m
    if rdb m Reg.TIME_STATUS_PPS_PRESENT then ppsPresentEdge inst m else ppsAbsentEdge inst m)

/-- No edge accepted for 1.5 s: PPS_IN is lost (R119). -/
def execPpsInLost (s : State) : Out := s.run (fun m =>
  match m.time.lastPps with
  | some t => if t + 1500000000 ≤ now m then sourceLost 2 m else m
  | none => sourceLost 2 m)

/-! ### Slew and step (R128 to R130) -/

/-- The slewed offset has fallen below 1 µs. -/
def execSlewComplete (s : State) : Out := s.run (fun m =>
  if rdb m Reg.TIME_STATUS_SLEWING && decide (m.time.offset.natAbs < 10000000) then lockTime m else m)

/-- An armed one-shot whose time a forward step passes fires at the step (R130). -/
def stepFires (t0 t1 : Nat) (n : Nat) (m : Mach) : Mach :=
  let g := mget m.trigs n
  if g.armed ∧ g.active.mode = 2 ∧ t0 ≤ g.active.start ∧ g.active.start < t1 then
    { m with trigs := mmod m.trigs n (fun g => { g with armed := false, lastPulse := some t1 }) }
      |> emit (.pulse n t1 g.active.width) |> wrb (Reg.TIME_TRIG_STATUS_STEP_FIRED n) true
  else m

/-- The jump (R129): the counter moves by minus the offset, and with it every deadline of an item that is outstanding
(R130) and every time the part counts from; outputs and grid ticks keep their old cadence until the first whole second of
new time. What is left of the offset is below 1 µs: the state is LOCKED where its source is still in use (R120). -/
def stepJump (p : StepPending) (m : Mach) : Mach :=
  let t0 := now m
  let d : Int := -p.amount
  let t1 := shiftBy d t0
  let sh := shiftBy d
  let m := m |> wr Reg.TIME_NOW t1 |> wrb Reg.TIME_STATUS_STEP_PENDING false |> wrb Reg.TIME_STATUS_STEPPED true
    |> inc Reg.TIME_CNT_STEPS |> wrb Reg.TIME_TURN_STATUS_REANCHOR_PENDING (rdb m Reg.TIME_TURN_STATUS_RUNNING)
  let m := modTime (fun t => { t with step := none, oldShift := t.oldShift + d, gridShift := t.gridShift + d,
                                      lastTick := sh t.lastTick, reanchorAt := some ((t1 + second - 1) / second * second),
                                      gridAnchor := some ((t1 + second - 1) / second * second),
                                      lastPps := t.lastPps.map sh, lastEdge := t.lastEdge.map sh, outliers := [] }) m
  let m := { m with
    items := m.items.map (fun c => (c.1, { c.2 with deadline := sh c.2.deadline, turnEnd := c.2.turnEnd.map sh })),
    turns := m.turns.map (fun c => (c.1, { c.2 with tick := sh c.2.tick, grid := sh c.2.grid, gticks := c.2.gticks.map (fun g => (sh g.1, g.2)), lcEnd := sh c.2.lcEnd,
                                                    windowEnd := sh c.2.windowEnd })),
    trigs := m.trigs.map (fun c => (c.1, { c.2 with lastPulse := c.2.lastPulse.map sh, notBefore := sh c.2.notBefore,
                                                    applyAt := sh c.2.applyAt })),
    lastPpsOut := m.lastPpsOut.map sh,
    streams := m.streams.map (fun c => (c.1, { c.2 with lastStart := c.2.lastStart.map sh, accepted := c.2.accepted.map sh,
                                                        frame := c.2.frame.map (fun f => { f with stamp := sh f.stamp }) })) }
    |> shiftTimers d
  let m := if rd m Reg.TIME_STATUS_IN_USE = p.source then lockTime m else m
  if t0 < t1 then forEach (List.range 32) (stepFires t0 t1) m else m

def execTimeStepJump (s : State) : Out := s.run (fun m =>
  match m.time.step with
  | some p => if p.atTime ≤ now m then stepJump p m else m
  | none => m)

/-! ### TRIG and PPS outputs (R131 to R135) -/

/-- The latest pulse of a periodic train at or before `t`. -/
def trigPoint (g : TrigSet) (t : Nat) : Nat :=
  let sec := t / second
  let r := t % second
  let last (x : Nat) : Nat := x * second + g.phase + (g.rate - 1) * second / g.rate
  if g.rate = 0 then t
  else if r < g.phase then last (sec - 1)
  else
    let k := min (g.rate - 1) (((r - g.phase + 1) * g.rate - 1) / second)
    sec * second + g.phase + k * second / g.rate

/-- The latest pulse a train owes at the present time: on the old cadence while a step has not re-anchored (R129). -/
def trigDue (m : Mach) (g : TrigSet) : Nat := shiftBy m.time.oldShift (trigPoint g (shiftBy (-m.time.oldShift) (now m)))

/-- Forward an edge to the cameras whose ports name the output (R186). -/
def forwardEdge (n t : Nat) (rise : Bool) (m : Mach) : Mach :=
  forEach (List.range 32) (fun port m =>
    let e := slice (sec m 3 0) (0x10 + 16 * port) 16
    forEach [0, 1] (fun j m =>
      if bitOf (le e 3 1) j ∧ le e (4 + j) 1 = n ∧ bitOf (secLe m 3 0 0 4) port then
        if rd m (Reg.ING_APHY_STATUS_STATE port) = 3 then
          emit (.gpio port (le e (6 + j) 1) (t + 1060 + rd m (Reg.ING_APHY_DELAY port)) rise) m
        else inc (Reg.ING_APHY_CNT_TRIG_LOST port) m
      else m) m) m

/-- A pulse of TRIG[n] at `t`: at the ball, and both edges to the cameras that take them. -/
def trigPulse (n t w : Nat) (m : Mach) : Mach :=
  { m with trigs := mmod m.trigs n (fun g => { g with lastPulse := some t }) }
    |> emit (.pulse n t w) |> forwardEdge n t true |> forwardEdge n (t + w) false

def execTrigPulse (n : Fin 32) (s : State) : Out := s.run (fun m =>
  let g := mget m.trigs n
  let t := trigDue m g.active
  if g.active.mode = 1 ∧ g.notBefore ≤ t ∧ (g.lastPulse.map (fun l => decide (l < t))).getD true then
    trigPulse n t g.active.width m
  else m)

def execTrigOneshot (n : Fin 32) (s : State) : Out := s.run (fun m =>
  let g := mget m.trigs n
  if g.armed ∧ g.active.mode = 2 ∧ g.active.start ≤ now m then
    trigPulse n g.active.start g.active.width { m with trigs := mmod m.trigs n (fun g => { g with armed := false }) }
  else m)

/-- Whether shadow settings keep R131 or R132. -/
def trigValid (g : TrigSet) : Bool :=
  match g.mode with
  | 0 => true
  | 1 => decide (1 ≤ g.rate ∧ g.rate ≤ 100000 ∧ g.phase < second / g.rate ∧ 8 ≤ g.width ∧ g.width + 8 ≤ second / g.rate)
  | 2 => decide (8 ≤ g.width ∧ g.width ≤ second)
  | _ => false

/-- The shadow settings of TRIG[n]. -/
def trigShadow (m : Mach) (n : Nat) : TrigSet :=
  { mode := rd m (Reg.TIME_TRIG_CTRL_MODE n), pol := rdb m (Reg.TIME_TRIG_CTRL_POLARITY n),
    rate := rd m (Reg.TIME_TRIG_RATE n), phase := rd m (Reg.TIME_TRIG_PHASE n), width := rd m (Reg.TIME_TRIG_WIDTH n),
    start := rd m (Reg.TIME_TRIG_START n) }

/-- Settings become active; a one-shot less than 1 µs away is not issued (R132). -/
def trigActivate (n : Nat) (g : TrigSet) (m : Mach) : Mach :=
  let late := g.mode = 2 ∧ g.start < now m + 1000
  let m := { m with trigs := mmod m.trigs n (fun x =>
    { x with active := g, pending := none, armed := decide (g.mode = 2) && !decide late, notBefore := now m }) }
  let m := m |> wr (Reg.TIME_TRIG_STATUS_ACTIVE_MODE n) g.mode |> wrb (Reg.TIME_TRIG_STATUS_PENDING n) false
  if late then wrb (Reg.TIME_TRIG_STATUS_MISSED n) true m else m

/-- COMMIT of TRIG[n] (R133): refused with ERROR; at the next whole second where a periodic mode is concerned; else at
once. -/
def trigCommit (n : Nat) (m : Mach) : Mach :=
  let g := trigShadow m n
  if !trigValid g then wrb (Reg.TIME_TRIG_STATUS_ERROR n) true m
  else if (mget m.trigs n).active.mode = 1 ∨ g.mode = 1 then
    let at0 := (now m / second + 1) * second
    { m with trigs := mmod m.trigs n (fun x => { x with pending := some g, applyAt := at0 }) }
      |> wrb (Reg.TIME_TRIG_STATUS_PENDING n) true |> wr (Reg.TIME_TRIG_STATUS_APPLY_SEC n) (at0 / second)
  else m |> trigActivate n g |> wr (Reg.TIME_TRIG_STATUS_APPLY_SEC n) (now m / second)

def execTrigCommit (who : Requester) (n : Fin 32) (s : State) : Out := s.run (fun m =>
  regWrite who (Reg.TIME_TRIG_CTRL_COMMIT n) .any (trigCommit n) m)

def execTrigTransfer (n : Fin 32) (s : State) : Out := s.run (fun m =>
  match (mget m.trigs n).pending with
  | some g => if (mget m.trigs n).applyAt ≤ now m then trigActivate n g m else m
  | none => m)

/-- PPS_OUT pulses in each second at its offset; under mode 2 only while TQ is 0 (R134). -/
def execPpsOutPulse (s : State) : Out := s.run (fun m =>
  let t0 := shiftBy (-m.time.oldShift) (now m)
  let p := if t0 % second < ppsOutOffset m then (t0 / second - 1) * second + ppsOutOffset m
    else t0 / second * second + ppsOutOffset m
  let t := shiftBy m.time.oldShift p
  if (ppsOutMode m = 1 ∨ (ppsOutMode m = 2 ∧ tq m = 0)) ∧ (m.lastPpsOut.map (fun l => decide (l + second / 2 ≤ t))).getD true then
    { m with lastPpsOut := some t } |> emit (.pulse 32 t (ppsOutWidth m))
  else m)

/-- Each periodic train re-anchors at the first whole second of new time: its next pulse lies at least half a spacing
behind the last old one (R129). -/
def execOutputReanchor (s : State) : Out := s.run (fun m =>
  match m.time.reanchorAt with
  | some r =>
    if r ≤ now m then
      let m := modTime (fun t => { t with reanchorAt := none, oldShift := 0 }) m
      forEach (List.range 32) (fun n m =>
        let g := mget m.trigs n
        if g.active.mode = 1 then
          let half := second / g.active.rate / 2
          { m with trigs := mmod m.trigs n (fun g => { g with notBefore := (g.lastPulse.map (· + half)).getD 0 }) }
            |> wrb (Reg.TIME_TRIG_STATUS_REANCHOR n) true
        else m) m
    else m
  | none => m)

/-! ### Event capture (R137, R138, R142) -/

/-- The head of an event FIFO in its registers. -/
def syncEvt (k : Nat) (m : Mach) : Mach :=
  let l := (mget m.evts k).fifo
  let h := l.head?.getD {}
  m |> wr (Reg.TIME_EVT_FIFO k) h.time |> wr (Reg.TIME_EVT_STATUS_COUNT k) l.length
    |> wr (Reg.TIME_EVT_STATUS_HEAD_TQ k) h.tq |> wrb (Reg.TIME_EVT_STATUS_HEAD_RISE k) h.rise

/-- An edge of EVT_IN[k]: captured, or dropped within 20 ns of the last capture or for a full FIFO. -/
def evtEdge (k : Nat) (rise : Bool) (m : Mach) : Mach :=
  let sel := rd m (Reg.TIME_EVT_CTRL_EDGE k)
  let ev := mget m.evts k
  if !(sel == 3 || (sel == 1 && rise) || (sel == 2 && !rise)) then m
  else if (ev.last.map (fun l => decide (now m < l + 20))).getD false then inc (Reg.TIME_EVT_STATUS_DROPPED k) m
  else if 16 ≤ ev.fifo.length then
    m |> wrb (Reg.TIME_EVT_STATUS_OVERFLOW k) true |> inc (Reg.TIME_EVT_STATUS_DROPPED k)
  else
    syncEvt k { m with evts := mmod m.evts k (fun e =>
      { fifo := e.fifo ++ [{ time := now m, tq := tq m, rise := rise }], last := some (now m) }) }

def execEvtInEdge (k : Fin 4) (rise : Bool) (s : State) : Out := s.run (evtEdge k rise)

/-- The head capture leaves the FIFO. -/
def evtPop (k : Nat) (m : Mach) : Mach :=
  syncEvt k { m with evts := mmod m.evts k (fun e => { e with fifo := e.fifo.drop 1 }) }

/-! ### Safety ports as time ports (R119, R525) -/

/-- A safety port reaches link-up (R525, R541). -/
def execSafetyPortLinkUp (e : Fin 2) (s : State) : Out := s.run (fun m =>
  if rd m (Reg.SAF_ETH_STATUS_STATE e) = 1 then m |> wr (Reg.SAF_ETH_STATUS_STATE e) 2 |> timePortUp (16 + e) else m)

/-- A safety port goes link-down. -/
def execSafetyPortLinkDown (e : Fin 2) (s : State) : Out := s.run (fun m =>
  if rd m (Reg.SAF_ETH_STATUS_STATE e) = 2 then m |> wr (Reg.SAF_ETH_STATUS_STATE e) 1 |> timePortDown (16 + e) else m)

end Sys2Proof.Machine
end

