-- ==== Sys2Proof/Machine/Unpack.lean ====
section
/-!
DEFINITION. Unpacking CSI-2 lines (R144, R211) and the decimated copy of a block of lines (R184).
-/

namespace Sys2Proof.Machine

/-- The bytes of a line as numbers. -/
def byteNats (bs : List Byte) : List Nat := bs.map (·.toNat)

/-- Groups of RAW10: four high bytes, then their low bits. -/
def unpack10 : List Nat → List Nat
  | a :: b :: c :: d :: l :: r =>
    (a * 4 + l % 4) :: (b * 4 + l / 4 % 4) :: (c * 4 + l / 16 % 4) :: (d * 4 + l / 64 % 4) :: unpack10 r
  | _ => []

/-- Groups of RAW12: two high bytes, then their low bits. -/
def unpack12 : List Nat → List Nat
  | a :: b :: l :: r => (a * 16 + l % 16) :: (b * 16 + l / 16) :: unpack12 r
  | _ => []

/-- Groups of RAW14: four high bytes, then 24 bits with their low six bits each, the first sample's lowest. -/
def unpack14 : List Nat → List Nat
  | a :: b :: c :: d :: x :: y :: z :: r =>
    let l := x + 256 * y + 65536 * z
    (a * 64 + l % 64) :: (b * 64 + l / 64 % 64) :: (c * 64 + l / 4096 % 64) :: (d * 64 + l / 262144 % 64) :: unpack14 r
  | _ => []

/-- RAW16, low byte first (notes/assumptions/11.md). -/
def unpack16 : List Nat → List Nat
  | a :: b :: r => (a + 256 * b) :: unpack16 r
  | _ => []

/-- RAW20: pairs over five bytes in the order of R211. -/
def unpack20 : List Nat → List Nat
  | a :: b :: c :: d :: l :: r => (a * 4096 + c * 16 + l % 16) :: (b * 4096 + d * 16 + l / 16) :: unpack20 r
  | _ => []

/-- The samples of a line of a data type (R211); YUV422 gives its bytes. -/
def unpackLine (dt : Nat) (bs : List Byte) : List Nat :=
  match dt with
  | 0x2B => unpack10 (byteNats bs)
  | 0x2C => unpack12 (byteNats bs)
  | 0x2D => unpack14 (byteNats bs)
  | 0x2E => unpack16 (byteNats bs)
  | 0x2F => unpack20 (byteNats bs)
  | _ => byteNats bs

/-- Every second element, from the second on: the Y samples of a UYVY line. -/
def oddOnes : List Nat → List Nat
  | _ :: b :: r => b :: oddOnes r
  | _ => []

/-- Rounding to nearest, ties away from zero, of a / 2^k and of a / d (R208). -/
def rndShift (a k : Nat) : Nat := if k = 0 then a else (a + 2 ^ (k - 1)) / 2 ^ k
def divR (a d : Nat) : Nat := (2 * a + d) / (2 * d)

/-- The same for signed numbers. -/
def rndShiftI (a : Int) (k : Nat) : Int := if a < 0 then -(rndShift a.natAbs k : Nat) else (rndShift a.natAbs k : Nat)

/-- Sums of `d` consecutive samples, `n` of them. -/
def sumBlocks (d : Nat) : Nat → List Nat → List Nat
  | 0, _ => []
  | n + 1, l => (l.take d).sum :: sumBlocks d n (l.drop d)

/-- Element-wise sum. -/
def addLists (a b : List Nat) : List Nat := (a.zip b).map (fun p => p.1 + p.2)

/-- One row of the decimated copy: the means of D × D blocks over D lines (R184). -/
def decimRow (dt width d : Nat) (lines : List (List Byte)) : List Nat :=
  let rows := lines.map (fun l =>
    sumBlocks d (width / d) (if dt = 0x1E then oddOnes (byteNats l) else unpackLine dt l))
  let sums := rows.foldl (fun a r => if a.isEmpty then r else addLists a r) []
  sums.map (fun x =>
    let y := divR x (d * d)
    if dt = 0x2F then min 65535 (rndShift y 4) else y)

end Sys2Proof.Machine
end

