-- ==== Sys2Proof/Machine/Ingress.lean ====
section
/-!
DEFINITION. Sensor ingress (ch. 05): ports and their training, frames of camera and range streams, raw rings, admission,
violations and quarantine, the decimated copy, and camera control.
-/

namespace Sys2Proof.Machine

/-- Change a stream's own state. -/
def modStream (i : Nat) (f : Stream → Stream) (m : Mach) : Mach := syncStream i { m with streams := mmod m.streams i f }

/-- Change a port's own state. -/
def modAphy (n : Nat) (f : Aphy → Aphy) (m : Mach) : Mach := { m with aphy := mmod m.aphy n f }

/-- Stream states (R190): 0 no entry, 1 disabled, 2 pending, 3 admitted, 4 quarantined. -/
def strState (m : Mach) (i : Nat) : Nat := rd m (Reg.ING_STR_STATUS_STATE i)

/-- Move a stream to a state, with the counts of ING_ADMIT_STATUS (R193). -/
def setStrState (i x : Nat) (m : Mach) : Mach :=
  let old := strState m i
  let fix (f : Fld) (code : Nat) (m : Mach) : Mach :=
    wr f (rd m f + b2n (x == code && old != code) - b2n (old == code && x != code)) m
  m |> wr (Reg.ING_STR_STATUS_STATE i) x |> fix Reg.ING_ADMIT_STATUS_ADMITTED 3 |> fix Reg.ING_ADMIT_STATUS_PENDING 2

/-- Unit path of an A-PHY or Ethernet port. -/
def pathAphy (m : Mach) (n : Nat) : Nat := upath m 1 0 n 0 63 63
def pathEth (m : Mach) (n : Nat) : Nat := upath m 1 1 n 0 63 63
/-- Unit path of the port-die buffers. -/
def pathBuf (m : Mach) : Nat := upath m 1 4 63 0 63 63
/-- Unit path of a stream's port. -/
def pathPort (m : Mach) (e : List Byte) : Nat := if strCamera e then pathAphy m (strPort e) else pathEth m (strPort e)

/-- Bits of ITEM_FLAGS (R175). -/
def flagBit (n : Nat) : Nat := 2 ^ n

/-- Whether a channel of R33 is in self-refresh (R461, R464). -/
def inSelfRefresh (m : Mach) (a : Nat) : Bool := rd m (Reg.MEM_STATUS_STATE (hbmChannel m a)) == 3

/-! ### Frames -/

/-- Change the open frame of a stream. -/
def modFrame (i : Nat) (f : Frame → Frame) (m : Mach) : Mach :=
  modStream i (fun st => { st with frame := st.frame.map f }) m

/-- Set an ITEM_FLAGS bit of the open frame and of its item. -/
def setFlag (i bit : Nat) (m : Mach) : Mach :=
  match (mget m.streams i).frame with
  | none => m
  | some f => m |> modFrame i (fun f => { f with flags := f.flags ||| flagBit bit })
      |> modItem f.tag (fun it => { it with itemFlags := it.itemFlags ||| flagBit bit })

/-- The slot header (R160). -/
def slotHeader (m : Mach) (e : List Byte) (f : Frame) (it : Item) : List Byte :=
  let emb := if strCamera e then readMem m (f.addr + embOff e) f.emb else []
  let b := leBytes 4 f.tag ++ leBytes 4 it.itemFlags ++ leBytes 8 it.stamp ++ leBytes 4 (now m) ++ leBytes 2 f.stored ++
    leBytes 2 f.bad ++ leBytes 2 f.missing ++ leBytes 2 f.frameNo ++
    leBytes 4 (if strCamera e then f.emb else f.bytes) ++ leBytes 4 (if strCamera e then crc32c emb else 0) ++
    leBytes 1 it.stampTq ++ zeros 3 ++ leBytes 4 (gridTurn m) ++ zeros 80
  b ++ leBytes 4 (crc32c b)

/-- A line-check table entry (R158). -/
def lineEntry (crc wc flags : Nat) : List Byte := leBytes 4 crc ++ leBytes 2 wc ++ leBytes 1 flags ++ [0]

/-- A chunk for the Partner engine (R184, R185): sent, dropped for a full input, or not sent because the copies differ. -/
def sendChunk (i : Nat) (f : Frame) (valid : Bool) (data : List Byte) (env : LineEnv) (m : Mach) : Mach :=
  let m := modFrame i (fun f => { f with chunks := f.chunks + 1 }) m
  if env.decimBad then
    m |> setFlag i 21 |> logErr { path := pathBuf m, source := 0x50, seam := 3, tag := f.tag }
  else if env.decimFull then setFlag i 21 m
  else
    let it := (lookup m.items f.tag).getD {}
    { m with lane := m.lane ++ [{ tag := f.tag, index := f.chunks, valid := valid, data := data, stamp := it.stamp }] }

/-- Send the rows of a camera item that its lines never filled, marked invalid (R184). -/
def sendMissingRows (i : Nat) (n : Nat) (f : Frame) (m : Mach) : Mach :=
  forEach (List.range (n - f.chunks)) (fun _ m =>
    match (mget m.streams i).frame with
    | some f => sendChunk i f false [] {} m
    | none => m) m

/-- The block size D of a camera's decimated copy, or K of a range stream's. -/
def decimD (e : List Byte) : Nat := 2 ^ (strDecim e + 1)
def decimK (e : List Byte) : Nat := 2 ^ strDecim e

/-- Close the open frame of a stream (R169): missing lines are entered, the header is written last (R160), and the item
fails at once where its flags say so (R174, R177, R162). -/
def closeFrame (i extra : Nat) (m : Mach) : Mach :=
  match (mget m.streams i).frame with
  | none => m
  | some f0 =>
    let e := streamEntry m i
    let miss := if strCamera e then strHeight e - f0.lines else 0
    let m := if strCamera e ∧ strSafety e ∧ f0.slot.isSome then sendMissingRows i (strHeight e / decimD e) f0 m else m
    let m := if strSafety e ∧ f0.slot.isSome then
        let n := ((mget m.streams i).frame.map (·.chunks)).getD 0
        { m with lane := m.lane ++ [{ tag := f0.tag, index := 0xFFFFFFFF, stamp := n }] }
      else m
    let m := addTo (Reg.ING_STR_CNT_BAD i) miss m
    let m := if miss = 0 then m else setFlag i 3 m
    let m := if f0.slot.isSome ∧ strCamera e then
        forEach (List.range miss) (fun j => writeMem (f0.addr + 128 + 8 * (f0.lines + j)) (lineEntry 0 0 8)) m else m
    let m := modFrame i (fun f => { f with missing := f.missing + miss }) m
    let f := (mget m.streams i).frame.getD f0
    let flags := f.flags ||| extra
    let damaged := strBadLimit e < f.bad + f.missing || bitOf flags 5
    let lost := f.slot.isSome && inSelfRefresh m f.addr
    let flags := flags ||| (if damaged then flagBit 19 else 0) ||| (if lost then flagBit 16 else 0)
    let m := if damaged then inc (Reg.ING_STR_CNT_DAMAGED i) m else m
    let m := modItem f.tag (fun it => { it with itemFlags := it.itemFlags ||| flags, closed := true }) m
    let it := (lookup m.items f.tag).getD {}
    let m := if f.slot.isSome ∧ !lost then writeMem f.addr (slotHeader m e f it) m else m
    let m := modStream i (fun st =>
      let set (r : RawRing) : RawRing :=
        if r.gen = f.gen then
          { r with slots := match f.slot with | some s => setD false (eraseKey r.slots s) s true | none => r.slots } else r
      { st with frame := none, closed := f.counter, ring := set st.ring, retire := st.retire.map set }) m
    let fail : Option (Status × Nat) :=
      if bitOf flags 16 then some (.failedReset, Reason.reset)
      else if f.bufBad then some (.failedFault, Reason.ingress)
      else if bitOf flags 18 || bitOf flags 14 || (damaged && strFailOnError e) then some (.failedData, Reason.ingress)
      else none
    match fail with
    | none => m
    | some (st, r) =>
      let m := match f.slot with | some s => freeSlot i s f.gen m | none => m
      m |> modItem f.tag (fun it => { it with hasSlot := false }) |> failItem f.tag st r

/-! ### Violations and quarantine (R176, R177) -/

/-- A stream enters quarantine: logged with the port's path and the open item, with the island's reaction for a SAFETY
stream (R512), and its open frame closed. -/
def quarantine (i : Nat) (m : Mach) : Mach :=
  let e := streamEntry m i
  let tag := ((mget m.streams i).frame.map (·.tag)).getD 0
  let open0 := (mget m.streams i).frame.isSome
  let m := setStrState i 4 m
  let r : LogRec := { path := pathPort m e, source := 0x4C, tag := tag, detail := leBytes 4 i }
  let m := if strSafety e then
      react (reactQuarantine m) .quarantine r { m with saf := { m.saf with condQuar := m.saf.condQuar ++ [i] } }
    else logErr r m
  let m := closeFrame i (flagBit 18) m
  modStream i (fun st => { st with clean := 0, discard := if open0 then 2 else st.discard }) m

/-- A violation charged to a stream (R176): at VIOL_LIMIT in one grid turn it enters quarantine at once. -/
def viol (i : Nat) (m : Mach) : Mach :=
  let m := m |> inc (Reg.ING_STR_CNT_VIOL i) |> inc (Reg.ING_STR_STATUS_VIOL_TURN i)
  let lim := strViolLimit (streamEntry m i)
  if lim ≠ 0 ∧ lim ≤ rd m (Reg.ING_STR_STATUS_VIOL_TURN i) ∧ strState m i = 3 then quarantine i m else m

/-- A quarantined stream rejoins the pending set (R177, R181), or is disabled where ENABLE is clear. -/
def releaseQuar (i : Nat) (m : Mach) : Mach :=
  if strState m i = 4 then
    let m := setStrState i (if rdb m (Reg.ING_STR_CTRL_ENABLE i) then 2 else 1) m
    let m := modStream i (fun st => { st with discard := 0, clean := 0 }) m
    refreshSafe { m with saf := { m.saf with condQuar := m.saf.condQuar.filter (· != i) } }
  else m

def execQuarantineEntry (i : Fin 1024) (s : State) : Out := s.run (fun m =>
  let lim := strViolLimit (streamEntry m i)
  if lim ≠ 0 ∧ lim ≤ rd m (Reg.ING_STR_STATUS_VIOL_TURN i) ∧ strState m i = 3 then quarantine i m else m)

def execQuarForce (who : Requester) (i : Fin 1024) (s : State) : Out := s.run (fun m =>
  regWrite who (Reg.ING_STR_CTRL_QUAR_FORCE i) .any
    (fun m => if (streamEntry? m i).isSome ∧ strState m i ≠ 4 then quarantine i m else m) m)

def execQuarRelease (who : Requester) (i : Fin 1024) (s : State) : Out := s.run (fun m =>
  regWrite who (Reg.ING_STR_CTRL_QUAR_RELEASE i) .any (fun m => if (streamEntry? m i).isSome then releaseQuar i m else m) m)

def execQuarantineAutoRelease (i : Fin 1024) (s : State) : Out := s.run (fun m =>
  let e := streamEntry m i
  if strState m i = 4 ∧ !strSoftRelease e ∧ strQuarTurns e ≤ (mget m.streams i).clean then releaseQuar i m else m)

/-! ### Opening items (R153, R161, R163 to R168, R225) -/

/-- Make a pending ring active (R163, R166). -/
def transferRing (i : Nat) (m : Mach) : Mach :=
  match (mget m.streams i).pending with
  | none => m
  | some b =>
    m |> modStream i (fun st =>
        { st with pending := none, retire := if st.ring.slots.isEmpty then none else some st.ring,
                  ring := { base := b, gen := 1 - st.ring.gen, slots := [] } })
      |> wr (Reg.ING_STR_ACT_BASE i) b |> wr (Reg.ING_STR_STATUS_NEXT_SLOT i) 0
      |> wrb (Reg.ING_STR_APPLY_PENDING i) false |> wr (Reg.ING_STR_APPLY_APPLY_SEQ i) (mget m.streams i).seq

/-- Make a pending parameter version active (R225). -/
def transferIsp (i : Nat) (m : Mach) : Mach :=
  let x := mget m.isps i
  match x.pending with
  | none => m
  | some v =>
    let q := (mget m.streams i).seq
    let ver := (x.vers.find? (fun w => w.id == v)).getD {}
    { m with isps := mmod m.isps i (fun x =>
        { x with active := v, pending := none, vers := x.vers.map (fun w => if w.id = v then { w with seq := q } else w) }) }
      |> wr (Reg.ISP_STR_ACT_SCR i) ver.scr |> wr (Reg.ISP_STR_ACT_OUT i) ver.outB
      |> wr (Reg.ISP_STR_APPLY_APPLY_SEQ i) q |> syncIsp i

/-- APPLY_SEQ tracks the next item while a commit is pending (R165). -/
def trackApply (i : Nat) (m : Mach) : Mach :=
  let q := (mget m.streams i).seq
  let m := if (mget m.streams i).pending.isSome then wr (Reg.ING_STR_APPLY_APPLY_SEQ i) q m else m
  if (mget m.isps i).pending.isSome then wr (Reg.ISP_STR_APPLY_APPLY_SEQ i) q m else m

/-- Whether two ranges of bytes overlap. -/
def overlaps (a n b k : Nat) : Bool := decide (a < b + k) && decide (b < a + n)

/-- The next slot in ring order, where it is FREE (R161, R166). -/
def nextSlot (m : Mach) (i : Nat) : Option Nat :=
  let e := streamEntry m i
  let st := mget m.streams i
  let n := rd m (Reg.ING_STR_STATUS_NEXT_SLOT i)
  let size := strSlotBytes e
  let a := st.ring.base + n * size
  let old := match st.retire with
    | none => false
    | some r => r.slots.any (fun c => overlaps a size (r.base + c.1 * size) size)
  if (lookup st.ring.slots n).isSome || old then none else some n

/-- Open an item at an accepted frame start, with its slot or with RING_FULL (R153, R161, R164). -/
def openFrame (i stamp number flags : Nat) (counter : Option Nat) (m : Mach) : Mach :=
  let e := streamEntry m i
  let q := strQueue e
  let m := modStream i (fun st => { st with accepted := some stamp, lastStart := some stamp, discard := 0, dropVal := none,
                                            dropN := 0 }) m
  if !canReserve m q then
    m |> notOpened q |> modStream i (fun st => { st with discard := 3, dropVal := counter, dropN := 0 })
  else
    let m := m |> transferRing i |> (if strCamera e then transferIsp i else id)
    let st := mget m.streams i
    let tag := tagOf i st.seq
    let slot := nextSlot m i
    let a := st.ring.base + (slot.getD 0) * strSlotBytes e
    let flags := flags ||| (if slot.isNone then flagBit 14 else 0)
    let m := openItem i false { stamp := stamp, itemFlags := flags, slot := slot.getD 0, gen := st.ring.gen, slotAddr := a,
                                hasSlot := slot.isSome } m
    let it := (lookup m.items tag).getD {}
    let m := match slot with
      | none => inc (Reg.ING_STR_CNT_RING_FULL i) m
      | some n => m |> wr (Reg.ING_STR_STATUS_NEXT_SLOT i) ((n + 1) % strSlots e)
          |> modStream i (fun st => { st with ring := { st.ring with slots := insertKey (eraseKey st.ring.slots n) n false } })
    let m := if strCamera e then
        { m with isps := mmod m.isps i (fun x => { x with bound := x.bound ++ [(tag, x.active)] }) } |> syncIsp i else m
    modStream i (fun st => { st with frame := some { tag := tag, stamp := stamp, slot := slot, addr := a, gen := st.ring.gen,
                                                     flags := it.itemFlags, frameNo := number, counter := counter } }) m

/-- Whether a frame start at `stamp` is early (R167). -/
def isEarly (m : Mach) (i stamp : Nat) : Bool :=
  let e := streamEntry m i
  ((mget m.streams i).accepted.map (fun a => decide (stamp < a + 1000 * (strFrameUs e - strJitterUs e)))).getD false

/-- A frame start of an admitted stream: early frames are dropped whole (R167); else its item is opened. -/
def frameStart (i stamp number flags : Nat) (counter : Option Nat) (rate : Bool) (m : Mach) : Mach :=
  if rate && isEarly m i stamp then
    m |> inc (Reg.ING_STR_CNT_EARLY i) |> modStream i (fun st => { st with discard := 1, dropVal := counter, dropN := 0 })
      |> viol i
  else openFrame i stamp number flags counter m

/-- Open a missing-frame item with stamp `t` (R168, R177). -/
def missingFrame (i t : Nat) (m : Mach) : Mach :=
  let q := strQueue (streamEntry m i)
  let tag := tagOf i (mget m.streams i).seq
  let m := modStream i (fun st => { st with lastStart := some t }) m
  if !canReserve m q then notOpened q m
  else
    m |> openItem i true { stamp := t, itemFlags := flagBit 8 ||| (if strState m i = 4 then flagBit 18 else 0), closed := true }
      |> trackApply i |> inc (Reg.ING_STR_CNT_MISSING i) |> failItem tag .failedData Reason.ingress

def execMissingFrameTimeout (i : Fin 1024) (s : State) : Out := s.run (fun m =>
  let e := streamEntry m i
  match (mget m.streams i).lastStart with
  | some t =>
    let x := t + 1000 * strFrameUs e
    if (strState m i = 3 ∨ strState m i = 4) ∧ x + 500 * strFrameUs e + 1000 * strJitterUs e ≤ now m then missingFrame i x m
    else m
  | none => m)

def execFrameCloseTimeout (i : Fin 1024) (s : State) : Out := s.run (fun m =>
  match (mget m.streams i).frame with
  | some f => if f.stamp + 1000 * strFrameUs (streamEntry m i) ≤ now m then closeFrame i (flagBit 20) m else m
  | none => m)

/-! ### CSI-2 (R144, R172) -/

/-- The camera stream of a port and virtual channel. -/
def camStream (m : Mach) (port vc : Nat) : Option Nat :=
  ((streamEntries m).find? (fun e => strCamera e && strPort e == port && strVc e == vc)).map (fun e => le e 0 2)

/-- Judge a packet header: 0 good, 1 corrected, 2 uncorrectable; only a good or corrected one is used. -/
def csiHeader (port : Nat) (hdr : Nat) (f : Mach → Mach) (m : Mach) : Mach :=
  if rd m (Reg.ING_APHY_STATUS_STATE port) ≠ 3 then m
  else match hdr with
    | 0 => f m
    | 1 => f (inc (Reg.ING_APHY_CNT_ECC_CORR port) m)
    | _ => inc (Reg.ING_APHY_CNT_HDR_ERR port) m

/-- A packet of a virtual channel with no admitted stream (R182); of a quarantined one it is only discarded. -/
def csiStream (port vc : Nat) (f : Nat → Mach → Mach) (quar : Nat → Mach → Mach) (m : Mach) : Mach :=
  match camStream m port vc with
  | some i =>
    if strState m i = 3 then f i m
    else if strState m i = 4 then quar i m
    else inc (Reg.ING_APHY_CNT_UNCLAIMED port) m
  | none => inc (Reg.ING_APHY_CNT_UNCLAIMED port) m

/-- The frame-start stamp of a camera (R125). -/
def camStamp (m : Mach) (port : Nat) (e : List Byte) : Nat :=
  ((now m : Int) - 180 - rd m (Reg.ING_APHY_DELAY port) - strStampOff e).toNat

/-- Whether a frame number skips (R172). -/
def frameGap (prev n : Nat) : Bool :=
  prev != 0 && n != 0 && n != 1 && n != (if prev = 0xFFFF then 1 else prev + 1)

/-- A frame start: an open frame closes with FE_MISSING, a violation; then the new frame is admitted by rate. -/
def csiFrameStart (port number i : Nat) (m : Mach) : Mach :=
  let st := mget m.streams i
  let gap := frameGap st.frameNo number
  let m := if st.frame.isSome then m |> closeFrame i (flagBit 5) |> viol i else m
  let m := modStream i (fun st => { st with frameNo := number, startSeen := true }) m
  if strState m i ≠ 3 then modStream i (fun st => { st with discard := 2 }) m
  else frameStart i (camStamp m port (streamEntry m i)) number (if gap then flagBit 6 else 0) none true m

def execCsi2FrameStart (port : Fin 32) (vc : Fin 16) (number : Nat) (hdr : Fin 3) (s : State) : Out := s.run (
  csiHeader port hdr (csiStream port vc (csiFrameStart port (number % 65536))
    (fun i => modStream i (fun st => { st with startSeen := true, discard := 2, frameNo := number % 65536 }))))

/-- A frame end closes the open frame, or ends a frame that is dropped; else it is a violation. -/
def csiFrameEnd (i : Nat) (m : Mach) : Mach :=
  let st := mget m.streams i
  if st.frame.isSome then closeFrame i 0 m
  else if st.discard ≠ 0 then modStream i (fun st => { st with discard := 0 }) m
  else viol i m

def execCsi2FrameEnd (port : Fin 32) (vc : Fin 16) (hdr : Fin 3) (s : State) : Out := s.run (
  csiHeader port hdr (csiStream port vc csiFrameEnd csiFrameEnd))

/-- A packet that comes while no frame is open: dropped with its frame, or late (R169, R177). -/
def latePacket (i : Nat) (m : Mach) : Mach :=
  if (mget m.streams i).discard ≠ 0 then m else m |> inc (Reg.ING_STR_CNT_LATE i) |> viol i

/-- A data type ingress does not take (R144): a violation where the virtual channel has an admitted stream. -/
def unsupported (port vc : Nat) (m : Mach) : Mach :=
  let m := inc (Reg.ING_APHY_CNT_UNSUP_DT port) m
  match camStream m port vc with
  | some i => if strState m i = 3 ∨ strState m i = 4 then viol i m else m
  | none => m

/-- A line that a port buffer lost (R171). -/
def bufOverrun (i : Nat) (cnt : Fld) (f : Frame) (m : Mach) : Mach :=
  m |> inc cnt |> setFlag i 15
    |> logErr { path := pathPort m (streamEntry m i), source := 0x55, tag := f.tag, detail := leBytes 4 i }

/-- Feed a line to the decimator: the D-th line of a block sends its chunk (R184). -/
def feedDecim (i : Nat) (e : List Byte) (line : Option (List Byte)) (env : LineEnv) (m : Mach) : Mach :=
  match (mget m.streams i).frame with
  | none => m
  | some f =>
    if !strSafety e || f.slot.isNone then m
    else
      let l := line :: f.decim
      if l.length < decimD e then modFrame i (fun f => { f with decim := l }) m
      else
        let good := l.filterMap id
        let valid := decide (good.length = l.length)
        let data := if valid then (decimRow (strDt e) (strWidth e) (decimD e) good.reverse).flatMap (leBytes 2) else []
        m |> modFrame i (fun f => { f with decim := [] }) |> sendChunk i { f with decim := [] } valid data env

/-- Count a line that is stored. -/
def lineStored (i : Nat) (bad : Bool) : Mach → Mach :=
  modFrame i (fun f => { f with lines := f.lines + 1, stored := f.stored + 1, bad := f.bad + b2n bad })

/-- Count a line that is missing or lost. -/
def lineLost (i : Nat) (m : Mach) : Mach :=
  m |> modFrame i (fun f => { f with lines := f.lines + 1, missing := f.missing + 1 }) |> inc (Reg.ING_STR_CNT_BAD i)

/-- A line of the open frame (R158, R172). -/
def csiLine (port i : Nat) (f : Frame) (data : List Byte) (crcOk : Bool) (env : LineEnv) (m : Mach) : Mach :=
  let e := streamEntry m i
  let lb := lineBytes e
  let n := data.length
  let tab := f.addr + 128 + 8 * f.lines
  let entry (crc flags : Nat) (m : Mach) : Mach :=
    if f.slot.isSome && !inSelfRefresh m tab then writeMem tab (lineEntry crc n flags) m else m
  if strHeight e ≤ f.lines then m |> setFlag i 4 |> inc (Reg.ING_STR_CNT_BAD i) |> viol i
  else if env.bufFull then
    m |> bufOverrun i (Reg.ING_APHY_CNT_BUF_OVERRUN port) f |> setFlag i 3 |> entry 0 8 |> lineLost i
      |> feedDecim i e none env
  else if env.bufBad then
    m |> logErr { path := pathBuf m, source := 0x50, seam := 1, tag := f.tag }
      |> modFrame i (fun f => { f with bufBad := true }) |> entry 0 16 |> lineLost i |> feedDecim i e none env
  else
    let line := padTo lb data
    let short := decide (n < lb)
    let long := decide (lb < n)
    let badCrc := !long && !crcOk
    let a := f.addr + linesOff e + f.lines * linePitch e
    let isBad := short || long || badCrc
    let m := if short then m |> setFlag i 1 |> inc (Reg.ING_STR_CNT_BAD i) else m
    let m := if long then m |> setFlag i 2 |> inc (Reg.ING_STR_CNT_BAD i) else m
    let m := if badCrc then m |> setFlag i 0 |> inc (Reg.ING_STR_CNT_BAD i) else m
    let m := if f.slot.isSome && inSelfRefresh m a then m |> setFlag i 16 |> entry 0 16 |> lineLost i |> feedDecim i e none env
      else
        let m := if f.slot.isSome then writeMem a line m else m
        m |> entry (crc32c line) (b2n badCrc + 2 * b2n short + 4 * b2n long) |> lineStored i isBad
          |> feedDecim i e (if isBad then none else some line) env
    if short || long then viol i m else m

/-- A long packet of an admitted stream. -/
def csiLong (port i dt : Nat) (data : List Byte) (crcOk : Bool) (env : LineEnv) (m : Mach) : Mach :=
  match (mget m.streams i).frame with
  | none => latePacket i m
  | some f => if dt ≠ strDt (streamEntry m i) then viol i m else csiLine port i f data crcOk env m

/-- Data types of lines ingress takes (R144). -/
def lineType (dt : Nat) : Bool := dt == 0x1E || (decide (0x2A ≤ dt) && decide (dt ≤ 0x2F))

def execCsi2LongPacket (port : Fin 32) (vc : Fin 16) (dt : Nat) (hdr : Fin 3) (data : List Byte) (crcOk : Bool)
    (env : LineEnv) (s : State) : Out := s.run (csiHeader port hdr (fun m =>
  if dt = 0x10 ∨ dt = 0x11 then m
  else if lineType dt then
    csiStream port vc (fun i => csiLong port i dt data crcOk env)
      (fun i m => if dt ≠ strDt (streamEntry m i) then viol i m else m) m
  else unsupported port vc m))

/-- Embedded data goes behind what the slot holds, up to EMB_BYTES (R158, R172). -/
def csiEmbedded (i : Nat) (data : List Byte) (m : Mach) : Mach :=
  match (mget m.streams i).frame with
  | none => latePacket i m
  | some f =>
    let e := streamEntry m i
    let room := strEmb e - f.emb
    let keep := data.take room
    let a := f.addr + embOff e + f.emb
    let m := if room < data.length then setFlag i 9 m else m
    let m := if f.slot.isNone then m else if inSelfRefresh m a then setFlag i 16 m else writeMem a keep m
    modFrame i (fun f => { f with emb := f.emb + keep.length }) m

def execCsi2EmbeddedData (port : Fin 32) (vc : Fin 16) (hdr : Fin 3) (data : List Byte) (s : State) : Out := s.run (
  csiHeader port hdr (csiStream port vc (fun i => csiEmbedded i data) (fun _ m => m)))

def execCsi2ShortPacket (port : Fin 32) (vc : Fin 16) (dt : Nat) (hdr : Fin 3) (s : State) : Out := s.run (
  csiHeader port hdr (fun m => if 4 ≤ dt ∧ dt ≤ 7 then unsupported port vc m else m))

/-! ### Ethernet and range streams (R145, R146, R155 to R159, R173) -/

/-- The PORTS entry of an Ethernet port (R147). -/
def ethEntry (m : Mach) (n : Nat) : List Byte := slice (sec m 3 0) (0x210 + 64 * n) 64

/-- The ones' complement sum of 16-bit words, carries folded. -/
def sum16 : List Byte → Nat
  | a :: b :: r => a.toNat * 256 + b.toNat + sum16 r
  | [a] => a.toNat * 256
  | [] => 0
def fold16 (n : Nat) : Nat := let a := n % 65536 + n / 65536; let b := a % 65536 + a / 65536; b % 65536 + b / 65536

/-- A UDP datagram as the classifier sees it. -/
structure Udp where
  vlan : Option Nat := none
  v6   : Bool := false
  src  : List Byte := []
  sp   : Nat := 0
  dp   : Nat := 0
  data : List Byte := []
deriving DecidableEq, Repr

/-- What a network packet is: bad (IP_ERR), not supported (IP_UNSUP), or a datagram (R173). -/
inductive IpResult where
  | bad
  | unsup
  | udp (u : Udp)
deriving DecidableEq, Repr

/-- Check a UDP datagram against its pseudo-header sum. -/
def readUdp (vlan : Option Nat) (v6 : Bool) (src dst p : List Byte) : IpResult :=
  let len := beNat (slice p 4 2)
  let ck := beNat (slice p 6 2)
  let sum := fold16 (sum16 src + sum16 dst + 17 + len + sum16 (p.take len))
  if p.length < 8 ∨ len < 8 ∨ p.length < len then .bad
  else if ck = 0 then (if v6 then .bad else .udp ⟨vlan, v6, src, beNat (slice p 0 2), beNat (slice p 2 2), (p.take len).drop 8⟩)
  else if sum ≠ 0xFFFF then .bad
  else .udp ⟨vlan, v6, src, beNat (slice p 0 2), beNat (slice p 2 2), (p.take len).drop 8⟩

/-- Read an IPv4 packet. -/
def readIp4 (vlan : Option Nat) (p : List Byte) : IpResult :=
  let ihl := le p 0 1 % 16
  let total := beNat (slice p 2 2)
  if le p 0 1 / 16 ≠ 4 ∨ ihl < 5 ∨ p.length < 4 * ihl ∨ total < 4 * ihl ∨ p.length < total ∨
      fold16 (sum16 (p.take (4 * ihl))) ≠ 0xFFFF then .bad
  else if beNat (slice p 6 2) % 0x4000 ≠ 0 ∨ le p 9 1 ≠ 17 then .unsup
  else readUdp vlan false (slice p 12 4) (slice p 16 4) ((p.take total).drop (4 * ihl))

/-- Read an IPv6 packet. -/
def readIp6 (vlan : Option Nat) (p : List Byte) : IpResult :=
  let len := beNat (slice p 4 2)
  if le p 0 1 / 16 ≠ 6 ∨ p.length < 40 + len then .bad
  else if le p 6 1 ≠ 17 then .unsup
  else readUdp vlan true (slice p 8 16) (slice p 24 16) ((p.take (40 + len)).drop 40)

/-- Whether an address lies within a prefix. -/
def inPrefix (a p : List Byte) (n : Nat) : Bool :=
  let w := 8 * a.length
  decide (beNat a / 2 ^ (w - n) = beNat (p.take a.length) / 2 ^ (w - n))

/-- Whether a datagram matches a classifier entry (R156). -/
def clsMatch (c : List Byte) (u : Udp) : Bool :=
  let mt := le c 2 1
  (match u.vlan with | none => !bitOf mt 0 | some v => bitOf mt 0 && v == le c 4 2) && u.v6 == bitOf mt 1 &&
    inPrefix u.src (slice c 0x10 16) (le c 3 1) && u.dp == le c 6 2 && (!bitOf mt 2 || u.sp == le c 8 2)

/-- The range stream a datagram on a port belongs to. -/
def classify (m : Mach) (port : Nat) (u : Udp) : Option Nat :=
  ((clsEntries m).find? (fun c => strPort (streamEntry m (le c 0 2)) == port && clsMatch c u)).map (fun c => le c 0 2)

/-- A payload field of `n` bytes, in the byte order of the entry. -/
def payField (c data : List Byte) (off n : Nat) : Nat :=
  if bitOf (le c 2 1) 4 then leNat (slice data off n) else beNat (slice data off n)

/-- Store a packet of the open frame (R157, R159, R173). -/
def storePacket (port i : Nat) (data : List Byte) (arr : Nat) (env : LineEnv) (m : Mach) : Mach :=
  match (mget m.streams i).frame with
  | none => m
  | some f =>
    let e := streamEntry m i
    let c := clsEntry m i
    let hasSeq := bitOf (le c 2 1) 3
    let w := le c 0xF 1
    let q := payField c data (le c 0x20 2) w
    let (gap, reorder) : Nat × Bool := match f.lastSeq with
      | some l => if !hasSeq ∨ q = (l + 1) % 2 ^ (8 * w) then (0, false) else if l < q then (q - l - 1, false) else (0, true)
      | none => (0, false)
    let body := padTo (roundUp data.length 16) data
    let rec0 := 16 + body.length
    if strSlotBytes e < 128 + f.bytes + rec0 then m |> setFlag i 13 |> inc (Reg.ING_STR_CNT_BAD i) |> viol i
    else if env.bufFull then
      m |> bufOverrun i (Reg.ING_ETH_CNT_BUF_OVERRUN port) f |> modFrame i (fun f => { f with missing := f.missing + 1 })
        |> inc (Reg.ING_STR_CNT_BAD i)
    else
      let a := f.addr + 128 + f.bytes
      let m := if gap = 0 then m else m |> setFlag i 10 |> addTo (Reg.ING_STR_CNT_BAD i) gap
      let m := if reorder then setFlag i 11 m else m
      let m := if env.bufBad then
          m |> logErr { path := pathBuf m, source := 0x50, seam := 2, tag := f.tag }
            |> modFrame i (fun f => { f with bufBad := true }) else m
      let crc := if env.bufBad then 0 else crc32c data
      let hdr := leBytes 4 arr ++ leBytes 2 data.length ++ leBytes 1 (b2n reorder + 2 * b2n (gap != 0)) ++ [0] ++
        leBytes 4 (if hasSeq then q else 0) ++ leBytes 4 crc
      let lost := f.slot.isSome && inSelfRefresh m a
      let m := if lost then setFlag i 16 m else if f.slot.isSome then writeMem a (hdr ++ body) m else m
      let m := if strSafety e ∧ f.slot.isSome ∧ f.stored % decimK e = 0 then sendChunk i f true data env m else m
      let m := modFrame i (fun f => { f with bytes := f.bytes + rec0, stored := f.stored + 1, lines := f.lines + 1,
                                             missing := f.missing + gap + b2n lost,
                                             lastSeq := if reorder then f.lastSeq else some q }) m
      if strHeight e ≤ f.stored + 1 then closeFrame i 0 m else m

/-- A packet that starts a range frame: the open frame closes, and the new one is admitted by rate (R157, R167). -/
def rangeStart (port i stamp number flags : Nat) (counter : Option Nat) (data : List Byte) (arr : Nat) (env : LineEnv)
    (rate : Bool) (m : Mach) : Mach :=
  let m := m |> closeFrame i 0 |> modStream i (fun st => { st with startSeen := true })
  m |> frameStart i stamp number flags counter rate |> storePacket port i data arr env

/-- A datagram of a range stream, by its frame boundary (R157). -/
def rangePacket (port i : Nat) (data : List Byte) (env : LineEnv) (m : Mach) : Mach :=
  let e := streamEntry m i
  let c := clsEntry m i
  let st := mget m.streams i
  let arr := (rxStamp m port).toNat
  let stamp := ((arr : Int) - strStampOff e).toNat
  let off := le c 0xC 2
  let n := le c 0xB 1
  let b := le c 0xA 1
  let hasSeq := bitOf (le c 2 1) 3
  if (b ≤ 1 ∧ data.length < off + n) ∨ (hasSeq ∧ data.length < le c 0x20 2 + le c 0xF 1) then viol i m
  else match b with
    | 0 =>
      let v := payField c data off n
      if (st.frame.map (·.counter)) = some (some v) then storePacket port i data arr env m
      else if st.discard ≠ 0 ∧ st.dropVal = some v then m
      else if st.closed = some v then m |> inc (Reg.ING_STR_CNT_LATE i) |> viol i
      else
        let jump := match st.frame with
          | some f => f.counter != some ((v + 2 ^ (8 * n) - 1) % 2 ^ (8 * n))
          | none => false
        rangeStart port i stamp (v % 65536) (if jump then flagBit 12 else 0) (some v) data arr env true m
    | 1 =>
      if (le data off 1) &&& (le c 0xE 1) ≠ 0 then rangeStart port i stamp 0 0 none data arr env true m
      else if st.frame.isSome then storePacket port i data arr env m
      else latePacket i m
    | 2 =>
      let m := modStream i (fun st => { st with sliceHad := true }) m
      if st.frame.isSome then storePacket port i data arr env m
      else if st.sliceHad then latePacket i m
      else
        let len := 1000 * strFrameUs e
        let sl := stamp / second * second + stamp % second / len * len
        rangeStart port i sl 0 0 none data arr env false (modStream i (fun st => { st with slice := sl }) m)
    | _ =>
      let k := le c 0x22 2
      if st.discard ≠ 0 ∧ st.dropN + 1 < k then modStream i (fun st => { st with dropN := st.dropN + 1 }) m
      else match st.frame with
        | some f => if f.lines < k then storePacket port i data arr env m
            else rangeStart port i stamp 0 0 none data arr env true m
        | none => rangeStart port i stamp 0 0 none data arr env true m

/-- A time-slice boundary (R157, R168): the slice's frame closes, and a slice with no packet leaves a missing-frame item. -/
def execRangeTimeSlice (i : Fin 1024) (s : State) : Out := s.run (fun m =>
  let e := streamEntry m i
  let st := mget m.streams i
  let len := 1000 * strFrameUs e
  let sl := now m / second * second + now m % second / len * len
  if strCamera e ∨ le (clsEntry m i) 0xA 1 ≠ 2 ∨ (strState m i ≠ 3 ∧ strState m i ≠ 4) ∨ sl ≤ st.slice then m
  else
    let m := closeFrame i 0 m
    let m := if st.sliceHad ∨ st.slice = 0 then m else missingFrame i st.slice m
    modStream i (fun st => { st with slice := sl, sliceHad := false, discard := 0, startSeen := true }) m)

/-- The answer to an ARP request (R145). -/
def arpAnswer (mac ip p : List Byte) (src : List Byte) : List Byte :=
  src ++ mac ++ [0x08, 0x06, 0x00, 0x01, 0x08, 0x00, 0x06, 0x04, 0x00, 0x02] ++ mac ++ ip ++ slice p 8 6 ++ slice p 14 4

/-- The answer to a Neighbor Solicitation (R145): a solicited Neighbor Advertisement with the link-layer option. -/
def ndpAnswer (mac ip src6 : List Byte) (src : List Byte) : List Byte :=
  let body := ip ++ [2, 1] ++ mac
  let sum := fold16 (sum16 ip + sum16 src6 + 58 + 32 + 0x8800 + 0x6000 + sum16 body)
  src ++ mac ++ [0x86, 0xDD, 0x60, 0, 0, 0, 0, 32, 58, 255] ++ ip ++ src6 ++ [0x88, 0] ++ beBytes 2 (0xFFFF - sum) ++
    [0x60, 0, 0, 0] ++ body

/-- The tag and the type of an Ethernet frame: VID 0 counts as untagged (R145). -/
def ethHeader (fr : List Byte) : Bool × Option Nat × Nat × List Byte :=
  let body := fr.take (fr.length - 4)
  if beNat (slice fr 12 2) = 0x8100 then
    let vid := beNat (slice fr 14 2) % 4096
    (true, if vid = 0 then none else some vid, beNat (slice fr 16 2), body.drop 18)
  else (false, none, beNat (slice fr 12 2), body.drop 14)

/-- A received frame, its FCS last, in the order of the rows of R173; PTP frames go to the time unit (R121, R123). -/
def ethFrame (port : Nat) (fr : List Byte) (env : LineEnv) (m : Mach) : Mach :=
  let e := ethEntry m port
  let mac := slice e 4 6
  let dst := slice fr 0 6
  let src := slice fr 6 6
  let bcast := dst.all (· == 0xFF)
  let mc (o : Nat) : Bool := dst == slice e o 6 && dst.any (· != 0)
  let (tagged, vlan, type, p) := ethHeader fr
  let fcs := leNat (fr.drop (fr.length - 4))
  if fr.length < 64 ∨ crc32 (fr.take (fr.length - 4)) ≠ fcs then inc (Reg.ING_ETH_CNT_FCS_ERR port) m
  else if le e 2 2 + (if tagged then 4 else 0) < fr.length then inc (Reg.ING_ETH_CNT_OVERSIZE port) m
  else if type = 0x88F7 then
    if tagged || !(port == timePort m || masterPort m port) then (if rdb m Reg.TIME_STATUS_ENABLED then ptpDiscard m else m)
    else m
  else if !(dst == mac || mc 0x30 || mc 0x36 || (bcast && type == 0x0806)) then inc (Reg.ING_ETH_CNT_UNCLAIMED port) m
  else if type = 0x0806 then
    if bitOf (le e 0xA 1) 0 ∧ beNat (slice p 6 2) = 1 ∧ slice p 24 4 = slice e 0x10 4 then
      m |> inc (Reg.ING_ETH_CNT_ARP_ANSWERED port) |> emit (.ethFrame port (arpAnswer mac (slice e 0x10 4) p src))
    else inc (Reg.ING_ETH_CNT_UNCLAIMED port) m
  else if type ≠ 0x0800 ∧ type ≠ 0x86DD then inc (Reg.ING_ETH_CNT_OTHER port) m
  else if type = 0x86DD ∧ bitOf (le e 0xA 1) 1 ∧ le p 6 1 = 58 ∧ le p 40 1 = 135 ∧ slice p 48 16 = slice e 0x20 16 then
    m |> inc (Reg.ING_ETH_CNT_ARP_ANSWERED port)
      |> emit (.ethFrame port (ndpAnswer mac (slice e 0x20 16) (slice p 8 16) src))
  else match (if type = 0x0800 then readIp4 vlan p else readIp6 vlan p) with
    | .bad => inc (Reg.ING_ETH_CNT_IP_ERR port) m
    | .unsup => inc (Reg.ING_ETH_CNT_IP_UNSUP port) m
    | .udp u =>
      match classify m port u with
      | none => inc (Reg.ING_ETH_CNT_UNCLAIMED port) m
      | some i =>
        if strState m i = 3 then rangePacket port i u.data env m
        else if strState m i = 4 then modStream i (fun st => { st with startSeen := true }) m
        else inc (Reg.ING_ETH_CNT_UNCLAIMED port) m

def execEthFrameRx (port : Fin 16) (frame : List Byte) (env : LineEnv) (s : State) : Out := s.run (fun m =>
  if rd m (Reg.ING_ETH_STATUS_STATE port) = 2 then ethFrame port frame env m else m)

/-! ### Hand-off and release (R160, R161, R330) -/

/-- The range item notice (R330) as its two words. -/
def rangeNotice (m : Mach) (t : Nat) (it : Item) : Notice :=
  { tag := t, lo := t + it.itemFlags * 2 ^ 32, hi := it.slot + it.gen * 2 ^ 8 + gridTurn m * 2 ^ 32 }

/-- Levels of the completion and notice FIFOs of a partition (R339). -/
def syncFifo (p : Nat) (m : Mach) : Mach :=
  m |> wr (Reg.TC_SEQ_FIFO_LEVEL_PCOMP p) (mget m.comps p).length
    |> wr (Reg.TC_SEQ_FIFO_LEVEL_RITEM p) (mget m.rnotes p).length

/-- Hand a closed item on: a camera item waits for its pipe, a range item's notice goes to its partition (R160, R330). -/
def handOff (t : Nat) (it : Item) (m : Mach) : Mach :=
  let m := modItem t (fun it => { it with handed := true }) m
  if !it.range then
    syncIsp it.stream { m with isps := mmod m.isps it.stream (fun x => { x with waiting := x.waiting ++ [(t, now m)] }) }
  else if 512 ≤ (mget m.rnotes it.part).length then
    m |> freeSlot it.stream it.slot it.gen |> modItem t (fun it => { it with hasSlot := false })
      |> logErr { path := pathPartElem m it.part 6, source := 0x5B, tag := t, detail := leBytes 4 1 }
      |> failItem t .failedFault Reason.fifoFull
  else
    { m with rnotes := mmod m.rnotes it.part (· ++ [rangeNotice m t it]) } |> syncFifo it.part |> placeTurn t

def execItemHandoff (tag : Nat) (s : State) : Out := s.run (fun m =>
  match lookup m.items tag with
  | some it => if it.closed && !it.handed && it.fixed.isNone then handOff tag it m else m
  | none => m)

/-- Free a HELD slot of a range stream (R161, R166). -/
def releaseSlot (i slot gen : Nat) (m : Mach) : Mach :=
  match streamEntry? m i with
  | some e => if strCamera e || !slotHeld m i slot gen then m
      else { m with items := m.items.map (fun c =>
              if c.2.stream = i ∧ c.2.slot = slot ∧ c.2.gen = gen then (c.1, { c.2 with hasSlot := false }) else c) }
        |> freeSlot i slot gen
  | none => m

def execStreamSlotRelease (who : Requester) (i : Fin 1024) (slot gen : Nat) (s : State) : Out := s.run (fun m =>
  regWrite who (Reg.ING_STR_RELEASE_SLOT i) .any (releaseSlot i (slot % 64) (gen % 2)) m)

/-! ### Enable, commit, admission (R163, R181, R183) -/

/-- Whether a write that sets ENABLE is refused (R183, R152). -/
def enableRefused (m : Mach) (i : Nat) : Bool :=
  match streamEntry? m i with
  | none => true
  | some e =>
    partRole m (strPart e) != 1 ||
      (match routineAt m (strPart e) (strRoutine e) with
        | none => true
        | some r => (r.cls == 0) != strLc e)

/-- A write of ENABLE: refused with ENABLE_ERROR, or taken up at the next grid tick. -/
def writeEnable (i : Nat) (en : Bool) (m : Mach) : Mach :=
  if en && enableRefused m i then wrb (Reg.ING_STR_STATUS_ENABLE_ERROR i) true m
  else if (streamEntry? m i).isNone ∨ rdb m (Reg.ING_STR_CTRL_ENABLE i) = en then m
  else m |> wrb (Reg.ING_STR_CTRL_ENABLE i) en |> modStream i (fun st => { st with enable := some en })

def execStreamEnableWrite (who : Requester) (i : Fin 1024) (en : Bool) (s : State) : Out := s.run (fun m =>
  regWrite who (Reg.ING_STR_CTRL_ENABLE i) .any (writeEnable i en) m)

/-- COMMIT of a ring base (R163, R166). -/
def ringCommit (i : Nat) (m : Mach) : Mach :=
  let b := rd m (Reg.ING_STR_SH_BASE i)
  match streamEntry? m i with
  | none => wrb (Reg.ING_STR_STATUS_COMMIT_ERROR i) true m
  | some e =>
    if b % 4096 ≠ 0 ∨ b < strRegion e ∨ strRegion e + strRegionBytes e < b + strSlots e * strSlotBytes e ∨
        (mget m.streams i).retire.isSome then wrb (Reg.ING_STR_STATUS_COMMIT_ERROR i) true m
    else m |> modStream i (fun st => { st with pending := some b }) |> wrb (Reg.ING_STR_APPLY_PENDING i) true |> trackApply i

def execRingCommit (who : Requester) (i : Fin 1024) (s : State) : Out := s.run (fun m =>
  regWrite who (Reg.ING_STR_CTRL_COMMIT i) .any (ringCommit i) m)

/-- Whether a stream's port is up, and its partition started (R181). -/
def portUp (m : Mach) (e : List Byte) : Bool :=
  if strCamera e then rd m (Reg.ING_APHY_STATUS_STATE (strPort e)) == 3 else rd m (Reg.ING_ETH_STATUS_STATE (strPort e)) == 2
def partStarted (m : Mach) (p : Nat) : Bool := (mget m.turns p).begun && !(mget m.turns p).waiting

/-- Admit a stream: its first item opens at the next accepted frame start. -/
def admitStream (i : Nat) (m : Mach) : Mach :=
  m |> setStrState i 3 |> inc Reg.ING_CNT_ADMITTED
    |> modStream i (fun st => { st with lastStart := none, discard := 0, slice := 0, sliceHad := false })

/-- Up to `n` pending streams in stream-table order (R181). -/
def admitUpTo (m0 : Mach) : Nat → List Nat → Mach → Mach
  | _, [], m => m
  | 0, _, m => m
  | n + 1, i :: r, m =>
    let e := streamEntry m0 i
    if strState m i = 2 && portUp m e && partStarted m (strPart e) then admitUpTo m0 n r (admitStream i m)
    else admitUpTo m0 (n + 1) r m

def execAdmissionTick (s : State) : Out := s.run (fun m =>
  if rdb m Reg.TIME_TURN_STATUS_RUNNING ∧ m.ing.lastAdmit + 1000000 ≤ now m then
    let m := { m with ing := { m.ing with lastAdmit := m.ing.lastAdmit + 1000000 } }
    m |> wrb Reg.ING_ADMIT_STATUS_RUNNING true |> admitUpTo m 64 (streamNos m)
  else m)

/-! ### Ports (R143, R178 to R180) -/

/-- Whether a port is enabled by PORTS. -/
def aphyEnabled (m : Mach) (n : Nat) : Bool := bitOf (secLe m 3 0 0 4) n
def aphyHold (m : Mach) (n : Nat) : Bool := rdb m (Reg.ING_APHY_CTRL_HOLD n)
def aphyState (m : Mach) (n : Nat) : Nat := rd m (Reg.ING_APHY_STATUS_STATE n)
/-- Ports of a training group that take part in it (R179). -/
def groupPorts (m : Mach) (g : Nat) : List Nat :=
  ((List.range 4).map (· + 4 * g)).filter (fun n => aphyEnabled m n && !aphyHold m n)
/-- A-PHY ports that train. -/
def training (m : Mach) : Nat := ((List.range 32).filter (fun n => aphyState m n == 2 || aphyState m n == 4)).length

/-- Start training on ports that wait, in port order, never more than four at once (R179). -/
def startWaiting (m : Mach) : Mach :=
  forEach (List.range 32) (fun n m =>
    let a := mget m.aphy n
    if aphyEnabled m n && !aphyHold m n && aphyState m n == 1 && (m.ing.group == 8 || a.failed) && decide (training m < 4) then
      wr (Reg.ING_APHY_STATUS_STATE n) (if a.failed then 4 else 2) m
    else m) m

/-- LINKS_UP of R180. -/
def linksUp (m : Mach) : Bool :=
  (List.range 32).all (fun n => !aphyEnabled m n || aphyState m n == 3 || (mget m.aphy n).ended || aphyHold m n) &&
    (List.range 16).all (fun n => !ethEnabled m n || rd m (Reg.ING_ETH_STATUS_STATE n) == 2 || m.ing.ethDone ||
      rdb m (Reg.ING_ETH_CTRL_HOLD n))

/-- LINKS_UP follows the ports once a base pattern is applied. -/
def syncLinks (m : Mach) : Mach := wrb Reg.ING_ADMIT_STATUS_LINKS_UP (applied m && linksUp m) m

/-- Start a group, skipping groups with no port to train; behind the last, ports not up retry. -/
def startGroup : Nat → Nat → Mach → Mach
  | 0, _, m => m
  | n + 1, g, m =>
    if 8 ≤ g then startWaiting { m with ing := { m.ing with group := 8 } }
    else
      let ps := groupPorts m g
      let m := forEach ((List.range 4).map (· + 4 * g)) (fun n => modAphy n (fun a => { a with ended := false })) m
      if ps.isEmpty then startGroup n (g + 1) m
      else
        forEach ps (fun n m => if aphyState m n = 1 then wr (Reg.ING_APHY_STATUS_STATE n) 2 m else m)
          { m with ing := { m.ing with group := g, groupAt := now m } }

/-- The group under way ends: ports not up go back to waiting, and the next group starts (R179). -/
def endGroup (m : Mach) : Mach :=
  let g := m.ing.group
  if 8 ≤ g then m
  else
    let m := forEach ((List.range 4).map (· + 4 * g)) (fun n m =>
      let m := modAphy n (fun a => { a with ended := true }) m
      if aphyState m n = 2 then wr (Reg.ING_APHY_STATUS_STATE n) 1 m else m) m
    startGroup 9 (g + 1) m

/-- The group ends early when all its ports are up. -/
def checkGroup (m : Mach) : Mach :=
  if m.ing.group < 8 ∧ (groupPorts m m.ing.group).all (fun n => aphyState m n == 3) then endGroup m else m

def execAphyGroupTimeout (s : State) : Out := s.run (fun m =>
  if m.ing.group < 8 ∧ m.ing.groupAt + 60000000 ≤ now m then m |> endGroup |> syncLinks else m)

/-- The profile and gear a port trains at with a partner (R143). -/
def negotiate (m : Mach) (n : Nat) (p1 p2 : List Nat) : Option (Nat × Nat) :=
  let e := slice (sec m 3 0) (0x10 + 16 * n) 16
  let best (top : Nat) (l : List Nat) : Nat := (l.filter (fun g => decide (1 ≤ g) && decide (g ≤ min top (le e 1 1)))).foldl max 0
  if le e 0 1 = 2 ∧ best 5 p2 ≠ 0 then some (1, best 5 p2)
  else if best 2 p1 ≠ 0 then some (0, best 2 p1)
  else none

/-- A port finishes training with what both ends offer; nothing in common leaves it TRAINING until its slot ends. -/
def execAphyLinkUp (port : Fin 32) (p1 p2 : List Nat) (retx : Bool) (delay : Nat) (s : State) : Out := s.run (fun m =>
  if aphyState m port ≠ 2 ∧ aphyState m port ≠ 4 then m
  else match negotiate m port p1 p2 with
    | none => m
    | some (prof, gear) =>
      m |> wr (Reg.ING_APHY_STATUS_STATE port) 3 |> wr (Reg.ING_APHY_STATUS_PROFILE port) prof
        |> wr (Reg.ING_APHY_STATUS_GEAR port) gear
        |> wrb (Reg.ING_APHY_STATUS_RETX port) (retx && secLe m 3 0 (0x12 + 16 * port) 1 == 1)
        |> wr (Reg.ING_APHY_DELAY port) delay |> modAphy port (fun a => { a with failed := false })
        |> checkGroup |> startWaiting |> syncLinks)

/-- Close the open frames of a port with LINK_LOSS (R178). -/
def closePort (cam : Bool) (port : Nat) (m : Mach) : Mach :=
  forEach (streamNos m) (fun i m =>
    let e := streamEntry m i
    if strCamera e = cam ∧ strPort e = port then closeFrame i (flagBit 17) m else m) m

/-- An A-PHY port goes down: to held, or to retraining under the limit of four (R178, R179). -/
def aphyDown (port : Nat) (m : Mach) : Mach :=
  let m := closePort true port m
  let m := m |> wr (Reg.ING_APHY_STATUS_GEAR port) 0 |> wrb (Reg.ING_APHY_STATUS_RETX port) false
  if aphyHold m port then m |> wr (Reg.ING_APHY_STATUS_STATE port) 0 |> startWaiting |> syncLinks
  else m |> inc (Reg.ING_APHY_CNT_RETRAIN port) |> wr (Reg.ING_APHY_STATUS_STATE port) 1
    |> modAphy port (fun a => { a with failed := true }) |> startWaiting |> syncLinks

def execAphyLinkFail (port : Fin 32) (s : State) : Out := s.run (fun m =>
  if aphyState m port = 3 then aphyDown port m else m)

/-- RETRAIN of a port that is up (R188). -/
def aphyRetrain (port : Nat) (m : Mach) : Mach := if aphyState m port = 3 then aphyDown port m else m

def execAphyRetrainCmd (who : Requester) (port : Fin 32) (s : State) : Out := s.run (fun m =>
  regWrite who (Reg.ING_APHY_CTRL_RETRAIN port) .any (aphyRetrain port) m)

/-- HOLD of an A-PHY port (R179): set, the port stays untrained; cleared, it trains as a retrain does. -/
def aphyHoldWrite (port : Nat) (h : Bool) (m : Mach) : Mach :=
  let old := aphyHold m port
  let m := wrb (Reg.ING_APHY_CTRL_HOLD port) h m
  if !aphyEnabled m port || old == h then m
  else if h then
    if aphyState m port = 3 then m |> aphyDown port |> checkGroup
    else m |> wr (Reg.ING_APHY_STATUS_STATE port) 0 |> checkGroup |> startWaiting |> syncLinks
  else m |> wr (Reg.ING_APHY_STATUS_STATE port) 1 |> modAphy port (fun a => { a with failed := true }) |> startWaiting
    |> syncLinks

def execAphyHoldWrite (who : Requester) (port : Fin 32) (hold : Bool) (s : State) : Out := s.run (fun m =>
  regWrite who (Reg.ING_APHY_CTRL_HOLD port) .any (aphyHoldWrite port hold) m)

def execEthLinkUp (port : Fin 16) (s : State) : Out := s.run (fun m =>
  if rd m (Reg.ING_ETH_STATUS_STATE port) = 1 then
    m |> wr (Reg.ING_ETH_STATUS_STATE port) 2 |> timePortUp port |> syncLinks
  else m)

/-- An Ethernet port goes down: frames close, and the time port loses PTP. -/
def ethDown (port : Nat) (m : Mach) : Mach :=
  m |> closePort false port |> wr (Reg.ING_ETH_STATUS_STATE port) 1 |> timePortDown port

def execEthLinkDown (port : Fin 16) (s : State) : Out := s.run (fun m =>
  if rd m (Reg.ING_ETH_STATUS_STATE port) = 2 then m |> ethDown port |> syncLinks else m)

/-- HOLD of an Ethernet port (R180). -/
def ethHoldWrite (port : Nat) (h : Bool) (m : Mach) : Mach :=
  let m := wrb (Reg.ING_ETH_CTRL_HOLD port) h m
  if !ethEnabled m port then m
  else if h then
    let m := if rd m (Reg.ING_ETH_STATUS_STATE port) = 2 then ethDown port m else m
    m |> wr (Reg.ING_ETH_STATUS_STATE port) 0 |> syncLinks
  else m |> (fun m => if rd m (Reg.ING_ETH_STATUS_STATE port) = 0 then wr (Reg.ING_ETH_STATUS_STATE port) 1 m else m) |> syncLinks

def execEthHoldWrite (who : Requester) (port : Fin 16) (hold : Bool) (s : State) : Out := s.run (fun m =>
  regWrite who (Reg.ING_ETH_CTRL_HOLD port) .any (ethHoldWrite port hold) m)

def execEthLinkWaitTimeout (s : State) : Out := s.run (fun m =>
  if applied m ∧ m.ing.appliedAt + 600000000 ≤ now m then syncLinks { m with ing := { m.ing with ethDone := true } } else m)

/-! ### Camera control (R187, R194) -/

/-- Queue an I2C command, or drop it with OVERFLOW. -/
def cciCommand (port : Nat) (v : Nat) (m : Mach) : Mach :=
  let a := mget m.aphy port
  if 32 ≤ a.cmds.length then modAphy port (fun a => { a with lostCmd := true }) m
  else
    let m := modAphy port (fun a => { a with cmds := a.cmds ++ [v] }) m
    if a.cmds.isEmpty then emit (.cciStart port v) m else m

def execCciCommand (who : Requester) (port : Fin 32) (v : Word) (s : State) : Out := s.run (fun m =>
  regWrite who (Reg.ING_APHY_CCI_CMD_REG port) .any (cciCommand port v.toNat) m)

/-- The transfer under way ends with a result word, where the result FIFO has room; the next one starts. -/
def cciDone (port : Nat) (res : Nat → Nat) (m : Mach) : Mach :=
  let a := mget m.aphy port
  match a.cmds with
  | [] => m
  | c :: r =>
    if 32 ≤ a.results.length then m
    else
      let m := modAphy port (fun a => { a with cmds := r, results := a.results ++ [res c] }) m
      match r with
      | [] => m
      | d :: _ => emit (.cciStart port d) m

/-- Result words (R194): VALID, with RDATA of a read, NACK, or TIMEOUT. -/
def execCciTransferComplete (port : Fin 32) (data : Nat) (ack : Bool) (s : State) : Out := s.run (
  cciDone port (fun c => (if bitOf c 23 && ack then data % 256 else 0) + 256 + (if ack then 0 else 512)))

def execCciTimeout (port : Fin 32) (s : State) : Out := s.run (cciDone port (fun _ => 256 + 1024))

/-- A read of ING_APHY_CCI_RESULT: the head entry, which leaves the FIFO, with OVERFLOW and the entries left. -/
def cciWord (m : Mach) (port : Nat) : Nat :=
  let a := mget m.aphy port
  a.results.headD 0 + (if a.lostCmd then 2048 else 0) + (a.results.length - 1) * 65536
def cciRead (port : Nat) (m : Mach) : Mach := modAphy port (fun a => { a with results := a.results.drop 1, lostCmd := false }) m

def execCciResultRead (who : Requester) (port : Fin 32) (s : State) : Out := s.run (fun m =>
  readAt who (presented who (Reg.ING_APHY_CCI_RESULT_RDATA port).addr) (fun _ => cciWord m port) (fun _ => cciRead port) m)

end Sys2Proof.Machine
end

