-- ==== Sys2Proof/Machine/IspStages.lean ====
section
/-!
DEFINITION. The stages of the image pipeline (R208 to R220) as functions on images. A stage answers each site's value with
the number of clips or replacements it counts there.
-/

namespace Sys2Proof.Machine

/-- An image: rows of samples, from the top. -/
abbrev Img := Array (Array Nat)

/-- A sample. -/
def px (g : Img) (x y : Nat) : Nat := (g.getD y #[]).getD x 0

/-- Build an image site by site, with the sum of what is counted. -/
def mapImg (w h : Nat) (f : Nat → Nat → Nat × Nat) : Img × Nat :=
  let rows := (List.range h).map (fun y => (List.range w).map (fun x => f x y))
  ((rows.map (fun r => (r.map (·.1)).toArray)).toArray, (rows.map (fun r => (r.map (·.2)).sum)).sum)

/-- Mirror a coordinate at the borders without repeating the edge (R208). -/
def mirror (n : Nat) (i : Int) : Nat :=
  if i < 0 then i.natAbs else if (n : Int) ≤ i then (2 * ((n : Int) - 1) - i).toNat else i.toNat

def max24 : Nat := 0xFFFFFF
/-- Clip to 24 bits, counting it. -/
def clip24 (v : Nat) : Nat × Nat := (min v max24, b2n (decide (max24 < v)))
/-- Clip a signed result to 0 … hi, counting it. -/
def clipI (hi : Nat) (v : Int) : Nat × Nat :=
  if v < 0 then (0, 1) else if (hi : Int) < v then (hi, 1) else (v.toNat, 0)

/-! ### Parameters (R210) -/

def pCfa (p : List Byte) : Nat := le p 0 1
def pOn (p : List Byte) (i : Nat) : Bool := bitOf (le p 1 1) i
def pExp (p : List Byte) : Nat := le p 2 1
def pSegs (p : List Byte) : Nat := le p 3 1
def pSegIn (p : List Byte) (i : Nat) : Nat := le p (8 + 8 * i) 4
def pSegOut (p : List Byte) (i : Nat) : Nat := le p (12 + 8 * i) 3
def pSegShift (p : List Byte) (i : Nat) : Nat := le p (15 + 8 * i) 1
def pBlack (p : List Byte) (f : Nat) : Nat := le p (0x48 + 4 * f) 4
def pWb (p : List Byte) (f : Nat) : Nat := le p (0x58 + 2 * f) 2
def pMerge (p : List Byte) (e : Nat) : Nat := le p (0x60 + 2 * (e - 1)) 2
def pSat (p : List Byte) (e : Nat) : Nat := le p (0x64 + 4 * e) 4
def pCcm (p : List Byte) (i k : Nat) : Int := signedOf 16 (le p (0x70 + 2 * (3 * i + k)) 2)
def pTone (p : List Byte) (j : Nat) : Nat := le p (0x88 + 2 * j) 2
def pCsc (p : List Byte) (i k : Nat) : Int := signedOf 16 (le p (0xEC + 2 * (3 * i + k)) 2)
def pCscOff (p : List Byte) (i : Nat) : Int := signedOf 16 (le p (0x100 + 2 * i) 2)
def pCropX (p : List Byte) : Nat := le p 0x108 2
def pCropY (p : List Byte) : Nat := le p 0x10A 2
def pCropW (p : List Byte) : Nat := le p 0x10C 2
def pCropH (p : List Byte) : Nat := le p 0x10E 2
def pStatSat (p : List Byte) : Nat := le p 0x110 4
def pShade (p : List Byte) (f r c : Nat) : Nat := le p (0x120 + 2 * ((f * 7 + r) * 9 + c)) 2

/-- Colour phase of a site (R209). -/
def phase (x y : Nat) : Nat := 2 * (y % 2) + x % 2

/-- Channel sampled at a phase: 0 R, 1 G or C, 2 B (R210). -/
def cfaChan (cfa f : Nat) : Nat :=
  let at3 (a b c d : Nat) : Nat := match f with | 0 => a | 1 => b | 2 => c | _ => d
  match cfa with
  | 1 => at3 0 1 1 2 | 2 => at3 1 0 2 1 | 3 => at3 1 2 0 1 | 4 => at3 2 1 1 0
  | 5 => at3 0 1 1 2 | 6 => at3 1 0 2 1 | 7 => at3 1 2 0 1 | 8 => at3 2 1 1 0
  | 9 => at3 0 1 1 1 | 10 => at3 1 0 1 1 | 11 => at3 1 1 0 1 | 12 => at3 1 1 1 0
  | _ => 0

/-! ### Stages 2 to 7 -/

/-- Decompanding (R212). -/
def decompand (p : List Byte) (x : Nat) : Nat × Nat :=
  let i := ((List.range (pSegs p)).filter (fun i => pSegIn p i ≤ x)).getLastD 0
  clip24 (pSegOut p i + (x - pSegIn p i) * 2 ^ pSegShift p i)

/-- Black level (R213). -/
def blackLevel (p : List Byte) (f x : Nat) : Nat × Nat := (x - pBlack p f, b2n (decide (x < pBlack p f)))

/-- Defect correction (R213): the count is of replacements. -/
def defect (p : List Byte) (g : Img) (w h x y : Nat) : Nat × Nat :=
  let d : Int := if pCfa p = 0 then 1 else 2
  let ns := [(-d, -d), (0, -d), (d, -d), (-d, 0), (d, 0), (-d, d), (0, d), (d, d)].map
    (fun (o : Int × Int) => px g (mirror w (x + o.1)) (mirror h (y + o.2)))
  let lo := ns.foldl min (ns.headD 0)
  let hi := ns.foldl max (ns.headD 0)
  let t := le p 4 4
  let v := px g x y
  if hi + t < v then (hi, 1) else if t ≤ lo ∧ v < lo - t then (lo, 1) else (v, 0)

/-- Lens shading (R214). -/
def shading (p : List Byte) (w h x y v : Nat) : Nat × Nat :=
  let f := phase x y
  let fx := x * 2048 / (w - 1)
  let cx := min (fx / 256) 7
  let wx := fx - 256 * cx
  let fy := y * 1536 / (h - 1)
  let cy := min (fy / 256) 5
  let wy := fy - 256 * cy
  let acc := pShade p f cy cx * (256 - wx) * (256 - wy) + pShade p f cy (cx + 1) * wx * (256 - wy) +
    pShade p f (cy + 1) cx * (256 - wx) * wy + pShade p f (cy + 1) (cx + 1) * wx * wy
  clip24 (rndShift (v * rndShift acc 16) 12)

/-- Multi-exposure merge (R215) over the exposures' images. -/
def mergeAt (p : List Byte) (gs : List Img) (x y : Nat) : Nat × Nat :=
  let n := gs.length
  let v (e : Nat) : Nat := px (gs.getD e #[]) x y
  let e := ((List.range n).find? (fun e => decide (e < 2 ∧ v e < pSat p e) || decide (e + 1 = n))).getD 0
  if n ≤ 1 ∨ e = 0 then (v 0, 0) else clip24 (rndShift (v e * pMerge p e) 8)

/-- White balance (R216). -/
def whiteBalance (p : List Byte) (f v : Nat) : Nat × Nat := clip24 (rndShift (v * pWb p f) 12)

/-! ### Stages 8 to 11 -/

/-- Channel `c` at a site of the mosaic (R216). -/
def demosaicAt (cfa : Nat) (g : Img) (w h x y c : Nat) : Nat :=
  let at2 (dx dy : Int) : Nat := px g (mirror w (x + dx)) (mirror h (y + dy))
  let chan (dx dy : Nat) : Nat := cfaChan cfa (phase (x + dx) (y + dy))
  let c := if 9 ≤ cfa ∧ c = 2 then 1 else c
  if cfa = 0 ∨ chan 0 0 = c then px g x y
  else
    let row := chan 1 0 == c
    let col := chan 0 1 == c
    if row && col then rndShift (at2 (-1) 0 + at2 1 0 + at2 0 (-1) + at2 0 1) 2
    else if row then rndShift (at2 (-1) 0 + at2 1 0) 1
    else if col then rndShift (at2 0 (-1) + at2 0 1) 1
    else rndShift (at2 (-1) (-1) + at2 1 (-1) + at2 (-1) 1 + at2 1 1) 2

/-- The three channels at a site of three images. -/
abbrev Img3 := Nat → Img

/-- Colour matrix (R217). -/
def colourMatrix (p : List Byte) (g : Img3) (i x y : Nat) : Nat × Nat :=
  clipI max24 (rndShiftI (pCcm p i 0 * px (g 0) x y + pCcm p i 1 * px (g 1) x y + pCcm p i 2 * px (g 2) x y) 10)

/-- Points of the tone curve (R217). -/
def toneX (j : Nat) : Nat := if j = 0 then 0 else if j = 1 then 1 else if j % 2 = 0 then 2 ^ (j / 2) else 3 * 2 ^ (j / 2 - 1)

/-- Tone curve (R217). -/
def toneCurve (p : List Byte) (c : Nat) : Nat :=
  let j := ((List.range 48).filter (fun j => toneX j ≤ c)).getLastD 0
  let s := Nat.log2 (toneX (j + 1) - toneX j)
  ((pTone p j : Int) + rndShiftI (((c - toneX j : Nat) : Int) * ((pTone p (j + 1) : Int) - pTone p j)) s).toNat

/-- Colour conversion of three values (R218). -/
def colourConv (p : List Byte) (t : Nat → Int) (i : Nat) : Nat × Nat :=
  clipI 255 (rndShiftI (pCsc p i 0 * t 0 + pCsc p i 1 * t 1 + pCsc p i 2 * t 2) 14 + pCscOff p i)

/-- Y, Cb and Cr of a site of UYVY rows (R218): an odd column takes the mean of its even neighbours. -/
def yuvAt (g : Img) (w x y c : Nat) : Nat :=
  if c = 0 then px g (2 * x + 1) y
  else
    let o := if c = 1 then 0 else 2
    let even (x : Nat) : Nat := px g (x / 2 * 4 + o) y
    if x % 2 = 0 then even x else rndShift (even (x - 1) + even (mirror w ((x : Int) + 1))) 1

/-! ### Stages 12 and 13 (R219, R220) -/

/-- Box average of B_x × B_y blocks of the cropped image. -/
def boxAverage (g : Img) (x0 y0 bx by' x y : Nat) : Nat :=
  let s := ((List.range by').map (fun j => ((List.range bx).map (fun i => px g (x0 + x * bx + i) (y0 + y * by' + j))).sum)).sum
  divR s (bx * by')

/-- Bilinear interpolation of `w1` samples to output position `ox` of `n`. -/
def bilinear (f : Nat → Nat) (w1 n ox : Nat) : Nat :=
  let step := w1 * 256 / n
  let s := min ((ox * step + step / 2 : Nat) - (128 : Int)).toNat ((w1 - 1) * 256)
  let i := s / 256
  let t := s % 256
  divR (f i * (256 - t) + f (min (i + 1) (w1 - 1)) * t) 256

/-- Crop and scale one channel. -/
def scaleImg (p : List Byte) (g : Img) (ow oh : Nat) : Img :=
  let bx := pCropW p / ow
  let by' := pCropH p / oh
  let w1 := pCropW p / bx
  let h1 := pCropH p / by'
  let a := (mapImg w1 h1 (fun x y => (boxAverage g (pCropX p) (pCropY p) bx by' x y, 0))).1
  let b := (mapImg ow h1 (fun x y => (bilinear (fun i => px a i y) w1 ow x, 0))).1
  (mapImg ow oh (fun x y => (bilinear (fun j => px b x j) h1 oh y, 0))).1

/-! ### The whole chain -/

/-- What a job makes of an item: the planes, the images a tap can copy, and the statistics. -/
structure IspResult where
  planes   : List Img := []
  taps     : List (List Img) := []   -- planes of points 0 to 10
  merged   : Img := #[]
  hist     : List Nat := []          -- tone value of each pixel
  dpc      : Nat := 0
  clips    : Nat := 0

/-- Raw order of the exposures' lines. -/
def interleave (gs : List Img) (h : Nat) : Img :=
  ((List.range h).flatMap (fun y => gs.map (fun g => g.getD y #[]))).toArray

/-- A stage over every exposure. -/
def perExp (gs : List Img) (w h : Nat) (f : Img → Nat → Nat → Nat × Nat) : List Img × Nat :=
  let rs := gs.map (fun g => mapImg w h (f g))
  (rs.map (·.1), (rs.map (·.2)).sum)

/-- A stage over three channels. -/
def perChan (w h : Nat) (f : Nat → Nat → Nat → Nat × Nat) : Img3 × Nat :=
  let a := mapImg w h (f 0)
  let b := mapImg w h (f 1)
  let c := mapImg w h (f 2)
  ((fun i => if i = 0 then a.1 else if i = 1 then b.1 else c.1), a.2 + b.2 + c.2)

def img3List (g : Img3) : List Img := [g 0, g 1, g 2]

/-- Stages 2 to 13 of a RAW item: `gs` is one unpacked image per exposure, `w` × `h` sites each (R209). -/
def runRaw (p : List Byte) (gs : List Img) (w h ow oh planes : Nat) : IspResult :=
  let (g2, c2) := if pOn p 0 then perExp gs w h (fun g x y => decompand p (px g x y)) else (gs, 0)
  let (g3, c3) := perExp g2 w h (fun g x y => blackLevel p (phase x y) (px g x y))
  let (g4, dpc) := if pOn p 1 then perExp g3 w h (fun g x y => defect p g w h x y) else (g3, 0)
  let (g5, c5) := if pOn p 2 then perExp g4 w h (fun g x y => shading p w h x y (px g x y)) else (g4, 0)
  let (g6, c6) := mapImg w h (mergeAt p g5)
  let (g7, c7) := if pOn p 3 then mapImg w h (fun x y => whiteBalance p (phase x y) (px g6 x y)) else (g6, 0)
  let g8 : Img3 := (perChan w h (fun c x y => (demosaicAt (pCfa p) g7 w h x y c, 0))).1
  let (g9, c9) := if pOn p 4 then perChan w h (fun c x y => colourMatrix p g8 c x y) else (g8, 0)
  let g10 : Img3 := (perChan w h (fun c x y =>
    (if pOn p 5 then toneCurve p (px (g9 c) x y) else px (g9 c) x y / 4096, 0))).1
  let (g11, c11) := perChan w h (fun c x y => colourConv p (fun k => px (g10 k) x y) c)
  { planes := (List.range planes).map (fun c => scaleImg p (g11 c) ow oh),
    taps := [[interleave gs h], [interleave g2 h], [interleave g3 h], [interleave g4 h], [interleave g5 h], [g6], [g7],
             img3List g8, img3List g9, img3List g10, img3List g11],
    merged := g6, hist := (g10 (if pCfa p = 0 then 0 else 1)).toList.flatMap (·.toList),
    dpc := dpc, clips := c2 + c3 + c5 + c6 + c7 + c9 + c11 }

/-- Stages 11 to 13 of a YUV422 item (R209, R218). -/
def runYuv (p : List Byte) (g : Img) (w h ow oh planes : Nat) : IspResult :=
  let t (k x y : Nat) : Int := if k = 0 then 16 * (yuvAt g w x y 0 : Nat) else 16 * ((yuvAt g w x y k : Nat) - 128 : Int)
  let (g11, c11) := perChan w h (fun c x y => colourConv p (fun k => t k x y) c)
  { planes := (List.range planes).map (fun c => scaleImg p (g11 c) ow oh),
    taps := [[], [], [], [], [], [], [], [], [], [], img3List g11],
    hist := (List.range h).flatMap (fun y => (List.range w).map (fun x => 16 * yuvAt g w x y 0)),
    clips := c11 }

/-- The bytes of a plane's row: `v` under UINT8, `v` − 128 under INT8, then zero up to the pitch (R220). -/
def planeRow (e : List Byte) (g : Img) (y : Nat) : List Byte :=
  padTo (rowPitch e) ((List.range (ispOutW e)).map (fun x =>
    BitVec.ofNat 8 (if ispFormat e = 1 then px g x y else px g x y + 128)))

/-- The planar tensor (R220). -/
def tensorOf (e : List Byte) (planes : List Img) : List Byte :=
  planes.flatMap (fun g => padTo (planeStride e) ((List.range (ispOutH e)).flatMap (planeRow e g)))

/-- The row check table (R205). -/
def rowChecks (e : List Byte) (planes : List Img) : List Byte :=
  planes.flatMap (fun g => (List.range (ispOutH e)).flatMap (fun y => leBytes 4 (crc32c ((planeRow e g y).take (ispOutW e)))))

/-- A 32-bit count that saturates. -/
def sat32 (n : Nat) : Nat := min n 0xFFFFFFFF

/-- HIST and ZONE of the statistics block (R223). -/
def histBytes (r : IspResult) : List Byte :=
  (List.range 256).flatMap (fun b => leBytes 4 (sat32 ((r.hist.filter (fun t => t / 16 == b)).length)))

def zoneBytes (p : List Byte) (g : Img) (w h : Nat) : List Byte :=
  let sites := (List.range h).flatMap (fun y => (List.range w).map (fun x => (x, y, px g x y)))
  (List.range 128).flatMap (fun z =>
    let l := sites.filter (fun s => 8 * s.2.1 / h * 16 + 16 * s.1 / w == z)
    let sum (c : Nat) : Nat :=
      ((l.filter (fun s => (if pCfa p = 0 then 0 else cfaChan (pCfa p) (phase s.1 s.2.1)) == c)).map (fun s => s.2.2 / 256)).sum
    leBytes 4 (sat32 (sum 0)) ++ leBytes 4 (sat32 (sum 1)) ++ leBytes 4 (sat32 (sum 2)) ++
      leBytes 4 (sat32 (l.filter (fun s => decide (pStatSat p ≤ s.2.2))).length))

/-- The fields that R225 checks of a parameter set `p` for the stream entry `se` and the output entry `e`: whether each holds, and
its offset. -/
def paramChecks (p se e : List Byte) : List (Bool × Nat) :=
  let dt := strDt se
  let w := strWidth se
  let ex := pExp p
  let h := strHeight se / ex
  let segs := pSegs p
  let zeroAt (off n : Nat) : Bool × Nat := (le p off n == 0, off)
  let small (v off : Nat) : Bool × Nat := (decide (v ≤ max24), off)
  [(decide (pCfa p ≤ 12) && (dt != 0x1E || pCfa p == 0), 0), (decide (le p 1 1 < 64), 1),
    (decide (1 ≤ ex) && decide (ex ≤ 3) && strHeight se % ex == 0, 2), (decide (1 ≤ segs) && decide (segs ≤ 8), 3), small (le p 4 4) 4,
    (pSegIn p 0 == 0, 8)] ++
  (List.range 8).flatMap (fun i =>
    if i < segs then [(decide (pSegIn p i < 2 ^ dtBits dt) && (i == 0 || decide (pSegIn p (i - 1) < pSegIn p i)), 8 + 8 * i),
      (decide (pSegShift p i ≤ 12), 15 + 8 * i)]
    else [zeroAt (8 + 8 * i) 8]) ++
  (List.range 4).map (fun f => small (pBlack p f) (0x48 + 4 * f)) ++
  [(decide (0x100 ≤ le p 0x60 2), 0x60), (decide (0x100 ≤ le p 0x62 2), 0x62), small (pSat p 0) 0x64, small (pSat p 1) 0x68] ++
  (List.range 49).map (fun j => (decide (pTone p j ≤ 4095), 0x88 + 2 * j)) ++
  (List.range 3).map (fun i => (decide (-255 ≤ pCscOff p i) && decide (pCscOff p i ≤ 255), 0x100 + 2 * i)) ++
  [small (pStatSat p) 0x110, zeroAt 0x6C 4, zeroAt 0x82 6, zeroAt 0xEA 2, zeroAt 0xFE 2, zeroAt 0x106 2, zeroAt 0x114 12, zeroAt 0x318 232,
    (decide (3 ≤ w) && decide (3 ≤ h), 2), (decide (pCropX p + pCropW p ≤ w) && decide (ispOutW e ≤ pCropW p) &&
      decide (pCropW p ≤ 8 * ispOutW e), 0x108), (decide (pCropY p + pCropH p ≤ h) && decide (ispOutH e ≤ pCropH p) &&
      decide (pCropH p ≤ 8 * ispOutH e), 0x108)]

/-- Checks of a profile or parameter set (R210, R219, R208) for a camera stream's entry and its ISP entry. -/
def paramOk (p se e : List Byte) : Bool := (paramChecks p se e).all (·.1)

end Sys2Proof.Machine
end

