-- ==== Sys2Proof/Machine/Scratch.lean ====
section
/-!
DEFINITION. Scratch (R342 to R372): bank maps, leases, ready bits, reservations and pins, ECC words and poison, and the
wipe.
-/

namespace Sys2Proof.Machine

/-! ### Offsets and granules (R342) -/

/-- Device address of a partition scratch address. -/
def psaAddr (m : Mach) (p psa : Nat) : Nat := scrAddr m p (psa / 2 ^ 25) (psa % 2 ^ 25)

/-- Whether a granule number names a granule. -/
def granOk (m : Mach) (gn : Nat) : Bool := decide (gn % 8192 < 6144) && decide (gn / 8192 < coresPer m)

/-- Granule numbers of `n` bytes from a PSA. -/
def granules (psa n : Nat) : List Nat :=
  if n = 0 then [] else (List.range ((psa + n - 1) / 4096 + 1 - psa / 4096)).map (· + psa / 4096)

/-- Granule numbers of `n` granules from `g` on. -/
def granRun (g n : Nat) : List Nat := (List.range n).map (· + g)

/-! ### Ready bits, reservations and pins (R354 to R356) -/

/-- The ready bit of a granule. -/
def readyBit (p gn : Nat) : Fld := Reg.SCR_READY p (gn / 8192) (gn % 8192 / 32) (gn % 32)
def ready (m : Mach) (p gn : Nat) : Bool := rdb m (readyBit p gn)
def allReady (m : Mach) (p : Nat) (gs : List Nat) : Bool := gs.all (ready m p)
def setReady (p : Nat) (b : Bool) (gs : List Nat) (m : Mach) : Mach := forEach gs (fun g => wrb (readyBit p g) b) m

/-- Reservation and pins of a granule. -/
def granHolds (m : Mach) (p gn : Nat) : Nat := getD 0 m.grans (p * 2 ^ 14 + gn)
def granFree (m : Mach) (p gn : Nat) : Bool := granHolds m p gn == 0
def allFree (m : Mach) (p : Nat) (gs : List Nat) : Bool := gs.all (granFree m p)

/-- Change what holds a granule; SCR_HELD follows it. -/
def setHolds (p gn n : Nat) (m : Mach) : Mach :=
  wrb (Reg.SCR_HELD p (gn / 8192) (gn % 8192 / 32) (gn % 32)) (n != 0)
    { m with grans := setD 0 m.grans (p * 2 ^ 14 + gn) n }

def reserveGran (p gn : Nat) (m : Mach) : Mach := setHolds p gn (granHolds m p gn / 2 * 2 + 1) m
def unreserveGran (p gn : Nat) (m : Mach) : Mach := setHolds p gn (granHolds m p gn / 2 * 2) m
def pinGran (p gn : Nat) (m : Mach) : Mach := setHolds p gn (granHolds m p gn + 2) m
def unpinGran (p gn : Nat) (m : Mach) : Mach := setHolds p gn (granHolds m p gn - 2) m

/-- Whether granules may be written by a master that honours ready bits: none set, reserved or pinned. -/
def writable (m : Mach) (p : Nat) (gs : List Nat) : Bool := gs.all (fun g => !ready m p g && granFree m p g)

/-! ### Bank maps (R343, R346) -/

/-- The regions of a core's bank map in force. -/
def mapRegions (m : Mach) (p k : Nat) : List MapRegion :=
  if rdb m (Reg.SCR_STATUS_DEFAULT_MAP p) then
    (List.range 48).map (fun b => { gf := 128 * b, gc := 128, bf := b, bn := 1, wf := 0 })
  else
    (List.range (rd m (if k = 0 then Reg.SCR_STATUS_REGIONS0 p else Reg.SCR_STATUS_REGIONS1 p))).map (fun r =>
      { gf := rd m (Reg.SCR_MAP_GRANULE_FIRST p k r), gc := rd m (Reg.SCR_MAP_GRANULE_COUNT p k r),
        bf := rd m (Reg.SCR_MAP_BANK_FIRST p k r), bn := rd m (Reg.SCR_MAP_BANK_COUNT p k r),
        wf := rd m (Reg.SCR_MAP_WORD_FIRST p k r) })

/-- The banks of one region that words `lo` to `hi` of a core's scratch lie in. -/
def regionBanks (r : MapRegion) (lo hi : Nat) : List Nat :=
  let lo := max lo (r.gf * 64)
  let hi := min hi ((r.gf + r.gc) * 64)
  (List.range (min r.bn (hi - lo))).map (fun i => r.bf + (lo + i - r.gf * 64) % r.bn)

/-- The banks of CORE[k] that `n` bytes from an offset lie in. -/
def banksOf (m : Mach) (p k off n : Nat) : List Nat :=
  if n = 0 then [] else ((mapRegions m p k).flatMap (fun r => regionBanks r (off / 64) ((off + n - 1) / 64 + 1))).eraseDups

/-- The bank of a byte (R343). -/
def bankOf (m : Mach) (p psa : Nat) : Nat := ((banksOf m p (psa / 2 ^ 25) (psa % 2 ^ 25) 1).head?).getD 0

/-- Whether a bank is a weight bank. -/
def weightBank (m : Mach) (p k b : Nat) : Bool := bitOf (rd m (Reg.SCR_WEIGHT p k)) b

/-! ### Leases (R351 to R353) -/

/-- Lease codes of the V, D and H lanes, and of no lease (R314). -/
def laneV : Nat := 6
def laneD : Nat := 7
def laneH : Nat := 8
def unleased : Nat := 9

/-- Whether every bank of `n` bytes at a PSA names a lane. -/
def leasedTo (m : Mach) (p psa n lane : Nat) : Bool :=
  (banksOf m p (psa / 2 ^ 25) (psa % 2 ^ 25) n).all (fun b => rd m (Reg.SCR_LEASE p (psa / 2 ^ 25) b) == lane)

/-! ### ECC words and poison (R361 to R364) -/

/-- The unit path of the bank of a PSA: 0.C.p.k.SB.b. -/
def pathBank (m : Mach) (p psa : Nat) : Nat := pathCore m p (psa / 2 ^ 25) 5 (bankOf m p psa) 63

/-- The damaged ECC words that `n` bytes at a PSA touch, with their damage: 1 uncorrectable, 2 poison. An ECC word's damage
stands at its first 8-byte word. -/
def scrDamaged (m : Mach) (p psa n : Nat) : List (Nat × Nat) :=
  let a := psaAddr m p psa
  if n = 0 then []
  else (m.bad.filter (fun c => decide (a / 32 * 4 ≤ c.1) && decide (c.1 < ((a + n - 1) / 32 + 1) * 4))).map
    (fun c => ((c.1 * 8 - a / 32 * 32 + psa / 32 * 32) / 32, c.2))

/-- The ECC word of number `w` (PSA ÷ 32) takes a damage; a poisoned word's data is zero (R363). -/
def markEcc (p w kind : Nat) (m : Mach) : Mach :=
  let a := psaAddr m p (w * 32)
  let m := if kind = 2 then zeroMem a (a + 32) m else m
  markBad (a / 8) kind m

/-- Words become poison where a master writes them with a failed verdict (R238). -/
def poisonRange (p psa n : Nat) (m : Mach) : Mach :=
  if n = 0 then m
  else forEach (List.range ((psa + n - 1) / 32 + 1 - psa / 32)) (fun i => markEcc p (psa / 32 + i) 2) m

/-- Key of a bank's poison queue. -/
def pqKey (m : Mach) (p psa : Nat) : Nat := (p * 2 + psa / 2 ^ 25) * 64 + bankOf m p psa

/-- A read meets a damaged ECC word (R364): counted, SCR_ERR_ADDR, and for the first read of an uncorrectable word its
record and its place in the bank's poison queue; a full queue leaves it unmarked. -/
def meetDamage (base : LogRec) (p : Nat) (engine : Bool) (c : Nat × Nat) (m : Mach) : Mach :=
  let psa := c.1 * 32
  let m := m |> wr (Reg.SCR_ERR_ADDR_PSA p) psa
    |> wrb (Reg.SCR_ERR_ADDR_WEIGHT p) (weightBank m p (psa / 2 ^ 25) (bankOf m p psa))
    |> wrb (Reg.SCR_ERR_ADDR_POISONED p) (c.2 == 2)
  if c.2 = 2 then
    m |> inc (Reg.SCR_CNT_POISON_READ p) |> whenB engine (inc (Reg.TC_CNT_SEAM_POISON p))
  else
    let m := m |> inc (Reg.SCR_CNT_UE p)
      |> logErr { base with path := pathBank m p psa, source := 0x52, detail := leBytes 4 psa }
    let key := pqKey m p psa
    if 8 ≤ (mget m.poisonq key).length then m
    else markBad (psaAddr m p psa / 8) 2 { m with poisonq := mmod m.poisonq key (· ++ [c.1]) }

/-- The verdict of a read of `n` bytes (R364): 0 whole, 1 uncorrectable, 2 poisoned, and its counts and records. -/
def scrVerdict (base : LogRec) (p : Nat) (engine : Bool) (psa n : Nat) (m : Mach) : Nat × Mach :=
  let l := scrDamaged m p psa n
  ((l.foldl (fun a c => if a = 1 then 1 else c.2) 0), forEach l (meetDamage base p engine) m)

/-- The bytes at a PSA. -/
def scrBytesAt (m : Mach) (p psa n : Nat) : List Byte := readMem m (psaAddr m p psa) n

/-- Write bytes at a PSA (R359): an ECC word written in part is read first; an uncorrectable one becomes poison and is
logged, a poisoned one keeps its code, and in both the written bytes are not kept. -/
def scrWrite (p psa : Nat) (bs : List Byte) (m : Mach) : Mach :=
  let n := bs.length
  let part := (scrDamaged m p psa n).filter (fun c => decide (c.1 * 32 < psa) || decide (psa + n < c.1 * 32 + 32))
  let m := writeMem (psaAddr m p psa) bs m
  forEach part (fun c m =>
    let m := m |> wr (Reg.SCR_ERR_ADDR_PSA p) (c.1 * 32)
      |> wrb (Reg.SCR_ERR_ADDR_WEIGHT p) (weightBank m p (c.1 * 32 / 2 ^ 25) (bankOf m p (c.1 * 32)))
      |> wrb (Reg.SCR_ERR_ADDR_POISONED p) (c.2 == 2)
    let m := if c.2 = 2 then inc (Reg.SCR_CNT_POISON_READ p) m
      else m |> inc (Reg.SCR_CNT_UE p)
        |> logErr { path := pathBank m p (c.1 * 32), source := 0x52, detail := leBytes 4 (c.1 * 32) }
    markEcc p c.1 2 m) m

/-- A bank writes the poison code over the oldest word of its queue, in a cycle no lane uses (R364). -/
def execPoisonWriteback (p : Fin 8) (k : Fin 2) (bank : Fin 48) (s : State) : Out := s.run (fun m =>
  let key := (p.val * 2 + k) * 64 + bank
  match mget m.poisonq key with
  | [] => m
  | w :: r => markEcc p w 2 { m with poisonq := mset m.poisonq key r })

/-! ### Wipe (R367 to R369) -/

/-- Whether a partition's scratch takes no access: its wipe or reset runs, or a forensic hold (R31, R368, R369). -/
def scrDown (m : Mach) (p : Nat) : Bool :=
  rdb m (Reg.SCR_STATUS_WIPING p) || rdb m (Reg.SCR_STATUS_HELD p) || rd m (Reg.TC_RECOV_STATUS_STATE p) == 3

/-- The wipe of a partition begins: every word zero and whole, no ready bit, reservation or pin, every bank unleased, the
poison queues empty. -/
def wipeScratch (p : Nat) (m : Mach) : Mach :=
  let a := scrAddr m p 0 0
  let base := 0x7F10080000 + p * 0x1000000
  { m with grans := clearRange m.grans (p * 2 ^ 14) ((p + 1) * 2 ^ 14),
           poisonq := clearRange m.poisonq (p * 128) (p * 128 + 128) }
    |> zeroMem a (a + coresPer m * 0x2000000)
    |> clearRegs (base + 0x1000) (base + 0x2000)
    |> clearRegs (base + 0x20) (base + 0x60)
    |> wrb (Reg.SCR_STATUS_WIPING p) true

/-- The bank map that a partition's ROUTINES section carries comes into force, or the default map where it has none
(R344, R346). -/
def loadMap (p : Nat) (m : Mach) : Mach :=
  let base := 0x7F10080000 + p * 0x1000000
  let m := m |> clearRegs (base + 0x10) (base + 0x20) |> clearRegs (base + 0x2000) (base + 0x2400)
  match secOf m 7 p with
  | none => m |> wrb (Reg.SCR_STATUS_DEFAULT_MAP p) true |> wr (Reg.SCR_STATUS_REGIONS0 p) 48
      |> wr (Reg.SCR_STATUS_REGIONS1 p) (if coresPer m = 1 then 0 else 48)
  | some _ =>
    let b := constTail m p 1024 1024
    let half (k : Nat) (m : Mach) : Mach :=
      let n := le b (512 * k + 6) 1
      m |> wr (Reg.SCR_WEIGHT p k) (le b (512 * k) 6)
        |> wr (if k = 0 then Reg.SCR_STATUS_REGIONS0 p else Reg.SCR_STATUS_REGIONS1 p) n
        |> forEach (List.range n) (fun r m =>
            let o := 512 * k + 8 + 8 * r
            m |> wr (Reg.SCR_MAP_GRANULE_FIRST p k r) (le b o 2) |> wr (Reg.SCR_MAP_GRANULE_COUNT p k r) (le b (o + 2) 2)
              |> wr (Reg.SCR_MAP_BANK_FIRST p k r) (le b (o + 4) 1) |> wr (Reg.SCR_MAP_BANK_COUNT p k r) (le b (o + 5) 1)
              |> wr (Reg.SCR_MAP_WORD_FIRST p k r) (le b (o + 6) 2))
    m |> wrb (Reg.SCR_STATUS_DEFAULT_MAP p) false |> half 0 |> half 1

/-! ### Seams (R239, R243, R244) -/

/-- A failed verdict in a partition: TC_SEAM_LAST and its tag. KIND 0 CRC, 1 uncorrectable ECC, 2 poison, 3
transformation. -/
def seamLast (p seam kind : Nat) (retried : Bool) (tag : Nat) (m : Mach) : Mach :=
  m |> wr (Reg.TC_SEAM_LAST_SEAM p) seam |> wr (Reg.TC_SEAM_LAST_KIND p) kind
    |> wrb (Reg.TC_SEAM_LAST_RETRIED p) retried |> wrb (Reg.TC_SEAM_LAST_CLEARED p) true
    |> wr (Reg.TC_SEAM_LAST_TAG p) tag

end Sys2Proof.Machine
end

