-- ==== Sys2Proof/Machine/Isp.lean ====
section
/-!
DEFINITION. The jobs of the image pipeline (R195 to R232): slots, starts and ends, where a tensor goes, taps, and the
commits of its parameters.
-/

namespace Sys2Proof.Machine

/-- Change one camera stream of the pipeline. -/
def modIsp (i : Nat) (f : IspStream → IspStream) (m : Mach) : Mach := syncIsp i { m with isps := mmod m.isps i f }

/-- Change a pipe, with ISP_PIPE_STATUS and JOB_RUNNING behind it (R229, R232). -/
def modPipe (n : Nat) (f : Pipe → Pipe) (m : Mach) : Mach :=
  let m := { m with pipes := mmod m.pipes n f }
  wrb (Reg.ISP_PIPE_STATUS_BUSY n) (mget m.pipes n).job.isSome m

/-- JOB_RUNNING of a stream. -/
def syncRunning (i : Nat) (m : Mach) : Mach :=
  wrb (Reg.ISP_STR_STATUS_JOB_RUNNING i) (m.pipes.any (fun p => (p.2.job.map (fun j => j.stream == i)).getD false)) m

/-- Unit path of a pipe: 0.P.IP.i. -/
def pathPipe (m : Mach) (n : Nat) : Nat := upath m 1 3 n 0 63 63

/-- Samples and duration of a job (R200). -/
def jobNs (se : List Byte) : Nat :=
  let samples := strWidth se * strHeight se
  let bytes := (samples * (dtBits (strDt se) * 4 / 8) + 3) / 4
  400 + max ((samples + 3) / 4) ((bytes + 7) / 8) + 200

/-- The cycle position of the turn under way (R201). -/
def cyclePos (m : Mach) : Nat :=
  (rd m Reg.TIME_TURN_TICK - tickOffsetNs m) / periodNs m % cycleTurns m

/-! ### Slots (R198, R201) -/

/-- The oldest item of a stream that ingress handed on before the grid tick, that no job has taken and that has not
failed. -/
def oldestWaiting (m : Mach) (i tick : Nat) : Option Nat :=
  ((mget m.isps i).waiting.find? (fun w => decide (w.2 < tick) && ((lookup m.items w.1).map (fun it => it.fixed.isNone)).getD false)).map (·.1)

def execIspSlotStart (slot : Nat) (s : State) : Out := s.run (fun m =>
  let b := ispSlot m slot
  let n := le b 0 1
  let i := le b 2 2
  let tick := rd m Reg.TIME_TURN_TICK
  let plan := tick + le b 4 4
  if slot < ispSlots m ∧ bitOf (le b 8 8) (cyclePos m) ∧ plan ≤ now m ∧ !(mget m.pipes n).done.contains slot then
    let m := modPipe n (fun p => { p with done := slot :: p.done }) m
    match oldestWaiting m i tick with
    | none => inc (Reg.ISP_PIPE_CNT_IDLE n) m
    | some t =>
      m |> modIsp i (fun x => { x with waiting := x.waiting.filter (fun w => w.1 != t) })
        |> modPipe n (fun p => { p with wait := p.wait ++ [(i, t, plan)] })
  else m)

/-! ### Reading the raw slot (R221, R222) -/

/-- Flags of a line in the line-check table. -/
def lineFlags (m : Mach) (a line : Nat) : Nat := le (readMem m (a + 128 + 8 * line) 8) 6 1

/-- A line that may be read: neither MISSING nor LOST. -/
def lineValid (m : Mach) (a line : Nat) : Bool := let f := lineFlags m a line; !bitOf f 3 && !bitOf f 4

/-- The raw line that serves line `r` of exposure `e`: itself, else the nearest valid line of the same exposure and colour
phase above it, else below it (R222). -/
def lineSource (m : Mach) (a ex rows e r : Nat) : Option Nat :=
  let ok (q : Nat) : Bool := q % 2 == r % 2 && lineValid m a (q * ex + e)
  let up := ((List.range (r + 1)).filter ok).getLast?
  let down := ((List.range rows).filter (fun q => decide (r < q) && ok q)).head?
  (up <|> down).map (fun q => q * ex + e)

/-- Every line's source, by raw line; none where some exposure has no valid line of a colour phase. -/
def lineSources (m : Mach) (a ex h : Nat) : Option (List Nat) :=
  (List.range h).mapM (fun l => lineSource m a ex (h / ex) (l % ex) (l / ex))

/-- A raw line in memory. -/
def rawLine (m : Mach) (se : List Byte) (a line : Nat) : List Byte :=
  readMem m (a + linesOff se + line * linePitch se) (lineBytes se)

/-- Whether an incoming check fails at seam 5 (R221, R238): HDR_CRC, EMB_CRC, a line's CRC, or a damaged word. -/
def rawBad (m : Mach) (se : List Byte) (a : Nat) (lines : List Nat) : Bool :=
  let hdr := readMem m a 128
  let emb := readMem m (a + embOff se) (le hdr 0x1C 4)
  damage m a (embOff se + strEmb se) != 0 || le hdr 0x7C 4 != crc32c (hdr.take 124) || le hdr 0x20 4 != crc32c emb ||
    lines.any (fun l =>
      let bs := rawLine m se a l
      damage m (a + linesOff se + l * linePitch se) (lineBytes se) != 0 ||
        le (readMem m (a + 128 + 8 * l) 8) 0 4 != crc32c bs)

/-! ### Where a tensor goes (R204, R205) -/

/-- A slot's address is free: no HELD slot overlaps its bytes (R205, R225). -/
def outFree (m : Mach) (x : IspStream) (i a size : Nat) : Bool :=
  !x.held.any (fun h => overlaps a size h.1 (ispSlotBytes (ispEntry m i)))

/-- The next FREE output slot in ring order from the active base. -/
def nextOut (m : Mach) (i base : Nat) : Option Nat :=
  let x := mget m.isps i
  let e := ispEntry m i
  let first := if x.outBase = base then rd m (Reg.ISP_STR_STATUS_OUT_NEXT i) else 0
  ((List.range (ispOutSlots e)).map (fun j => (first + j) % ispOutSlots e)).find?
    (fun j => outFree m x i (base + j * ispSlotBytes e) (ispSlotBytes e))

/-- The bytes of a job's tensor in scratch, and its granules. -/
def jobGranules (m : Mach) (j : Job) : List Nat :=
  if j.toHbm then [] else granules (j.core * 2 ^ 25 + j.addr) (tensorBytes (ispEntry m j.stream))

/-- A job drops what it holds in scratch. -/
def jobRelease (j : Job) (m : Mach) : Mach := forEach (jobGranules m j) (unreserveGran j.part) m

/-- An item's raw slot is freed by its job (R161, R203). -/
def freeRaw (j : Job) (m : Mach) : Mach :=
  m |> modItem j.tag (fun it => { it with hasSlot := false }) |> freeSlot j.stream j.rslot j.rgen

/-- The job of a pipe is over: nothing runs on it, its version and its tap are free, and its raw slot is FREE. -/
def jobOver (n : Nat) (j : Job) (tapDone : Bool) (m : Mach) : Mach :=
  let m := m |> jobRelease j |> modPipe n (fun p => { p with job := none, lastEnd := now m }) |> syncRunning j.stream
    |> freeRaw j |> unbindIsp j.tag
  if j.tap then
    m |> wrb (Reg.ISP_STR_TAP_ARMED j.stream) false |> whenB tapDone (wrb (Reg.ISP_STR_TAP_DONE j.stream) true)
  else m

/-- ISP_FLAGS of an item. -/
def setIspFlags (t f : Nat) : Mach → Mach := modItem t (fun it => { it with ispFlags := it.ispFlags ||| f })

/-- A job fails its item. -/
def jobFail (n : Nat) (j : Job) (st : Status) (reason flags : Nat) (m : Mach) : Mach :=
  m |> jobOver n j false |> setIspFlags j.tag (j.flags ||| flags) |> failItem j.tag st reason

/-- Whether a job's raw read, output write or statistics write reaches a channel in self-refresh, or its scratch a partition
in reset or being wiped (R203). -/
def jobStops (m : Mach) (j : Job) : Bool :=
  let se := streamEntry m j.stream
  let e := ispEntry m j.stream
  inSelfRefresh m j.raddr || inSelfRefresh m (j.raddr + strSlotBytes se - 1) ||
    (if j.toHbm then inSelfRefresh m j.addr || inSelfRefresh m (j.addr + ispSlotBytes e - 1) else scrDown m j.part) ||
    (ispStats e != 0 && inSelfRefresh m (ispStatsBase e + tagSeq j.tag % ispStats e * 4096))

/-- An item that no job runs for: its raw slot is freed without being read (R203). -/
def notRun (t : Nat) (it : Item) (st : Status) (reason flags : Nat) (m : Mach) : Mach :=
  m |> freeSlot it.stream it.slot it.gen |> modItem t (fun it => { it with hasSlot := false }) |> unbindIsp t
    |> setIspFlags t flags |> failItem t st reason

/-- Start the job of an item on a pipe (R202 to R205, R222, R224). -/
def startJob (n i t plan : Nat) (it : Item) (m : Mach) : Mach :=
  let se := streamEntry m i
  let e := ispEntry m i
  let x := mget m.isps i
  let v := getD x.active x.bound t
  let ver := (x.vers.find? (fun w => w.id == v)).getD {}
  let ex := pExp ver.param
  let last := (mget m.pipes n).lastEnd
  if (mget m.pipes n).out then notRun t it .failedFault Reason.pipe 0 m
  else if (lineSources m it.slotAddr ex (strHeight se)).isNone then notRun t it .failedData Reason.pipe 0 m
  else
    let p := strPart se
    let psa := ispCore e * 2 ^ 25 + ver.scr
    let gs := granules psa (tensorBytes e)
    let unleasedD := ispDest e == 0 && !leasedTo m p psa (tensorBytes e) laneD
    let divert := ispDest e == 0 && !scrDown m p && (!writable m p gs || unleasedD)
    let m := if ispDest e = 0 ∧ unleasedD then inc (Reg.SCR_CNT_LEASE_DIVERT p) m else m
    let toHbm := ispDest e != 0 || divert
    let flags := if divert then flagBit 0 else 0
    let m := if divert then inc (Reg.ISP_STR_CNT_DIVERTED i) m else m
    let job : Job := { stream := i, tag := t, start := max plan last, dur := jobNs se, toHbm := toHbm, core := ispCore e,
                       part := p, flags := flags, turn := gridTurn m, ver := v, tap := x.tapWait, rslot := it.slot,
                       rgen := it.gen, raddr := it.slotAddr, addr := ver.scr }
    match (if toHbm then nextOut m i ver.outB else some 0) with
    | none => m |> inc (Reg.ISP_STR_CNT_OUT_FULL i) |> notRun t it .failedData Reason.pipe (flags ||| flagBit 4)
    | some slot =>
      let a := ver.outB + slot * ispSlotBytes e
      let job := if toHbm then { job with slot := slot, addr := a } else job
      let m := m |> modIsp i (fun x => { x with
          tapWait := false, held := if toHbm then x.held ++ [(a, t)] else x.held,
          outBase := if toHbm then ver.outB else x.outBase })
        |> whenB toHbm (wr (Reg.ISP_STR_STATUS_OUT_NEXT i) ((slot + 1) % ispOutSlots e))
      let m := if toHbm then m else forEach gs (reserveGran p) m
      let m := m |> modPipe n (fun p => { p with job := some job }) |> wr (Reg.ISP_PIPE_STATUS_STREAM n) i
        |> syncRunning i |> inc (Reg.ISP_PIPE_CNT_JOBS n) |> inc (Reg.ISP_STR_CNT_JOBS i)
        |> whenB (decide (plan < last)) (inc (Reg.ISP_PIPE_CNT_LATE_START n))
      if jobStops m job then jobFail n job .failedReset Reason.reset 0 m else m

def execIspJobStart (pipe : Fin 8) (s : State) : Out := s.run (fun m =>
  let pp := mget m.pipes pipe
  match pp.job, pp.wait with
  | none, (i, t, plan) :: r =>
    if now m < plan then m
    else
      let m := modPipe pipe (fun p => { p with wait := r }) m
      match lookup m.items t with
      | none => m
      | some it => if it.fixed.isSome then m else startJob pipe i t plan it m
  | _, _ => m)

/-! ### The end of a job (R205, R206, R223, R224) -/

/-- The unpacked images of the exposures, lines filled (R211, R222). -/
def rawImages (m : Mach) (se : List Byte) (a ex : Nat) (src : List Nat) : List Img :=
  (List.range ex).map (fun e =>
    ((List.range (strHeight se / ex)).map (fun r =>
      (unpackLine (strDt se) (rawLine m se a (src.getD (r * ex + e) 0))).toArray)).toArray)

/-- The tensor header (R205). -/
def tensorHeader (e : List Byte) (tag flags turn stamp : Nat) : List Byte :=
  let b := leBytes 4 tag ++ leBytes 2 flags ++ leBytes 1 (ispPlanes e) ++ leBytes 1 (ispFormat e) ++ leBytes 2 (ispOutW e) ++
    leBytes 2 (ispOutH e) ++ leBytes 2 (rowPitch e) ++ zeros 2 ++ leBytes 4 (planeStride e) ++ leBytes 4 turn ++
    leBytes 8 stamp ++ zeros 28
  b ++ leBytes 4 (crc32c b)

/-- The statistics block (R223). -/
def statsBlock (p : List Byte) (r : IspResult) (tag frameNo seq turn stamp w h : Nat) : List Byte :=
  let sat := (r.merged.toList.flatMap (·.toList)).countP (fun v => decide (pStatSat p ≤ v))
  let b := leBytes 4 tag ++ leBytes 2 frameNo ++ leBytes 1 (pExp p) ++ [0] ++ leBytes 4 seq ++ leBytes 4 turn ++
    leBytes 8 stamp ++ leBytes 4 (sat32 r.dpc) ++ leBytes 4 (sat32 r.clips) ++ leBytes 4 (sat32 sat) ++ zeros 28 ++
    histBytes r ++ zoneBytes p r.merged w h ++ zeros 956
  b ++ leBytes 4 (crc32c b)

/-- Write the tap of a point (R224): the samples of a stage that is bypassed for YUV422 are free values
(notes/assumptions/2.md). Answers whether it was cut. -/
def writeTap (e : List Byte) (r : IspResult) (i tag w rows h : Nat) (m : Mach) : Bool × Mach :=
  let point := rd m (Reg.ISP_STR_TAP_POINT i)
  let shift := rd m (Reg.ISP_STR_TAP_SHIFT i)
  let n := if point ≤ 6 then 1 else 3
  let th := if point ≤ 4 then rows else h
  let planes := r.taps.getD point []
  let hdr := leBytes 4 tag ++ leBytes 1 point ++ leBytes 1 n ++ leBytes 2 w ++ leBytes 2 th ++ zeros 50
  let (bs, m) :=
    if planes.isEmpty then let (v, m) := draw (16 * n * w * th) m; (leBytes (2 * n * w * th) v, m)
    else (planes.flatMap (fun g => (List.range th).flatMap (fun y => (List.range w).flatMap (fun x =>
      leBytes 2 (min (px g x y / 2 ^ shift) 0xFFFF)))), m)
  let all := hdr ++ leBytes 4 (crc32c hdr) ++ bs
  (decide (ispTapBytes e < all.length), writeMem (ispTapBase e) (all.take (ispTapBytes e)) m)

/-- Post a completion (R206), or fail the item where the FIFO is full. -/
def postCompletion (j : Job) (seq flags : Nat) (m : Mach) : Mach :=
  if 512 ≤ (mget m.comps j.part).length then
    m |> logErr { path := pathPartElem m j.part 6, source := 0x5B, tag := j.tag, detail := leBytes 4 0 }
      |> failItem j.tag .failedFault Reason.fifoFull
  else
    { m with comps := mmod m.comps j.part (· ++ [{
        tag := j.tag, lo := j.tag + flags * 2 ^ 32 + b2n j.toHbm * 2 ^ 48 + j.slot * 2 ^ 56, hi := j.turn + seq * 2 ^ 32 }]) }
      |> syncFifo j.part |> placeTurn j.tag

/-- A job that passes every check ends: tensor, row checks, statistics, tap and completion. -/
def finishJob (n : Nat) (j : Job) (src : List Nat) (m : Mach) : Mach :=
  let i := j.stream
  let se := streamEntry m i
  let e := ispEntry m i
  let ver := ((mget m.isps i).vers.find? (fun w => w.id == j.ver)).getD {}
  let ex := pExp ver.param
  let w := strWidth se
  let h := strHeight se / ex
  let gs := rawImages m se j.raddr ex src
  let r := if strDt se = 0x1E then runYuv ver.param (gs.getD 0 #[]) w h (ispOutW e) (ispOutH e) (ispPlanes e)
    else runRaw ver.param gs w h (ispOutW e) (ispOutH e) (ispPlanes e)
  let fill := decide (src ≠ List.range (strHeight se))
  let hdr := readMem m j.raddr 128
  let stamp := le hdr 8 8
  let (trunc, m) := if j.tap then writeTap e r i j.tag w (strHeight se) h m else (false, m)
  let flags := j.flags ||| (if fill then flagBit 1 else 0) ||| (if trunc then flagBit 3 else 0) |||
    (if j.tap then flagBit 5 else 0)
  let m := if fill then inc (Reg.ISP_STR_CNT_LINE_FILL i) m else m
  let m := if j.toHbm then
      m |> writeMem j.addr (tensorHeader e j.tag flags j.turn stamp)
        |> writeMem (j.addr + 4096) (tensorOf e r.planes)
        |> writeMem (j.addr + 4096 + tensorBytes e) (rowChecks e r.planes)
    else
      m |> writeMem (psaAddr m j.part (j.core * 2 ^ 25 + j.addr)) (tensorOf e r.planes)
        |> setReady j.part true (jobGranules m j)
  let m := if ispStats e = 0 then m
    else writeMem (ispStatsBase e + tagSeq j.tag % ispStats e * 4096)
      (statsBlock ver.param r j.tag (le hdr 0x1A 2) ver.seq j.turn stamp w h) m
  m |> jobOver n j true |> setIspFlags j.tag flags |> modItem j.tag (fun it => { it with scr := j.addr, jobTurn := j.turn })
    |> postCompletion j ver.seq flags

def execIspJobEnd (pipe : Fin 8) (mismatch : Bool) (s : State) : Out := s.run (fun m =>
  match (mget m.pipes pipe).job with
  | none => m
  | some j =>
    let se := streamEntry m j.stream
    let ver := ((mget m.isps j.stream).vers.find? (fun w => w.id == j.ver)).getD {}
    let src := (lineSources m j.raddr (pExp ver.param) (strHeight se)).getD []
    let fails (seam : Nat) (m : Mach) : Mach :=
      m |> logErr { path := pathPipe m pipe, source := 0x50, seam := seam, tag := j.tag }
        |> inc (Reg.ISP_STR_CNT_CHECK_FAIL j.stream) |> jobFail pipe j .failedFault Reason.pipe (flagBit 2)
    if jobStops m j then jobFail pipe j .failedReset Reason.reset 0 m
    else if rawBad m se j.raddr src then fails 5 m
    else if mismatch then fails 6 m
    else if now m < j.start + j.dur then m
    else finishJob pipe j src m)

def execIspJobTimeout (pipe : Fin 8) (s : State) : Out := s.run (fun m =>
  match (mget m.pipes pipe).job with
  | none => m
  | some j =>
    if now m < j.start + 2 * j.dur then m
    else m |> logErr { path := pathPipe m pipe, source := 0x56, tag := j.tag, detail := leBytes 4 pipe }
      |> inc (Reg.ISP_PIPE_CNT_ABORT pipe) |> inc (Reg.ISP_STR_CNT_ABORT j.stream)
      |> jobFail pipe j .failedFault Reason.pipe 0)

def execIspJobStopReset (pipe : Fin 8) (s : State) : Out := s.run (fun m =>
  match (mget m.pipes pipe).job with
  | none => m
  | some j => if jobStops m j then jobFail pipe j .failedReset Reason.reset 0 m else m)

/-! ### Parameters and taps (R225, R226, R231) -/

/-- The shadow parameter set of a stream. -/
def shadowParam (m : Mach) (i : Nat) : List Byte :=
  (List.range 256).flatMap (fun w => leBytes 4 (rd m (Reg.ISP_STR_PARAM i w)))

/-- The checks of a commit on the shadow bases (R225). -/
def basesOk (m : Mach) (e : List Byte) (scr out : Nat) : Bool :=
  scr % 4096 == 0 && decide (scr + tensorBytes e ≤ scrBytes) && decide (ispCore e < coresPer m) && out % 4096 == 0 &&
    decide (ispRegion e ≤ out) && decide (out + ispOutSlots e * ispSlotBytes e ≤ ispRegion e + ispRegionBytes e)

/-- A commit of a stream's shadow parameters and bases. -/
def ispCommit (i : Nat) (m : Mach) : Mach :=
  match ispEntry? m i with
  | none => m
  | some e =>
    let x := mget m.isps i
    let scr := rd m (Reg.ISP_STR_SH_SCR i)
    let out := rd m (Reg.ISP_STR_SH_OUT i)
    let p := shadowParam m i
    if !paramOk p (streamEntry m i) e || !basesOk m e scr out then wrb (Reg.ISP_STR_STATUS_COMMIT_ERROR i) true m
    else match x.pending with
      | some v => modIsp i (fun x => { x with
          vers := x.vers.map (fun w => if w.id = v then { w with param := p, scr := scr, outB := out } else w) }) m
      | none =>
        if 4 ≤ x.vers.length then
          m |> wrb (Reg.ISP_STR_STATUS_COMMIT_ERROR i) true |> wrb (Reg.ISP_STR_STATUS_VERSIONS_FULL i) true
        else
          let v : IspVer := { id := x.nextId, param := p, scr := scr, outB := out }
          m |> modIsp i (fun x => { x with pending := some x.nextId, nextId := x.nextId + 1, vers := x.vers ++ [v] })
            |> trackApply i

def execIspParamCommit (who : Requester) (i : Fin 1024) (s : State) : Out := s.run (fun m =>
  if i.val < 512 then regWrite who (Reg.ISP_STR_CTRL_COMMIT i) .any (ispCommit i) m else m)

/-- A write of ISP_STR_TAP (R231): POINT and SHIFT, the acknowledged bits, then ARM. -/
def tapWrite (i v : Nat) (m : Mach) : Mach :=
  match ispEntry? m i with
  | none => m
  | some e =>
    let point := v % 16
    let shift := v / 16 % 16
    let m := m |> wr (Reg.ISP_STR_TAP_POINT i) point |> wr (Reg.ISP_STR_TAP_SHIFT i) shift
      |> whenB (bitOf v 10) (wrb (Reg.ISP_STR_TAP_DONE i) false)
      |> whenB (bitOf v 11) (wrb (Reg.ISP_STR_TAP_ERROR i) false)
    if !bitOf v 8 then m
    else if 11 ≤ point ∨ 9 ≤ shift ∨ ispTapBytes e = 0 then wrb (Reg.ISP_STR_TAP_ERROR i) true m
    else m |> wrb (Reg.ISP_STR_TAP_ARMED i) true |> modIsp i (fun x => { x with tapWait := true })

def execIspTapArm (who : Requester) (i : Fin 1024) (v : Word) (s : State) : Out := s.run (fun m =>
  if i.val < 512 then regWrite who (Reg.ISP_STR_TAP_ARM i) .any (tapWrite i v.toNat) m else m)

/-- A full load fills a stream's shadow and active values from its profile and its ISP entry (R195, R225). -/
def loadIsp (i : Nat) (m : Mach) : Mach :=
  let e := ispEntry m i
  let p := ispProfile m (strProfile (streamEntry m i))
  let ver : IspVer := { id := 0, param := p, scr := ispScrOffset e, outB := ispOutBase e }
  let x : IspStream := { vers := [ver], nextId := 1, outBase := ispOutBase e }
  { m with isps := mset m.isps i x } |> forEach (List.range 256) (fun w => wr (Reg.ISP_STR_PARAM i w) (le p (4 * w) 4))
    |> wr (Reg.ISP_STR_SH_SCR i) (ispScrOffset e) |> wr (Reg.ISP_STR_SH_OUT i) (ispOutBase e)
    |> wr (Reg.ISP_STR_ACT_SCR i) (ispScrOffset e) |> wr (Reg.ISP_STR_ACT_OUT i) (ispOutBase e) |> syncIsp i

end Sys2Proof.Machine
end

