-- ==== Sys2Proof/Machine/KvBase.lean ====
section
/-!
DEFINITION. Where a KV pool keeps its tables (R388, R391, R393), and what a wipe and a partition reset do to a walker (R408, R411,
R412).
-/

namespace Sys2Proof.Machine

def modKv (p : Nat) (f : Kv → Kv) (m : Mach) : Mach := { m with kvs := mmod m.kvs p f }

/-- Address of a pool page. -/
def kvPage (m : Mach) (p i : Nat) : Nat := kvBase m p + i * 65536

/-- Address of a handle entry, and of a page descriptor. -/
def kvEntry (m : Mach) (p i : Nat) : Nat := kvBase m p + 64 * i
def kvDesc (m : Mach) (p i : Nat) : Nat := kvPage m p 5 + 8 * i

/-- Pages of the descriptor table: T of R388. -/
def kvTables (m : Mach) (p : Nat) : Nat := ceilDiv (kvPages m p * 8) 65536

/-- A page descriptor (R393): count, use, ZEROING, sub-pool, and the next free page (none at the end of the list). -/
def kvSetDesc (p i ref use : Nat) (zeroing temporal : Bool) (next : Option Nat) (m : Mach) : Mach :=
  writeMem (kvDesc m p i) (leBytes 4 (ref + use * 65536 + b2n zeroing * 2 ^ 18 + b2n temporal * 2 ^ 19) ++
    leBytes 4 (next.getD 0xFFFFFFFF)) m

/-- Fields of a page descriptor. -/
def kvRef (m : Mach) (p i : Nat) : Nat := memLe m (kvDesc m p i) 2
def kvUse (m : Mach) (p i : Nat) : Nat := bitsAt (memLe m (kvDesc m p i) 4) 16 2
def kvIsTemporal (m : Mach) (p i : Nat) : Bool := bitOf (memLe m (kvDesc m p i) 4) 19
def kvNext (m : Mach) (p i : Nat) : Option Nat :=
  let n := memLe m (kvDesc m p i + 4) 4
  if n = 0xFFFFFFFF then none else some n

/-- A page whose count has reached 0 waits to be written as zero. -/
def kvFree (p i : Nat) (m : Mach) : Mach :=
  m |> kvSetDesc p i 0 0 true (kvIsTemporal m p i) none |> modKv p (fun k => { k with zeroing := k.zeroing ++ [i] })

/-- Every pending temporal generation of the partition is discarded. -/
def kvDiscard (p : Nat) (m : Mach) : Mach :=
  if kvPages m p = 0 then m
  else forEach (List.range 4096) (fun i m =>
    let a := kvEntry m p i
    let g := memLe m (a + 0x1C) 1
    if memLe m a 1 = 2 ∧ bitOf g 1 then m |> writeMem (a + 0x1C) (leBytes 1 (g % 2)) |> writeMem (a + 0x24) (zeros 4) else m) m

/-- A walker stops where it stands: an operation under way whose intent the journal holds is completed later. -/
def kvStop (p : Nat) (m : Mach) : Mach :=
  let k := mget m.kvs p
  let head := (mget m.engines (p * 8 + 5)).flight.head?
  let j : Option (Nat ⊕ EngOp) := match k.op with
    | .instr => head.bind (fun o => if o.opcode = 0x6A ∧ bitsAt o.word 43 3 ≠ 0 then some (.inr o) else none)
    | .fetchInstr => none
    | .fetchCmd c => some (.inl c)
    | .cmd c => some (.inl c)
    | _ => none
  let op : KvOp := match k.op with
    | .mapRemote h i v s => .mapRemote h i v s
    | _ => .idle
  let j := k.journal <|> j
  m |> forEach k.reads (fun r => kvFree p r.mirror) |> modKv p (fun k => { k with op := op, reads := [], fail := none, journal := j })

/-- A partition reset discards the walker's queue and its LAB, and every pending temporal generation. Messages in the ring are
sent again. -/
def kvReset (p : Nat) (m : Mach) : Mach :=
  let m := kvStop p m
  let k := mget m.kvs p
  m |> modKv p (fun k => { k with lab := [] })
    |> wr (Reg.KV_STATUS_LAB_VALID p) 0 |> wrb (Reg.KV_STATUS_ROLLFWD p) (k.journal.isSome || k.building)
    |> addTo (Reg.KV_CNT_MSG_OUT p) (min 1024 k.msgs.length) |> kvDiscard p

end Sys2Proof.Machine
end

