-- ==== Sys2Proof/Machine/Locks.lean ====
section
/-!
DEFINITION. The lock table (R571 to R573, R590).
-/

namespace Sys2Proof.Machine

/-- Commands on a lock. -/
inductive LockCmd where
  | acquire | release | clear
deriving DecidableEq, Repr

/-- Whether a requester of a code acts on a lock that has this owner code: host-cluster cores share one (R548). -/
def lockMine (m : Mach) (owner n : Nat) : Bool := lockOwner m n == owner && decide (n < 1024)

/-- An attempt that has no effect and is logged (R571). -/
def lockRefused (code n : Nat) (m : Mach) : Mach := hostIf .lockRefused code n 0 0 0 0 m

/-- One command on lock `n` by a requester with a holder code and an owner code (R571). -/
def lockAct (c : LockCmd) (code owner n : Nat) (m : Mach) : Mach :=
  let holder := rd m (Reg.LOCK_STATE_HOLDER n)
  if !lockMine m owner n then lockRefused code n m
  else match c with
    | .acquire => if holder = 0 then wr (Reg.LOCK_STATE_HOLDER n) code m else m
    | .release => if holder = code then wr (Reg.LOCK_STATE_HOLDER n) 0 m else lockRefused code n m
    | .clear => if holder = code then wrb (Reg.LOCK_STATE_ABANDONED n) false m else lockRefused code n m

/-- A holder is reset: each lock it holds is released abandoned, and counted (R573, R590). -/
def abandonLocks (code : Nat) (m : Mach) : Mach :=
  forEach (List.range 1024) (fun n m =>
    if rd m (Reg.LOCK_STATE_HOLDER n) = code then
      m |> wr (Reg.LOCK_STATE_HOLDER n) 0 |> wrb (Reg.LOCK_STATE_ABANDONED n) true |> inc Reg.LOCK_CNT_ABANDONED
    else m) m

/-- A write of LOCK_CMD[n] with a command (R590). -/
def lockWrite (who : Requester) (c : LockCmd) (n : Nat) (m : Mach) : Mach :=
  regWrite who (Reg.LOCK_CMD_CMD n) .any (lockAct c (reqCode who) (ownerCode who) n) m

def execLockAcquire (who : Requester) (n : Fin 1024) (s : State) : Out := s.run (lockWrite who .acquire n)
def execLockRelease (who : Requester) (n : Fin 1024) (s : State) : Out := s.run (lockWrite who .release n)
def execLockClearAbandoned (who : Requester) (n : Fin 1024) (s : State) : Out := s.run (lockWrite who .clear n)

end Sys2Proof.Machine
end

