-- ==== Sys2Proof/Machine/PowerBase.lean ====
section
/-!
DEFINITION. Rails and HINT windows (R637, R640, R645 to R648): what the arrays and the sequencer share with the power manager.
-/

namespace Sys2Proof.Machine

/-- A field of the POWER section (R640). -/
def pwrF (m : Mach) (off n : Nat) : Nat := secLe m 0xF 0 off n
def pwrPriority (m : Mach) (p : Nat) : Nat := pwrF m (0x20 + 4 * p) 1
def hinted (m : Mach) (p : Nat) : Bool := bitOf (pwrF m (0x21 + 4 * p) 1) 0
def trimMax (m : Mach) (p : Nat) : Nat := pwrF m (0x22 + 4 * p) 1

def modPwr (p : Nat) (f : PwrPart → PwrPart) (m : Mach) : Mach := { m with pparts := mmod m.pparts p f }

/-- Voltage of an operating point in mV (R636). -/
def pointMv (n : Nat) : Nat := 900 - 50 * n

/-- The regulator setting of a partition (R637, R490): a raise sets the voltage of the point it leads to at once (R638). -/
def vSet (m : Mach) (p : Nat) : Nat :=
  let n := rd m (Reg.PWR_PART_STATUS_POINT p)
  let up := pointMv (min n ((mget m.pparts p).change.getD n)) + 10 * rd m (Reg.SAF_SUSPECT_VSTEP p)
  let down := rd m (Reg.PWR_PART_STATUS_TRIM_MV p) + (if rdb m (Reg.PWR_PART_STATUS_LIGHT p) then 40 else 0)
  max 550 (min 950 (up - down))

/-- Registers that follow a partition's rail: V_set, WINDOW, and the copy that MFR reads (R659, R661, R662). -/
def syncRail (p : Nat) (m : Mach) : Mach :=
  let m := m |> wr (Reg.PWR_PART_RAIL_V_SET p) (vSet m p) |> wrb (Reg.PWR_PART_STATUS_WINDOW p) (!(mget m.pparts p).wins.isEmpty)
  let f (x : Fld) : Nat := rd m x * 2 ^ x.lo
  wr (Reg.TC_PWR_STATUS p)
    (f (Reg.PWR_PART_STATUS_POINT p) + f (Reg.PWR_PART_STATUS_CAP_LEVEL p) + f (Reg.PWR_PART_STATUS_THERM_LEVEL p) +
      f (Reg.PWR_PART_STATUS_CHANGING p) + f (Reg.PWR_PART_STATUS_LIGHT p) + f (Reg.PWR_PART_STATUS_WINDOW p) +
      f (Reg.PWR_PART_STATUS_TRIM_MV p) + f (Reg.PWR_PART_STATUS_TRIM_HELD p) + f (Reg.PWR_PART_STATUS_THROTTLED p)) m

/-- Operating points (R642, R655): the slower of the two levels, or the slowest while it is forced. -/
def pointDue (m : Mach) (p : Nat) : Nat :=
  if rdb m Reg.PWR_STATUS_FORCED_SLOW then 7
  else max (rd m (Reg.PWR_PART_STATUS_CAP_LEVEL p)) (rd m (Reg.PWR_PART_STATUS_THERM_LEVEL p))

/-- A margin test of the partition runs. -/
def marginRuns (m : Mach) (p : Nat) : Bool := rdb m Reg.SAF_MARGIN_STATUS_RUNNING && rd m Reg.SAF_MARGIN_STATUS_NEXT == p

/-- A change of operating point begins where one is due, unless a change, a reset or a margin test of the partition is under way
(R638). A lower point takes the clock at once; a higher one when the rail has risen. -/
def syncPoint (p : Nat) (m : Mach) : Mach :=
  let n := rd m (Reg.PWR_PART_STATUS_POINT p)
  let d := pointDue m p
  if d = n ∨ rdb m (Reg.PWR_PART_STATUS_CHANGING p) ∨ rd m (Reg.TC_RECOV_STATUS_STATE p) = 3 ∨ marginRuns m p ∨
      rdb m Reg.PWR_STATUS_SHUTDOWN then m
  else m |> modPwr p (fun x => { x with change := some d, changeAt := now m }) |> wrb (Reg.PWR_PART_STATUS_CHANGING p) true
    |> whenB (decide (n < d)) (wr (Reg.PWR_PART_STATUS_POINT p) d) |> syncRail p

/-- Both arrays of a partition are COLD (R265). -/
def arraysCold (m : Mach) (p : Nat) : Bool := [0, 1].all (fun k => rd m (Reg.TC_CORE_STATUS_RAMP_STATE p k) == 0)

/-- The rail goes to the light level, or starts to rise: it reaches the full level 5 µs later (R646; notes/assumptions/13.md). -/
def setLight (p : Nat) (b : Bool) (m : Mach) : Mach :=
  if rdb m (Reg.PWR_PART_STATUS_LIGHT p) = b then m
  else m |> wrb (Reg.PWR_PART_STATUS_LIGHT p) b |> modPwr p (fun x => if b then x else { x with fullAt := now m + 5000 }) |> syncRail p

/-- The light level where R645 asks for it. A window alone does not raise the rail: R646 says when it rises. -/
def fallLight (p : Nat) (m : Mach) : Mach :=
  let x := mget m.pparts p
  if hinted m p && arraysCold m p && x.wins.isEmpty && !x.held && rd m (Reg.TC_RECOV_STATUS_STATE p) != 3 then setLight p true m
  else m

/-- Whether an array of a partition may leave COLD (R647). -/
def atFull (m : Mach) (p : Nat) : Bool :=
  !hinted m p || (!rdb m (Reg.PWR_PART_STATUS_LIGHT p) && decide ((mget m.pparts p).fullAt ≤ now m))

/-- Open a HINT window (R646). -/
def openWindow (p lead cores : Nat) (m : Mach) : Mach :=
  m |> modPwr p (fun x => { x with wins := x.wins ++ [{ opened := now m, lead := lead, cores := cores }] }) |> syncRail p

/-- A HINT on a partition (R334, R645): counted, and on a HINTED partition it opens a window. -/
def hintPart (p lead cores : Nat) (m : Mach) : Mach :=
  m |> inc (Reg.TC_PWR_CNT_HINT p) |> whenB (hinted m p) (openWindow p lead cores)

/-- An array has left COLD: open windows that name it note it. -/
def leftCold (p k : Nat) (m : Mach) : Mach :=
  modPwr p (fun x => { x with wins := x.wins.map (fun w =>
    if bitOf w.cores k then { w with left := w.left ||| 2 ^ k, coldAt := none } else w) }) m

/-- An array is COLD again: windows whose arrays are all COLD start their 10 µs, and the rail may fall. -/
def isCold (p k : Nat) (m : Mach) : Mach :=
  let cold (j : Nat) : Bool := j == k || rd m (Reg.TC_CORE_STATUS_RAMP_STATE p j) == 0
  m |> modPwr p (fun x => { x with wins := x.wins.map (fun w =>
      if w.left ≠ 0 ∧ w.coldAt.isNone ∧ [0, 1].all (fun j => !bitOf w.left j || cold j) then { w with coldAt := some (now m) }
      else w) })
    |> fallLight p

end Sys2Proof.Machine
end

