-- ==== Sys2Proof/Machine/Formats.lean ====
section
/-!
DEFINITION. Number formats and rounding (R279 to R295): the float formats, the single rounding rule, the FP32 adder and
multiplier, the special functions (R318), and what the drain and the vector unit do to a value.
-/

namespace Sys2Proof.Machine

/-! ### Exact values -/

/-- An exact value: its sign, and its magnitude m × 2^e. -/
structure Ex where
  neg : Bool := false
  m   : Nat := 0
  e   : Int := 0
deriving DecidableEq, Repr, Inhabited

/-- A whole number as an exact value. -/
def exInt (i : Int) : Ex := { neg := decide (i < 0), m := i.natAbs, e := 0 }

/-- The exact value as a whole multiple of 2^t, for t at most its exponent. -/
def Ex.scaled (x : Ex) (t : Int) : Int :=
  let v : Int := (x.m * 2 ^ (x.e - t).toNat : Nat)
  if x.neg then -v else v

/-- The exact sum, with the sign R288 gives a zero. -/
def exAdd (a b : Ex) : Ex :=
  let t := min a.e b.e
  let s := a.scaled t + b.scaled t
  if s = 0 then { neg := a.neg && b.neg && a.m == 0 && b.m == 0, m := 0, e := 0 }
  else { neg := decide (s < 0), m := s.natAbs, e := t }

/-- The exact product. -/
def exMul (a b : Ex) : Ex := { neg := a.neg != b.neg, m := a.m * b.m, e := a.e + b.e }

/-- Compare exact values: a < b; the zeros are equal. -/
def exLt (a b : Ex) : Bool := let t := min a.e b.e; decide (a.scaled t < b.scaled t)

/-- Rounding to a whole number, ties away from zero (R286). -/
def rndEx (x : Ex) : Int :=
  let v : Nat := if 0 ≤ x.e then x.m * 2 ^ x.e.toNat else rndShift x.m (-x.e).toNat
  if x.neg then -(v : Int) else v

/-! ### Float formats (R281, R282, R287) -/

/-- A float format: exponent and mantissa bits, bias, and the code of its largest finite magnitude. -/
structure FltFmt where
  ebits : Nat
  f     : Nat
  bias  : Nat
  max   : Nat
deriving DecidableEq, Repr

def fp8e4 : FltFmt := ⟨4, 3, 7, 0x7E⟩
def fp8e5 : FltFmt := ⟨5, 2, 15, 0x7B⟩
def bf16 : FltFmt := ⟨8, 7, 127, 0x7F7F⟩
def fp16 : FltFmt := ⟨5, 10, 15, 0x7BFF⟩
def fp32 : FltFmt := ⟨8, 23, 127, 0x7F7FFFFF⟩

/-- The float format of a code of R279. -/
def fltOf (c : Nat) : Option FltFmt :=
  match c with
  | 3 => some fp8e4 | 4 => some fp8e5 | 5 => some bf16 | 6 => some fp16 | 7 => some fp32 | _ => none

/-- The sign bit of a format. -/
def FltFmt.sign (t : FltFmt) : Nat := 2 ^ (t.ebits + t.f)

/-- A code's value: a non-finite code is replaced (R282), which counts one. -/
def decodeFlt (t : FltFmt) (c : Nat) : Ex × Nat :=
  let neg := decide (t.sign ≤ c % (2 * t.sign))
  let mag := c % t.sign
  let inf := 2 ^ (t.ebits + t.f) - 2 ^ t.f
  let val (mag : Nat) (neg : Bool) : Ex :=
    let e := mag / 2 ^ t.f
    if e = 0 then { neg := neg, m := mag, e := 1 - (t.bias : Int) - t.f }
    else { neg := neg, m := 2 ^ t.f + mag % 2 ^ t.f, e := (e : Int) - t.bias - t.f }
  if mag ≤ t.max then (val mag neg, 0)
  else if mag = inf then (val t.max neg, 1)
  else ({}, 1)

/-- Narrow an exact value to a float format (R286, R287): the code, and whether it clipped. -/
def narrow (t : FltFmt) (x : Ex) : Nat × Nat :=
  let s := if x.neg then t.sign else 0
  if x.m = 0 then (s, 0)
  else
    let k : Int := (Nat.log2 x.m : Int) + x.e
    let q := max k (1 - (t.bias : Int)) - t.f
    if (t.bias : Int) + 1 < k then (s + t.max, 1)
    else
      let sh := q - x.e
      let mr := if sh ≤ 0 then x.m * 2 ^ (-sh).toNat
        else if (Nat.log2 x.m : Int) + 1 < sh then 0 else rndShift x.m sh.toNat
      let code := (q + t.f + t.bias).toNat * 2 ^ t.f + mr - 2 ^ t.f
      if t.max < code then (s + t.max, 1) else (s + code, 0)

/-- A finite FP32 code's value. -/
def f32 (c : Nat) : Ex := (decodeFlt fp32 c).1

/-- add and mul of R288 on FP32 codes, with their clips. -/
def add32 (a b : Nat) : Nat × Nat := narrow fp32 (exAdd (f32 a) (f32 b))
def mul32 (a b : Nat) : Nat × Nat := narrow fp32 (exMul (f32 a) (f32 b))

/-- The FP32 value 1.0. -/
def one32 : Nat := 0x3F800000

/-- FP32 value of a magnitude. -/
def abs32 (c : Nat) : Nat := c % 2 ^ 31

/-! ### Special functions (R318) -/

/-- Bits kept of an irrational value: far beyond what its rounding to FP32 can depend on (notes/assumptions/12.md). -/
def sfuBits : Nat := 256

/-- 2^f in units of 2^-256, for f a fraction of `n` bits, from its highest bit down; `r` is the root so far. -/
def exp2Frac (f : Nat) : Nat → Nat → Nat → Nat
  | 0, _, acc => acc
  | n + 1, r, acc =>
    let r := Nat.sqrt (r * 2 ^ sfuBits)
    exp2Frac f n r (if f / 2 ^ n % 2 = 1 then acc * r / 2 ^ sfuBits else acc)

/-- EXP2. -/
def exp2Of (x : Ex) : Ex :=
  if 0 ≤ x.e then
    let i := min (x.m * 2 ^ (min x.e 16).toNat) 1000
    { m := 1, e := if x.neg then -(i : Int) else i }
  else
    let n := (-x.e).toNat
    let v : Int := if x.neg then -(x.m : Int) else x.m
    let i := v / ((2 ^ n : Nat) : Int)
    let f := (v % ((2 ^ n : Nat) : Int)).toNat
    if i < -1000 then { m := 1, e := -1000 } else if 1000 < i then { m := 1, e := 1000 }
    else { m := exp2Frac f n (2 ^ (sfuBits + 1)) (2 ^ sfuBits), e := i - sfuBits }

/-- `n` bits of the binary logarithm of y ÷ 2^512, for y from 2^512 to below 2^513. -/
def log2Frac : Nat → Nat → Nat → Nat
  | 0, _, acc => acc
  | n + 1, y, acc =>
    let y := y * y / 2 ^ 512
    if 2 ^ 513 ≤ y then log2Frac n (y / 2) (2 * acc + 1) else log2Frac n y (2 * acc)

/-- LOG2 of a positive value. -/
def log2Of (x : Ex) : Ex :=
  let l := Nat.log2 x.m
  let i : Int := (l : Int) + x.e
  let v := i * ((2 ^ 192 : Nat) : Int) + log2Frac 192 (x.m * 2 ^ 512 / 2 ^ l) 0
  { neg := decide (v < 0), m := v.natAbs, e := -192 }

/-- RCP of a non-zero value. -/
def rcpOf (x : Ex) : Ex :=
  let n := Nat.log2 x.m + 64
  { neg := x.neg, m := 2 ^ n / x.m, e := -(n : Int) - x.e }

/-- RSQRT of a positive value. -/
def rsqrtOf (x : Ex) : Ex :=
  let (m, e) := if x.e % 2 = 0 then (x.m, x.e) else (2 * x.m, x.e - 1)
  let n := Nat.log2 m + 160
  { m := Nat.sqrt (2 ^ (2 * n) / m), e := -(n : Int) - e / 2 }

/-- A special function on an FP32 code (R318): EXP2 0x0A, LOG2 0x0B, RCP 0x0C, RSQRT 0x0D. -/
def special (fn c : Nat) : Nat × Nat :=
  let x := f32 c
  let top := fp32.max
  match fn with
  | 0x0A => narrow fp32 (exp2Of x)
  | 0x0B => if x.m = 0 ∨ x.neg then (fp32.sign + top, 1) else narrow fp32 (log2Of x)
  | 0x0C => if x.m = 0 then ((if x.neg then fp32.sign else 0) + top, 1) else narrow fp32 (rcpOf x)
  | _ => if x.m = 0 then (top, 1) else if x.neg then (0, 1) else narrow fp32 (rsqrtOf x)

/-! ### Formats of R279 -/

/-- Bits per element; BX formats count their mantissas. -/
def fmtBits (c : Nat) : Nat :=
  match c with
  | 0 => 8 | 1 => 8 | 2 => 4 | 3 => 8 | 4 => 8 | 5 => 16 | 6 => 16 | 7 => 32 | 8 => 32 | 9 => 8 | 0xA => 4 | _ => 8

def isBx (c : Nat) : Bool := c == 9 || c == 0xA
def isFlt (c : Nat) : Bool := (fltOf c).isSome
def isIntFmt (c : Nat) : Bool := c == 0 || c == 1 || c == 2 || c == 8

/-- Least and greatest value of an integer format. -/
def intRange (c : Nat) : Int × Int :=
  match c with
  | 0 => (-128, 127) | 1 => (0, 255) | 2 => (-8, 7) | _ => (-2147483648, 2147483647)

/-- Clip to an integer format. -/
def clipFmt (c : Nat) (v : Int) : Int × Nat :=
  let r := intRange c
  if v < r.1 then (r.1, 1) else if r.2 < v then (r.2, 1) else (v, 0)

/-- Wrap to an integer format. -/
def wrapFmt (c : Nat) (v : Int) : Int :=
  let w := fmtBits c
  let u : Int := v % ((2 ^ w : Nat) : Int)
  if c = 1 then u else if u < ((2 ^ (w - 1) : Nat) : Int) then u else u - ((2 ^ w : Nat) : Int)

/-- The integer a code of an integer format (or a BX mantissa) stands for. -/
def intVal (c v : Nat) : Int := if c = 1 then (v % 256 : Nat) else signedOf (fmtBits c) v

/-- An element's exact value, with the replacement count (R282). -/
def elemVal (c v : Nat) : Ex × Nat :=
  match fltOf c with
  | some t => decodeFlt t v
  | none => (exInt (intVal c v), 0)

/-- Convert an exact value to a format (R286): code and clips. -/
def toFmt (c : Nat) (x : Ex) : Nat × Nat :=
  match fltOf c with
  | some t => narrow t x
  | none => let (v, k) := clipFmt c (rndEx x); (fieldOf (fmtBits c) v, k)

/-! ### Requantisation (R291, R292, R294) -/

/-- A parameter word's BIAS and SCALE, as raw bits; without parameters, those of R291. -/
structure Param where
  bias  : Nat := 0
  scale : Option Nat := none
deriving DecidableEq, Repr, Inhabited

/-- A sum: an integer, or an FP32 code. -/
inductive Sum where
  | int (v : Int)
  | flt (c : Nat)
deriving DecidableEq, Repr

/-- A value before the output stage: exact, with the statistic magnitude as an FP32 code. -/
structure Scaled where
  val   : Ex := {}
  stat  : Nat := 0
  clips : Nat := 0
  nonf  : Nat := 0
deriving DecidableEq, Repr, Inhabited

/-- An FP32 field with its replacement (R282, R291). -/
def field32 (v : Nat) : Nat × Nat :=
  let (x, n) := decodeFlt fp32 v
  if n = 0 then (v, 0) else ((narrow fp32 x).1, 1)

/-- Stages 2 to 4 of the drain (R292) for an output of format `c`. -/
def requant (sum : Sum) (p : Param) (c : Nat) : Scaled :=
  match sum with
  | .int v =>
    let s := v + signedOf 32 p.bias
    if isFlt c then
      let (sc, n) := field32 (p.scale.getD one32)
      let (a, k1) := narrow fp32 (exInt s)
      let (y, k2) := mul32 a sc
      { val := f32 y, stat := abs32 y, clips := k1 + k2, nonf := n }
    else
      let mult := match p.scale with | some q => q % 2 ^ 24 | none => 1
      let shift := match p.scale with | some q => q / 2 ^ 24 % 64 | none => 0
      let w := s * (mult : Int)
      let x : Ex := { neg := decide (w < 0), m := w.natAbs, e := -(shift : Int) }
      { val := x, stat := (narrow fp32 { x with neg := false }).1 }
  | .flt a =>
    let (b, n1) := field32 p.bias
    let (sc, n2) := field32 (p.scale.getD one32)
    let (s, k1) := add32 a b
    let (y, k2) := mul32 s sc
    { val := f32 y, stat := abs32 y, clips := k1 + k2, nonf := n1 + n2 }

/-- A block's exponent and mantissas (R294), with its clips: `l` is 127 for BX8 and 7 for BX4. -/
def bxBlock (l : Nat) (ys : List Ex) : Int × List Int × Nat :=
  let a := ys.foldl (fun a y => if exLt a { y with neg := false } then { y with neg := false } else a) {}
  if a.m = 0 then (0, ys.map (fun _ => 0), 0)
  else
    let at' (y : Ex) (e : Int) : Int := rndEx { y with e := y.e - e }
    let e := (((List.range 256).map (fun (i : Nat) => (i : Int) - 128)).find? (fun e => decide (at' a e ≤ l))).getD 127
    let raw := ys.map (fun y => at' y e)
    let clip (v : Int) : Int := if v > l then l else if v < -(l : Int) then -(l : Int) else v
    (e, raw.map clip, raw.countP (fun v => clip v != v))

end Sys2Proof.Machine
end

