-- ==== Sys2Proof/Machine/Tensor.lean ====
section
/-!
DEFINITION. Tensor descriptors (R310), the rows and bytes they address (R254, R255, R284), the arithmetic of the array and
its drain (R247 to R249, R288 to R294, R312, R313), the traffic of tiles and passes and the cycle counts (R252, R253,
R261, R263, R264).
-/

namespace Sys2Proof.Machine

/-- A tensor descriptor: the 64 bytes of a t register. -/
abbrev TDesc := BitVec 512

/-! ### Fields (R310) -/

/-- The field of `n` bytes at an offset. -/
def dF (d : TDesc) (off n : Nat) : Nat := bitsAt d.toNat (8 * off) (8 * n)
/-- A signed field of 4 bytes. -/
def dI (d : TDesc) (off : Nat) : Int := signedOf 32 (dF d off 4)
def dKind (d : TDesc) : Nat := dF d 0 1
def dFmt (d : TDesc) : Nat := dF d 1 1
def dBase (d : TDesc) : Nat := dF d 4 4
def dK (d : TDesc) : Nat := dF d 8 4
/-- N0, N1, N2 of kind 1; C1, C2, C3 of kind 3. -/
def dN (d : TDesc) (i : Nat) : Nat := dF d (0xC + 2 * i) 2
/-- S0, S1, S2 of kind 1; T1, T2, T3 of kind 3. -/
def dS (d : TDesc) (i : Nat) : Int := dI d (0x14 + 4 * i)
def dSB (d : TDesc) : Int := dI d 0x20
def dKH (d : TDesc) : Nat := dF d 2 1
def dKW (d : TDesc) : Nat := dF d 3 1
def dCin (d : TDesc) : Nat := dF d 8 2
def dSY (d : TDesc) : Nat := dF d 0xA 1 % 16
def dSX (d : TDesc) : Nat := dF d 0xA 1 / 16
def dDY (d : TDesc) : Nat := dF d 0xB 1 % 16
def dDX (d : TDesc) : Nat := dF d 0xB 1 / 16
def dOW (d : TDesc) : Nat := dF d 0xC 2
def dOH (d : TDesc) : Nat := dF d 0xE 2
def dRP (d : TDesc) : Nat := dF d 0x10 4
def dCP (d : TDesc) : Nat := dF d 0x14 4
def dCheck (d : TDesc) : Nat := dF d 1 1
def dAddr (d : TDesc) : Nat := dF d 4 5
def dRow (d : TDesc) : Nat := dF d 9 3
def dChk (d : TDesc) : Nat := dF d 0x20 5
def dBytes (d : TDesc) : Nat := dF d 8 4

/-- Rows of a scratch tensor, and elements per row. -/
def dRows (d : TDesc) : Nat := if dKind d = 2 then dOH d * dOW d else dN d 0 * dN d 1 * dN d 2
def dLen (d : TDesc) : Nat := if dKind d = 2 then dKH d * dKW d * dCin d else dK d

/-- Bytes of a row of `k` elements of a format (R280, R284). -/
def rowBytesOf (fmt k : Nat) : Nat := (k * fmtBits fmt + 7) / 8 + (if isBx fmt then k / 16 else 0)

/-! ### Addresses (R254, R255, R284) -/

/-- Address of row `i` of batch element `b` of a matrix. -/
def rowAddr (d : TDesc) (b i : Nat) : Int :=
  let n0 := dN d 0
  let n1 := dN d 1
  (dBase d : Int) + b * dSB d + (i % n0 : Nat) * dS d 0 + (i / n0 % n1 : Nat) * dS d 1 + (i / n0 / n1 : Nat) * dS d 2

/-- Address of the first channel of tap (ky, kx) of window `m` of batch element `b`. -/
def tapAddr (d : TDesc) (b m ky kx : Nat) : Int :=
  (dBase d : Int) + b * dSB d + ((m / dOW d * dSY d + ky * dDY d) * dRP d + (m % dOW d * dSX d + kx * dDX d) * dCP d : Nat)

/-- The byte ranges of positions `k0` to `k1 - 1` of one row: taps of a window, or a run of the row and, for a block format,
its exponents. -/
def rowRanges (d : TDesc) (b m k0 k1 : Nat) : List (Int × Nat) :=
  let w := fmtBits (dFmt d)
  if k1 ≤ k0 then []
  else if dKind d = 2 then
    let c := dCin d
    (List.range ((k1 - 1) / c + 1 - k0 / c)).map (fun j =>
      let t := k0 / c + j
      let c0 := max k0 (t * c) - t * c
      let c1 := min k1 ((t + 1) * c) - t * c
      (tapAddr d b m (t / dKW d) (t % dKW d) + (c0 * w / 8 : Nat), (c1 * w + 7) / 8 - c0 * w / 8))
  else
    let a := rowAddr d b m
    let x := (dK d * w + 7) / 8
    (a + (k0 * w / 8 : Nat), (k1 * w + 7) / 8 - k0 * w / 8) ::
      (if isBx (dFmt d) then [(a + (x + k0 / 16 : Nat), (k1 + 15) / 16 - k0 / 16)] else [])

/-- The byte ranges of rows `m0` to `m1 - 1`. -/
def ranges (d : TDesc) (b m0 m1 k0 k1 : Nat) : List (Int × Nat) :=
  (List.range (m1 - m0)).flatMap (fun i => rowRanges d b (m0 + i) k0 k1)

/-- Every byte range of batch element `b`. -/
def allRanges (d : TDesc) (b : Nat) : List (Int × Nat) :=
  if dKind d = 4 then [((dBase d : Int), dBytes d)] else ranges d b 0 (dRows d) 0 (dLen d)

/-- Lowest byte and the byte behind the highest, over all rows of batch element `b`. -/
def spanOf (d : TDesc) (b : Nat) : Int × Int :=
  if dKind d = 4 then ((dBase d : Int), (dBase d : Int) + dBytes d)
  else if dKind d = 2 then
    let last := tapAddr d b (dOH d * dOW d - 1) (dKH d - 1) (dKW d - 1)
    ((dBase d : Int) + b * dSB d, last + rowBytesOf (dFmt d) (dCin d))
  else
    let ext (i : Nat) : Int := ((dN d i : Int) - 1) * dS d i
    let o : Int := (dBase d : Int) + b * dSB d
    (o + min 0 (ext 0) + min 0 (ext 1) + min 0 (ext 2),
     o + max 0 (ext 0) + max 0 (ext 1) + max 0 (ext 2) + rowBytesOf (dFmt d) (dK d))

/-- Whether two lists of byte ranges share a byte. -/
def meetRanges (a b : List (Int × Nat)) : Bool :=
  a.any (fun x => b.any (fun y => decide (x.1 < y.1 + y.2) && decide (y.1 < x.1 + x.2)))

/-- Whether two tensors share a byte: never where their spans do not meet. -/
def meetDesc (d : TDesc) (b : Nat) (e : TDesc) (c : Nat) : Bool :=
  let s := spanOf d b
  let t := spanOf e c
  decide (s.1 < t.2) && decide (t.1 < s.2) && meetRanges (allRanges d b) (allRanges e c)

/-- Numbers of the 64-byte words that byte ranges touch, each once (R358). -/
def wordsOf (l : List (Int × Nat)) : List Nat :=
  (l.flatMap (fun r => if r.2 = 0 then []
    else (List.range ((r.1.toNat + r.2 - 1) / 64 + 1 - r.1.toNat / 64)).map (· + r.1.toNat / 64))).eraseDups

/-- Granule numbers that byte ranges touch, each once. -/
def granulesOf (l : List (Int × Nat)) : List Nat :=
  (l.flatMap (fun r => if r.2 = 0 then []
    else (List.range ((r.1.toNat + r.2 - 1) / 4096 + 1 - r.1.toNat / 4096)).map (· + r.1.toNat / 4096))).eraseDups

/-! ### Elements -/

/-- A source of scratch bytes, with the draw that stands for what no rule places (notes/assumptions/2.md). -/
structure Bytes where
  rd : Nat → Nat
  fr : Nat := 0

/-- A little-endian number of `n` bytes. -/
def Bytes.le (g : Bytes) (a : Int) : Nat → Nat
  | 0 => 0
  | n + 1 => g.rd a.toNat + 256 * g.le (a + 1) n

/-- The element of `w` bits at bit position `k × w` of an address. -/
def Bytes.elem (g : Bytes) (a : Int) (k w : Nat) : Nat :=
  if w = 4 then g.rd (a + (k / 2 : Nat)).toNat / 16 ^ (k % 2) % 16 else g.le (a + (k * w / 8 : Nat)) (w / 8)

/-- Code of element `k` of row `m`. -/
def elemCode (g : Bytes) (d : TDesc) (b m k : Nat) : Nat :=
  let w := fmtBits (dFmt d)
  if dKind d = 2 then
    let t := k / dCin d
    g.elem (tapAddr d b m (t / dKW d) (t % dKW d)) (k % dCin d) w
  else g.elem (rowAddr d b m) k w

/-- Exponent of block `i` of row `m` (R284). R284 places it in a row of R254; for a window it stands nowhere, and is a free
value. -/
def blockExp (g : Bytes) (d : TDesc) (b m i : Nat) : Int :=
  if dKind d = 2 then
    let n := m * (dLen d / 16) + i
    signedOf 8 (bitsAt (Config.freeValue g.fr (8 * (n + 1))) (8 * n) 8)
  else signedOf 8 (g.rd (rowAddr d b m + (dK d * fmtBits (dFmt d) / 8 + i : Nat)).toNat)

/-- What an instruction counts (R296). -/
structure FmtCounts where
  nonf    : Nat := 0
  clipAcc : Nat := 0
  flush   : Nat := 0
  sat     : Nat := 0
  clipOut : Nat := 0
  clipVec : Nat := 0
deriving DecidableEq, Repr, Inhabited

def FmtCounts.add (a b : FmtCounts) : FmtCounts :=
  { nonf := a.nonf + b.nonf, clipAcc := a.clipAcc + b.clipAcc, flush := a.flush + b.flush, sat := a.sat + b.sat,
    clipOut := a.clipOut + b.clipOut, clipVec := a.clipVec + b.clipVec }

/-! ### The array instruction (R312, R313) -/

/-- What an MMA names: its descriptors, parameter and statistics addresses, ACC_ALIGN and batch count. -/
structure MmaArgs where
  x     : TDesc := 0
  y     : TDesc := 0
  d     : TDesc := 0
  p     : Option TDesc := none
  s     : Option TDesc := none
  align : Int := 0
  batch : Nat := 1
deriving DecidableEq, Repr, Inhabited

def MmaArgs.m (a : MmaArgs) : Nat := dRows a.x
def MmaArgs.n (a : MmaArgs) : Nat := dRows a.y
def MmaArgs.k (a : MmaArgs) : Nat := dLen a.x

/-- G and q of a pair of operand formats (R247). -/
def mmaPair (x y : Nat) : Option (Nat × Nat) :=
  if (x = 0 ∨ x = 1) ∧ (y = 0 ∨ y = 2) then some (4, 1)
  else if x = 2 ∧ y = 2 then some (8, 1)
  else if (x = 3 ∨ x = 4) ∧ (y = 3 ∨ y = 4) then some (4, 1)
  else if x = 9 ∧ (y = 9 ∨ y = 0xA) then some (4, 1)
  else if x = 0xA ∧ y = 0xA then some (8, 1)
  else if x = y ∧ (x = 5 ∨ x = 6) then some (4, 4)
  else none

/-- The 48-bit two's-complement value (R248). -/
def wrap48 (v : Int) : Int := signedOf 48 (fieldOf 48 v)

/-- A block's aligned contribution (R290). -/
def alignBlock (d sh : Int) : Int × FmtCounts :=
  let top : Int := ((2 ^ 47 - 1 : Nat) : Int)
  if d = 0 then (0, {})
  else if 0 ≤ sh then
    let c := if sh < 64 then d * ((2 ^ sh.toNat : Nat) : Int) else if d < 0 then -top - 1 else top + 1
    if c.natAbs ≤ top.natAbs then (c, {}) else (if d < 0 then -top else top, { sat := 1 })
  else if -47 ≤ sh then (rndShiftI d (-sh).toNat, {})
  else (0, { flush := 1 })

/-- The product of two float elements (R289), as an FP32 code. -/
def fltProd (fx fy x y : Nat) : Nat × Nat := narrow fp32 (exMul (elemVal fx x).1 (elemVal fy y).1)

/-- The zero that a sum starts from (R249). -/
def sumZero (fx : Nat) : Sum := if isFlt fx then .flt 0 else .int 0

/-- The groups of reduction positions `k0` to `k1 - 1` added to the running sum of output (m, n) of batch element `b` (R249,
R290), with the clips, flushes and saturations in it. `k0` is a multiple of a group and of a block. -/
def mmaSeg (g : Bytes) (a : MmaArgs) (b m n k0 k1 : Nat) (start : Sum) : Sum × FmtCounts :=
  let fx := dFmt a.x
  let fy := dFmt a.y
  match start with
  | .flt c0 =>
    let prod (i : Nat) : Nat × Nat :=
      if i < k1 then fltProd fx fy (elemCode g a.x b m i) (elemCode g a.y b n i) else (0, 0)
    let r := (List.range ((k1 - k0 + 3) / 4)).foldl (fun (acc : Nat × Nat) s =>
      let p0 := prod (k0 + 4 * s)
      let p1 := prod (k0 + 4 * s + 1)
      let p2 := prod (k0 + 4 * s + 2)
      let p3 := prod (k0 + 4 * s + 3)
      let u := add32 p0.1 p1.1
      let v := add32 p2.1 p3.1
      let t := add32 u.1 v.1
      let c := add32 acc.1 t.1
      (c.1, acc.2 + p0.2 + p1.2 + p2.2 + p3.2 + u.2 + v.2 + t.2 + c.2)) (c0, 0)
    (.flt r.1, { clipAcc := r.2 })
  | .int s0 =>
    if isBx fx then
      let r := (List.range ((k1 - k0) / 16)).foldl (fun (acc : Int × FmtCounts) i =>
        let i := k0 / 16 + i
        let d := (List.range 16).foldl (fun s j =>
          s + intVal (if fx = 9 then 0 else 2) (elemCode g a.x b m (16 * i + j)) *
              intVal (if fy = 9 then 0 else 2) (elemCode g a.y b n (16 * i + j))) (0 : Int)
        let c := alignBlock d (blockExp g a.x b m i + blockExp g a.y b n i - a.align)
        (wrap48 (acc.1 + c.1), acc.2.add c.2)) (s0, {})
      (.int r.1, r.2)
    else
      (.int (wrap48 ((List.range (k1 - k0)).foldl (fun s i =>
        s + intVal fx (elemCode g a.x b m (k0 + i)) * intVal fy (elemCode g a.y b n (k0 + i))) s0)), {})

/-- A running sum that an upset replaces: behind reduction position `at` it is `v`, a 48-bit field or an FP32 code. -/
structure Inject where
  at' : Nat
  v   : Nat
deriving DecidableEq, Repr

/-- A field of an accumulator as a sum. -/
def sumOf (fx v : Nat) : Sum := if isFlt fx then .flt (v % 2 ^ 32) else .int (signedOf 48 v)

/-- The running sum of an output behind position `k1`, with the upsets that reach it in order. -/
def mmaSum (g : Bytes) (a : MmaArgs) (b m n k1 : Nat) (ups : List Inject) : Sum × FmtCounts :=
  let fx := dFmt a.x
  let r := ups.foldl (fun (x : Nat × Sum × FmtCounts) u =>
    if u.at' ≤ k1 ∧ x.1 ≤ u.at' then (u.at', sumOf fx u.v, x.2.2.add (mmaSeg g a b m n x.1 u.at' x.2.1).2) else x)
    (0, sumZero fx, {})
  let s := mmaSeg g a b m n r.1 k1 r.2.1
  (s.1, r.2.2.add s.2)

/-- Non-finite codes of an operand's elements (R282), each once in each batch element. -/
def nonfOf (g : Bytes) (d : TDesc) (b : Nat) : Nat :=
  if isFlt (dFmt d) then
    ((List.range (dRows d)).map (fun m => ((List.range (dLen d)).map (fun k => (elemVal (dFmt d) (elemCode g d b m k)).2)).sum)).sum
  else 0

/-- The parameter word of channel `n` (R291). -/
def paramOf (g : Bytes) (p : Option TDesc) (n : Nat) : Param :=
  match p with
  | none => {}
  | some d => { bias := g.le (dBase d + 8 * n : Nat) 4, scale := some (g.le (dBase d + 8 * n + 4 : Nat) 4) }

/-- Pack codes of `w` bits into bytes, the first lowest (R280). -/
def packCodes (w : Nat) : List Nat → List Byte
  | [] => []
  | [a] => if w = 4 then leBytes 1 (a % 16) else leBytes (w / 8) a
  | a :: b :: r => if w = 4 then leBytes 1 (a % 16 + 16 * (b % 16)) ++ packCodes w r else leBytes (w / 8) a ++ packCodes w (b :: r)

/-- The blocks of 16 values of a row. -/
def blocks16 (n : Nat) (ys : List Ex) : List (List Ex) := (List.range (n / 16)).map (fun i => (ys.drop (16 * i)).take 16)

/-- A row's bytes in the output format (R258, R284, R294), with its clips. -/
def packRow (fmt : Nat) (ys : List Ex) : List Byte × Nat :=
  if isBx fmt then
    let bs := (blocks16 ys.length ys).map (bxBlock (if fmt = 9 then 127 else 7))
    (packCodes (fmtBits fmt) ((bs.flatMap (·.2.1)).map (fieldOf (fmtBits fmt))) ++
      bs.flatMap (fun b => leBytes 1 (fieldOf 8 b.1)), (bs.map (·.2.2)).sum)
  else
    let cs := ys.map (toFmt fmt)
    (packCodes (fmtBits fmt) (cs.map (·.1)), (cs.map (·.2)).sum)

/-- What an MMA writes: each output row at its address, the statistics words, and its counts. -/
structure MmaResult where
  rows   : List (Int × List Byte) := []
  stats  : List Nat := []
  counts : FmtCounts := {}
deriving DecidableEq, Repr, Inhabited

/-- The greater of two FP32 magnitudes: their codes compare as numbers. -/
def maxStats (a b : List Nat) : List Nat := if a.isEmpty then b else (a.zip b).map (fun p => max p.1 p.2)

/-- The whole result of an MMA (R249, R258, R292, R293); `ups` gives the upsets of an output's running sum. -/
def mmaRun (g : Bytes) (a : MmaArgs) (ups : Nat → Nat → Nat → List Inject) : MmaResult :=
  let fmt := dFmt a.d
  let params := (List.range a.n).map (fun n => paramOf g a.p n)
  let r := (List.range a.batch).foldl (fun (r : MmaResult) b =>
    let r := { r with counts := r.counts.add { nonf := nonfOf g a.x b + nonfOf g a.y b } }
    (List.range a.m).foldl (fun (r : MmaResult) m =>
      let outs := (List.range a.n).map (fun n => let (s, c) := mmaSum g a b m n a.k (ups b m n); (requant s (params.getD n {}) fmt, c))
      let (bs, k) := packRow fmt (outs.map (·.1.val))
      let cnt := outs.foldl (fun (c : FmtCounts) o => c.add (o.2.add { clipOut := o.1.clips })) r.counts
      { rows := (rowAddr a.d b m, bs) :: r.rows, stats := maxStats r.stats (outs.map (·.1.stat)),
        counts := cnt.add { clipOut := k } }) r) {}
  let nonfP := (params.map (fun q => (requant (if isFlt (dFmt a.x) then .flt 0 else .int 0) q fmt).nonf)).sum
  { r with rows := r.rows.reverse, counts := r.counts.add { nonf := nonfP } }

/-! ### Tiles, passes and cycles (R252, R253, R261, R263, R264) -/

/-- A tile of an output-stationary instruction, or a pass of a weight-stationary one: its batch element, its output columns
and rows, and its reduction positions. -/
structure Tile where
  b  : Nat := 0
  n0 : Nat := 0
  n1 : Nat := 0
  m0 : Nat := 0
  m1 : Nat := 0
  k0 : Nat := 0
  k1 : Nat := 0
deriving DecidableEq, Repr, Inhabited

/-- The tiles or passes of an instruction in their order: `ws` is weight-stationary. -/
def mmaTiles (a : MmaArgs) (ws : Bool) : List Tile :=
  let g := ((mmaPair (dFmt a.x) (dFmt a.y)).getD (4, 1)).1
  let mh := if ws then 256 else 128
  let kt := if ws then 32 * g else a.k
  (List.range a.batch).flatMap (fun b =>
    (List.range (ceilDiv a.n 128)).flatMap (fun n =>
      (List.range (ceilDiv a.m mh)).flatMap (fun m =>
        (List.range (ceilDiv a.k kt)).map (fun k =>
          { b := b, n0 := 128 * n, n1 := min a.n (128 * n + 128), m0 := mh * m, m1 := min a.m (mh * m + mh),
            k0 := kt * k, k1 := min a.k (kt * k + kt) }))))

/-- Whether a tile or pass converts outputs. -/
def Tile.converts (t : Tile) (a : MmaArgs) : Bool := t.k1 == a.k

/-- The byte ranges of each kind that a tile moves: `next` is the tile behind it, `prev` the one before. -/
def tileTraffic (a : MmaArgs) (ws : Bool) (prev : Option Tile) (t : Tile) (next : Option Tile) : List (List (Int × Nat)) :=
  let x := ranges a.x t.b t.m0 t.m1 t.k0 t.k1
  let y := if ws then (match next with | some u => ranges a.y u.b u.n0 u.n1 u.k0 u.k1 | none => [])
    else ranges a.y t.b t.n0 t.n1 t.k0 t.k1
  let d := if t.converts a then ranges a.d t.b t.m0 t.m1 t.n0 t.n1 else []
  let p := match a.p, next with
    | some p, some u =>
      let first := u.m0 == 0 && u.converts a && decide (ceilDiv a.n 128 > 1 ∨ u.b = 0) && !(u.b == 0 && u.n0 == 0)
      if first then [((dBase p + 8 * u.n0 : Nat), 8 * (u.n1 - u.n0))] else []
    | _, _ => []
  let s := match a.s, prev with
    | some s, some u =>
      if u.converts a && decide (u.b + 1 = a.batch) && u.m1 == a.m && u.n0 != t.n0 then
        [((dBase s + 4 * u.n0 : Nat), 4 * (u.n1 - u.n0))] else []
    | _, _ => []
  [x, y, d, p.map (fun r => ((r.1 : Int), r.2)), s.map (fun r => ((r.1 : Int), r.2))]

/-- The largest number of words of these ranges in one bank: `bank` maps a word's first byte. -/
def busiest (bank : Nat → Nat) (kinds : List (List (Int × Nat))) : Nat :=
  let bs := kinds.flatMap (fun l => (wordsOf l).map (fun w => bank (w * 64)))
  bs.foldl (fun a b => max a (bs.count b)) 0

/-- A list with each element's neighbours. -/
def withNeighbours {α : Type} : Option α → List α → List (Option α × α × Option α)
  | _, [] => []
  | p, a :: r => (p, a, r.head?) :: withNeighbours (some a) r

/-- The exact cycle count of an MMA (R263, R264). -/
def mmaCycles (a : MmaArgs) (ws : Bool) (bank : Nat → Nat) : Nat :=
  let (g, q) := (mmaPair (dFmt a.x) (dFmt a.y)).getD (4, 1)
  let tiles := mmaTiles a ws
  let lw := if fmtBits (dFmt a.y) = 16 then 64 else 32
  let t (n : Option Tile × Tile × Option Tile) : Nat :=
    let bw := busiest bank (tileTraffic a ws n.1 n.2.1 n.2.2)
    if ws then max (max (ceilDiv (n.2.1.m1 - n.2.1.m0) 4 * q) lw) bw else max (max (ceilDiv a.k g * q) 32) bw
  let sum := ((withNeighbours none tiles).map t).sum
  if ws then
    let l0 := match tiles.head? with
      | some u => max lw (busiest bank [ranges a.y u.b u.n0 u.n1 u.k0 u.k1])
      | none => lw
    sum + l0 + 78
  else sum + 110

end Sys2Proof.Machine
end

