-- ==== Sys2Proof/Machine/Engines.lean ====
section
/-!
DEFINITION. What the sequencers and engines share: clocks, queues, exceptions (R335, R336), Partner faults (R518), kills with
their rescue and wipe (R612 to R616, R622), the start of a partition reset (R617 to R619), and the start of a routine (R303).
Sequencer and engine numbers: PART[0] to PART[7] are 0 to 7, the Partner engine is 8; engines are numbered as FENCE's MASK.
-/

namespace Sys2Proof.Machine

/-! ### Clocks (R491, R514, R636) -/

/-- Partition clock of an operating point in MHz. -/
def pointMhz (n : Nat) : Nat := [1250, 1125, 1000, 900, 800, 675, 550, 400].getD n 400

/-- Clock of a sequencer's engines in MHz. -/
def partMhz (m : Mach) (q : Nat) : Nat :=
  if q = 8 then 900
  else pointMhz (rd m (Reg.PWR_PART_STATUS_POINT q)) - (if rdb m (Reg.SAF_SUSPECT_FSTEP q) then 25 else 0)

/-- Nanoseconds of a number of cycles. -/
def cyclesNs (m : Mach) (q c : Nat) : Nat := ceilDiv (c * 1000) (partMhz m q)

/-- Whole cycles in a number of nanoseconds. -/
def nsCycles (m : Mach) (q t : Nat) : Nat := t * partMhz m q / 1000

/-! ### State of sequencers, engines and cores -/

def modSeq (q : Nat) (f : Seq → Seq) (m : Mach) : Mach := { m with seqs := mmod m.seqs q f }
def modRecov (p : Nat) (f : Recov → Recov) (m : Mach) : Mach := { m with recov := mmod m.recov p f }
def modCore (q k : Nat) (f : CoreSt → CoreSt) (m : Mach) : Mach := { m with cores := mmod m.cores (q * 2 + k) f }
def modTurn (p : Nat) (f : PTurn → PTurn) (m : Mach) : Mach := { m with turns := mmod m.turns p f }
def coreSt (m : Mach) (q k : Nat) : CoreSt := mget m.cores (q * 2 + k)
def engine (m : Mach) (q e : Nat) : Engine := mget m.engines (q * 8 + e)

/-- TC_CORE_STATUS of the cores of a partition (R276). -/
def syncCores (q : Nat) (m : Mach) : Mach :=
  if q = 8 then m
  else forEach [0, 1] (fun k m =>
    m |> wr (Reg.TC_CORE_STATUS_QUEUED q k) (engine m q k).queue.length
      |> wrb (Reg.TC_CORE_STATUS_IN_FLIGHT q k) (!(engine m q k).flight.isEmpty)
      |> wrb (Reg.TC_CORE_STATUS_VEC_BUSY q k) (!(engine m q (2 + k)).flight.isEmpty)) m

def modEngine (q e : Nat) (f : Engine → Engine) (m : Mach) : Mach :=
  syncCores q { m with engines := mmod m.engines (q * 8 + e) f }

/-- The engines of a sequencer with work issued and not completed, in the bit order of FENCE's MASK. -/
def busyMask (m : Mach) (q : Nat) : Nat :=
  ((List.range 6).map (fun e => if (engine m q e).flight.isEmpty then 0 else 2 ^ e)).sum

/-- Nothing is in flight in any engine. -/
def flightEmpty (m : Mach) (q : Nat) : Bool := busyMask m q == 0

/-- Every engine queue has drained, and nothing is in flight. -/
def drained (m : Mach) (q : Nat) : Bool :=
  (List.range 6).all (fun e => (engine m q e).queue.isEmpty) && flightEmpty m q

/-! ### Residue codes (R482, R483, R499) -/

/-- RESIDUE_CAUSE of a core follows the causes of R482; with none, residue codes go off and their cycles are counted. -/
def syncResidue (p k : Nat) (m : Mach) : Mach :=
  let c := if rdb m (Reg.TC_CORE_CHK_STATUS_CHECK_BYPASSED p k) then 1
    else if ((mget m.seqs p).run.map (·.high)).getD false then 2
    else if rdb m (Reg.TC_CORE_CHK_CTRL_LOCALISE p k) then 3 else 0
  let m := wr (Reg.TC_CORE_CHK_STATUS_RESIDUE_CAUSE p k) c m
  if c = 0 ∧ rdb m (Reg.TC_CORE_CHK_STATUS_RESIDUE_ON p k) then
    m |> wrb (Reg.TC_CORE_CHK_STATUS_RESIDUE_ON p k) false
      |> addTo (Reg.TC_CORE_CNT_RES_CYC p k) (nsCycles m p (now m - (coreSt m p k).resOn.getD (now m)))
      |> modCore p k (fun x => { x with resOn := none })
  else m

/-- Both cores of a partition. -/
def syncResidues (p : Nat) (m : Mach) : Mach := if p < 8 then m |> syncResidue p 0 |> syncResidue p 1 else m

/-- A partition reset gates every column at once (R267), and the counters that it resets return to zero (R275, R296, R497). -/
def resetCores (p : Nat) (m : Mach) : Mach :=
  forEach [0, 1] (fun k m =>
    let b := 0x7F10040000 + p * 0x1000000 + k * 0x20000
    m |> wr (Reg.TC_CORE_STATUS_RAMP_STATE p k) 0 |> wr (Reg.TC_CORE_STATUS_RAMP_STEP p k) 0
      |> wrb (Reg.TC_CORE_CHK_STATUS_RESIDUE_ON p k) false |> clearRegs (b + 0x20) (b + 0x5C) |> clearRegs (b + 0x90) (b + 0xA8)) m

/-- A partition reset closes every HINT window and holds the rail at the full level (R648). -/
def resetRail (p : Nat) (m : Mach) : Mach :=
  m |> modPwr p (fun x => { x with wins := [], held := true }) |> setLight p false |> syncRail p

/-! ### Heartbeats (R608, R610) -/

/-- SEQFW writes TC_HB_WRITE: the watch restarts, unless the partition is HALTED (R493, R610). -/
def hbWrite (p : Nat) (m : Mach) : Mach :=
  m |> wr (Reg.TC_HB_STATUS_COUNT p) (rd m (Reg.TC_HB_STATUS_COUNT p) + 1) |> wr (Reg.TC_HB_STATUS_AGE p) 0
    |> wrb (Reg.TC_HB_STATUS_WATCHED p) (!rdb m (Reg.SAF_SUSPECT_HALTED p) && !rdb m (Reg.TC_RECOV_STATUS_HOLD p))
    |> modRecov p (fun r => { r with hbLast := now m, hbDue := false })
    |> whenB (rd m (Reg.TC_SEQ_STATUS_STATE p) == 0) (wr (Reg.TC_SEQ_STATUS_STATE p) 3)

/-- A completion adds to a semaphore; 0 names none (R327). -/
def semAdd (q n c : Nat) (m : Mach) : Mach := if n = 0 then m else addTo (Reg.TC_SEQ_SEM q n) c m

/-- Unit path of an engine, or of the sequencer (R45, R518). -/
def pathEngine (m : Mach) (q : Nat) (e : Option Nat) : Nat :=
  if q = 8 then upath m 0 14 (match e with | some e => 2 * (e % 2) | none => 0) 0 63 63
  else match e with
    | none => pathPartElem m q 6
    | some 4 => pathPartElem m q 7
    | some 5 => pathPartElem m q 8
    | some e => if e < 2 then pathCore m q e 1 63 63 else pathCore m q (e - 2) 4 63 63

/-! ### Granules and space of a sequencer (R337, R342, R598) -/

/-- Device address of a scratch address of a sequencer: the Partner engine's are offsets in its SRAM. -/
def seqAddr (m : Mach) (q psa : Nat) : Nat := if q = 8 then ptnAddr psa else psaAddr m q psa

/-- Whether a granule number is populated. -/
def seqGranOk (m : Mach) (q gn : Nat) : Bool := if q = 8 then decide (gn < 4096) else granOk m gn

/-- Whether granule `gn` lies in the best-effort granules of LIGHT. -/
def beGranule (m : Mach) (p gn : Nat) : Bool :=
  decide (beFirst m p (gn / 8192) ≤ gn % 8192) && decide (gn % 8192 < beFirst m p (gn / 8192) + beCount m p (gn / 8192))

/-- Whether a routine may address a granule: populated, and under LIGHT of its own class (R598). -/
def mayTouch (m : Mach) (q gn : Nat) : Bool :=
  seqGranOk m q gn && (q == 8 || schedMode m q != 1 ||
    beGranule m q gn == decide (1 ≤ ((mget m.seqs q).run.map (·.kind)).getD 0))

/-- Whether a span of scratch addresses lies in granules that the routine may address. -/
def spanOk (m : Mach) (q : Nat) (lo hi : Int) : Bool :=
  decide (0 ≤ lo) && decide (hi ≤ (2 : Int) ^ 26) && (granules lo.toNat (hi - lo).toNat).all (mayTouch m q)

/-! ### Starting and ending a routine (R303, R304, R339) -/

/-- The routine register file and semaphores at a routine's start (R303). -/
def startRegs (q : Nat) (turn tick : Nat) (m : Mach) : Mach :=
  let s : List (Nat × DWord) := setD 0 (setD 0 [] 1 (BitVec.ofNat 64 turn)) 2 (BitVec.ofNat 64 tick)
  m |> modSeq q (fun x => { x with s := s, t := [] })
    |> forEach (List.range 16) (fun n => wr (Reg.TC_SEQ_SEM q n) 0)
    |> wr (Reg.TC_SEQ_ITAG q) 0

/-- A sequencer starts a routine (R303, R340, R666). -/
def startRun (q : Nat) (r : Run) (turn tick : Nat) (m : Mach) : Mach :=
  let m := m |> startRegs q turn tick
    |> modSeq q (fun x => { x with waiting := none, ended := false, run := some r, taken := [], results := [],
                                   commits := [], grids := [], kvFirst := [] })
    |> wr (Reg.TC_SEQ_PC q) (r.base + r.entry) |> wr (Reg.TC_SEQ_ROUTINE_ID q) r.id
    |> wr (Reg.TC_SEQ_STATUS_STATE q) 1 |> wr (Reg.TC_SEQ_STATUS_ROUTINE q) r.index
    |> wr (Reg.TC_SEQ_STATUS_CLASS q) (if r.kind = 1 ∨ r.kind = 2 then 1 else 0)
  if q = 8 then m |> wrb Reg.PTN_STATUS_ROUTINE_RUNNING true |> inc Reg.PTN_CNT_RUNS
  else m |> modRecov q (fun x => { x with detect := x.detect.map (fun d => { d with live := true }) })
    |> modPwr q (fun x => { x with held := false }) |> fallLight q |> syncResidues q |> wr (Reg.TC_DET_RUN q) 0 |> wr (Reg.TC_DET_FIRST_CAUSE q) 0 |> wrb (Reg.TC_DET_FIRST_REPLAY q) false
    |> wr (Reg.TC_DET_FIRST_PC q) 0 |> wr (Reg.TC_DET_RUN_ID q) r.id
    |> wr (Reg.TC_SCHED_STATUS_RUNNING q) (if r.kind = 0 then 1 else 2)

/-- The run of a routine of the partition: KIND 0 latency-critical, 1 best-effort stream routine, 2 WORK. -/
def runOf (r : Routine) (kind : Nat) : Run :=
  { index := r.index, kind := kind, id := r.id, base := r.base, code := r.code, const := r.const, entry := r.entry,
    high := bitOf r.flags 0 }

/-! ### Transient or permanent (R487 to R489) -/

/-- LOCALISE of a core (R482, R487). -/
def setLocalise (p k : Nat) (b : Bool) (m : Mach) : Mach := m |> wrb (Reg.TC_CORE_CHK_CTRL_LOCALISE p k) b |> syncResidue p k

/-- A permanent event of PART[p] on a core (R489): its step is taken at the next partition tick. -/
def permanentEvent (p k : Nat) (m : Mach) : Mach :=
  m |> inc (Reg.SAF_SUSPECT_PERMANENT p) |> modRecov p (fun r => { r with events := r.events ++ [k] })

/-- The CLASSIFY record of the partition's detection (R487): `cls` is 1 transient, 2 permanent, 3 not repeated; `path` and
`rep` are those of the repeat. LOCALISE is cleared. A permanent classification of a computing unit counts under R489; one of
checksum logic alone puts the array into BYPASS (R488). -/
def classifyRun (p cls : Nat) (path : Option Nat) (rep : Nat) (logic : Bool) (m : Mach) : Mach :=
  match (mget m.recov p).detect with
  | none => m
  | some d =>
    m |> modRecov p (fun r => { r with detect := none }) |> setLocalise p d.core false
      |> logErr { path := path.getD d.path, source := 0x0A, cls := cls, routineId := d.rid, instrAddr := d.addr, tag := d.tag,
                  detail := leBytes 4 d.seq ++ leBytes 4 rep }
      |> whenB (cls == 1) (inc (Reg.SAF_SUSPECT_TRANSIENT p))
      |> whenB (cls == 2 && !logic) (permanentEvent p d.core)
      |> whenB (cls == 2 && logic) (fun m => m |> wrb (Reg.TC_CORE_CHK_STATUS_CHECK_BYPASSED p d.core) true
        |> syncResidue p d.core |> logErr { path := pathCore m p d.core 1 63 63, source := 0x12, detail := leBytes 4 0 })

/-- The restarted routine has ended, or is not restarted: a detection that waits is class 3. -/
def unrepeated (p : Nat) : Mach → Mach := classifyRun p 3 none 0 false

/-- RUNNING of TC_SCHED_STATUS (R607). -/
def syncSwitch (p : Nat) (m : Mach) : Mach :=
  wr (Reg.TC_SCHED_STATUS_RUNNING p)
    (if (mget m.recov p).switch ≠ .none then 3 else match (mget m.seqs p).run with
      | none => 0
      | some r => if r.kind = 0 then 1 else 2) m

/-- Where a switch of contexts stands. -/
def setSwitch (p : Nat) (x : Switch) (m : Mach) : Mach := m |> modRecov p (fun r => { r with switch := x }) |> syncSwitch p

/-- A partition's sequencer is back in its firmware, which chooses, starts and ends routines (R301, R340, R607). -/
def idleSeq (p : Nat) (m : Mach) : Mach :=
  m |> whenB ((mget m.recov p).detect.any (·.live)) (unrepeated p)
    |> modSeq p (fun x => { x with run := none, waiting := none, ended := false }) |> syncResidues p
    |> wr (Reg.TC_SEQ_STATUS_STATE p) 3 |> syncSwitch p

/-- The latency-critical work of a turn ends when every routine of it has ended or been stopped (R622). -/
def lcFinish (p : Nat) (m : Mach) : Mach :=
  let t := mget m.turns p
  let r := mget m.recov p
  if t.phase = .open ∧ !t.lcDone ∧ t.lcTodo.isEmpty ∧ ((mget m.seqs p).run.map (·.kind)) ≠ some 0 ∧ r.restart.isNone ∧
      r.killing.isNone ∧ r.replayRun.isNone then
    m |> modTurn p (fun t => { t with lcDone := true, lcEnd := now m }) |> wrb (Reg.TC_TURN_STATUS_LATE p) false
  else m

/-! ### Completions of descriptors (R555, R556, R562) -/

/-- A SUBMIT ring that drains becomes DISABLED with its last fetched descriptor (R554). -/
def drainSubmit (q : Nat) (m : Mach) : Mach :=
  if qState m q = 2 ∧ (mget m.rings q).fetched.isEmpty then wr (Reg.HOST_Q_STATUS_STATE q) 0 m else m

/-- A descriptor's completion is decided, and it leaves its ring's fetched descriptors; a cancelled one has its record (R574). -/
def completeDesc (d : Desc) (st : Status) (reason : Nat) (m : Mach) : Mach :=
  if d.cancelled then m
  else
  let r : Rec := { queue := qCompletion m d.ring, kind := 1, fixed := { status := st, reason := reason, userWord := d.nvmeStatus },
                   decided := now m, decidedTq := tq m, turn := gridTurn m, descTag := d.tag }
  { m with decided := m.decided ++ [r] } |> modRing d.ring (fun x => { x with fetched := x.fetched.filter (fun y => y.index != d.index) })
    |> drainSubmit d.ring

/-! ### Best-effort contexts (R593, R595, R605, R607) -/

/-- TC_SCHED_STATUS and the WORK registers follow the open context. -/
def syncSched (p : Nat) (m : Mach) : Mach :=
  let r := mget m.recov p
  let be := r.be
  let d : Desc := ((be.bind (·.desc)).getD {})
  m |> wrb (Reg.TC_SCHED_STATUS_OPEN p) be.isSome
    |> wrb (Reg.TC_SCHED_STATUS_SAVED p) ((be.bind (·.saved)).isSome)
    |> wr (Reg.TC_SCHED_STATUS_WORK_FIFO p) r.work.length
    |> wr (Reg.TC_SCHED_STATUS_OPEN_KIND p) ((be.map (·.run.kind)).getD 0)
    |> wr (Reg.TC_SCHED_STATUS_OPEN_ROUTINE p) ((be.map (·.run.index)).getD 0)
    |> wr (Reg.TC_SCHED_ARG p) d.a |> wr (Reg.TC_SCHED_ARG_BYTES p) d.bytes
    |> wr (Reg.TC_SCHED_WORK_ROUTINE p) (d.c % 256) |> wr (Reg.TC_SCHED_WORK_CLASS p) (d.c / 256 % 4)
    |> wr (Reg.TC_SCHED_WORK_BATCH p) (d.c / 65536 % 65536)
    |> wr (Reg.TC_SCHED_DESC_TAG p) d.tag |> wr (Reg.TC_SCHED_WORK_Q p) d.ring

/-- Discard the open best-effort context (R605, R623): a WORK context completes with FAILED_RESET, and the items a stream
routine has taken are presented again. -/
def discardBe (p reason : Nat) (m : Mach) : Mach :=
  match (mget m.recov p).be with
  | none => m
  | some c =>
    let back := ((c.saved.map (fun l => l.taken.filter (fun n => !l.commits.contains n.tag))).getD [])
    let m := m |> modRecov p (fun r => { r with
        be := none, switch := if r.lcImage.isSome then .restoringLc else .none, first := r.first ++ back })
      |> inc (Reg.TC_SCHED_CNT_DISCARD p)
    let m := match c.desc with
      | some d => completeDesc d .failedReset reason m
      | none => m
    m |> syncSched p |> syncSwitch p

/-! ### Partner faults (R518) -/

/-- Something logged with the unit path 0.C.PE.k where no cluster is named: which of the four it names is a free value (R45, R239, R518). -/
def withPe (f : Nat → Mach → Mach) (m : Mach) : Mach :=
  let (k, m) := draw 2 m
  f (upath m 0 14 k 0 63 63) m

/-- The Partner engine stops, its FIFO empties, and its SRAM is wiped. Causes are numbered in the order of R518. -/
def partnerFault (cause path : Nat) (m : Mach) : Mach :=
  let rec' : LogRec := { path := path, source := 0x4A, detail := leBytes 4 cause }
  { m with seqs := eraseKey m.seqs 8, engines := clearRange m.engines 64 72, rnotes := eraseKey m.rnotes 8, lane := [],
           cores := clearRange m.cores 16 18, grans := clearRange m.grans (8 * 2 ^ 14) (9 * 2 ^ 14),
           saf := { m.saf with condPartner := true, ptnWipeAt := now m, ptnIn := [] } }
    |> zeroMem (ptnAddr 0) (ptnAddr 0x1000000) |> clearRegs 0x7F18081000 0x7F18082000
    |> wr Reg.PTN_STATUS_STATE 2 |> wrb Reg.PTN_STATUS_ROUTINE_RUNNING false |> wr (Reg.TC_SEQ_STATUS_STATE 8) 0
    |> inc Reg.PTN_CNT_FAULTS |> wrb Reg.SAF_STATUS_PARTNER_OK false |> react (reactPartner m) .partner rec'

/-! ### Wipe, restart and reset -/

/-- Whether a tag's stream belongs to the latency-critical class. -/
def tagLc (m : Mach) (t : Nat) : Bool := strLc (streamEntry m (tagStream t))

/-- The wipe of a partition (R367): scratch, vector registers, engine queues, ramps. -/
def wipePart (p : Nat) (m : Mach) : Mach :=
  { m with engines := clearRange m.engines (p * 8) (p * 8 + 8), cores := clearRange m.cores (p * 2) (p * 2 + 2) }
    |> wipeScratch p |> modRecov p (fun r => { r with wipeAt := now m }) |> syncCores p |> kvDiscard p

/-- Put a partition's four channels into self-refresh (R461). -/
def selfRefresh (p : Nat) : Mach → Mach :=
  forEach (List.range 4) (fun j m => m |> wr (Reg.MEM_STATUS_STATE (4 * p + j)) 3 |> inc (Reg.MEM_CNT_SELF_REFRESH (4 * p + j)))

/-- The bits that read 1 while the weight sweep, a patrol slice or a calibration runs: at which moments of a window they do is a free
value; outside a window they are 0 (notes/assumptions/25.md). -/
def windowBusy (p : Nat) (on : Bool) (m : Mach) : Mach :=
  let (v, m) := if on then draw 6 m else (0, m)
  m |> wrb (Reg.SCR_STATUS_WSCRUB p) (bitOf v 0) |> wrb (Reg.SCR_STATUS_ASCRUB p) (bitOf v 1)
    |> forEach (List.range 4) (fun j => wrb (Reg.MEM_STATUS_CALIBRATING (4 * p + j)) (bitOf v (2 + j)))

/-- The tensor of a completion: core offset and granules, where it lies in scratch. -/
def compGranules (m : Mach) (t : Nat) (it : Item) : List Nat :=
  let e := ispEntry m (tagStream t)
  granules (ispCore e * 2 ^ 25 + it.scr) (tensorBytes e)

/-- PLACE of a completion (R206). -/
def compPlace (c : Notice) : Nat := bitsAt c.lo 48 8

/-- Begin a partition reset (R617 to R619): sequencer, engines and arrays stop, the walker's queue goes, the channels enter
self-refresh, scratch is wiped, and items whose input lies only in scratch fail. -/
def startReset (p cause : Nat) (m : Mach) : Mach :=
  let m := m |> unrepeated p |> discardBe p Reason.reset |> idleSeq p |> wr (Reg.TC_SEQ_STATUS_STATE p) 0 |> abandonLocks (0x58 + p) |> kvReset p |> selfRefresh p
    |> windowBusy p false
    |> resetCores p |> resetRail p |> wr (Reg.TC_RECOV_STATUS_STATE p) 3 |> wr (Reg.TC_TURN_STATUS_MODE p) 3
    |> wrb (Reg.TC_HB_STATUS_WATCHED p) false
    |> modRecov p (fun r => { r with
        cause := cause, resetAt := now m, killing := none, failedN := 0, hbDue := false, hbLast := 0, lcImage := none,
        switch := .none })
    |> syncSwitch p |> wrb (Reg.TC_SCHED_STATUS_BE_RESIDENT p) false
  let m := forEach (List.range 8) (fun n m =>
    match (mget m.pipes n).job with
    | some j => if j.part = p ∧ !j.toHbm then jobFail n j .failedReset Reason.reset 0 m else m
    | none => m) m
  let gone (c : Notice) : Bool := compPlace c == 0 && strCamera (streamEntry m (tagStream c.tag))
  let lost := ((mget m.recov p).first ++ mget m.comps p).filter gone
  let m := { m with comps := mmod m.comps p (fun l => l.filter (fun c => !gone c)) } |> syncFifo p
    |> modRecov p (fun r => { r with first := r.first.filter (fun c => !gone c) })
  let m := forEach lost (fun c => failItem c.tag .failedReset Reason.scratchLost) m
  m |> modRecov p (fun r => { r with failedN := lost.length }) |> inc (Reg.TC_RECOV_CNT_RESET p) |> wipePart p

/-- The current item of a partition: the tag its current item tag holds, where that item is retained (R622). -/
def currentItem (m : Mach) (p : Nat) (kept : List Notice) : Option Nat :=
  let t := rd m (Reg.TC_SEQ_EXC_TAG p)
  if kept.any (fun n => n.tag == t) then some t else none

/-- Items fail, and leave the retained ones. -/
def failKept (p : Nat) (ts : List Nat) (st : Status) (reason : Nat) (m : Mach) : Mach :=
  m |> forEach ts (fun t => failItem t st reason)
    |> modRecov p (fun r => { r with retained := r.retained.filter (fun n => !ts.contains n.tag) })

/-- A host's reset that arose during a kill begins behind it (R617). -/
def hostReset (p : Nat) (m : Mach) : Mach :=
  if (mget m.recov p).nextCauses.contains 5 ∧ rd m (Reg.TC_RECOV_STATUS_STATE p) ≠ 3 then
    m |> modRecov p (fun r => { r with nextCauses := r.nextCauses.filter (· != 5) }) |> startReset p 5
  else m

/-- What follows a kill when its rescue is over (R612, R616, R622 to R625). -/
def killEnds (p : Nat) (m : Mach) : Mach :=
  let r := mget m.recov p
  let run := (mget m.seqs p).run
  let kind := (run.map (·.kind)).getD 0
  let tags := r.retained.map (·.tag)
  let guilty := run.bind (·.replayOf)
  let present (m : Mach) : Mach :=
    modRecov p (fun r => { r with first := r.retained ++ r.first, retained := [], rescue := [] }) m
  let done (m : Mach) : Mach := m |> modRecov p (fun r => { r with killing := none }) |> wr (Reg.TC_RECOV_STATUS_STATE p) 0
    |> lcFinish p
  let wipe (again : Option Run) (m : Mach) : Mach :=
    m |> present |> idleSeq p |> modRecov p (fun r => { r with restart := again, killing := none })
      |> wr (Reg.TC_RECOV_STATUS_STATE p) 0 |> wipePart p |> lcFinish p
  match guilty with
  | some t =>
    let bad := tags.contains t
    m |> whenB bad (failKept p [t] .failedFault Reason.hang) |> present
      |> modRecov p (fun r => { r with suspects := r.suspects.filter (fun n => n.tag != t) })
      |> whenB bad (inc (Reg.TC_RECOV_CNT_GUILTY p))
      |> whenB bad (wr (Reg.TC_RECOV_STATUS_GUILTY p) (rd m (Reg.TC_RECOV_STATUS_GUILTY p) + 1))
      |> startReset p 1
  | none =>
    match r.killing with
    | some .hang =>
      if kind = 2 then
        m |> present |> modRecov p (fun r => { r with episode := r.hangSeq }) |> discardBe p Reason.hang |> startReset p 1
      else
        m |> modRecov p (fun r => { r with
            suspects := r.retained, had := !r.retained.isEmpty, retained := [], rescue := [], replayRun := run, episode := r.hangSeq })
          |> modTurn p (fun t => { t with lcDone := t.lcDone && run.isNone })
          |> wr (Reg.TC_RECOV_STATUS_SUSPECTS p) tags.length |> wr (Reg.TC_RECOV_STATUS_GUILTY p) 0 |> startReset p 1
    | some .host =>
      let lcOpen := !(mget m.turns p).lcDone
      m |> present |> modRecov p (fun r => { r with restart := if kind = 0 ∧ lcOpen then run else none }) |> startReset p 5
    | some .permanent =>
      m |> failKept p tags .failedFault Reason.permanent
        |> (if kind = 0 then wipe none else fun m => m |> present |> discardBe p Reason.exception |> idleSeq p |> done)
    | some (.exception cls) =>
      let cur := currentItem m p r.retained
      let m := if cls = 1 then
          if r.retries < 2 then
            m |> modRecov p (fun r => { r with retries := r.retries + 1 })
              |> wr (Reg.TC_RECOV_STATUS_RESTARTS p) (r.retries + 1)
          else failKept p tags .failedFault Reason.restartLimit m
        else match cur with
          | some t => failKept p [t] .failedFault Reason.exception m
          | none => failKept p tags .failedFault Reason.exception m
      let again := if cls = 1 then decide (r.retries < 2) else cur.isSome
      let m := if kind = 0 ∧ again then m else unrepeated p m
      if kind = 0 then wipe (if again then run else none) m
      else m |> present |> discardBe p Reason.exception |> idleSeq p |> done
    | none => m

/-- What is left of a kill when its rescue is over. -/
def afterRescue (p : Nat) (m : Mach) : Mach := m |> killEnds p |> hostReset p

/-- The words of a tensor, which with 73 cycles give the time of its rescue (R615). -/
def rescueNs (m : Mach) (p t : Nat) : Nat := cyclesNs m p (ceilDiv (tensorBytes (ispEntry m (tagStream t))) 64 + 73)

/-- Begin the rescue (R615): tensors of retained items and of waiting completions that lie in scratch; one that does not
qualify fails its item. -/
def beginRescue (p : Nat) (m : Mach) : Mach :=
  let cands := ((mget m.recov p).retained ++ (mget m.recov p).first ++ mget m.comps p).filter (fun c =>
    compPlace c == 0 && ((lookup m.items c.tag).map (fun it => !it.range && it.fixed.isNone)).getD false)
  let ok (c : Notice) : Bool := ((lookup m.items c.tag).map (fun it => allReady m p (compGranules m c.tag it))).getD false
  let bad := (cands.filter (fun c => !ok c)).map (·.tag)
  let good := (cands.filter ok).map (·.tag)
  let m := { m with comps := mmod m.comps p (fun l => l.filter (fun c => !bad.contains c.tag)) }
    |> syncFifo p |> failKept p bad .failedReset Reason.scratchLost |> addTo (Reg.TC_RECOV_CNT_LOST p) bad.length
    |> modRecov p (fun r => { r with
        rescue := good, rescued := 0, rescueAt := now m, first := r.first.filter (fun c => !bad.contains c.tag) })
  if good.isEmpty then afterRescue p m else wr (Reg.TC_RECOV_STATUS_STATE p) 2 m

/-- A forensic hold is due at a kill (R369): DEBUG asks for it, the lifecycle honours it, and a debug session is open. -/
def forensicDue (m : Mach) : Bool :=
  forensicEnabled m && (rd m Reg.PAT_STATUS_LIFECYCLE == 0 || rd m Reg.PAT_STATUS_LIFECYCLE == 2) &&
    rdb m Reg.PAT_STATUS_DEBUG_SESSION

/-- Steps 3 to 5 of a kill, once its drain is over (R612 to R615). -/
def afterDrain (p : Nat) (m : Mach) : Mach :=
  let sq := mget m.seqs p
  let kept := sq.taken.filter (fun n => !sq.commits.contains n.tag &&
    ((lookup m.items n.tag).map (fun it => it.fixed.isNone)).getD false)
  let m := m |> abandonLocks (0x58 + p) |> modSeq p (fun x => { x with results := [], taken := [], grids := [] })
    |> modRecov p (fun r => { r with retained := kept })
  let forget (c : Nat × CallerItem) : Nat × CallerItem :=
    if kept.any (fun n => n.tag == c.1) then (c.1, { c.2 with main := none }) else c
  let m := { m with saf := { m.saf with caller := m.saf.caller.map forget },
                    grids := m.grids.filter (fun g => g.partner || !kept.any (fun n => n.tag == g.tag)) }
  if forensicDue m then
    m |> wrb (Reg.SCR_STATUS_HELD p) true |> wrb (Reg.TC_RECOV_STATUS_HOLD p) true |> inc (Reg.SCR_CNT_FORENSIC p)
      |> wr (Reg.SCR_FORENSIC_HOLD_MS p) 0 |> wrb (Reg.TC_HB_STATUS_WATCHED p) false
      |> modRecov p (fun r => { r with forensic := some (now m) })
  else beginRescue p m

/-- A kill goes on when nothing is in flight any more (R612). -/
def killStep (p : Nat) (m : Mach) : Mach :=
  if (mget m.recov p).killing.isSome && rd m (Reg.TC_RECOV_STATUS_STATE p) == 1 && flightEmpty m p then afterDrain p m else m

/-- Kill the routine of a partition (R612): nothing more is dispatched, queued instructions are discarded, issued ones run
on. -/
def beginKill (p : Nat) (why : KillWhy) (m : Mach) : Mach :=
  if (mget m.recov p).killing.isSome then m
  else
    let m := modRecov p (fun r => { r with killAt := now m }) m
    forEach (List.range 6) (fun e => modEngine p e (fun x => { x with queue := [] })) m |> syncCores p
      |> modSeq p (fun x => { x with waiting := none, ended := false })
      |> modRecov p (fun r => { r with killing := some why }) |> wr (Reg.TC_RECOV_STATUS_STATE p) 1 |> killStep p

/-! ### Exceptions (R335, R336, R341, R413) -/

/-- The class of an exception: 1 for H; a KV_FAULT takes its reason's. -/
def excClass (code detail : Nat) : Nat :=
  if code = 0x1A then (if detail = 9 ∨ detail = 0xA ∨ detail = 0xB ∨ detail = 0xC then 1 else 0)
  else if code = 6 ∨ code = 0xF ∨ code = 0x15 ∨ code = 0x19 ∨ code = 0x1F then 1 else 0

/-- What raised an exception, and where. -/
structure ExcSite where
  q    : Nat
  eng  : Option Nat := none
  pc   : Nat := 0
  op   : Nat := 0
  rid  : Nat := 0
deriving DecidableEq, Repr

/-- The site of an engine's instruction. -/
def EngOp.site (o : EngOp) (q e : Nat) : ExcSite := { q := q, eng := some e, pc := o.pc, op := o.opcode, rid := o.rid }

/-- Raise an exception: TC_SEQ_EXC and its record, and the kill of the routine for a reason. Of two in one cycle, the one with
the lower address is reported. The records `rec'` of the check that failed stand before the EXCEPTION record (R239, R336, R413, R478;
notes/assumptions/4.md). -/
def raiseExcWhy (x : ExcSite) (code detail : Nat) (rec' : List LogRec) (why : KillWhy) (m : Mach) : Mach :=
  let q := x.q
  let cls := excClass code detail
  let tag := rd m (Reg.TC_SEQ_ITAG q)
  let same := (mget m.seqs q).excAt == some (now m)
  let keep := same && decide (rd m (Reg.TC_SEQ_EXC_PC q) ≤ x.pc)
  let m := if keep then m
    else m |> wr (Reg.TC_SEQ_EXC_CODE q) code |> wr (Reg.TC_SEQ_EXC_ENGINE q) ((x.eng.map (· + 1)).getD 0)
      |> wr (Reg.TC_SEQ_EXC_CLASS q) cls |> wr (Reg.TC_SEQ_EXC_DETAIL q) detail |> wr (Reg.TC_SEQ_EXC_PC q) x.pc
      |> wr (Reg.TC_SEQ_EXC_TAG q) tag
  let recs : List LogRec := rec' ++ [{ path := pathEngine m q x.eng, source := 0x4F }]
  let m := m |> wrb (Reg.TC_SEQ_EXC_MULTIPLE q) same |> wrb (Reg.TC_SEQ_EXC_NEW q) true |> inc (Reg.TC_SEQ_CNT_EXC q)
    |> modSeq q (fun s => { s with excAt := some (now m) })
    |> forEach recs (fun r =>
      logErr { r with routineId := x.rid, instrAddr := x.pc, opcode := x.op, exc := code, detail16 := detail, tag := tag })
  if q = 8 then partnerFault 1 (pathEngine m q x.eng) m
  else m |> wr (Reg.TC_SEQ_STATUS_STATE q) 2 |> beginKill q why

/-- Raise an exception that kills as its class gives (R622). -/
def raiseExc (x : ExcSite) (code detail : Nat) (rec' : List LogRec) (m : Mach) : Mach :=
  raiseExcWhy x code detail rec' (.exception (excClass code detail)) m

/-- The site of the sequencer's own instruction. -/
def seqSite (m : Mach) (q op : Nat) : ExcSite :=
  { q := q, pc := rd m (Reg.TC_SEQ_PC q), op := op, rid := rd m (Reg.TC_SEQ_ROUTINE_ID q) }

/-! ### Issue and completion -/

/-- Put an issued instruction in flight, due to complete after its cycles. -/
def takeIssue (q e : Nat) (o : EngOp) (cycles : Nat) (m : Mach) : Mach :=
  let o := { o with issued := now m, cycles := cycles, ends := now m + cyclesNs m q cycles }
  modEngine q e (fun x => { queue := x.queue.drop 1, flight := x.flight ++ [o] }) m

/-- The oldest instruction in flight in an engine leaves it. -/
def takeDone (q e : Nat) (m : Mach) : Mach := modEngine q e (fun x => { x with flight := x.flight.drop 1 }) m

/-- The head of a queue raises an exception at decode: it never issues. -/
def decodeFault (q e : Nat) (o : EngOp) (code detail : Nat) (m : Mach) : Mach :=
  m |> modEngine q e (fun x => { x with queue := x.queue.drop 1 }) |> raiseExc (o.site q e) code detail []

/-- The head of a queue cannot issue: the causes join those that have held it (R278). -/
def holdHead (q e : Nat) (o : EngOp) (causes : Nat) (m : Mach) : Mach :=
  let o := { o with waited := o.waited ||| causes, headAt := o.headAt <|> some (now m) }
  modEngine q e (fun x => { x with queue := o :: x.queue.drop 1 }) m

/-- Cycles that the head of a queue has waited. -/
def headWait (m : Mach) (q : Nat) (o : EngOp) : Nat := (o.headAt.map (fun t => nsCycles m q (now m - t))).getD 0

/-! ### Ramps (R265 to R267, R647) -/

/-- An array instruction stands at the head of a queue: a COLD array begins to ramp at the full level, and a ramp down turns
round. At the light level with no window open, the manager opens one and the rail rises. -/
def rampWake (q k : Nat) (m : Mach) : Mach :=
  if q = 8 then m
  else match (engine m q k).queue with
    | [] => m
    | o :: r =>
      let st := rd m (Reg.TC_CORE_STATUS_RAMP_STATE q k)
      if st = 3 then m |> wr (Reg.TC_CORE_STATUS_RAMP_STATE q k) 1 |> inc (Reg.TC_CORE_CNT_RAMP_UP q k)
      else if st ≠ 0 then m
      else if atFull m q then
        m |> wr (Reg.TC_CORE_STATUS_RAMP_STATE q k) 1 |> inc (Reg.TC_CORE_CNT_RAMP_UP q k) |> leftCold q k
          |> modPwr q (fun x => { x with ballast := (mget m.seqs q).run.map (·.index) })
      else
        let m := if o.unhinted then m
          else m |> inc (Reg.TC_PWR_CNT_UNHINTED q) |> modEngine q k (fun x => { x with queue := { o with unhinted := true } :: r })
        if rdb m (Reg.PWR_PART_STATUS_LIGHT q) && (mget m.pparts q).wins.isEmpty then
          m |> openWindow q 6 (2 ^ k) |> setLight q false
        else m

/-! ### Results (R105, R332, R614) -/

/-- Whether an item has received FAILED_DEADLINE (R105, R332). -/
def pastDeadline (m : Mach) (t : Nat) : Bool :=
  m.deadlined.contains t || ((lookup m.items t).bind (·.fixed)).any (fun f => f.status == .failedDeadline)

/-- A RESULT commits (R614): the item's status is fixed, LATE behind its turn deadline (R105). One for an item that has
received FAILED_DEADLINE is discarded and counted; one whose payload exceeds PAY_SLOT fails its item (R563). `x` is the value
of its rsX. -/
def commitResult (q t x : Nat) (payload : List Byte) (m : Mach) : Mach :=
  let m := modSeq q (fun s => { s with results := s.results.filter (· != t), commits := t :: s.commits }) m
  if pastDeadline m t then inc (Reg.TC_CNT_LATE_DISCARD q) m
  else match lookup m.items t with
    | none => m
    | some it =>
      let st : Status := if x % 16 = 3 then .failedData else if it.lc && it.turnEnd.isSome then .late else .ok
      let f : Fixed := { status := st, userFlags := bitsAt x 16 16, userWord := bitsAt x 32 32, payload := payload }
      fixItem t (if qPaySlot m it.queue < payload.length then { f with status := .failedFault, reason := Reason.payloadSize,
                                                                       payload := [] } else f) m

end Sys2Proof.Machine
end

