-- ==== Sys2Proof/Machine/RegTable.lean ====
section
/-!
DEFINITION. The table of all registers, block by block (R36), each row as Machine/Regs.lean describes it.
-/

namespace Sys2Proof.Machine

/-- Registers of PAT (R81). -/
def regRowsPAT0 : List RegRow := [
  ⟨0x7F00000000, [], false, .any, .power, [⟨16, 16, .r, 0xF08⟩, ⟨12, 4, .r, 1⟩, ⟨8, 4, .r, 1⟩, ⟨4, 4, .r, 0⟩, ⟨0, 4, .r, 1⟩]⟩,
  ⟨0x7F00000004, [], false, .any, .power, [⟨0, 4, .r, 0⟩, ⟨4, 2, .r, 0⟩, ⟨6, 2, .r, 0⟩, ⟨8, 1, .r, 0⟩, ⟨9, 1, .r, 0⟩, ⟨10, 2, .r, 0⟩, ⟨12, 1, .r, 0⟩]⟩,
  ⟨0x7F00000008, [], false, .any, .power, [⟨0, 8, .r, 0⟩, ⟨8, 8, .r, 0xFF⟩, ⟨24, 8, .r, 0⟩]⟩,
  ⟨0x7F0000000C, [], false, .any, .power, [⟨0, 32, .r, 0⟩]⟩,
  ⟨0x7F00000010, [], true, .any, .power, [⟨0, 64, .r, 0⟩]⟩,
  ⟨0x7F00000018, [], false, .any, .power, [⟨0, 32, .r, 0⟩]⟩,
  ⟨0x7F0000001C, [], false, .any, .power, [⟨0, 7, .r, 0⟩, ⟨8, 7, .r, 0⟩]⟩,
  ⟨0x7F00000020, [], false, .any, .power, [⟨0, 4, .r, 0⟩, ⟨4, 4, .r, 0⟩, ⟨8, 1, .r, 0⟩]⟩,
  ⟨0x7F00000024, [], false, .any, .power, [⟨0, 2, .r, 0⟩, ⟨2, 1, .r, 0⟩, ⟨3, 1, .r, 0⟩, ⟨4, 1, .r, 0⟩, ⟨8, 24, .r, 0⟩]⟩,
  ⟨0x7F00000030, [], true, .any, .power, [⟨0, 64, .r, 0⟩]⟩,
  ⟨0x7F00000040, [], true, .any, .power, [⟨0, 64, .rw, 0⟩]⟩,
  ⟨0x7F00000048, [], false, .any, .power, [⟨0, 27, .rw, 0⟩]⟩,
  ⟨0x7F0000004C, [], false, .pfMi, .power, [⟨0, 4, .wo, 0⟩]⟩,
  ⟨0x7F00000050, [], false, .any, .power, [⟨0, 4, .r, 0⟩, ⟨8, 8, .r, 0⟩]⟩]

/-- Registers of TIME (R109, R138). -/
def regRowsTIME0 : List RegRow := [
  ⟨0x7F00100000, [], false, .any, .power, [⟨0, 2, .r, 2⟩, ⟨2, 2, .r, 0⟩, ⟨4, 1, .r, 0⟩, ⟨5, 1, .r, 0⟩, ⟨6, 1, .r, 0⟩, ⟨7, 1, .r, 0⟩, ⟨8, 1, .r, 0⟩, ⟨9, 1, .w1c, 0⟩]⟩,
  ⟨0x7F00100004, [], true, .any, .power, [⟨0, 64, .r, 0⟩]⟩,
  ⟨0x7F0010000C, [], false, .any, .power, [⟨0, 32, .r, 0⟩]⟩,
  ⟨0x7F00100010, [], false, .any, .power, [⟨0, 32, .r, 0⟩]⟩,
  ⟨0x7F00100014, [], true, .any, .power, [⟨0, 64, .r, 0⟩]⟩,
  ⟨0x7F0010001C, [], false, .any, .power, [⟨0, 32, .r, 0⟩]⟩,
  ⟨0x7F00100020, [], false, .any, .power, [⟨0, 32, .rc, 0⟩]⟩,
  ⟨0x7F00100024, [], false, .any, .power, [⟨0, 32, .rc, 0⟩]⟩,
  ⟨0x7F00100028, [], false, .any, .power, [⟨0, 32, .rc, 0⟩]⟩,
  ⟨0x7F0010002C, [], false, .any, .power, [⟨0, 32, .rc, 0⟩]⟩,
  ⟨0x7F00100100, [(32, 0x20)], false, .any, .power, [⟨0, 2, .rw, 0⟩, ⟨2, 1, .rw, 0⟩, ⟨3, 1, .wo, 0⟩]⟩,
  ⟨0x7F00100104, [(32, 0x20)], false, .any, .power, [⟨0, 17, .rw, 0⟩]⟩,
  ⟨0x7F00100108, [(32, 0x20)], false, .any, .power, [⟨0, 30, .rw, 0⟩]⟩,
  ⟨0x7F0010010C, [(32, 0x20)], false, .any, .power, [⟨0, 30, .rw, 0⟩]⟩,
  ⟨0x7F00100110, [(32, 0x20)], true, .any, .power, [⟨0, 64, .rw, 0⟩]⟩,
  ⟨0x7F00100118, [(32, 0x20)], false, .any, .power, [⟨0, 2, .r, 0⟩, ⟨2, 1, .r, 0⟩, ⟨3, 1, .w1c, 0⟩, ⟨4, 1, .w1c, 0⟩, ⟨5, 1, .w1c, 0⟩, ⟨6, 1, .w1c, 0⟩, ⟨16, 16, .r, 0⟩]⟩,
  ⟨0x7F00100600, [(4, 0x20)], false, .any, .power, [⟨0, 2, .rw, 0⟩]⟩,
  ⟨0x7F00100604, [(4, 0x20)], true, .any, .power, [⟨0, 64, .r, 0⟩]⟩,
  ⟨0x7F0010060C, [(4, 0x20)], false, .any, .power, [⟨0, 5, .r, 0⟩, ⟨5, 2, .r, 0⟩, ⟨7, 1, .r, 0⟩, ⟨8, 1, .w1c, 0⟩, ⟨16, 16, .rc, 0⟩]⟩,
  ⟨0x7F00100800, [], false, .any, .power, [⟨0, 17, .r, 0⟩]⟩,
  ⟨0x7F00100804, [], false, .any, .power, [⟨0, 2, .r, 0⟩]⟩,
  ⟨0x7F00100808, [], false, .any, .power, [⟨0, 15, .r, 0⟩]⟩,
  ⟨0x7F0010080C, [], false, .any, .power, [⟨0, 20, .r, 0⟩]⟩,
  ⟨0x7F00100810, [], false, .any, .power, [⟨0, 17, .r, 0⟩]⟩,
  ⟨0x7F00100814, [], false, .any, .power, [⟨0, 28, .r, 0⟩]⟩,
  ⟨0x7F00100818, [], false, .any, .power, [⟨0, 32, .r, 0⟩]⟩,
  ⟨0x7F0010081C, [], true, .any, .power, [⟨0, 64, .r, 0⟩]⟩,
  ⟨0x7F00100824, [], false, .any, .power, [⟨0, 1, .r, 0⟩, ⟨1, 1, .r, 0⟩, ⟨2, 1, .w1c, 0⟩]⟩]

/-- Registers of ING (R188). -/
def regRowsING0 : List RegRow := [
  ⟨0x7F01000004, [], false, .any, .power, [⟨0, 11, .r, 0⟩, ⟨11, 11, .r, 0⟩, ⟨22, 1, .r, 0⟩, ⟨23, 1, .r, 0⟩]⟩,
  ⟨0x7F01000008, [], false, .any, .base, [⟨0, 32, .rc, 0⟩]⟩,
  ⟨0x7F01010000, [(32, 0x100)], false, .any, .power, [⟨0, 3, .r, 0⟩, ⟨3, 1, .r, 0⟩, ⟨4, 3, .r, 0⟩, ⟨7, 1, .r, 0⟩]⟩,
  ⟨0x7F01010004, [(32, 0x100)], false, .any, .power, [⟨0, 16, .r, 0⟩]⟩,
  ⟨0x7F01010008, [(32, 0x100)], false, .any, .power, [⟨0, 1, .wo, 0⟩, ⟨1, 1, .rw, 0⟩]⟩,
  ⟨0x7F01010010, [(32, 0x100)], false, .any, .power, [⟨0, 16, .wo, 0⟩, ⟨16, 7, .wo, 0⟩, ⟨23, 1, .wo, 0⟩, ⟨24, 8, .wo, 0⟩]⟩,
  ⟨0x7F01010014, [(32, 0x100)], false, .any, .power, [⟨0, 8, .rc, 0⟩, ⟨8, 1, .rc, 0⟩, ⟨9, 1, .rc, 0⟩, ⟨10, 1, .rc, 0⟩, ⟨11, 1, .rc, 0⟩, ⟨16, 6, .r, 0⟩]⟩,
  ⟨0x7F01010020, [(32, 0x100)], false, .any, .base, [⟨0, 32, .rc, 0⟩]⟩,
  ⟨0x7F01010024, [(32, 0x100)], false, .any, .base, [⟨0, 32, .rc, 0⟩]⟩,
  ⟨0x7F01010028, [(32, 0x100)], false, .any, .base, [⟨0, 32, .rc, 0⟩]⟩,
  ⟨0x7F0101002C, [(32, 0x100)], false, .any, .base, [⟨0, 32, .rc, 0⟩]⟩,
  ⟨0x7F01010030, [(32, 0x100)], false, .any, .base, [⟨0, 32, .rc, 0⟩]⟩,
  ⟨0x7F01010034, [(32, 0x100)], false, .any, .base, [⟨0, 32, .rc, 0⟩]⟩,
  ⟨0x7F01010038, [(32, 0x100)], false, .any, .base, [⟨0, 32, .rc, 0⟩]⟩,
  ⟨0x7F01030000, [(16, 0x100)], false, .any, .power, [⟨0, 2, .r, 0⟩, ⟨2, 2, .r, 0⟩, ⟨4, 1, .r, 0⟩]⟩,
  ⟨0x7F01030008, [(16, 0x100)], false, .any, .power, [⟨1, 1, .rw, 0⟩]⟩,
  ⟨0x7F01030020, [(16, 0x100)], false, .any, .base, [⟨0, 32, .rc, 0⟩]⟩,
  ⟨0x7F01030024, [(16, 0x100)], false, .any, .base, [⟨0, 32, .rc, 0⟩]⟩,
  ⟨0x7F01030028, [(16, 0x100)], false, .any, .base, [⟨0, 32, .rc, 0⟩]⟩,
  ⟨0x7F0103002C, [(16, 0x100)], false, .any, .base, [⟨0, 32, .rc, 0⟩]⟩,
  ⟨0x7F01030030, [(16, 0x100)], false, .any, .base, [⟨0, 32, .rc, 0⟩]⟩,
  ⟨0x7F01030034, [(16, 0x100)], false, .any, .base, [⟨0, 32, .rc, 0⟩]⟩,
  ⟨0x7F01030038, [(16, 0x100)], false, .any, .base, [⟨0, 32, .rc, 0⟩]⟩,
  ⟨0x7F0103003C, [(16, 0x100)], false, .any, .base, [⟨0, 32, .rc, 0⟩]⟩,
  ⟨0x7F01100000, [(1024, 0x40)], false, .any, .power, [⟨0, 3, .r, 0⟩, ⟨3, 1, .r, 0⟩, ⟨4, 1, .w1c, 0⟩, ⟨5, 6, .r, 0⟩, ⟨11, 7, .r, 0⟩, ⟨18, 8, .r, 0⟩, ⟨26, 1, .w1c, 0⟩, ⟨27, 1, .r, 0⟩]⟩,
  ⟨0x7F01100004, [(1024, 0x40)], false, .any, .power, [⟨0, 1, .rw, 0⟩, ⟨1, 1, .wo, 0⟩, ⟨2, 1, .wo, 0⟩, ⟨3, 1, .wo, 0⟩]⟩,
  ⟨0x7F01100008, [(1024, 0x40)], true, .any, .power, [⟨0, 64, .rw, 0⟩]⟩,
  ⟨0x7F01100010, [(1024, 0x40)], true, .any, .power, [⟨0, 64, .r, 0⟩]⟩,
  ⟨0x7F01100018, [(1024, 0x40)], false, .any, .power, [⟨0, 22, .r, 0⟩, ⟨22, 1, .r, 0⟩]⟩,
  ⟨0x7F0110001C, [(1024, 0x40)], false, .any, .power, [⟨0, 6, .wo, 0⟩, ⟨6, 1, .wo, 0⟩]⟩,
  ⟨0x7F01100020, [(1024, 0x40)], false, .any, .base, [⟨0, 32, .rc, 0⟩]⟩,
  ⟨0x7F01100024, [(1024, 0x40)], false, .any, .base, [⟨0, 32, .rc, 0⟩]⟩,
  ⟨0x7F01100028, [(1024, 0x40)], false, .any, .base, [⟨0, 32, .rc, 0⟩]⟩,
  ⟨0x7F0110002C, [(1024, 0x40)], false, .any, .base, [⟨0, 32, .rc, 0⟩]⟩,
  ⟨0x7F01100030, [(1024, 0x40)], false, .any, .base, [⟨0, 32, .rc, 0⟩]⟩,
  ⟨0x7F01100034, [(1024, 0x40)], false, .any, .base, [⟨0, 32, .rc, 0⟩]⟩,
  ⟨0x7F01100038, [(1024, 0x40)], false, .any, .base, [⟨0, 32, .rc, 0⟩]⟩,
  ⟨0x7F0110003C, [(1024, 0x40)], false, .any, .base, [⟨0, 32, .rc, 0⟩]⟩,
  ⟨0x7F01200000, [(1024, 0x40), (16, 0x4)], false, .any, .power, [⟨0, 32, .r, 0⟩]⟩,
  ⟨0x7F01210000, [(512, 0x40), (16, 0x4)], false, .any, .power, [⟨0, 32, .r, 0⟩]⟩]

/-- Registers of ISP (R227). -/
def regRowsISP0 : List RegRow := [
  ⟨0x7F02000100, [(8, 0x20)], false, .any, .power, [⟨0, 1, .r, 0⟩, ⟨1, 10, .r, 0⟩, ⟨11, 6, .r, 0⟩]⟩,
  ⟨0x7F02000104, [(8, 0x20)], false, .any, .base, [⟨0, 32, .rc, 0⟩]⟩,
  ⟨0x7F02000108, [(8, 0x20)], false, .any, .base, [⟨0, 32, .rc, 0⟩]⟩,
  ⟨0x7F0200010C, [(8, 0x20)], false, .any, .base, [⟨0, 32, .rc, 0⟩]⟩,
  ⟨0x7F02000110, [(8, 0x20)], false, .any, .base, [⟨0, 32, .rc, 0⟩]⟩,
  ⟨0x7F02010000, [(512, 0x40)], false, .any, .power, [⟨0, 1, .wo, 0⟩]⟩,
  ⟨0x7F02010004, [(512, 0x40)], false, .any, .power, [⟨0, 1, .w1c, 0⟩, ⟨1, 1, .w1c, 0⟩, ⟨2, 3, .r, 0⟩, ⟨5, 1, .r, 0⟩, ⟨6, 6, .r, 0⟩, ⟨12, 6, .r, 0⟩]⟩,
  ⟨0x7F02010008, [(512, 0x40)], false, .any, .power, [⟨0, 22, .r, 0⟩, ⟨22, 1, .r, 0⟩]⟩,
  ⟨0x7F0201000C, [(512, 0x40)], false, .any, .power, [⟨0, 4, .rw, 0⟩, ⟨4, 4, .rw, 0⟩, ⟨8, 1, .wo, 0⟩, ⟨9, 1, .r, 0⟩, ⟨10, 1, .w1c, 0⟩, ⟨11, 1, .w1c, 0⟩]⟩,
  ⟨0x7F02010010, [(512, 0x40)], false, .any, .power, [⟨0, 25, .rw, 0⟩]⟩,
  ⟨0x7F02010014, [(512, 0x40)], true, .any, .power, [⟨0, 64, .rw, 0⟩]⟩,
  ⟨0x7F0201001C, [(512, 0x40)], false, .any, .power, [⟨0, 32, .r, 0⟩]⟩,
  ⟨0x7F02010020, [(512, 0x40)], true, .any, .power, [⟨0, 64, .r, 0⟩]⟩,
  ⟨0x7F02010028, [(512, 0x40)], false, .any, .base, [⟨0, 32, .rc, 0⟩]⟩,
  ⟨0x7F0201002C, [(512, 0x40)], false, .any, .base, [⟨0, 32, .rc, 0⟩]⟩,
  ⟨0x7F02010030, [(512, 0x40)], false, .any, .base, [⟨0, 32, .rc, 0⟩]⟩,
  ⟨0x7F02010034, [(512, 0x40)], false, .any, .base, [⟨0, 32, .rc, 0⟩]⟩,
  ⟨0x7F02010038, [(512, 0x40)], false, .any, .base, [⟨0, 32, .rc, 0⟩]⟩,
  ⟨0x7F0201003C, [(512, 0x40)], false, .any, .base, [⟨0, 32, .rc, 0⟩]⟩,
  ⟨0x7F02080000, [(512, 0x400), (256, 0x4)], false, .any, .power, [⟨0, 32, .rw, 0⟩]⟩]

/-- Registers of PART (R111, R243, R446, R606, R632, R662, R671). -/
def regRowsPART0 : List RegRow := [
  ⟨0x7F10000400, [(8, 0x1000000)], false, .any, .base, [⟨0, 2, .r, 0⟩, ⟨2, 1, .r, 0⟩, ⟨3, 1, .r, 0⟩, ⟨4, 1, .r, 0⟩, ⟨5, 1, .r, 0⟩]⟩,
  ⟨0x7F10000404, [(8, 0x1000000)], false, .any, .base, [⟨0, 32, .r, 0⟩]⟩,
  ⟨0x7F10000408, [(8, 0x1000000)], false, .any, .base, [⟨0, 30, .r, 0⟩]⟩,
  ⟨0x7F1000040C, [(8, 0x1000000)], false, .any, .base, [⟨0, 30, .rc, 0⟩]⟩,
  ⟨0x7F10000410, [(8, 0x1000000)], false, .any, .base, [⟨0, 32, .r, 0⟩]⟩,
  ⟨0x7F10000414, [(8, 0x1000000)], false, .any, .base, [⟨0, 32, .r, 0⟩]⟩,
  ⟨0x7F10000418, [(8, 0x1000000)], false, .any, .base, [⟨0, 32, .r, 0⟩]⟩,
  ⟨0x7F1000041C, [(8, 0x1000000)], false, .any, .base, [⟨0, 32, .r, 0⟩]⟩,
  ⟨0x7F10000420, [(8, 0x1000000)], false, .any, .base, [⟨0, 32, .rc, 0⟩]⟩,
  ⟨0x7F10000424, [(8, 0x1000000)], false, .any, .base, [⟨0, 32, .rc, 0⟩]⟩,
  ⟨0x7F10000428, [(8, 0x1000000)], false, .any, .base, [⟨0, 32, .rc, 0⟩]⟩,
  ⟨0x7F1000042C, [(8, 0x1000000)], false, .any, .base, [⟨0, 32, .rc, 0⟩]⟩,
  ⟨0x7F10000430, [(8, 0x1000000)], false, .any, .base, [⟨0, 32, .rc, 0⟩]⟩,
  ⟨0x7F10000434, [(8, 0x1000000)], false, .any, .base, [⟨0, 32, .rc, 0⟩]⟩,
  ⟨0x7F10000438, [(8, 0x1000000)], false, .any, .base, [⟨0, 32, .rc, 0⟩]⟩,
  ⟨0x7F10000500, [(8, 0x1000000)], false, .any, .base, [⟨0, 32, .rc, 0⟩]⟩,
  ⟨0x7F10000504, [(8, 0x1000000)], false, .any, .base, [⟨0, 32, .rc, 0⟩]⟩,
  ⟨0x7F10000508, [(8, 0x1000000)], false, .any, .base, [⟨0, 32, .rc, 0⟩]⟩,
  ⟨0x7F1000050C, [(8, 0x1000000)], false, .any, .base, [⟨0, 4, .r, 0⟩, ⟨4, 2, .r, 0⟩, ⟨6, 1, .r, 0⟩, ⟨7, 1, .w1c, 0⟩]⟩,
  ⟨0x7F10000510, [(8, 0x1000000)], false, .any, .base, [⟨0, 32, .r, 0⟩]⟩,
  ⟨0x7F10000700, [(8, 0x1000000), (32, 0x4)], false, .any, .base, [⟨0, 7, .r, 0⟩, ⟨7, 6, .r, 0⟩, ⟨13, 1, .r, 0⟩, ⟨14, 1, .r, 0⟩, ⟨15, 1, .r, 0⟩, ⟨16, 16, .r, 0⟩]⟩,
  ⟨0x7F10000780, [(8, 0x1000000), (4, 0x4)], false, .any, .base, [⟨0, 32, .r, 0⟩]⟩,
  ⟨0x7F10000800, [(8, 0x1000000)], false, .any, .power, [⟨0, 2, .r, 0⟩, ⟨2, 2, .r, 0⟩, ⟨4, 1, .r, 0⟩, ⟨5, 1, .r, 0⟩, ⟨6, 1, .r, 0⟩, ⟨7, 7, .r, 0⟩, ⟨14, 2, .r, 0⟩, ⟨16, 8, .r, 0⟩]⟩,
  ⟨0x7F10000804, [(8, 0x1000000)], true, .any, .power, [⟨0, 64, .r, 0⟩]⟩,
  ⟨0x7F1000080C, [(8, 0x1000000)], false, .any, .power, [⟨0, 24, .r, 0⟩]⟩,
  ⟨0x7F10000810, [(8, 0x1000000)], false, .any, .power, [⟨0, 8, .r, 0⟩, ⟨8, 2, .r, 0⟩, ⟨16, 16, .r, 0⟩]⟩,
  ⟨0x7F10000814, [(8, 0x1000000)], false, .any, .power, [⟨0, 32, .r, 0⟩]⟩,
  ⟨0x7F10000818, [(8, 0x1000000)], false, .any, .power, [⟨0, 14, .r, 0⟩]⟩,
  ⟨0x7F1000081C, [(8, 0x1000000)], false, .any, .power, [⟨0, 32, .r, 0⟩]⟩,
  ⟨0x7F10000820, [(8, 0x1000000)], false, .any, .base, [⟨0, 32, .rc, 0⟩]⟩,
  ⟨0x7F10000824, [(8, 0x1000000)], false, .any, .base, [⟨0, 32, .rc, 0⟩]⟩,
  ⟨0x7F10000828, [(8, 0x1000000)], false, .any, .base, [⟨0, 32, .rc, 0⟩]⟩,
  ⟨0x7F1000082C, [(8, 0x1000000)], false, .any, .base, [⟨0, 32, .rc, 0⟩]⟩,
  ⟨0x7F10000830, [(8, 0x1000000)], false, .any, .base, [⟨0, 32, .rc, 0⟩]⟩,
  ⟨0x7F10000834, [(8, 0x1000000)], false, .any, .base, [⟨0, 32, .rc, 0⟩]⟩,
  ⟨0x7F10000900, [(8, 0x1000000)], false, .seqfw, .power, [⟨0, 32, .wo, 0⟩]⟩,
  ⟨0x7F10000904, [(8, 0x1000000)], false, .any, .power, [⟨0, 16, .r, 0⟩, ⟨16, 1, .r, 0⟩, ⟨17, 1, .w1c, 0⟩, ⟨18, 9, .r, 0⟩]⟩,
  ⟨0x7F10000908, [(8, 0x1000000)], false, .pfHcMi, .power, [⟨0, 1, .wo, 0⟩]⟩,
  ⟨0x7F1000090C, [(8, 0x1000000)], false, .any, .power, [⟨0, 3, .r, 0⟩, ⟨3, 1, .r, 0⟩, ⟨4, 2, .r, 0⟩, ⟨6, 10, .r, 0⟩, ⟨16, 2, .r, 0⟩]⟩,
  ⟨0x7F10000910, [(8, 0x1000000)], false, .any, .power, [⟨0, 8, .r, 0⟩, ⟨16, 16, .r, 0⟩]⟩]

/-- Registers of PART (R111, R243, R446, R606, R632, R662, R671). -/
def regRowsPART1 : List RegRow := [
  ⟨0x7F10000920, [(8, 0x1000000)], false, .any, .base, [⟨0, 32, .rc, 0⟩]⟩,
  ⟨0x7F10000924, [(8, 0x1000000)], false, .any, .base, [⟨0, 32, .rc, 0⟩]⟩,
  ⟨0x7F10000928, [(8, 0x1000000)], false, .any, .base, [⟨0, 32, .rc, 0⟩]⟩,
  ⟨0x7F1000092C, [(8, 0x1000000)], false, .any, .base, [⟨0, 32, .rc, 0⟩]⟩,
  ⟨0x7F10000930, [(8, 0x1000000)], false, .any, .base, [⟨0, 32, .rc, 0⟩]⟩,
  ⟨0x7F10000934, [(8, 0x1000000)], false, .any, .base, [⟨0, 32, .rc, 0⟩]⟩,
  ⟨0x7F10000938, [(8, 0x1000000)], false, .any, .base, [⟨0, 32, .rc, 0⟩]⟩,
  ⟨0x7F10000A00, [(8, 0x1000000)], false, .any, .power, [⟨0, 32, .r, 0⟩]⟩,
  ⟨0x7F10000A04, [(8, 0x1000000)], false, .any, .power, [⟨0, 32, .r, 0⟩]⟩,
  ⟨0x7F10000A08, [(8, 0x1000000)], false, .any, .base, [⟨0, 32, .rc, 0⟩]⟩,
  ⟨0x7F10000A0C, [(8, 0x1000000)], false, .any, .base, [⟨0, 32, .rc, 0⟩]⟩,
  ⟨0x7F10000A10, [(8, 0x1000000)], false, .any, .base, [⟨0, 32, .rc, 0⟩]⟩,
  ⟨0x7F10000B00, [(8, 0x1000000)], false, .any, .base, [⟨0, 32, .r, 0⟩]⟩,
  ⟨0x7F10000B04, [(8, 0x1000000)], false, .any, .base, [⟨0, 4, .r, 0⟩, ⟨4, 1, .r, 0⟩, ⟨8, 20, .r, 0⟩]⟩,
  ⟨0x7F10000B08, [(8, 0x1000000)], false, .any, .base, [⟨0, 32, .r, 0⟩]⟩,
  ⟨0x7F10000B10, [(8, 0x1000000), (8, 0x4)], false, .any, .base, [⟨0, 32, .rc, 0⟩]⟩]

/-- Registers of SEQ (R339). -/
def regRowsSEQ0 : List RegRow := [
  ⟨0x7F10000600, [(8, 0x1000000)], false, .any, .power, [⟨0, 2, .r, 0⟩, ⟨2, 8, .r, 0⟩, ⟨10, 1, .r, 0⟩]⟩,
  ⟨0x7F10000604, [(8, 0x1000000)], false, .any, .power, [⟨0, 32, .r, 0⟩]⟩,
  ⟨0x7F10000608, [(8, 0x1000000)], false, .any, .power, [⟨0, 32, .r, 0⟩]⟩,
  ⟨0x7F1000060C, [(8, 0x1000000)], false, .any, .power, [⟨0, 8, .r, 0⟩, ⟨8, 3, .r, 0⟩, ⟨11, 1, .r, 0⟩, ⟨12, 1, .r, 0⟩, ⟨13, 1, .w1c, 0⟩, ⟨16, 16, .r, 0⟩]⟩,
  ⟨0x7F10000610, [(8, 0x1000000)], false, .any, .power, [⟨0, 32, .r, 0⟩]⟩,
  ⟨0x7F10000614, [(8, 0x1000000)], false, .any, .power, [⟨0, 32, .r, 0⟩]⟩,
  ⟨0x7F10000618, [(8, 0x1000000)], false, .any, .power, [⟨0, 32, .r, 0⟩]⟩,
  ⟨0x7F10000620, [(8, 0x1000000), (16, 0x4)], false, .sem, .power, [⟨0, 32, .rw, 0⟩]⟩,
  ⟨0x7F10000660, [(8, 0x1000000)], false, .any, .base, [⟨0, 32, .rc, 0⟩]⟩,
  ⟨0x7F10000664, [(8, 0x1000000)], false, .any, .base, [⟨0, 32, .rc, 0⟩]⟩,
  ⟨0x7F10000668, [(8, 0x1000000)], false, .any, .base, [⟨0, 32, .rc, 0⟩]⟩,
  ⟨0x7F1000066C, [(8, 0x1000000)], false, .any, .base, [⟨0, 32, .rc, 0⟩]⟩,
  ⟨0x7F10000670, [(8, 0x1000000)], false, .any, .power, [⟨0, 10, .r, 0⟩, ⟨16, 10, .r, 0⟩]⟩]

/-- Registers of CORE (R275, R296, R497). -/
def regRowsCORE0 : List RegRow := [
  ⟨0x7F10040000, [(8, 0x1000000), (2, 0x20000)], false, .any, .power, [⟨0, 2, .r, 0⟩, ⟨2, 4, .r, 0⟩, ⟨6, 1, .r, 0⟩, ⟨7, 1, .r, 0⟩, ⟨8, 3, .r, 0⟩, ⟨11, 1, .r, 0⟩]⟩,
  ⟨0x7F10040004, [(8, 0x1000000), (2, 0x20000)], false, .seqHcMi, .power, [⟨0, 16, .rw, 0x800⟩, ⟨16, 1, .rw, 0⟩]⟩,
  ⟨0x7F10040008, [(8, 0x1000000), (2, 0x20000)], false, .any, .power, [⟨0, 32, .r, 0⟩]⟩,
  ⟨0x7F1004000C, [(8, 0x1000000), (2, 0x20000)], false, .any, .power, [⟨0, 32, .r, 0⟩]⟩,
  ⟨0x7F10040010, [(8, 0x1000000), (2, 0x20000)], false, .any, .power, [⟨0, 1, .r, 0⟩, ⟨1, 1, .r, 0⟩, ⟨2, 1, .r, 0⟩, ⟨3, 1, .r, 0⟩]⟩,
  ⟨0x7F10040020, [(8, 0x1000000), (2, 0x20000)], false, .any, .part, [⟨0, 32, .rc, 0⟩]⟩,
  ⟨0x7F10040024, [(8, 0x1000000), (2, 0x20000)], false, .any, .part, [⟨0, 32, .rc, 0⟩]⟩,
  ⟨0x7F10040028, [(8, 0x1000000), (2, 0x20000)], false, .any, .part, [⟨0, 32, .rc, 0⟩]⟩,
  ⟨0x7F1004002C, [(8, 0x1000000), (2, 0x20000)], false, .any, .part, [⟨0, 32, .rc, 0⟩]⟩,
  ⟨0x7F10040030, [(8, 0x1000000), (2, 0x20000)], false, .any, .part, [⟨0, 32, .rc, 0⟩]⟩,
  ⟨0x7F10040034, [(8, 0x1000000), (2, 0x20000)], false, .any, .part, [⟨0, 32, .rc, 0⟩]⟩,
  ⟨0x7F10040038, [(8, 0x1000000), (2, 0x20000)], false, .any, .part, [⟨0, 32, .rc, 0⟩]⟩,
  ⟨0x7F10040040, [(8, 0x1000000), (2, 0x20000)], false, .any, .part, [⟨0, 32, .rc, 0⟩]⟩,
  ⟨0x7F10040044, [(8, 0x1000000), (2, 0x20000)], false, .any, .part, [⟨0, 32, .rc, 0⟩]⟩,
  ⟨0x7F10040048, [(8, 0x1000000), (2, 0x20000)], false, .any, .part, [⟨0, 32, .rc, 0⟩]⟩,
  ⟨0x7F1004004C, [(8, 0x1000000), (2, 0x20000)], false, .any, .part, [⟨0, 32, .rc, 0⟩]⟩,
  ⟨0x7F10040050, [(8, 0x1000000), (2, 0x20000)], false, .any, .part, [⟨0, 32, .rc, 0⟩]⟩,
  ⟨0x7F10040054, [(8, 0x1000000), (2, 0x20000)], false, .any, .part, [⟨0, 32, .rc, 0⟩]⟩,
  ⟨0x7F10040058, [(8, 0x1000000), (2, 0x20000)], false, .any, .part, [⟨0, 1, .w1c, 0⟩, ⟨1, 1, .w1c, 0⟩, ⟨2, 1, .w1c, 0⟩, ⟨3, 1, .w1c, 0⟩, ⟨4, 1, .w1c, 0⟩, ⟨5, 1, .w1c, 0⟩]⟩,
  ⟨0x7F10040080, [(8, 0x1000000), (2, 0x20000)], false, .seqfwHcMi, .power, [⟨0, 12, .rw, 0x40⟩, ⟨12, 1, .rw, 0⟩]⟩,
  ⟨0x7F10040084, [(8, 0x1000000), (2, 0x20000)], false, .any, .power, [⟨0, 1, .r, 0⟩, ⟨1, 2, .r, 0⟩, ⟨3, 1, .r, 0⟩, ⟨4, 1, .w1c, 0⟩]⟩,
  ⟨0x7F10040090, [(8, 0x1000000), (2, 0x20000)], false, .any, .part, [⟨0, 32, .rc, 0⟩]⟩,
  ⟨0x7F10040094, [(8, 0x1000000), (2, 0x20000)], false, .any, .part, [⟨0, 32, .rc, 0⟩]⟩,
  ⟨0x7F10040098, [(8, 0x1000000), (2, 0x20000)], false, .any, .part, [⟨0, 32, .rc, 0⟩]⟩,
  ⟨0x7F1004009C, [(8, 0x1000000), (2, 0x20000)], false, .any, .part, [⟨0, 32, .rc, 0⟩]⟩,
  ⟨0x7F100400A0, [(8, 0x1000000), (2, 0x20000)], false, .any, .part, [⟨0, 32, .rc, 0⟩]⟩,
  ⟨0x7F100400A4, [(8, 0x1000000), (2, 0x20000)], false, .any, .part, [⟨0, 32, .rc, 0⟩]⟩]

/-- Registers of SCR (R370). -/
def regRowsSCR0 : List RegRow := [
  ⟨0x7F10080000, [(8, 0x1000000)], false, .any, .power, [⟨0, 1, .r, 0⟩, ⟨1, 1, .r, 0⟩, ⟨2, 1, .r, 1⟩, ⟨3, 1, .r, 0⟩, ⟨4, 1, .r, 0⟩, ⟨5, 6, .r, 0x30⟩, ⟨11, 6, .r, 0x30⟩]⟩,
  ⟨0x7F10080004, [(8, 0x1000000)], false, .leadMi, .power, [⟨0, 1, .wo, 0⟩, ⟨1, 1, .w1c, 0⟩, ⟨16, 16, .r, 0⟩]⟩,
  ⟨0x7F10080008, [(8, 0x1000000)], false, .any, .power, [⟨0, 26, .r, 0⟩, ⟨26, 1, .r, 0⟩, ⟨27, 1, .r, 0⟩]⟩,
  ⟨0x7F10080010, [(8, 0x1000000), (2, 0x8)], true, .any, .power, [⟨0, 64, .r, 0⟩]⟩,
  ⟨0x7F10080020, [(8, 0x1000000), (2, 0x20), (6, 0x4)], false, .any, .power, (List.range 8).map (fun i => ⟨4 * i, 4, .r, 9⟩)⟩,
  ⟨0x7F10080060, [(8, 0x1000000)], false, .any, .base, [⟨0, 32, .rc, 0⟩]⟩,
  ⟨0x7F10080064, [(8, 0x1000000)], false, .any, .base, [⟨0, 32, .rc, 0⟩]⟩,
  ⟨0x7F10080068, [(8, 0x1000000)], false, .any, .base, [⟨0, 32, .rc, 0⟩]⟩,
  ⟨0x7F1008006C, [(8, 0x1000000)], false, .any, .base, [⟨0, 32, .rc, 0⟩]⟩,
  ⟨0x7F10080070, [(8, 0x1000000)], false, .any, .base, [⟨0, 32, .rc, 0⟩]⟩,
  ⟨0x7F10080074, [(8, 0x1000000)], false, .any, .base, [⟨0, 32, .rc, 0⟩]⟩,
  ⟨0x7F10080078, [(8, 0x1000000)], false, .any, .base, [⟨0, 32, .rc, 0⟩]⟩,
  ⟨0x7F1008007C, [(8, 0x1000000)], false, .any, .base, [⟨0, 32, .rc, 0⟩]⟩,
  ⟨0x7F10080080, [(8, 0x1000000)], false, .any, .base, [⟨0, 32, .rc, 0⟩]⟩,
  ⟨0x7F10080084, [(8, 0x1000000)], false, .any, .base, [⟨0, 32, .rc, 0⟩]⟩,
  ⟨0x7F10081000, [(8, 0x1000000), (2, 0x400), (192, 0x4)], false, .any, .power, bits32 .r⟩,
  ⟨0x7F10081800, [(8, 0x1000000), (2, 0x400), (192, 0x4)], false, .any, .power, bits32 .r⟩,
  ⟨0x7F10082000, [(8, 0x1000000), (2, 0x200), (63, 0x8)], true, .any, .power, [⟨0, 16, .r, 0⟩, ⟨16, 16, .r, 0⟩, ⟨32, 8, .r, 0⟩, ⟨40, 8, .r, 0⟩, ⟨48, 16, .r, 0⟩]⟩]

/-- Registers of KV (R414). -/
def regRowsKV0 : List RegRow := [
  ⟨0x7F100C0000, [(8, 0x1000000)], false, .any, .power, [⟨0, 1, .r, 0⟩, ⟨1, 1, .r, 0⟩, ⟨2, 1, .w1c, 0⟩, ⟨3, 1, .r, 0⟩, ⟨4, 7, .r, 0⟩, ⟨11, 12, .r, 0⟩]⟩,
  ⟨0x7F100C0004, [(8, 0x1000000)], false, .any, .power, [⟨0, 24, .r, 0⟩]⟩,
  ⟨0x7F100C0008, [(8, 0x1000000)], false, .any, .power, [⟨0, 24, .r, 0⟩]⟩,
  ⟨0x7F100C000C, [(8, 0x1000000)], false, .seqfwPfHcMi, .power, [⟨0, 24, .rw, 0⟩]⟩,
  ⟨0x7F100C0010, [(8, 0x1000000)], false, .any, .power, [⟨0, 16, .rw, 0x3E8⟩]⟩,
  ⟨0x7F100C0020, [(8, 0x1000000)], false, .seqfwPfHcMi, .power, [⟨0, 4, .wo, 0⟩]⟩,
  ⟨0x7F100C0024, [(8, 0x1000000), (4, 0x4)], false, .seqfwPfHcMi, .power, [⟨0, 32, .rw, 0⟩]⟩,
  ⟨0x7F100C0034, [(8, 0x1000000)], false, .any, .power, [⟨0, 2, .r, 0⟩, ⟨2, 1, .w1c, 0⟩, ⟨16, 16, .r, 0⟩]⟩,
  ⟨0x7F100C0040, [(8, 0x1000000), (4, 0x4)], false, .any, .power, [⟨0, 32, .r, 0⟩]⟩,
  ⟨0x7F100C0050, [(8, 0x1000000)], false, .any, .power, [⟨0, 16, .r, 0⟩, ⟨16, 12, .r, 0⟩]⟩,
  ⟨0x7F100C0060, [(8, 0x1000000)], false, .any, .base, [⟨0, 32, .rc, 0⟩]⟩,
  ⟨0x7F100C0064, [(8, 0x1000000)], false, .any, .base, [⟨0, 32, .rc, 0⟩]⟩,
  ⟨0x7F100C0068, [(8, 0x1000000)], false, .any, .base, [⟨0, 32, .rc, 0⟩]⟩,
  ⟨0x7F100C006C, [(8, 0x1000000)], false, .any, .base, [⟨0, 32, .rc, 0⟩]⟩,
  ⟨0x7F100C0070, [(8, 0x1000000)], false, .any, .base, [⟨0, 32, .rc, 0⟩]⟩,
  ⟨0x7F100C0074, [(8, 0x1000000)], false, .any, .base, [⟨0, 32, .rc, 0⟩]⟩,
  ⟨0x7F100C0078, [(8, 0x1000000)], false, .any, .base, [⟨0, 32, .rc, 0⟩]⟩,
  ⟨0x7F100C007C, [(8, 0x1000000)], false, .any, .base, [⟨0, 32, .rc, 0⟩]⟩,
  ⟨0x7F100C0080, [(8, 0x1000000)], false, .any, .base, [⟨0, 32, .rc, 0⟩]⟩]

/-- Registers of MEM (R464). -/
def regRowsMEM0 : List RegRow := [
  ⟨0x7F20000000, [(32, 0x10000)], false, .any, .power, [⟨0, 3, .r, 0⟩, ⟨3, 1, .r, 0⟩, ⟨4, 1, .r, 0⟩, ⟨5, 1, .r, 0⟩, ⟨6, 1, .w1c, 0⟩, ⟨7, 1, .w1c, 0⟩]⟩,
  ⟨0x7F20000004, [(32, 0x10000)], false, .any, .power, [⟨0, 8, .r, 0⟩]⟩,
  ⟨0x7F20000008, [(32, 0x10000)], false, .any, .power, [⟨0, 20, .r, 0⟩]⟩,
  ⟨0x7F20000010, [(32, 0x10000)], true, .any, .power, [⟨0, 40, .r, 0⟩]⟩,
  ⟨0x7F20000018, [(32, 0x10000)], false, .any, .power, [⟨0, 1, .r, 0⟩, ⟨1, 1, .r, 0⟩, ⟨2, 1, .r, 0⟩, ⟨3, 1, .w1c, 0⟩]⟩,
  ⟨0x7F20000020, [(32, 0x10000)], false, .any, .base, [⟨0, 32, .rc, 0⟩]⟩,
  ⟨0x7F20000024, [(32, 0x10000)], false, .any, .base, [⟨0, 32, .rc, 0⟩]⟩,
  ⟨0x7F20000028, [(32, 0x10000)], false, .any, .base, [⟨0, 32, .rc, 0⟩]⟩,
  ⟨0x7F2000002C, [(32, 0x10000)], false, .any, .base, [⟨0, 32, .rc, 0⟩]⟩,
  ⟨0x7F20000030, [(32, 0x10000)], false, .any, .base, [⟨0, 32, .rc, 0⟩]⟩,
  ⟨0x7F20000034, [(32, 0x10000)], false, .any, .base, [⟨0, 32, .rc, 0⟩]⟩,
  ⟨0x7F20000038, [(32, 0x10000)], false, .any, .base, [⟨0, 32, .rc, 0⟩]⟩,
  ⟨0x7F2000003C, [(32, 0x10000)], false, .any, .base, [⟨0, 32, .rc, 0⟩]⟩]

/-- Registers of SASH (R443). -/
def regRowsSASH0 : List RegRow := [
  ⟨0x7F30000000, [(4, 0x100000)], false, .any, .power, [⟨0, 3, .r, 0⟩, ⟨3, 3, .r, 0⟩, ⟨6, 4, .r, 0⟩, ⟨10, 1, .r, 0⟩, ⟨11, 1, .w1c, 0⟩, ⟨12, 1, .w1c, 0⟩]⟩,
  ⟨0x7F30000004, [(4, 0x100000)], false, .pfHcMi, .power, [⟨0, 1, .wo, 0⟩, ⟨1, 1, .wo, 0⟩, ⟨2, 1, .rw, 0⟩]⟩,
  ⟨0x7F30000008, [(4, 0x100000)], false, .any, .power, [⟨0, 3, .r, 0⟩, ⟨3, 2, .r, 0⟩]⟩,
  ⟨0x7F3000000C, [(4, 0x100000)], false, .any, .power, [⟨0, 32, .r, 0⟩]⟩,
  ⟨0x7F30000010, [(4, 0x100000)], false, .any, .power, [⟨0, 32, .r, 0⟩]⟩,
  ⟨0x7F30000014, [(4, 0x100000)], false, .any, .power, [⟨0, 8, .r, 0⟩, ⟨8, 8, .r, 0⟩]⟩,
  ⟨0x7F30000018, [(4, 0x100000)], false, .any, .power, [⟨0, 24, .r, 0⟩]⟩,
  ⟨0x7F3000001C, [(4, 0x100000)], false, .any, .power, [⟨0, 6, .r, 0⟩]⟩,
  ⟨0x7F30000020, [(4, 0x100000)], false, .any, .power, [⟨0, 32, .r, 0⟩]⟩,
  ⟨0x7F30000024, [(4, 0x100000)], false, .any, .power, [⟨0, 32, .r, 0⟩]⟩,
  ⟨0x7F30000028, [(4, 0x100000)], false, .any, .power, [⟨0, 32, .r, 0⟩]⟩,
  ⟨0x7F3000002C, [(4, 0x100000)], false, .any, .power, [⟨0, 32, .r, 0⟩]⟩,
  ⟨0x7F30000040, [(4, 0x100000)], false, .any, .base, [⟨0, 32, .rc, 0⟩]⟩,
  ⟨0x7F30000044, [(4, 0x100000)], false, .any, .base, [⟨0, 32, .rc, 0⟩]⟩,
  ⟨0x7F30000048, [(4, 0x100000)], false, .any, .base, [⟨0, 32, .rc, 0⟩]⟩,
  ⟨0x7F3000004C, [(4, 0x100000)], false, .any, .base, [⟨0, 32, .rc, 0⟩]⟩,
  ⟨0x7F30000050, [(4, 0x100000)], false, .any, .base, [⟨0, 32, .rc, 0⟩]⟩,
  ⟨0x7F30000054, [(4, 0x100000)], false, .any, .base, [⟨0, 32, .rc, 0⟩]⟩,
  ⟨0x7F30000058, [(4, 0x100000)], false, .any, .base, [⟨0, 32, .rc, 0⟩]⟩,
  ⟨0x7F3000005C, [(4, 0x100000)], false, .any, .base, [⟨0, 32, .rc, 0⟩]⟩,
  ⟨0x7F30000060, [(4, 0x100000)], false, .any, .base, [⟨0, 32, .rc, 0⟩]⟩,
  ⟨0x7F30000064, [(4, 0x100000)], false, .any, .base, [⟨0, 32, .rc, 0⟩]⟩,
  ⟨0x7F30000068, [(4, 0x100000)], false, .any, .base, [⟨0, 32, .rc, 0⟩]⟩,
  ⟨0x7F3000006C, [(4, 0x100000)], false, .any, .base, [⟨0, 32, .rc, 0⟩]⟩,
  ⟨0x7F30000070, [(4, 0x100000)], false, .any, .base, [⟨0, 32, .rc, 0⟩]⟩,
  ⟨0x7F30000074, [(4, 0x100000)], false, .any, .base, [⟨0, 32, .rc, 0⟩]⟩]

/-- Registers of HOST (R587, R40). -/
def regRowsHOST0 : List RegRow := [
  ⟨0x7F40000000, [], false, .any, .power, [⟨0, 4, .r, 0⟩, ⟨4, 5, .r, 0⟩, ⟨9, 6, .r, 0⟩, ⟨15, 1, .r, 0⟩, ⟨16, 1, .r, 0⟩]⟩,
  ⟨0x7F40000010, [], true, .any, .power, [⟨0, 64, .r, 0⟩]⟩,
  ⟨0x7F40000020, [], false, .pfHc, .power, [⟨0, 8, .wo, 0⟩, ⟨16, 16, .wo, 0⟩]⟩,
  ⟨0x7F40000030, [], false, .any, .base, [⟨0, 32, .rc, 0⟩]⟩,
  ⟨0x7F40000034, [], false, .any, .base, [⟨0, 32, .rc, 0⟩]⟩,
  ⟨0x7F40000038, [], false, .any, .base, [⟨0, 32, .rc, 0⟩]⟩,
  ⟨0x7F4000003C, [], false, .any, .base, [⟨0, 32, .rc, 0⟩]⟩,
  ⟨0x7F40040000, [(32768, 0x4)], false, .pfHcMi, .power, [⟨0, 16, .rw, 0⟩, ⟨30, 1, .rw, 0⟩, ⟨31, 1, .rw, 0⟩]⟩,
  ⟨0x7F40060000, [(63, 0x800), (512, 0x4)], false, .pfHcMi, .power, [⟨0, 16, .rw, 0⟩, ⟨30, 1, .rw, 0⟩, ⟨31, 1, .rw, 0⟩]⟩,
  ⟨0x7F40080000, [], false, .any, .power, [⟨0, 16, .wo, 0⟩]⟩,
  ⟨0x7F40081000, [(16, 0x800), (512, 0x4)], false, .any, .power, bits32 .w1c⟩]

/-- Registers of QUEUE (R583). -/
def regRowsQUEUE0 : List RegRow := [
  ⟨0x7F41000000, [(16384, 0x40)], false, .queueOwner, .power, [⟨0, 8, .r, 0⟩, ⟨8, 3, .r, 0⟩, ⟨11, 3, .r, 0⟩, ⟨14, 1, .r, 0⟩, ⟨15, 1, .r, 0⟩, ⟨16, 1, .r, 0⟩]⟩,
  ⟨0x7F41000004, [(16384, 0x40)], false, .queueOwner, .power, [⟨0, 1, .rw, 0⟩, ⟨1, 5, .rw, 0⟩]⟩,
  ⟨0x7F41000008, [(16384, 0x40)], false, .queueOwner, .power, [⟨0, 2, .r, 0⟩, ⟨2, 4, .r, 0⟩, ⟨6, 1, .w1c, 0⟩, ⟨7, 18, .r, 0⟩]⟩,
  ⟨0x7F4100000C, [(16384, 0x40)], false, .queueOwner, .power, [⟨0, 11, .rw, 0⟩, ⟨11, 1, .rw, 0⟩, ⟨12, 8, .rw, 1⟩, ⟨20, 12, .rw, 0⟩]⟩,
  ⟨0x7F41000010, [(16384, 0x40)], true, .queueOwner, .power, [⟨0, 64, .rw, 0⟩]⟩,
  ⟨0x7F41000018, [(16384, 0x40)], true, .queueOwner, .power, [⟨0, 64, .rw, 0⟩]⟩,
  ⟨0x7F41000020, [(16384, 0x40)], false, .queueOwner, .power, [⟨0, 32, .rw, 0⟩]⟩,
  ⟨0x7F41000024, [(16384, 0x40)], false, .queueOwner, .power, [⟨0, 32, .rw, 0⟩]⟩,
  ⟨0x7F41000028, [(16384, 0x40)], false, .queueOwner, .power, [⟨0, 17, .r, 0⟩]⟩,
  ⟨0x7F4100002C, [(16384, 0x40)], false, .queueOwner, .power, [⟨0, 32, .rc, 0⟩]⟩,
  ⟨0x7F41000030, [(16384, 0x40)], false, .queueOwner, .power, [⟨0, 32, .rc, 0⟩]⟩]

/-- Registers of LOCK (R590). -/
def regRowsLOCK0 : List RegRow := [
  ⟨0x7F42000000, [(1024, 0x10)], false, .any, .power, [⟨0, 2, .wo, 0⟩]⟩,
  ⟨0x7F42000004, [(1024, 0x10)], false, .any, .power, [⟨0, 8, .r, 0⟩, ⟨8, 1, .r, 0⟩, ⟨16, 8, .r, 0⟩]⟩,
  ⟨0x7F42004000, [], false, .any, .power, [⟨0, 32, .rc, 0⟩]⟩]

/-- Registers of SAF (R500, R541). -/
def regRowsSAF0 : List RegRow := [
  ⟨0x7F50000000, [], false, .mi, .power, [⟨0, 2, .r, 2⟩, ⟨2, 1, .r, 0⟩, ⟨3, 1, .r, 0⟩, ⟨4, 2, .r, 0⟩, ⟨6, 2, .r, 0⟩, ⟨8, 1, .r, 0⟩, ⟨9, 1, .r, 0⟩, ⟨10, 1, .r, 0⟩, ⟨16, 16, .r, 0⟩]⟩,
  ⟨0x7F50000004, [], false, .mi, .power, [⟨0, 8, .r, 1⟩, ⟨8, 5, .r, 0⟩]⟩,
  ⟨0x7F50000008, [], false, .mi, .power, [⟨0, 32, .r, 0⟩]⟩,
  ⟨0x7F5000000C, [], false, .mi, .power, [⟨0, 32, .r, 0⟩]⟩,
  ⟨0x7F50000010, [], false, .mi, .power, [⟨0, 32, .r, 0⟩]⟩,
  ⟨0x7F50000020, [], false, .mi, .base, [⟨0, 32, .r, 0⟩]⟩,
  ⟨0x7F50000024, [], false, .mi, .base, [⟨0, 32, .r, 0⟩]⟩,
  ⟨0x7F50000028, [], false, .mi, .base, [⟨0, 32, .r, 0⟩]⟩,
  ⟨0x7F5000002C, [], false, .mi, .base, [⟨0, 32, .r, 0⟩]⟩,
  ⟨0x7F50000030, [], false, .mi, .base, [⟨0, 32, .r, 0⟩]⟩,
  ⟨0x7F50000034, [], false, .mi, .base, [⟨0, 32, .r, 0⟩]⟩,
  ⟨0x7F50000100, [], false, .mi, .power, [⟨0, 4, .r, 0⟩, ⟨4, 15, .r, 0⟩]⟩,
  ⟨0x7F50000104, [], false, .mi, .power, [⟨0, 32, .r, 0⟩]⟩,
  ⟨0x7F50000110, [], false, .mi, .base, [⟨0, 32, .r, 0⟩]⟩,
  ⟨0x7F50000114, [], false, .mi, .base, [⟨0, 32, .r, 0⟩]⟩,
  ⟨0x7F50000118, [], false, .mi, .base, [⟨0, 32, .r, 0⟩]⟩,
  ⟨0x7F5000011C, [], false, .mi, .base, [⟨0, 32, .r, 0⟩]⟩,
  ⟨0x7F50000120, [], false, .mi, .base, [⟨0, 32, .r, 0⟩]⟩,
  ⟨0x7F50000124, [], false, .mi, .base, [⟨0, 32, .r, 0⟩]⟩,
  ⟨0x7F50000128, [], false, .mi, .base, [⟨0, 32, .r, 0⟩]⟩,
  ⟨0x7F5000012C, [], false, .mi, .base, [⟨0, 32, .r, 0⟩]⟩,
  ⟨0x7F50000200, [(2, 0x20)], false, .mi, .power, [⟨0, 2, .r, 0⟩, ⟨2, 1, .r, 0⟩]⟩,
  ⟨0x7F50000204, [(2, 0x20)], false, .mi, .base, [⟨0, 32, .r, 0⟩]⟩,
  ⟨0x7F50000208, [(2, 0x20)], false, .mi, .base, [⟨0, 32, .r, 0⟩]⟩,
  ⟨0x7F5000020C, [(2, 0x20)], false, .mi, .base, [⟨0, 32, .r, 0⟩]⟩,
  ⟨0x7F50000400, [], false, .mi, .base, [⟨0, 1, .r, 0⟩, ⟨1, 2, .r, 0⟩, ⟨3, 1, .r, 0⟩, ⟨4, 1, .r, 0⟩, ⟨8, 1, .r, 0⟩, ⟨9, 2, .r, 0⟩, ⟨11, 1, .r, 0⟩, ⟨12, 1, .r, 0⟩]⟩,
  ⟨0x7F50000404, [(8, 0x4)], false, .mi, .base, [⟨0, 2, .r, 0⟩, ⟨2, 1, .r, 0⟩, ⟨3, 1, .r, 0⟩, ⟨4, 2, .r, 0⟩, ⟨6, 1, .r, 0⟩, ⟨8, 8, .r, 0⟩, ⟨16, 8, .r, 0⟩]⟩,
  ⟨0x7F50000424, [], false, .mi, .base, [⟨0, 16, .rw, 0xE10⟩, ⟨16, 1, .rw, 1⟩]⟩,
  ⟨0x7F50000428, [], false, .mi, .base, [⟨0, 4, .r, 0⟩, ⟨4, 1, .r, 0⟩, ⟨5, 1, .r, 0⟩]⟩,
  ⟨0x7F50000430, [(8, 0x4)], false, .mi, .base, [⟨0, 8, .r, 0⟩, ⟨8, 8, .r, 0⟩, ⟨16, 1, .r, 0⟩, ⟨17, 1, .r, 0⟩]⟩]

/-- Registers of PWR (R659). -/
def regRowsPWR0 : List RegRow := [
  ⟨0x7F60000000, [], false, .any, .power, [⟨0, 1, .r, 0⟩, ⟨1, 1, .w1c, 0⟩, ⟨2, 1, .r, 0⟩, ⟨3, 1, .r, 0⟩, ⟨4, 1, .r, 0⟩, ⟨5, 1, .r, 0⟩, ⟨6, 1, .r, 0⟩]⟩,
  ⟨0x7F60000004, [], false, .pfHcMi, .power, [⟨0, 9, .rw, 0⟩]⟩,
  ⟨0x7F60000008, [], false, .any, .power, [⟨0, 32, .r, 0⟩]⟩,
  ⟨0x7F6000000C, [], false, .any, .power, [⟨0, 32, .r, 0⟩]⟩,
  ⟨0x7F60000010, [], true, .any, .base, [⟨0, 64, .r, 0⟩]⟩,
  ⟨0x7F60000018, [], false, .any, .power, [⟨0, 2, .r, 0⟩, ⟨2, 2, .r, 0⟩, ⟨4, 2, .r, 0⟩]⟩,
  ⟨0x7F60000020, [], false, .any, .base, [⟨0, 32, .rc, 0⟩]⟩,
  ⟨0x7F60000024, [], false, .any, .base, [⟨0, 32, .rc, 0⟩]⟩,
  ⟨0x7F60000028, [], false, .any, .base, [⟨0, 32, .rc, 0⟩]⟩,
  ⟨0x7F6000002C, [], false, .any, .base, [⟨0, 32, .rc, 0⟩]⟩,
  ⟨0x7F60000100, [(64, 0x4)], false, .any, .power, [⟨0, 8, .r, 0⟩, ⟨8, 1, .r, 0⟩]⟩,
  ⟨0x7F60001000, [(8, 0x1000)], false, .any, .power, [⟨0, 3, .r, 0⟩, ⟨3, 3, .r, 0⟩, ⟨6, 3, .r, 0⟩, ⟨9, 1, .r, 0⟩, ⟨10, 1, .r, 0⟩, ⟨11, 1, .r, 0⟩, ⟨12, 6, .r, 0⟩, ⟨18, 1, .r, 0⟩, ⟨19, 1, .r, 0⟩]⟩,
  ⟨0x7F60001004, [(8, 0x1000)], false, .any, .power, [⟨0, 10, .r, 0⟩, ⟨16, 10, .r, 0⟩]⟩,
  ⟨0x7F60001008, [(8, 0x1000)], false, .any, .power, [⟨0, 16, .r, 0⟩]⟩,
  ⟨0x7F6000100C, [(8, 0x1000)], false, .any, .power, [⟨0, 8, .r, 0⟩]⟩,
  ⟨0x7F60001010, [(8, 0x1000)], true, .any, .base, [⟨0, 64, .r, 0⟩]⟩,
  ⟨0x7F60001018, [(8, 0x1000)], true, .any, .base, [⟨0, 64, .r, 0⟩]⟩,
  ⟨0x7F60001020, [(8, 0x1000)], true, .any, .base, [⟨0, 64, .r, 0⟩]⟩,
  ⟨0x7F60001028, [(8, 0x1000)], true, .any, .base, [⟨0, 64, .r, 0⟩]⟩,
  ⟨0x7F60001800, [(8, 0x1000), (256, 0x8)], true, .any, .base, [⟨0, 64, .r, 0⟩]⟩]

/-- Registers of PTN (R544). -/
def regRowsPTN0 : List RegRow := [
  ⟨0x7F70000000, [], false, .any, .power, [⟨0, 2, .r, 0⟩, ⟨2, 1, .r, 0⟩, ⟨3, 1, .r, 0⟩, ⟨16, 16, .r, 0⟩]⟩,
  ⟨0x7F70000010, [], false, .any, .base, [⟨0, 32, .r, 0⟩]⟩,
  ⟨0x7F70000014, [], false, .any, .base, [⟨0, 32, .r, 0⟩]⟩,
  ⟨0x7F70000018, [], false, .any, .base, [⟨0, 32, .r, 0⟩]⟩,
  ⟨0x7F7000001C, [], false, .any, .base, [⟨0, 32, .r, 0⟩]⟩]

/-- Registers of PTNSEQ (R544, R339). -/
def regRowsPTNSEQ0 : List RegRow := [
  ⟨0x7F70000600, [], false, .any, .power, [⟨0, 2, .r, 0⟩, ⟨2, 8, .r, 0⟩, ⟨10, 1, .r, 0⟩]⟩,
  ⟨0x7F70000604, [], false, .any, .power, [⟨0, 32, .r, 0⟩]⟩,
  ⟨0x7F70000608, [], false, .any, .power, [⟨0, 32, .r, 0⟩]⟩,
  ⟨0x7F7000060C, [], false, .any, .power, [⟨0, 8, .r, 0⟩, ⟨8, 3, .r, 0⟩, ⟨11, 1, .r, 0⟩, ⟨12, 1, .r, 0⟩, ⟨13, 1, .w1c, 0⟩, ⟨16, 16, .r, 0⟩]⟩,
  ⟨0x7F70000610, [], false, .any, .power, [⟨0, 32, .r, 0⟩]⟩,
  ⟨0x7F70000614, [], false, .any, .power, [⟨0, 32, .r, 0⟩]⟩,
  ⟨0x7F70000618, [], false, .any, .power, [⟨0, 32, .r, 0⟩]⟩,
  ⟨0x7F70000620, [(16, 0x4)], false, .sem, .power, [⟨0, 32, .rw, 0⟩]⟩,
  ⟨0x7F70000660, [], false, .any, .base, [⟨0, 32, .rc, 0⟩]⟩,
  ⟨0x7F70000664, [], false, .any, .base, [⟨0, 32, .rc, 0⟩]⟩,
  ⟨0x7F70000668, [], false, .any, .base, [⟨0, 32, .rc, 0⟩]⟩,
  ⟨0x7F7000066C, [], false, .any, .base, [⟨0, 32, .rc, 0⟩]⟩,
  ⟨0x7F70000670, [], false, .any, .power, [⟨0, 10, .r, 0⟩, ⟨16, 10, .r, 0⟩]⟩]

/-- Every register of the part. -/
def regTable : List RegRow :=
  regRowsPAT0 ++ regRowsTIME0 ++ regRowsING0 ++ regRowsISP0 ++ regRowsPART0 ++ regRowsPART1 ++ regRowsSEQ0 ++ regRowsCORE0 ++ regRowsSCR0 ++ regRowsKV0 ++ regRowsMEM0 ++ regRowsSASH0 ++ regRowsHOST0 ++ regRowsQUEUE0 ++ regRowsLOCK0 ++ regRowsSAF0 ++ regRowsPWR0 ++ regRowsPTN0 ++ regRowsPTNSEQ0

end Sys2Proof.Machine
end

