-- ==== Sys2Proof/Machine/RegAccess.lean ====
section
/-!
DEFINITION. Reading registers through the table (R12 to R17): which row an address hits, the value a read returns and what the
read changes.
-/

namespace Sys2Proof.Machine

/-- The address of the repetition of a row that an offset falls in, and what is left of the offset. -/
def rowStep : List (Nat × Nat) → Nat → Nat → Nat × Nat
  | [], at0, off => (at0, off)
  | (n, s) :: r, at0, off =>
    let i := min (off / s) (n - 1)
    rowStep r (at0 + i * s) (off - i * s)

/-- The address of a row's register that holds a device address, if it does: that address or, for a pair, 4 below it. -/
def RegRow.hit (r : RegRow) (a : Nat) : Option Nat :=
  if a < r.base then none
  else
    let (b, off) := rowStep r.dims r.base (a - r.base)
    if off = 0 ∨ (r.pair ∧ off = 4) then some b else none

/-- Whether an address lies in registers of CORE[1] on the 8 × 1 shape, which behave as undefined (R36, R370). -/
def noSuchCore (m : Mach) (a : Nat) : Bool :=
  decide (coresPer m = 1) && decide (0x7F10000000 ≤ a) && decide (a < 0x7F18000000) &&
    (let o := a % 0x1000000
     (decide (0x60000 ≤ o) && decide (o < 0x80000)) ||
     (decide (0x80000 ≤ o) && decide (o < 0x90000) &&
       ((decide (0x80018 ≤ o) && decide (o < 0x80020)) || (decide (0x80040 ≤ o) && decide (o < 0x80060)) ||
        (decide (0x81400 ≤ o) && decide (o < 0x81800)) || (decide (0x81C00 ≤ o) && decide (o < 0x82000)) ||
        (decide (0x82200 ≤ o) && decide (o < 0x82400)))))

/-- The row and the register address that an aligned device address names. -/
def regFind (m : Mach) (a : Nat) : Option (RegRow × Nat) :=
  if noSuchCore m a then none else regTable.findSome? (fun r => (r.hit a).map (fun b => (r, b)))

/-- The handle of a field of a row at a register address. -/
def FieldSpec.at (f : FieldSpec) (b : Nat) : Fld := ⟨b, f.lo, f.width, f.reset⟩

/-- What a read of a whole row returns (R14, R16): `wo` fields and reserved bits read zero. -/
def rowValue (m : Mach) (r : RegRow) (b : Nat) : Nat :=
  (r.fields.map (fun f => if f.access = .wo then 0 else rd m (f.at b) * 2 ^ f.lo)).sum

/-- Key of a requester's latch or holding value of a pair (R17). -/
def latchKey (w : Requester) (b : Nat) : Nat := b * 128 + latchNo w

/-- The time R103 plans for the next partition tick: behind the grid tick that ends the turn, or the one expected. -/
def plannedTick (m : Mach) (p : Nat) : Nat :=
  let t := mget m.turns p
  let g := (t.gticks.head?.map (·.1)).getD (t.grid + periodNs m)
  if !t.begun then g
  else
    let lag := t.tick - t.grid
    g + lag - min (shortenNs m) lag + t.ext

/-- An instant that the counter has stepped to or over: the counter's resolution moves nothing (R113). -/
def atTick (m : Mach) (t : Nat) : Nat := if now m ≤ t + 2 then t else now m

/-- The part with the fields of a register that time alone moves as they stand now: MEM_CAL_AGE, TC_HB_STATUS.AGE, SCR_FORENSIC.HOLD_MS
of the current hold, and TC_TURN_STATUS.LATE. -/
def timed (b : Nat) (m : Mach) : Mach :=
  let p := (b - 0x7F10000000) / 0x1000000
  if 0x7F10000000 ≤ b ∧ p < 8 then
    let r := mget m.recov p
    let t := mget m.turns p
    match b % 0x1000000 with
    | 0x400 => wrb (Reg.TC_TURN_STATUS_LATE p) (t.begun && !t.lcDone && decide (plannedTick m p < now m)) m
    | 0x904 => if r.hbLast = 0 then m else wr (Reg.TC_HB_STATUS_AGE p) (min 511 ((now m - r.hbLast) / 1000)) m
    | 0x80004 => match r.forensic with
      | some t0 => wr (Reg.SCR_FORENSIC_HOLD_MS p) (min 65535 ((now m - t0) / 1000000)) m
      | none => m
    | _ => m
  else if 0x7F20000008 ≤ b ∧ b < 0x7F20200000 ∧ b % 0x10000 = 8 then
    let ch := (b - 0x7F20000000) / 0x10000
    wr (Reg.MEM_CAL_AGE ch) (min 0xFFFFF ((now m - (mget m.chans ch).calAt) / 1000000)) m
  else m

/-- What a read of a register returns to a requester (R13, R14, R17). -/
def regValue (m : Mach) (w : Requester) (a : Nat) : Nat :=
  match regFind m a with
  | none => 0
  | some (r, b) =>
    let v := rowValue (timed b m) r b
    if !r.pair then v
    else if a = b then v % 2 ^ 32
    else (lookup m.latches (latchKey w b)).getD (v / 2 ^ 32)

/-- What a read of a register changes: an `rc` field returns to its reset value (R14); a read of a `_LO` fills the
requester's latch, and one of a `_HI` empties it (R17). -/
def regReadAct (w : Requester) (a : Nat) (m : Mach) : Mach :=
  match regFind m a with
  | none => m
  | some (r, b) =>
    if r.pair then
      let k := latchKey w b
      if a = b then { m with latches := insertKey (eraseKey m.latches k) k (rowValue m r b / 2 ^ 32) }
      else { m with latches := eraseKey m.latches k }
    else forEach r.fields (fun f m => if f.access = .rc then clr (f.at b) m else m) m

end Sys2Proof.Machine
end

