-- ==== Sys2Proof/Machine/Operands.lean ====
section
/-!
DEFINITION. What every instruction of a sequencer works on (R303 to R309): its registers, its word's fields, the operand
forms, and whether it stands at that word.
-/

namespace Sys2Proof.Machine

/-! ### Registers and words (R303, R304, R306) -/

/-- Value of s register `i`; s0 reads zero. -/
def sReg (m : Mach) (q i : Nat) : Nat := (getD 0 (mget m.seqs q).s i).toNat

/-- Write s register `i`, modulo 2^64; a write of s0 is ignored. -/
def setS (q i v : Nat) (m : Mach) : Mach :=
  if i = 0 then m else modSeq q (fun x => { x with s := setD 0 x.s i (BitVec.ofNat 64 v) }) m

def tReg (m : Mach) (q i : Nat) : TDesc := getD 0 (mget m.seqs q).t i
def setT (q i : Nat) (d : TDesc) (m : Mach) : Mach := modSeq q (fun x => { x with t := setD 0 x.t i d }) m

/-- The instruction word, or 8 bytes of constants, at an instruction-memory address of a sequencer. -/
def imemWord (m : Mach) (q pc : Nat) : Nat := leNat ((List.range 8).map (fun i => getD 0 m.imem (q * 2 ^ 20 + pc + i)))

def seqPc (m : Mach) (q : Nat) : Nat := rd m (Reg.TC_SEQ_PC q)

/-- Whether a sequencer runs a routine and may execute its next instruction: it waits for nothing, no END stands, no kill and
no switch is under way (R304, R336, R602, R612). -/
def seqRuns (m : Mach) (q : Nat) : Bool :=
  let x := mget m.seqs q
  rd m (Reg.TC_SEQ_STATUS_STATE q) == 1 && x.run.isSome && x.waiting.isNone && !x.ended &&
    (q == 8 || (((mget m.recov q).killing.isNone) && (mget m.recov q).switch == .none))

/-- Whether the next instruction of a sequencer has this opcode and these low 56 bits. -/
def seqAt (m : Mach) (q op w : Nat) : Bool := seqRuns m q && imemWord m q (seqPc m q) == op * 2 ^ 56 + w

/-- The next instruction in order (R304), counted as executed. -/
def seqNext (q : Nat) (m : Mach) : Mach :=
  m |> wr (Reg.TC_SEQ_PC q) (seqPc m q + 8) |> inc (Reg.TC_SEQ_CNT_INSTR q)

/-- The sequencer's instruction raises an exception. -/
def seqExc (q op code detail : Nat) (m : Mach) : Mach := raiseExc (seqSite m q op) code detail [] m

/-- Exception codes of R335 that the sequencer raises. -/
def Exc.illegal : Nat := 1
def Exc.reserved : Nat := 2
def Exc.branch : Nat := 3
def Exc.const : Nat := 4
def Exc.scalarBounds : Nat := 5
def Exc.scalarPoison : Nat := 6
def Exc.lock : Nat := 0x1B
def Exc.result : Nat := 0x1C
def Exc.grid : Nat := 0x1D
def Exc.trap : Nat := 0x1E
def Exc.fetch : Nat := 0x1F

/-- What an instruction does: nothing yet, where it must wait, or its effect. -/
abbrev SeqTry := Nat → Nat → Mach → Option Mach

/-- Execute the instruction of opcode `op` and low bits `w`, where the sequencer stands at it; one that must wait is tried
again at SEQ_WAIT_SATISFIED (R304, R305). -/
def seqCmd (q op w : Nat) (f : SeqTry) (m : Mach) : Mach :=
  if !seqAt m q op w then m
  else match f q w m with
    | some m => m
    | none => modSeq q (fun x => { x with waiting := some (op, w), waitAt := now m }) m

/-- An instruction whose reserved bits, those set in `mask`, must be zero (R306). -/
def guarded (op mask : Nat) (f : SeqTry) : SeqTry := fun q w m =>
  if w &&& mask ≠ 0 then some (seqExc q op Exc.reserved 0 m) else f q w m

/-- Ones in bits `lo` to `lo + n - 1`. -/
def bitMask (lo n : Nat) : Nat := (2 ^ n - 1) * 2 ^ lo

/-- Fields rd, rs1, rs2 and imm of the forms of R307. -/
def wRd (w : Nat) : Nat := bitsAt w 51 5
def wRs1 (w : Nat) : Nat := bitsAt w 46 5
def wRs2 (w : Nat) : Nat := bitsAt w 41 5
def wImm (w : Nat) : Int := signedOf 32 w

/-- A register and the signed immediate, modulo 2^64. -/
def regImm (m : Mach) (q w : Nat) : Nat := fieldOf 64 ((sReg m q (wRs1 w) : Int) + wImm w)

/-! ### Operations of the ALU instructions (R307) -/

/-- An operation on two 64-bit values. -/
abbrev Alu := BitVec 64 → BitVec 64 → BitVec 64

def aluMin : Alu := fun a b => if a.slt b then a else b
def aluMax : Alu := fun a b => if a.slt b then b else a
def aluSlt : Alu := fun a b => if a.slt b then 1 else 0
def aluSltu : Alu := fun a b => if a.ult b then 1 else 0
def aluSll : Alu := fun a b => a <<< (b.toNat % 64)
def aluSrl : Alu := fun a b => a >>> (b.toNat % 64)
def aluSra : Alu := fun a b => a.sshiftRight (b.toNat % 64)

end Sys2Proof.Machine
end

