-- ==== Sys2Proof/Machine/Sequencer.lean ====
section
/-!
DEFINITION. The sequencer's instructions (R303 to R309, R314, R315, R327 to R334, R337, R338) and their dispatch to the engines.
A command names the sequencer and bits [55:0] of the word; it acts where the sequencer stands at that word.
-/

namespace Sys2Proof.Machine

/-! ### ALU instructions (R307) -/

/-- R form: rd ← rs1 op rs2. -/
def aluR (op : Nat) (f : Alu) : SeqTry := guarded op (bitMask 0 41) (fun q w m =>
  some (m |> setS q (wRd w) (f (BitVec.ofNat 64 (sReg m q (wRs1 w))) (BitVec.ofNat 64 (sReg m q (wRs2 w)))).toNat |> seqNext q))

/-- I form: rd ← rs1 op imm; `mask` adds to the form's reserved bits. -/
def aluI (op mask : Nat) (f : Alu) : SeqTry := guarded op (bitMask 32 14 + mask) (fun q w m =>
  some (m |> setS q (wRd w) (f (BitVec.ofNat 64 (sReg m q (wRs1 w))) (BitVec.ofInt 64 (wImm w))).toNat |> seqNext q))

/-- L form: rd ← imm. -/
def aluL : SeqTry := guarded 0x17 (bitMask 48 3) (fun q w m =>
  some (m |> setS q (wRd w) (fieldOf 64 (signedOf 48 w)) |> seqNext q))

def execNop (q : Fin 9) (w : BitVec 56) (s : State) : Out :=
  s.run (seqCmd q 0x00 w.toNat (guarded 0x00 (bitMask 0 56) (fun q _ m => some (seqNext q m))))
def execAdd (q : Fin 9) (w : BitVec 56) (s : State) : Out := s.run (seqCmd q 0x01 w.toNat (aluR 0x01 (· + ·)))
def execSub (q : Fin 9) (w : BitVec 56) (s : State) : Out := s.run (seqCmd q 0x02 w.toNat (aluR 0x02 (· - ·)))
def execAnd (q : Fin 9) (w : BitVec 56) (s : State) : Out := s.run (seqCmd q 0x03 w.toNat (aluR 0x03 (· &&& ·)))
def execOr (q : Fin 9) (w : BitVec 56) (s : State) : Out := s.run (seqCmd q 0x04 w.toNat (aluR 0x04 (· ||| ·)))
def execXor (q : Fin 9) (w : BitVec 56) (s : State) : Out := s.run (seqCmd q 0x05 w.toNat (aluR 0x05 (· ^^^ ·)))
def execSll (q : Fin 9) (w : BitVec 56) (s : State) : Out := s.run (seqCmd q 0x06 w.toNat (aluR 0x06 aluSll))
def execSrl (q : Fin 9) (w : BitVec 56) (s : State) : Out := s.run (seqCmd q 0x07 w.toNat (aluR 0x07 aluSrl))
def execSra (q : Fin 9) (w : BitVec 56) (s : State) : Out := s.run (seqCmd q 0x08 w.toNat (aluR 0x08 aluSra))
def execMul (q : Fin 9) (w : BitVec 56) (s : State) : Out := s.run (seqCmd q 0x09 w.toNat (aluR 0x09 (· * ·)))
def execMin (q : Fin 9) (w : BitVec 56) (s : State) : Out := s.run (seqCmd q 0x0A w.toNat (aluR 0x0A aluMin))
def execMax (q : Fin 9) (w : BitVec 56) (s : State) : Out := s.run (seqCmd q 0x0B w.toNat (aluR 0x0B aluMax))
def execSlt (q : Fin 9) (w : BitVec 56) (s : State) : Out := s.run (seqCmd q 0x0C w.toNat (aluR 0x0C aluSlt))
def execSltu (q : Fin 9) (w : BitVec 56) (s : State) : Out := s.run (seqCmd q 0x0D w.toNat (aluR 0x0D aluSltu))
def execAddi (q : Fin 9) (w : BitVec 56) (s : State) : Out := s.run (seqCmd q 0x10 w.toNat (aluI 0x10 0 (· + ·)))
def execAndi (q : Fin 9) (w : BitVec 56) (s : State) : Out := s.run (seqCmd q 0x11 w.toNat (aluI 0x11 0 (· &&& ·)))
def execOri (q : Fin 9) (w : BitVec 56) (s : State) : Out := s.run (seqCmd q 0x12 w.toNat (aluI 0x12 0 (· ||| ·)))
def execXori (q : Fin 9) (w : BitVec 56) (s : State) : Out := s.run (seqCmd q 0x13 w.toNat (aluI 0x13 0 (· ^^^ ·)))
def execSlli (q : Fin 9) (w : BitVec 56) (s : State) : Out :=
  s.run (seqCmd q 0x14 w.toNat (aluI 0x14 (bitMask 6 26) aluSll))
def execSrli (q : Fin 9) (w : BitVec 56) (s : State) : Out :=
  s.run (seqCmd q 0x15 w.toNat (aluI 0x15 (bitMask 6 26) aluSrl))
def execSrai (q : Fin 9) (w : BitVec 56) (s : State) : Out :=
  s.run (seqCmd q 0x16 w.toNat (aluI 0x16 (bitMask 6 26) aluSra))
def execLi (q : Fin 9) (w : BitVec 56) (s : State) : Out := s.run (seqCmd q 0x17 w.toNat aluL)

/-- Opcodes that R306 reserves. -/
def opReserved (op : Nat) : Bool :=
  op == 0x0E || op == 0x0F || (decide (0x1C ≤ op) && decide (op ≤ 0x1F)) || (decide (0x2C ≤ op) && decide (op ≤ 0x2F)) ||
    op == 0x31 || (decide (0x34 ≤ op) && decide (op ≤ 0x3F)) || (decide (0x41 ≤ op) && decide (op ≤ 0x47)) ||
    (decide (0x4C ≤ op) && decide (op ≤ 0x4F)) || (decide (0x55 ≤ op) && decide (op ≤ 0x5F)) ||
    (decide (0x61 ≤ op) && decide (op ≤ 0x67)) || (decide (0x6B ≤ op) && decide (op ≤ 0x6F)) || op == 0x76 || op == 0x77 ||
    decide (0x7F ≤ op)

/-- Instructions that the Partner engine does not have (R337), and the one that only it has: an altered word raises
ILLEGAL_OPCODE (DEDUCED, notes/assumptions/14.md). -/
def opForeign (q op : Nat) : Bool :=
  if q = 8 then op == 0x60 || (decide (0x68 ≤ op) && decide (op ≤ 0x6A)) || (decide (0x73 ≤ op) && decide (op ≤ 0x75)) ||
    (decide (0x78 ≤ op) && decide (op ≤ 0x7C) && op != 0x7B)
  else op == 0x7B

/-- A reserved opcode (R306), an opcode that the sequencer does not have, or an instruction word with an uncorrectable error
(R335). -/
def execIllegalOpcode (q : Fin 9) (op : BitVec 8) (w : BitVec 56) (upset : Bool) (s : State) : Out := s.run (fun m =>
  if upset then (if seqRuns m q then seqExc q (imemWord m q (seqPc m q) / 2 ^ 56) Exc.fetch 0 m else m)
  else if opReserved op.toNat || opForeign q op.toNat then
    seqCmd q op.toNat w.toNat (fun q _ m => some (seqExc q op.toNat Exc.illegal 0 m)) m
  else m)

/-! ### LDS, STS, MFR, MTR (R308, R356, R598) -/

/-- The PSA of LDS and STS: a multiple of 8 in scratch that the routine may address. -/
def scalarOk (m : Mach) (q a : Nat) : Bool := a % 8 == 0 && decide (a < 2 ^ 26) && mayTouch m q (a / 4096)

/-- A read of a damaged word of the Partner SRAM is a Partner fault (R518). -/
def sramFault (m : Mach) : Mach := partnerFault 2 (pathGroup m 15) m

def ldsTry : SeqTry := guarded 0x18 (bitMask 32 14) (fun q w m =>
  let a := regImm m q w
  if !scalarOk m q a then some (seqExc q 0x18 Exc.scalarBounds 0 m)
  else if !ready m q (a / 4096) then none
  else if q = 8 then
    if damage m (ptnAddr a) 8 ≠ 0 then some (sramFault m)
    else some (m |> setS q (wRd w) (memLe m (ptnAddr a) 8) |> seqNext q)
  else
    let x := seqSite m q 0x18
    let (v, m) := scrVerdict { routineId := x.rid, instrAddr := x.pc, opcode := x.op, tag := rd m (Reg.TC_SEQ_ITAG q) } q false a 8 m
    if v ≠ 0 then some (seqExc q 0x18 Exc.scalarPoison 0 m)
    else some (m |> setS q (wRd w) (leNat (scrBytesAt m q a 8)) |> seqNext q))

def stsTry : SeqTry := guarded 0x19 (bitMask 32 14) (fun q w m =>
  let a := regImm m q w
  if !scalarOk m q a then some (seqExc q 0x19 Exc.scalarBounds 0 m)
  else if !granFree m q (a / 4096) then none
  else
    let bs := leBytes 8 (sReg m q (wRd w))
    some (m |> (if q = 8 then writeMem (ptnAddr a) bs else scrWrite q a bs) |> seqNext q))

/-- Offsets of MFR that R665 does not count: values that no clock chooses. -/
def mfrFixed (o : Nat) : Bool :=
  o == 0x804 || o == 0x808 || o == 0x80C || o == 0x810 || o == 0x814 || o == 0x818 || (decide (0x620 ≤ o) && decide (o < 0x660)) ||
    o == 0x618 || o == 0x608 || o == 0x404 || o == 0x410

/-- Device address that an offset of MFR or MTR reaches: PART[p], or the sequencer registers of PTN (R308, R337). -/
def seqRegAddr (q : Nat) (o : Int) : Option Nat :=
  if o < 0 ∨ o % 4 ≠ 0 then none
  else if q = 8 then (if 0x600 ≤ o ∧ o < 0x700 then some (0x7F70000000 + o.toNat) else none)
  else if o < 0x100000 then some (0x7F10000000 + q * 0x1000000 + o.toNat) else none

def execLds (q : Fin 9) (w : BitVec 56) (s : State) : Out := s.run (seqCmd q 0x18 w.toNat ldsTry)
def execSts (q : Fin 9) (w : BitVec 56) (s : State) : Out := s.run (seqCmd q 0x19 w.toNat stsTry)

def execMfr (q : Fin 9) (w : BitVec 56) (s : State) : Out := s.run (seqCmd q 0x1A w.toNat
  (guarded 0x1A (bitMask 32 14) (fun q w m =>
    match seqRegAddr q (wImm w) with
    | none => some (seqExc q 0x1A Exc.scalarBounds 0 m)
    | some a =>
      let m' := m |> setS q (wRd w) (regValue m (.seq q) a) |> regReadAct (.seq q) a
      let m' := if q < 8 ∧ !mfrFixed (wImm w).toNat then detEvent q 1 (some (seqPc m q)) m' else m'
      some (seqNext q m'))))

def execMtr (q : Fin 9) (w : BitVec 56) (s : State) : Out := s.run (seqCmd q 0x1B w.toNat
  (guarded 0x1B (bitMask 32 14) (fun q w m =>
    let o := wImm w
    let v := sReg m q (wRd w) % 2 ^ 32
    let core (k : Nat) (m : Mach) : Mach := m |> wr (Reg.TC_CORE_CTRL_IDLE_HOLD q k) v |> wr (Reg.TC_CORE_CTRL_HOLD_WARM q k) (v / 2 ^ 16)
    if 0x620 ≤ o ∧ o < 0x660 ∧ o % 4 = 0 then
      let n := (o.toNat - 0x620) / 4
      some (m |> whenB (n != 0) (wr (Reg.TC_SEQ_SEM q n) v) |> seqNext q)
    else if q < 8 ∧ o = 0x40004 then some (m |> core 0 |> seqNext q)
    else if q < 8 ∧ o = 0x60004 ∧ coresPer m = 2 then some (m |> core 1 |> seqNext q)
    else some (seqExc q 0x1B Exc.scalarBounds 0 m))))

/-! ### Branches and control (R307, R308) -/

/-- Jump, or BRANCH_RANGE where the target leaves the routine's code or is no multiple of 8. -/
def seqJump (q op target : Nat) (link : Mach → Mach) (m : Mach) : Mach :=
  let r := ((mget m.seqs q).run).getD {}
  if r.base ≤ target ∧ target < r.base + r.code ∧ target % 8 = 0 then
    m |> link |> wr (Reg.TC_SEQ_PC q) target |> inc (Reg.TC_SEQ_CNT_INSTR q)
  else seqExc q op Exc.branch 0 m

/-- pc plus the signed offset, modulo 2^64. -/
def pcPlus (m : Mach) (q w : Nat) : Nat := fieldOf 64 ((seqPc m q : Int) + wImm w)

def branch (op : Nat) (c : BitVec 64 → BitVec 64 → Bool) : SeqTry := guarded op (bitMask 32 14) (fun q w m =>
  if c (BitVec.ofNat 64 (sReg m q (wRd w))) (BitVec.ofNat 64 (sReg m q (wRs1 w))) then some (seqJump q op (pcPlus m q w) id m)
  else some (seqNext q m))

def execBeq (q : Fin 9) (w : BitVec 56) (s : State) : Out := s.run (seqCmd q 0x20 w.toNat (branch 0x20 (· == ·)))
def execBne (q : Fin 9) (w : BitVec 56) (s : State) : Out := s.run (seqCmd q 0x21 w.toNat (branch 0x21 (· != ·)))
def execBlt (q : Fin 9) (w : BitVec 56) (s : State) : Out := s.run (seqCmd q 0x22 w.toNat (branch 0x22 BitVec.slt))
def execBge (q : Fin 9) (w : BitVec 56) (s : State) : Out :=
  s.run (seqCmd q 0x23 w.toNat (branch 0x23 (fun a b => !a.slt b)))
def execBltu (q : Fin 9) (w : BitVec 56) (s : State) : Out := s.run (seqCmd q 0x24 w.toNat (branch 0x24 BitVec.ult))
def execBgeu (q : Fin 9) (w : BitVec 56) (s : State) : Out :=
  s.run (seqCmd q 0x25 w.toNat (branch 0x25 (fun a b => !a.ult b)))

def execJal (q : Fin 9) (w : BitVec 56) (s : State) : Out := s.run (seqCmd q 0x26 w.toNat
  (guarded 0x26 (bitMask 32 19) (fun q w m => some (seqJump q 0x26 (pcPlus m q w) (setS q (wRd w) (seqPc m q + 8)) m))))
def execJalr (q : Fin 9) (w : BitVec 56) (s : State) : Out := s.run (seqCmd q 0x27 w.toNat
  (guarded 0x27 (bitMask 32 14) (fun q w m => some (seqJump q 0x27 (regImm m q w) (setS q (wRd w) (seqPc m q + 8)) m))))

/-- END: the routine ends when every engine queue has drained (ROUTINE_END). -/
def execEndRoutine (q : Fin 9) (w : BitVec 56) (s : State) : Out := s.run (seqCmd q 0x28 w.toNat
  (guarded 0x28 (bitMask 0 56) (fun q _ m => some (m |> modSeq q (fun x => { x with ended := true }) |> seqNext q))))
def execTrap (q : Fin 9) (w : BitVec 56) (s : State) : Out := s.run (seqCmd q 0x29 w.toNat
  (guarded 0x29 (bitMask 16 40) (fun q w m => some (seqExc q 0x29 Exc.trap (w % 2 ^ 16) m))))

def execTimeRead (q : Fin 9) (w : BitVec 56) (s : State) : Out := s.run (seqCmd q 0x2A w.toNat
  (guarded 0x2A (bitMask 32 19) (fun q w m =>
    let n := w % 2 ^ 32
    let v := if n = 0 then now m
      else if n = 1 then (if q = 8 then gridTurn m else rd m (Reg.TC_TURN_NUMBER q))
      else (if q = 8 then rd m Reg.TIME_TURN_TICK else (mget m.turns q).tick)
    if 2 < n then some (seqExc q 0x2A Exc.reserved 0 m)
    else some (m |> setS q (wRd w) v |> whenB (n == 0 && q != 8) (detEvent q 1 (some (seqPc m q))) |> seqNext q))))

def execItag (q : Fin 9) (w : BitVec 56) (s : State) : Out := s.run (seqCmd q 0x2B w.toNat
  (guarded 0x2B (bitMask 51 5 + bitMask 0 46) (fun q w m =>
    some (m |> wr (Reg.TC_SEQ_ITAG q) (sReg m q (wRs1 w)) |> seqNext q))))

/-! ### Descriptors (R309) -/

/-- The constants of the routine that runs, 64 bytes at an offset. -/
def constDesc (m : Mach) (q off : Nat) : TDesc :=
  let r := ((mget m.seqs q).run).getD {}
  BitVec.ofNat 512 (leNat ((List.range 64).map (fun i => getD 0 m.imem (q * 2 ^ 20 + r.base + r.code + off + i))))

/-- TLD; `upset`: a constant word has an uncorrectable error (R335). -/
def execTld (q : Fin 9) (w : BitVec 56) (upset : Bool) (s : State) : Out := s.run (seqCmd q 0x30 w.toNat
  (guarded 0x30 (bitMask 32 20) (fun q w m =>
    let off := w % 2 ^ 32
    if off % 64 ≠ 0 ∨ (((mget m.seqs q).run.map (·.const)).getD 0) ≤ off then some (seqExc q 0x30 Exc.const 0 m)
    else if upset then some (seqExc q 0x30 Exc.fetch 0 m)
    else some (m |> setT q (bitsAt w 52 4) (constDesc m q off) |> seqNext q))))

/-- A descriptor with 32-bit word `i` replaced. -/
def setDWord (d : TDesc) (i v : Nat) : TDesc :=
  BitVec.ofNat 512 (d.toNat - bitsAt d.toNat (32 * i) 32 * 2 ^ (32 * i) + v % 2 ^ 32 * 2 ^ (32 * i))

/-- TSETW and TADDW: `keep` adds to what the word holds. -/
def descWord (op : Nat) (keep : Bool) : SeqTry := guarded op (bitMask 32 11) (fun q w m =>
  let t := bitsAt w 52 4
  let i := bitsAt w 48 4
  let d := tReg m q t
  let v : Int := (sReg m q (bitsAt w 43 5) : Int) + wImm w + (if keep then (bitsAt d.toNat (32 * i) 32 : Int) else 0)
  some (m |> setT q t (setDWord d i (fieldOf 32 v)) |> seqNext q))

def execTsetw (q : Fin 9) (w : BitVec 56) (s : State) : Out := s.run (seqCmd q 0x32 w.toNat (descWord 0x32 false))
def execTaddw (q : Fin 9) (w : BitVec 56) (s : State) : Out := s.run (seqCmd q 0x33 w.toNat (descWord 0x33 true))

/-! ### Leases and ready bits (R314, R315, R351, R352) -/

/-- Scratch bytes that an instruction in a queue or in flight uses. -/
def opRanges (o : EngOp) : List (Int × Nat) :=
  let scr (d : TDesc) (b : Nat) : List (Int × Nat) := if dKind d = 1 ∨ dKind d = 2 ∨ dKind d = 4 then allRanges d b else []
  if o.opcode = 0x40 then
    (List.range (min (o.vals.headD 1) 65535)).flatMap (fun b => (o.descs.take 3).flatMap (fun d => scr d b)) ++
      (o.descs.drop 3).flatMap (fun d => scr d 0)
  else if o.opcode = 0x52 ∨ o.opcode = 0x53 then [((o.vals.headD 0 : Nat), 128)]
  else if o.opcode = 0x68 ∨ o.opcode = 0x69 then
    o.descs.flatMap (fun d => if dKind d = 1 then ranges d 0 0 (min (o.vals.getD 2 0) (dRows d)) 0 (dLen d) else [])
  else o.descs.flatMap (fun d => scr d 0)

/-- Banks of CORE[k] that an instruction uses. -/
def opBanks (m : Mach) (q k : Nat) (o : EngOp) : List Nat :=
  (opRanges o).flatMap (fun r => if r.1 < 0 ∨ r.1.toNat / 2 ^ 25 ≠ k then [] else banksOf m q k (r.1.toNat % 2 ^ 25) r.2)

/-- Whether an earlier instruction or a pipe job uses one of these banks of CORE[k] (R352). -/
def banksBusy (m : Mach) (q k : Nat) (bs : List Nat) : Bool :=
  (List.range 6).any (fun e => ((engine m q e).queue ++ (engine m q e).flight).any (fun o => (opBanks m q k o).any bs.contains)) ||
    (List.range 8).any (fun n => match (mget m.pipes n).job with
      | some j => !j.toHbm && j.part == q && j.core == k &&
          (banksOf m q k j.addr (tensorBytes (ispEntry m j.stream))).any bs.contains
      | none => false)

def leaseTry : SeqTry := guarded 0x48 (bitMask 0 39) (fun q w m =>
  let k := bitsAt w 55 1
  let first := bitsAt w 49 6
  let count := bitsAt w 43 6
  let lane := bitsAt w 39 4
  if 48 ≤ first ∨ count = 0 ∨ 48 < first + count ∨ 9 < lane ∨ (q ≠ 8 ∧ coresPer m ≤ k) then some (seqExc q 0x48 Exc.reserved 0 m)
  else if q = 8 then some (seqNext q m)
  else
    let bs := (List.range count).map (· + first)
    if banksBusy m q k bs then none
    else some (m |> forEach bs (fun b => wr (Reg.SCR_LEASE q k b) lane) |> seqNext q))

/-- The granules that RCLR, RSET and RWAIT name, where they all lie in scratch that the routine may address. -/
def rangeOf (m : Mach) (q w : Nat) : Option (List Nat) :=
  let n := sReg m q (wRs2 w)
  if n = 0 ∨ 12288 < n then none
  else
    let gs := granRun (sReg m q (wRs1 w) % 2 ^ 14) n
    if gs.all (mayTouch m q) then some gs else none

/-- RCLR and RSET wait while a granule is reserved or pinned (R315, R356). -/
def readyTry (op : Nat) (b : Bool) : SeqTry := guarded op (bitMask 51 5 + bitMask 0 41) (fun q w m =>
  match rangeOf m q w with
  | none => some (seqExc q op Exc.scalarBounds 0 m)
  | some gs => if allFree m q gs then some (m |> setReady q b gs |> seqNext q) else none)

def rwaitTry : SeqTry := guarded 0x4B (bitMask 51 5 + bitMask 0 41) (fun q w m =>
  match rangeOf m q w with
  | none => some (seqExc q 0x4B Exc.scalarBounds 0 m)
  | some gs => if allReady m q gs then some (seqNext q m) else none)

def execLease (q : Fin 9) (w : BitVec 56) (s : State) : Out := s.run (seqCmd q 0x48 w.toNat leaseTry)
def execRclr (q : Fin 9) (w : BitVec 56) (s : State) : Out := s.run (seqCmd q 0x49 w.toNat (readyTry 0x49 false))
def execRset (q : Fin 9) (w : BitVec 56) (s : State) : Out := s.run (seqCmd q 0x4A w.toNat (readyTry 0x4A true))
def execRwait (q : Fin 9) (w : BitVec 56) (s : State) : Out := s.run (seqCmd q 0x4B w.toNat rwaitTry)

/-! ### Dispatch (R304) -/

/-- Entries of an engine's queue: arrays 4, vector units 8, the DMA engine 16, the KV walker 8. -/
def queueCap (e : Nat) : Nat := if e < 2 then 4 else if e = 4 then 16 else 8

/-- Dispatch an instruction with the copies it takes, where its engine's queue has room. -/
def dispatch (q e op w : Nat) (descs : List TDesc) (vals : List Nat) (m : Mach) : Option Mach :=
  if queueCap e ≤ (engine m q e).queue.length then none
  else
    let o : EngOp := { opcode := op, word := w, descs := descs, vals := vals, pc := seqPc m q, tag := rd m (Reg.TC_SEQ_ITAG q),
                       rid := rd m (Reg.TC_SEQ_ROUTINE_ID q) }
    let m := modEngine q e (fun x => { x with queue := x.queue ++ [o] }) m
    let m := if e < 2 then m |> modCore q e (fun x => { x with idleAt := none }) |> rampWake q e else m
    some (seqNext q m)

/-- Whether bit [55] names a core that the shape does not have: RESERVED_FIELD, as R312 gives for MMA. -/
def noCore (m : Mach) (q k : Nat) : Bool := q != 8 && decide (coresPer m ≤ k)

/-- A descriptor field of 4 bits at a position. -/
def tField (m : Mach) (q w lo : Nat) : TDesc := tReg m q (bitsAt w lo 4)

/-- The operand formats of an MMA are both block formats (R283). -/
def mmaBx (m : Mach) (q w : Nat) : Bool := isBx (dFmt (tField m q w 52)) && isBx (dFmt (tField m q w 48))

/-- MMA (R312): P and S only where their enables are set, ACC_ALIGN only for block operands. -/
def mmaTry : SeqTry := guarded 0x40 (bitMask 0 15) (fun q w m =>
  let k := bitsAt w 19 1
  let p := bitsAt w 35 1
  let s := bitsAt w 34 1
  let al := bitsAt w 25 9
  if noCore m q k ∨ (p = 0 ∧ bitsAt w 40 4 ≠ 0) ∨ (s = 0 ∧ bitsAt w 36 4 ≠ 0) ∨ (al ≠ 0 ∧ al ≠ 0x0FF ∧ (q = 8 ∨ !mmaBx m q w)) then
    some (seqExc q 0x40 Exc.reserved 0 m)
  else
    let b := bitsAt w 20 5
    dispatch q k 0x40 w ([tField m q w 52, tField m q w 48, tField m q w 44] ++ (if p = 1 then [tField m q w 40] else []) ++
      (if s = 1 then [tField m q w 36] else [])) [if b = 0 then 1 else sReg m q b] m)

/-- Reserved FUNC codes of VS and VR (R317): VS takes the functions of both, VR its own. -/
def vecFuncOk (vr : Bool) (f : Nat) : Bool :=
  if vr then (decide (f ≤ 0x0E)) || (decide (0x20 ≤ f) && decide (f ≤ 0x24))
  else decide (f ≤ 0x0E) || (decide (0x10 ≤ f) && decide (f ≤ 0x12))

/-- FUNC codes that R317 lists as reserved for every vector instruction. -/
def vecFuncReserved (f : Nat) : Bool :=
  f == 0x0F || (decide (0x13 ≤ f) && decide (f ≤ 0x1F)) || decide (0x25 ≤ f)

/-- VS (R316, R317). A function that only VR has is no function of VS (DEDUCED, notes/assumptions/15.md). -/
def vsTry : SeqTry := guarded 0x50 (bitMask 0 27) (fun q w m =>
  let k := bitsAt w 55 1
  let f := bitsAt w 49 6
  let p := bitsAt w 31 1
  if !vecFuncOk false f then some (seqExc q 0x50 Exc.illegal 0 m)
  else if noCore m q k ∨ (decide (p = 1) != (f == 9)) then some (seqExc q 0x50 Exc.reserved 0 m)
  else dispatch q (2 + k) 0x50 w ([tField m q w 45, tField m q w 41, tField m q w 37] ++ (if p = 1 then [tField m q w 33] else [])) [] m)

def vwinTry : SeqTry := guarded 0x51 (bitMask 0 31) (fun q w m =>
  let k := bitsAt w 55 1
  let f := bitsAt w 52 3
  let p := bitsAt w 35 1
  if 3 ≤ f then some (seqExc q 0x51 Exc.illegal 0 m)
  else if noCore m q k ∨ (decide (p = 1) != (f == 0)) then some (seqExc q 0x51 Exc.reserved 0 m)
  else dispatch q (2 + k) 0x51 w ([tField m q w 48, tField m q w 44, tField m q w 40] ++ (if p = 1 then [tField m q w 36] else [])) [] m)

/-- VLD and VST: the PSA is taken at dispatch. -/
def vmemTry (op : Nat) : SeqTry := guarded op (bitMask 32 13) (fun q w m =>
  let k := bitsAt w 55 1
  if noCore m q k then some (seqExc q op Exc.reserved 0 m)
  else dispatch q (2 + k) op w [] [fieldOf 64 ((sReg m q (bitsAt w 45 5) : Int) + wImm w)] m)

/-- VR (R319): it has no parameters, so REQUANT is RESERVED_FIELD as R317 gives (DEDUCED, notes/assumptions/17.md). -/
def vrTry : SeqTry := guarded 0x54 (bitMask 0 27) (fun q w m =>
  let k := bitsAt w 55 1
  let f := bitsAt w 49 6
  if !vecFuncOk true f then some (seqExc q 0x54 Exc.illegal 0 m)
  else if noCore m q k ∨ f = 9 ∨ (f = 0x22 ∧ 4 ≤ bitsAt w 30 5) then some (seqExc q 0x54 Exc.reserved 0 m)
  else dispatch q (2 + k) 0x54 w [] [] m)

def copyTry : SeqTry := guarded 0x60 (bitMask 0 41) (fun q w m =>
  dispatch q 4 0x60 w [tField m q w 52, tField m q w 48] [] m)

/-- KVLD and KVST (R326). -/
def kvMemTry (op : Nat) : SeqTry := guarded op (bitMask 0 13) (fun q w m =>
  dispatch q 5 op w [tField m q w 52] [sReg m q (bitsAt w 47 5), sReg m q (bitsAt w 42 5), sReg m q (bitsAt w 37 5)] m)

/-- KVREF (R326): rd is zero unless OP is FORK. -/
def kvrefTry : SeqTry := guarded 0x6A (bitMask 0 38) (fun q w m =>
  let op := bitsAt w 43 3
  if 5 ≤ op ∨ (op ≠ 2 ∧ bitsAt w 38 5 ≠ 0) then some (seqExc q 0x6A Exc.reserved 0 m)
  else dispatch q 5 0x6A w [] [sReg m q (wRd w), sReg m q (wRs1 w)] m)

def execMma (q : Fin 9) (w : BitVec 56) (s : State) : Out := s.run (seqCmd q 0x40 w.toNat mmaTry)
def execVs (q : Fin 9) (w : BitVec 56) (s : State) : Out := s.run (seqCmd q 0x50 w.toNat vsTry)
def execVwin (q : Fin 9) (w : BitVec 56) (s : State) : Out := s.run (seqCmd q 0x51 w.toNat vwinTry)
def execVld (q : Fin 9) (w : BitVec 56) (s : State) : Out := s.run (seqCmd q 0x52 w.toNat (vmemTry 0x52))
def execVst (q : Fin 9) (w : BitVec 56) (s : State) : Out := s.run (seqCmd q 0x53 w.toNat (vmemTry 0x53))
def execVr (q : Fin 9) (w : BitVec 56) (s : State) : Out := s.run (seqCmd q 0x54 w.toNat vrTry)
def execCopy (p : Fin 8) (w : BitVec 56) (s : State) : Out := s.run (seqCmd p 0x60 w.toNat copyTry)
def execKvld (p : Fin 8) (w : BitVec 56) (s : State) : Out := s.run (seqCmd p 0x68 w.toNat (kvMemTry 0x68))
def execKvst (p : Fin 8) (w : BitVec 56) (s : State) : Out := s.run (seqCmd p 0x69 w.toNat (kvMemTry 0x69))

/-- The KVREF word whose OP field is `op`: each operation is a command of its own. -/
def kvrefCmd (p op w : Nat) (m : Mach) : Mach := if bitsAt w 43 3 = op then seqCmd p 0x6A w kvrefTry m else m

def execKvrefInc (p : Fin 8) (w : BitVec 56) (s : State) : Out := s.run (fun m =>
  if bitsAt w.toNat 43 3 ≥ 5 then seqCmd p 0x6A w.toNat kvrefTry m else kvrefCmd p 0 w.toNat m)
def execKvrefDec (p : Fin 8) (w : BitVec 56) (s : State) : Out := s.run (kvrefCmd p 1 w.toNat)
def execKvrefFork (p : Fin 8) (w : BitVec 56) (s : State) : Out := s.run (kvrefCmd p 2 w.toNat)
def execKvrefTrunc (p : Fin 8) (w : BitVec 56) (s : State) : Out := s.run (kvrefCmd p 3 w.toNat)
def execKvrefDrop (p : Fin 8) (w : BitVec 56) (s : State) : Out := s.run (kvrefCmd p 4 w.toNat)

/-! ### Synchronisation (R327, R328) -/

def execSig (q : Fin 9) (w : BitVec 56) (s : State) : Out := s.run (seqCmd q 0x70 w.toNat
  (guarded 0x70 (bitMask 0 36) (fun q w m =>
    let n := bitsAt w 52 4
    let c := bitsAt w 36 16
    if n = 0 ∨ c = 0 then some (seqExc q 0x70 Exc.reserved 0 m) else some (m |> semAdd q n c |> seqNext q))))

def waitsTry : SeqTry := guarded 0x71 (bitMask 0 36) (fun q w m =>
  let n := bitsAt w 52 4
  let c := bitsAt w 36 16
  let v := rd m (Reg.TC_SEQ_SEM q n)
  if n = 0 ∨ c = 0 then some (seqExc q 0x71 Exc.reserved 0 m)
  else if v < c then none
  else some (m |> wr (Reg.TC_SEQ_SEM q n) (v - c) |> seqNext q))

def fenceTry : SeqTry := guarded 0x72 (bitMask 0 48) (fun q w m =>
  let mask := bitsAt w 48 8
  if mask = 0 ∨ 64 ≤ mask ∨ (q = 8 ∧ 16 ≤ mask) then some (seqExc q 0x72 Exc.reserved 0 m)
  else if (List.range 6).any (fun e => bitOf mask e && !((engine m q e).queue.isEmpty && (engine m q e).flight.isEmpty)) then none
  else some (seqNext q m))

def execWaits (q : Fin 9) (w : BitVec 56) (s : State) : Out := s.run (seqCmd q 0x71 w.toNat waitsTry)
def execFence (q : Fin 9) (w : BitVec 56) (s : State) : Out := s.run (seqCmd q 0x72 w.toNat fenceTry)

/-! ### Locks (R329) -/

/-- LOCKA, LOCKR, LOCKC: a lock number above 1,023 is not assigned, and LOCKR and LOCKC leave zero in rd (DEDUCED,
notes/assumptions/16.md). A refused attempt is logged as well (R571). -/
def lockTry (op : Nat) (c : LockCmd) : SeqTry := guarded op (bitMask 0 46) (fun q w m =>
  let n := sReg m q (wRs1 w)
  let me := 0x58 + q
  let held := rd m (Reg.LOCK_STATE_HOLDER n)
  if 1024 ≤ n ∨ !lockMine m me n ∨ (op ≠ 0x73 ∧ held ≠ me) then
    some (m |> whenB (decide (n < 1024)) (lockRefused me n) |> seqExc q op Exc.lock 0)
  else if op ≠ 0x73 then some (m |> lockAct c me me n |> setS q (wRd w) 0 |> seqNext q)
  else
    let r := if held ≠ 0 ∧ held ≠ me then 2 else if rdb m (Reg.LOCK_STATE_ABANDONED n) then 1 else 0
    some (m |> lockAct c me me n |> setS q (wRd w) r |> whenB (r != 0) (detEvent q 2 (some (seqPc m q))) |> seqNext q))

def execLocka (p : Fin 8) (w : BitVec 56) (s : State) : Out := s.run (seqCmd p 0x73 w.toNat (lockTry 0x73 .acquire))
def execLockr (p : Fin 8) (w : BitVec 56) (s : State) : Out := s.run (seqCmd p 0x74 w.toNat (lockTry 0x74 .release))
def execLockc (p : Fin 8) (w : BitVec 56) (s : State) : Out := s.run (seqCmd p 0x75 w.toNat (lockTry 0x75 .clear))

/-! ### Completions and notices (R330, R338, R601, R613, R616, R624) -/

/-- The first entry that `f` holds of, and the rest. -/
def takeFirst (f : Notice → Bool) : List Notice → Option (Notice × List Notice)
  | [] => none
  | a :: r => if f a then some (a, r) else (takeFirst f r).map (fun x => (x.1, a :: x.2))

/-- Whether a tag's stream is a camera. -/
def tagCamera (m : Mach) (t : Nat) : Bool := strCamera (streamEntry m (tagStream t))

/-- Take the oldest entry for the routine that runs on PART[p]: completions of cameras or notices of range streams. A replay
run sees its suspect alone; entries presented again go first. -/
def takeEntry (p : Nat) (cam : Bool) (m : Mach) : Option Notice × Mach :=
  let run := ((mget m.seqs p).run).getD {}
  let lc := run.kind == 0
  let f (n : Notice) : Bool := tagCamera m n.tag == cam && tagLc m n.tag == lc
  let taken (n : Notice) (m : Mach) : Mach := modSeq p (fun x => { x with taken := x.taken ++ [n] }) m
  match run.replayOf with
  | some t =>
    match (mget m.recov p).suspects.find? (fun n => n.tag == t && tagCamera m n.tag == cam) with
    | some n => if (mget m.seqs p).taken.any (fun x => x.tag == t) then (none, m) else (some n, taken n m)
    | none => (none, m)
  | none =>
    match takeFirst f (mget m.recov p).first with
    | some (n, r) => (some n, m |> modRecov p (fun x => { x with first := r }) |> taken n)
    | none =>
      match takeFirst f (if cam then mget m.comps p else mget m.rnotes p) with
      | some (n, r) =>
        let m := if cam then { m with comps := mset m.comps p r } else { m with rnotes := mset m.rnotes p r }
        (some n, m |> syncFifo p |> taken n)
      | none => (none, m)

/-- The two words of an entry, or of none. -/
def noticeRegs (q rd' : Nat) (n : Option Notice) (m : Mach) : Mach :=
  m |> setS q rd' ((n.map (·.lo)).getD 0) |> setS q (rd' + 1) ((n.map (·.hi)).getD (2 ^ 64 - 1))

/-- PCOMP and RITEM. -/
def entryTry (op : Nat) (cam : Bool) : SeqTry := guarded op (bitMask 0 51) (fun p w m =>
  let d := wRd w
  if d = 0 ∨ d = 31 then some (seqExc p op Exc.reserved 0 m)
  else
    let pc := seqPc m p
    let replay := ((mget m.seqs p).run.map (fun r => r.replayOf.isSome)).getD false
    let (n, m) := takeEntry p cam m
    some (m |> noticeRegs p d n |> whenB (n.isNone && !replay) (detEvent p 3 (some pc)) |> seqNext p))

def execPcomp (p : Fin 8) (w : BitVec 56) (s : State) : Out := s.run (seqCmd p 0x78 w.toNat (entryTry 0x78 true))
def execRitem (p : Fin 8) (w : BitVec 56) (s : State) : Out := s.run (seqCmd p 0x79 w.toNat (entryTry 0x79 false))

/-- RREL frees a range slot, exactly as a write of ING_STR_RELEASE does (R331). -/
def execRrel (p : Fin 8) (w : BitVec 56) (s : State) : Out := s.run (seqCmd p 0x7A w.toNat
  (guarded 0x7A (bitMask 51 5 + bitMask 0 41) (fun p w m =>
    let i := sReg m p (wRs1 w)
    let v := sReg m p (wRs2 w)
    match streamEntry? m i with
    | some e =>
      if strCamera e ∨ strPart e ≠ p ∨ 128 ≤ v then some (seqExc p 0x7A Exc.result 0 m)
      else some (m |> releaseSlot i (v % 64) (v / 64) |> seqNext p)
    | none => some (seqExc p 0x7A Exc.result 0 m))))

/-- PIN, on the Partner engine (R338). -/
def execPin (w : BitVec 56) (s : State) : Out := s.run (seqCmd 8 0x7B w.toNat
  (guarded 0x7B (bitMask 0 51) (fun q w m =>
    let d := wRd w
    if d = 0 ∨ d = 31 then some (seqExc q 0x7B Exc.reserved 0 m)
    else match mget m.rnotes 8 with
      | [] => some (m |> noticeRegs q d none |> seqNext q)
      | n :: r => some ({ m with rnotes := mset m.rnotes 8 r } |> noticeRegs q d (some n) |> seqNext q))))

/-! ### Records and grids (R332, R333, R519) -/

/-- RESULT (R332, R614): one for an item past its deadline is discarded and counted; one without payload commits at dispatch
and takes no place in the DMA engine's queue. -/
def resultTry : SeqTry := guarded 0x7C (bitMask 0 41) (fun p w m =>
  let t := sReg m p (wRd w) % 2 ^ 32
  let x := sReg m p (bitsAt w 42 5)
  let nopay := bitsAt w 41 1 == 1
  let sq := mget m.seqs p
  if nopay ∧ bitsAt w 47 4 ≠ 0 then some (seqExc p 0x7C Exc.reserved 0 m)
  else if pastDeadline m t && strPart (streamEntry m (tagStream t)) == p then
    some (m |> inc (Reg.TC_CNT_LATE_DISCARD p) |> seqNext p)
  else if (x % 16 ≠ 0 ∧ x % 16 ≠ 3) ∨ bitsAt x 4 12 ≠ 0 ∨ (lookup m.items t).all (fun it => it.part != p) ∨ sq.results.contains t ∨
      sq.commits.contains t then some (seqExc p 0x7C Exc.result 0 m)
  else if queueCap 4 ≤ (engine m p 4).queue.length then none
  else
    let m := modSeq p (fun s => { s with results := s.results ++ [t] }) m
    if nopay then some (m |> commitResult p t x [] |> seqNext p) else dispatch p 4 0x7C w [tField m p w 47] [t, x] m)

/-- The CALLER profile of a stream (R519). -/
def callerProfile (m : Mach) (i : Nat) : Option (List Byte) :=
  let b := sec m 0xC 0
  let n := le b 0 1
  ((List.range (le b 2 2)).map (fun j => slice b (32 + 128 * n + 8 * j) 8)).findSome? (fun e =>
    if le e 0 2 = i then some (slice b (32 + 128 * le e 2 1) 128) else none)

/-- Bytes of a stream's grid. -/
def gridBytes (pr : List Byte) : Nat := le pr 0 2 * le pr 2 2

/-- Whether a channel's grid for an item has been posted: dispatched in this run, or arrived at the Caller. -/
def gridPosted (m : Mach) (q t : Nat) : Bool :=
  let c : CallerItem := mget m.saf.caller t
  (mget m.seqs q).grids.contains t || (if q = 8 then c.partner.isSome else c.main.isSome)

/-- GRID (R333). -/
def gridTry : SeqTry := guarded 0x7D (bitMask 0 47) (fun q w m =>
  let t := sReg m q (wRd w) % 2 ^ 32
  let d := tField m q w 47
  let size := (callerProfile m (tagStream t)).map gridBytes
  if !strSafety (streamEntry m (tagStream t)) ∨ (dKind d = 4 ∧ some (dBytes d % 2 ^ 24) ≠ size) ∨ gridPosted m q t then
    some (seqExc q 0x7D Exc.grid 0 m)
  else (dispatch q 4 0x7D w [d] [t] m).map (modSeq q (fun s => { s with grids := t :: s.grids })))

def execResult (p : Fin 8) (w : BitVec 56) (s : State) : Out := s.run (seqCmd p 0x7C w.toNat resultTry)
def execGridPost (q : Fin 9) (w : BitVec 56) (s : State) : Out := s.run (seqCmd q 0x7D w.toNat gridTry)

/-- HINT (R334, R645, R646): on the Partner engine it does nothing and counts nothing (R337). -/
def execHint (q : Fin 9) (w : BitVec 56) (s : State) : Out := s.run (seqCmd q 0x7E w.toNat
  (guarded 0x7E (bitMask 0 46) (fun q w m =>
    let lead := bitsAt w 48 8
    let cores := bitsAt w 46 2
    let m := if q = 8 then m
      else if lead < 10 ∨ 200 < lead ∨ cores = 0 then inc (Reg.TC_SEQ_CNT_HINT_DROP q) m
      else hintPart q lead cores m
    some (seqNext q m))))

/-! ### Waits (R304, R305) -/

/-- What a waiting instruction does when it is tried again. -/
def waitTry (op : Nat) : SeqTry :=
  match op with
  | 0x18 => ldsTry | 0x19 => stsTry | 0x40 => mmaTry | 0x48 => leaseTry | 0x49 => readyTry 0x49 false
  | 0x4A => readyTry 0x4A true | 0x4B => rwaitTry | 0x50 => vsTry | 0x51 => vwinTry | 0x52 => vmemTry 0x52
  | 0x53 => vmemTry 0x53 | 0x54 => vrTry | 0x60 => copyTry | 0x68 => kvMemTry 0x68 | 0x69 => kvMemTry 0x69
  | 0x6A => kvrefTry | 0x71 => waitsTry | 0x72 => fenceTry | 0x7C => resultTry | 0x7D => gridTry
  | _ => fun _ _ _ => none

/-- The condition that a sequencer waits for has come to hold: the instruction executes, and its wait is counted. A heartbeat
entry that fell due in the wait is taken behind it (R608). -/
def execSeqWaitSatisfied (q : Fin 9) (s : State) : Out := s.run (fun m =>
  let x := mget m.seqs q
  match x.waiting with
  | none => m
  | some (op, w) =>
    if q.val < 8 ∧ ((mget m.recov q).killing.isSome ∨ (mget m.recov q).switch ≠ .none) then m
    else
      let cyc := nsCycles m q (now m - x.waitAt)
      match waitTry op q w (modSeq q (fun x => { x with waiting := none }) m) with
      | none => m
      | some m =>
        let m := addTo (Reg.TC_SEQ_CNT_WAIT_CYC q) cyc m
        if (mget m.recov q).hbDue && q.val < 8 then hbWrite q m else m)

end Sys2Proof.Machine
end

