-- ==== Sys2Proof/Machine/Checks.lean ====
section
/-!
DEFINITION. The checks of an array instruction (R467 to R480, R484): which tiles or passes fail, what their records say, and
the classification of a repeat (R487, R488). A check is evaluated where an upset or a damaged operand reaches it: on any
other tile it passes (R472, R475).
-/

namespace Sys2Proof.Machine

/-! ### Upsets of a tile -/

/-- The upsets of tile `j`, joined. -/
def upsetAt (ups : List ArrayUpset) (j : Nat) : ArrayUpset :=
  (ups.filter (fun u => u.tile == j)).foldl (fun a u =>
    { tile := j, wrong := a.wrong ++ u.wrong, rowChk := a.rowChk ++ u.rowChk, colChk := a.colChk ++ u.colChk,
      corner := a.corner ++ u.corner, block := a.block ++ u.block, aligner := a.aligner ++ u.aligner,
      residue := a.residue ++ u.residue, drain := a.drain || u.drain, store := a.store || u.store, feed := a.feed || u.feed })
    { tile := j }

/-- Whether pass `t` re-injects the running sums of tile or pass `u` (R253, R470), or is it. -/
def Tile.follows (t u : Tile) : Bool := t.b == u.b && t.n0 == u.n0 && t.m0 == u.m0 && decide (u.k1 ≤ t.k1)

/-- The tiles with their upsets that tile `t` builds on, oldest first. -/
def chain (tiles : List (Tile × ArrayUpset)) (t : Tile) : List (Tile × ArrayUpset) := tiles.filter (fun u => t.follows u.1)

/-- What the upsets do to the running sum of an output. -/
def injects (tiles : List (Tile × ArrayUpset)) (b m n : Nat) : List Inject :=
  tiles.flatMap (fun u =>
    if u.1.b = b ∧ u.1.m0 ≤ m ∧ m < u.1.m1 ∧ u.1.n0 ≤ n ∧ n < u.1.n1 then
      (u.2.wrong.filter (fun w => w.1 == m && w.2.1 == n)).map (fun w => { at' := u.1.k1, v := w.2.2 })
    else [])

/-! ### Check values (R467, R468, R475) -/

/-- FP32 code of an operand element: every float operand format lies within FP32. -/
def elem32 (g : Bytes) (d : TDesc) (b m k : Nat) : Nat := (narrow fp32 (elemVal (dFmt d) (elemCode g d b m k)).1).1

/-- A class sum: rows `r0` to `r1 - 1` with row − r0 congruent to `i` modulo 4, in ascending order; `mag` sums magnitudes. -/
def classSum (g : Bytes) (d : TDesc) (b r0 r1 i : Nat) (mag : Bool) (k : Nat) : Nat :=
  ((List.range (r1 - r0)).filter (fun j => j % 4 == i)).foldl (fun s j =>
    let e := elem32 g d b (r0 + j) k
    (add32 s (if mag then abs32 e else e)).1) 0

/-- One row of an operand, as FP32. -/
def rowVal (g : Bytes) (d : TDesc) (b m : Nat) (mag : Bool) (k : Nat) : Nat :=
  let e := elem32 g d b m k
  if mag then abs32 e else e

/-- A checksum cube's fold over reduction positions `k0` to `k1 - 1` (R249, R468). -/
def chkFold (x y : Nat → Nat) (k0 k1 start : Nat) : Nat :=
  let p (k : Nat) : Nat := if k < k1 then (mul32 (x k) (y k)).1 else 0
  (List.range ((k1 - k0 + 3) / 4)).foldl (fun c s =>
    let k := k0 + 4 * s
    (add32 c (add32 (add32 (p k) (p (k + 1))).1 (add32 (p (k + 2)) (p (k + 3))).1).1).1) start

/-- One check of a tile: what kind, which class and row or column. -/
inductive Chk where
  | row (i n : Nat)
  | col (m j : Nat)
  | corner (i j : Nat)
deriving DecidableEq, Repr

/-- The upsets of a check's own value: by (first index, second index, value). -/
def Chk.own (c : Chk) (u : ArrayUpset) : Option Nat :=
  match c with
  | .row i n => (u.rowChk.find? (fun w => w.1 == i && w.2.1 == n)).map (·.2.2)
  | .col m j => (u.colChk.find? (fun w => w.1 == m && w.2.1 == j)).map (·.2.2)
  | .corner i j => (u.corner.find? (fun w => w.1 == i && w.2.1 == j)).map (·.2.2)

/-- The outputs that a row or column check sums. -/
def Chk.outs (c : Chk) (t : Tile) : List (Nat × Nat) :=
  let ms (i : Nat) := ((List.range (t.m1 - t.m0)).filter (fun x => x % 4 == i)).map (· + t.m0)
  let ns (j : Nat) := ((List.range (t.n1 - t.n0)).filter (fun x => x % 4 == j)).map (· + t.n0)
  match c with
  | .row i n => (ms i).map (fun m => (m, n))
  | .col m j => (ns j).map (fun n => (m, n))
  | .corner i j => (ms i).flatMap (fun m => (ns j).map (fun n => (m, n)))

/-- What the checks of one instruction are evaluated on. -/
structure ChkEnv where
  g     : Bytes
  a     : MmaArgs
  tiles : List (Tile × ArrayUpset)
  tol   : Nat := 64

/-- The running sum of an output behind tile `t`, with or without upsets. -/
def ChkEnv.out (e : ChkEnv) (t : Tile) (up : Bool) (m n : Nat) : Sum :=
  (mmaSum e.g e.a t.b m n t.k1 (if up then injects (chain e.tiles t) t.b m n else [])).1

/-- Its value as an integer, or 0 for a float sum. -/
def Sum.i : Sum → Int
  | .int v => v
  | .flt _ => 0

/-- Its exact value. -/
def Sum.ex : Sum → Ex
  | .int v => exInt v
  | .flt c => f32 c

/-- The value c of a check in integer and block formats, modulo 2^48 (R472, R474): the sum of the true outputs, changed by
the upset of the check's own cube. Block errors reach c as they reach the outputs. -/
def ChkEnv.intC (e : ChkEnv) (t : Tile) (c : Chk) : Int :=
  let blocked (u : Tile × ArrayUpset) (o : Nat × Nat) : Bool := u.2.block.any (fun w => w.1 == o.1 && w.2.1 == o.2)
  let truth (u : Tile) : Int := ((c.outs u).map (fun o =>
    (e.out u ((chain e.tiles u).any (fun x => blocked x o)) o.1 o.2).i)).sum
  let off := (chain e.tiles t).foldl (fun (d : Int) u =>
    match c.own u.2 with
    | some v => signedOf 48 v - truth u.1
    | none => d) 0
  wrap48 (truth t + off)

/-- The operand of a check's first and second factor, as FP32 by reduction position. -/
def ChkEnv.factors (e : ChkEnv) (t : Tile) (c : Chk) (mag : Bool) : (Nat → Nat) × (Nat → Nat) :=
  let xs (i : Nat) := classSum e.g e.a.x t.b t.m0 t.m1 i mag
  let ys (j : Nat) := classSum e.g e.a.y t.b t.n0 t.n1 j mag
  match c with
  | .row i n => (xs i, rowVal e.g e.a.y t.b n mag)
  | .col m j => (rowVal e.g e.a.x t.b m mag, ys j)
  | .corner i j => (xs i, ys j)

/-- The value c of a check in float formats (R468, R470). -/
def ChkEnv.fltC (e : ChkEnv) (t : Tile) (c : Chk) : Nat :=
  let (x, y) := e.factors t c false
  let r := (chain e.tiles t).foldl (fun (r : Nat × Nat) u =>
    match c.own u.2 with
    | some v => (u.1.k1, v % 2 ^ 32)
    | none => r) (0, 0)
  chkFold x y r.1 t.k1 r.2

/-- The magnitude μ of a float check. -/
def ChkEnv.mu (e : ChkEnv) (t : Tile) (c : Chk) : Nat := let (x, y) := e.factors t c true; chkFold x y 0 t.k1 0

/-- Sum of exact values. -/
def exSum (l : List Ex) : Ex := l.foldl exAdd {}

/-- The negative of an exact value. -/
def exNeg (x : Ex) : Ex := { x with neg := !x.neg }

/-- The values d of a check: one for a row or column check, two for a corner check (R468). -/
def ChkEnv.sides (e : ChkEnv) (t : Tile) (c : Chk) : List (Ex × Int) :=
  match c with
  | .corner i j =>
    let rows := ((List.range (t.n1 - t.n0)).filter (fun x => x % 4 == j)).map (fun x => Chk.row i (t.n0 + x))
    let cols := ((List.range (t.m1 - t.m0)).filter (fun x => x % 4 == i)).map (fun x => Chk.col (t.m0 + x) j)
    [rows, cols].map (fun l =>
      if isFlt (dFmt e.a.x) then (exSum (l.map (fun k => f32 (e.fltC t k))), 0) else ({}, (l.map (e.intC t)).sum))
  | _ =>
    let os := (c.outs t).map (fun o => e.out t true o.1 o.2)
    [(exSum (os.map Sum.ex), (os.map Sum.i).sum)]

/-- c − d of a check against each of its sides, where that side fails (R472, R475): DELTA of its record. -/
def ChkEnv.failing (e : ChkEnv) (t : Tile) (c : Chk) : List (Option Nat) :=
  (e.sides t c).map (fun d =>
    if isFlt (dFmt e.a.x) then
      let gq := ((mmaPair (dFmt e.a.x) (dFmt e.a.y)).getD (4, 1)).1
      let diff := exAdd (f32 (e.fltC t c)) (exNeg d.1)
      let bound := exMul { m := ceilDiv t.k1 gq + e.tol, e := -24 } (f32 (e.mu t c))
      if exLt bound { diff with neg := false } then some (narrow fp32 diff).1 else none
    else
      let x := wrap48 (e.intC t c - d.2)
      if x = 0 then none else some (fieldOf 32 x))

/-! ### The verdict of a tile (R471, R478 to R480) -/

/-- The checks of tile `t` that an upset reaches: rows, columns and corners. -/
def ChkEnv.reached (e : ChkEnv) (t : Tile) : List Chk × List Chk × List Chk :=
  let us := (chain e.tiles t).map (·.2)
  let wrong := us.flatMap (·.wrong)
  let rc := us.flatMap (·.rowChk)
  let cc := us.flatMap (·.colChk)
  let rows := (wrong.map (fun w => Chk.row ((w.1 - t.m0) % 4) w.2.1) ++ rc.map (fun w => Chk.row w.1 w.2.1)).eraseDups
  let cols := (wrong.map (fun w => Chk.col w.1 ((w.2.1 - t.n0) % 4)) ++ cc.map (fun w => Chk.col w.1 w.2.1)).eraseDups
  let corners := (rc.map (fun w => Chk.corner w.1 ((w.2.1 - t.n0) % 4)) ++ cc.map (fun w => Chk.corner ((w.1 - t.m0) % 4) w.2.1) ++
    us.flatMap (fun u => u.corner.map (fun w => Chk.corner w.1 w.2.1))).eraseDups
  (rows, cols, corners)

/-- Failing checks of one kind: the columns of row checks and the rows of column checks, relative to the tile, and DELTA of
the first of them. -/
structure FailSet where
  cols  : List Nat := []
  rows  : List Nat := []
  nRow  : Nat := 0
  nCol  : Nat := 0
  delta : Nat := 0
deriving DecidableEq, Repr, Inhabited

def FailSet.any (f : FailSet) : Bool := f.nRow + f.nCol != 0

/-- The least of some numbers, 0xFFFF of none. -/
def leastOr (l : List Nat) : Nat := l.foldl min 0xFFFF

/-- The failing row and column checks of a tile. -/
def ChkEnv.fails (e : ChkEnv) (t : Tile) : FailSet :=
  let (rows, cols, _) := e.reached t
  let fr := rows.filterMap (fun c => match c, e.failing t c with
    | .row _ n, [some d] => some (n - t.n0, d)
    | _, _ => none)
  let fc := cols.filterMap (fun c => match c, e.failing t c with
    | .col m _, [some d] => some (m - t.m0, d)
    | _, _ => none)
  let first (l : List (Nat × Nat)) : Option Nat := (l.find? (fun x => x.1 == leastOr (l.map (·.1)))).map (·.2)
  { cols := fr.map (·.1), rows := fc.map (·.1), nRow := fr.length, nCol := fc.length,
    delta := (first fr <|> first fc).getD 0 }

/-- The corner check of a tile: whether it fails against the row checks and against the column checks, and DELTA. -/
def ChkEnv.cornerFails (e : ChkEnv) (t : Tile) : Bool × Bool × Nat :=
  let (_, _, cs) := e.reached t
  cs.foldl (fun r c =>
    match e.failing t c with
    | [x, y] => (r.1 || x.isSome, r.2.1 || y.isSome, if r.1 || r.2.1 then r.2.2 else ((x <|> y).getD 0))
    | _ => r) (false, false, 0)

/-- The failing block-sum checks of a tile (R474): block dot products that are off by an amount. -/
def blockFails (t : Tile) (u : ArrayUpset) : FailSet :=
  let inT := u.block.filter (fun w => decide (t.m0 ≤ w.1 ∧ w.1 < t.m1 ∧ t.n0 ≤ w.2.1 ∧ w.2.1 < t.n1))
  let err (p : Nat × Nat × Int → Bool) : Int := wrap48 ((inT.filter p).map (fun w => w.2.2)).sum
  let rowE (w : Nat × Nat × Int) : Int := err (fun x => x.2.1 == w.2.1 && (x.1 - t.m0) % 4 == (w.1 - t.m0) % 4)
  let colE (w : Nat × Nat × Int) : Int := err (fun x => x.1 == w.1 && (x.2.1 - t.n0) % 4 == (w.2.1 - t.n0) % 4)
  let fr := (inT.filter (fun w => rowE w != 0)).map (fun w => (w.2.1 - t.n0, (w.1 - t.m0) % 4, fieldOf 32 (-(rowE w))))
  let fc := (inT.filter (fun w => colE w != 0)).map (fun w => (w.1 - t.m0, (w.2.1 - t.n0) % 4, fieldOf 32 (-(colE w))))
  let fr := fr.eraseDups
  let fc := fc.eraseDups
  let first (l : List (Nat × Nat × Nat)) : Option Nat := (l.find? (fun x => x.1 == leastOr (l.map (·.1)))).map (·.2.2)
  { cols := fr.map (·.1), rows := fc.map (·.1), nRow := fr.length, nCol := fc.length, delta := (first fr <|> first fc).getD 0 }

/-- Row and column of the cube, or of the checksum cube, that failing checks name; none: the array (R480). -/
def localise (ws : Bool) (f : FailSet) (cornerRow cornerCol : Bool) : Option (Nat × Nat) :=
  let one (l : List Nat) : Option Nat :=
    match (l.map (· / 4)).eraseDups with
    | [c] => some c
    | _ => none
  if ws then none
  else match f.nRow, f.nCol, one f.cols, one f.rows, cornerRow, cornerCol with
    | 0, 0, _, _, true, _ => some (32, 32)
    | 0, 0, _, _, _, true => some (32, 32)
    | _, 0, some c, _, true, _ => some (32, c)
    | 0, _, _, some r, _, true => some (r, 32)
    | _, _, some c, some r, false, false => some (r, c)
    | _, _, _, _, _, _ => none

/-- The tile form of DETAIL (R485). -/
def tileForm (j : Nat) (f : FailSet) : List Byte :=
  leBytes 4 j ++ leBytes 2 f.nRow ++ leBytes 2 f.nCol ++ leBytes 2 (leastOr f.cols) ++ leBytes 2 (leastOr f.rows) ++ leBytes 4 f.delta

/-- One source that fails in a tile, with its record's path: an element of the core with row and column, or a scratch bank. -/
structure ChkRec where
  source : Nat
  elem   : Nat := 1
  row    : Nat := 63
  col    : Nat := 63
  path   : Option Nat := none
  detail : List Byte := []
deriving DecidableEq, Repr, Inhabited

/-- What decides an instruction's tiles beside the operands: the mode, whether checksum verdicts are used, whether residue
codes are on, and the unit path of a damaged operand word of a tile. -/
structure ChkMode where
  ws      : Bool := false
  bypass  : Bool := false
  residue : Bool := false
  operand : Nat → Option Nat := fun _ => none

/-- The sources that fail tile `j` (R478, R479, R484): a damaged operand stands alone. -/
def tileRecs (e : ChkEnv) (c : ChkMode) (j : Nat) (t : Tile) (u : ArrayUpset) : List ChkRec :=
  match c.operand j with
  | some path => [{ source := 9, path := some path, detail := tileForm j {} }]
  | none =>
    if u.feed then [{ source := 9, elem := 2, detail := tileForm j {} }]
    else
      let f := if c.bypass then {} else e.fails t
      let k := if c.bypass then (false, false, 0) else e.cornerFails t
      let b := if c.bypass then {} else blockFails t u
      let at' (s : Nat) (f : FailSet) : ChkRec :=
        let p := (localise c.ws f k.1 k.2.1).getD (63, 63)
        { source := s, row := p.1, col := p.2, detail := tileForm j f }
      (if f.any then [at' 1 f] else []) ++ (if b.any then [{ at' 2 b with detail := tileForm j b }] else []) ++
        (match u.aligner with
          | (r, q) :: _ => [{ source := 3, row := r, col := q, detail := tileForm j {} }]
          | [] => []) ++
        (if k.1 || k.2.1 then [{ at' 4 f with detail := tileForm j { f with delta := k.2.2 } }] else []) ++
        (match c.residue, u.residue with
          | true, (r, q, o) :: _ => [{ source := 5, row := r, col := q, detail := leBytes 4 j ++ zeros 4 ++ leBytes 1 (o % 16) }]
          | _, _ => []) ++
        (if u.drain then [{ source := 6, elem := 3, detail := tileForm j {} }] else []) ++
        (if u.store then [{ source := 7, elem := 3, detail := tileForm j {} }] else [])

/-- The failing tiles with their sources. -/
def failingTiles (e : ChkEnv) (c : ChkMode) : List (Nat × Tile × List ChkRec) :=
  (e.tiles.zipIdx.map (fun x => (x.2, x.1.1, tileRecs e c x.2 x.1.1 x.1.2))).filter (fun x => !x.2.2.isEmpty)

/-- One record for each source, of the first tile that failed under it. -/
def firstRecs (l : List (Nat × Tile × List ChkRec)) : List ChkRec :=
  let all := l.flatMap (·.2.2)
  (List.range 10).filterMap (fun s => all.find? (fun r => r.source == s))

/-- The error record of a failing source on CORE[k] of PART[p]. -/
def ChkRec.log (m : Mach) (p k : Nat) (r : ChkRec) : LogRec :=
  { path := r.path.getD (pathCore m p k r.elem r.row r.col), source := r.source, detail := r.detail }

/-! ### A repeat (R487, R488) -/

/-- Whether an instruction is the same computation as the partition's detection, run again. -/
def repeats (m : Mach) (p k : Nat) (o : EngOp) : Option Detect :=
  match (mget m.recov p).detect with
  | some d => if d.live ∧ d.rid = o.rid ∧ d.addr = o.pc ∧ d.tag = o.tag ∧ d.core = k then some d else none
  | none => none

/-- The finer of two localisations on one core where they agree; else the whole unit. -/
def finerPath (whole a b : Nat) : Nat := if a = b then a else if a = whole then b else if b = whole then a else whole

/-- The same computation passes: class 1. -/
def repeatPassed (p k : Nat) (o : EngOp) (m : Mach) : Mach :=
  if (repeats m p k o).isSome then classifyRun p 1 none 0 false m else m

/-- A failed check that is no repeat of the partition's detection, or of another tile: a detection of its own (R487). -/
def detect (p k : Nat) (o : EngOp) (j path : Nat) (m : Mach) : Mach :=
  m |> modRecov p (fun r => { r with detect := some { rid := o.rid, addr := o.pc, tag := o.tag, tile := j, core := k,
                                                      seq := (rd m Reg.SAF_LOG_SEQ + 1) % 2 ^ 32, path := path } })
    |> setLocalise p k true

/-- An instruction that fails a check in tile or pass `j` raises `code`. Where it is the same computation as a detection and
fails in the same tile, the fault is permanent (R487) and kills the routine for good. Else it is a detection, and LOCALISE is
set for its repeat. `whole` is the unit's path; `logic` says that a checksum cube is named (R488). -/
def mismatch (p k e : Nat) (o : EngOp) (code j : Nat) (recs : List LogRec) (whole : Nat) (logic : Bool) (m : Mach) : Mach :=
  let path := (recs.head?.map (·.path)).getD whole
  let again := repeats m p k o
  match again with
  | some d =>
    if d.tile = j then
      let res := recs.find? (fun r => r.source == 5)
      let dest := match res with
        | some r => r.path
        | none => finerPath whole d.path path
      let seq := (rd m Reg.SAF_LOG_SEQ + 1) % 2 ^ 32
      m |> modRecov p (fun r => { r with detect := some { d with live := false } })
        |> raiseExcWhy (o.site p e) code 0 recs .permanent
        |> classifyRun p 2 (some dest) seq (logic && res.isNone)
    else m |> classifyRun p 1 none 0 false |> detect p k o j path |> raiseExc (o.site p e) code 0 recs
  | none => m |> unrepeated p |> detect p k o j path |> raiseExc (o.site p e) code 0 recs

end Sys2Proof.Machine
end

