-- ==== Sys2Proof/Machine/ArrayUnit.lean ====
section
/-!
DEFINITION. The arrays: ramps (R265 to R267), residue logic (R482, R483, R498), and the decode, issue and completion of an
array instruction (R252, R253, R259, R260, R268 to R270, R312, R313), on the cores and on the Partner engine (R337, R517).
-/

namespace Sys2Proof.Machine

/-! ### Ramps (R265 to R267) -/

/-- Whether R265 allows a step of array `k` now: 250 ns behind its own last step, 125 ns behind the other array's. -/
def stepAllowed (m : Mach) (p k : Nat) : Bool :=
  (coreSt m p k).lastStep.all (fun t => decide (t + 250 ≤ now m)) &&
    (coreSt m p (1 - k)).lastStep.all (fun t => decide (t + 125 ≤ now m))

/-- Columns of an array begin to run ballast, or cease to (R266, R275). -/
def ballastOn (p k : Nat) (m : Mach) : Mach := modCore p k (fun c => { c with ballast := some (c.ballast.getD (now m)) }) m
def ballastOff (p k : Nat) (m : Mach) : Mach :=
  match (coreSt m p k).ballast with
  | none => m
  | some t => m |> addTo (Reg.TC_CORE_CNT_BALLAST_CYC p k) (nsCycles m p (now m - t)) |> modCore p k (fun c => { c with ballast := none })

/-- The next ramp step of an array, where it ramps and R265 allows one. -/
def rampStep (p k : Nat) (m : Mach) : Mach :=
  let m := rampWake p k m
  let st := rd m (Reg.TC_CORE_STATUS_RAMP_STATE p k)
  let n := rd m (Reg.TC_CORE_STATUS_RAMP_STEP p k)
  if !stepAllowed m p k then m
  else
    let took (m : Mach) : Mach := modCore p k (fun c => { c with lastStep := some (now m) }) m
    if st = 1 then
      let m := m |> took |> wr (Reg.TC_CORE_STATUS_RAMP_STEP p k) (n + 1) |> ballastOn p k
      if 8 ≤ n + 1 then
        m |> wr (Reg.TC_CORE_STATUS_RAMP_STATE p k) 2
          |> modCore p k (fun c => { c with idleAt := if (engine m p k).queue.isEmpty then some (now m) else none })
      else m
    else if st = 3 then
      let m := m |> took |> wr (Reg.TC_CORE_STATUS_RAMP_STEP p k) (n - 1)
      if n ≤ 1 then m |> ballastOff p k |> wr (Reg.TC_CORE_STATUS_RAMP_STATE p k) 0 |> isCold p k else m
    else m

def execArrayRampStep (p : Fin 8) (k : Fin 2) (s : State) : Out :=
  s.run (fun m => if k < coresPer m then rampStep p k m else m)

/-- A WARM array with nothing in flight or queued for IDLE_HOLD cycles, and HOLD_WARM 0, ramps down. -/
def execArrayIdleTimeout (p : Fin 8) (k : Fin 2) (s : State) : Out := s.run (fun m =>
  let e := engine m p k
  let since := (coreSt m p k).idleAt
  if rd m (Reg.TC_CORE_STATUS_RAMP_STATE p k) = 2 ∧ e.queue.isEmpty ∧ e.flight.isEmpty ∧
      !rdb m (Reg.TC_CORE_CTRL_HOLD_WARM p k) ∧
      since.any (fun t => decide (t + cyclesNs m p (rd m (Reg.TC_CORE_CTRL_IDLE_HOLD p k)) ≤ now m)) then
    wr (Reg.TC_CORE_STATUS_RAMP_STATE p k) 3 m
  else m)

/-! ### Residue logic (R482, R483, R498) -/

/-- A cause of R482 holds on a core. -/
def residueDue (m : Mach) (p k : Nat) : Bool := rd m (Reg.TC_CORE_CHK_STATUS_RESIDUE_CAUSE p k) != 0

/-- The residue logic comes up, as one ramp step more (R483). -/
def execResidueLogicUp (p : Fin 8) (k : Fin 2) (s : State) : Out := s.run (fun m =>
  if residueDue m p k && !rdb m (Reg.TC_CORE_CHK_STATUS_RESIDUE_ON p k) && stepAllowed m p k then
    m |> wrb (Reg.TC_CORE_CHK_STATUS_RESIDUE_ON p k) true
      |> modCore p k (fun c => { c with lastStep := some (now m), resOn := some (now m) })
  else m)

/-- The effect of a write of TC_CORE_CHK_CTRL. -/
def chkCtrlSet (p k v : Nat) (m : Mach) : Mach :=
  m |> wr (Reg.TC_CORE_CHK_CTRL_TOL p k) v |> setLocalise p k (bitOf v 12)

def execChkCtrlWrite (who : Requester) (p : Fin 8) (k : Fin 2) (v : Word) (s : State) : Out :=
  s.run (regWrite who (Reg.TC_CORE_CHK_CTRL_TOL p k) .seqfwHcMi (chkCtrlSet p k v.toNat))

/-! ### Operands of an array instruction (R312, R313) -/

/-- The bytes that a sequencer's engines read. -/
def seqBytes (m : Mach) (q : Nat) : Bytes := { rd := fun a => (rb m (seqAddr m q a)).toNat, fr := m.draws }

/-- What the instruction of an array queue names. -/
def mmaArgs (o : EngOp) : MmaArgs :=
  let d (i : Nat) : TDesc := o.descs.getD i 0
  let pen := bitsAt o.word 35 1
  let sen := bitsAt o.word 34 1
  { x := d 0, y := d 1, d := d 2, p := if pen = 1 then some (d 3) else none, s := if sen = 1 then some (d (3 + pen)) else none,
    align := signedOf 9 (bitsAt o.word 25 9), batch := o.vals.headD 1 }

/-- Parameter words and statistics of an instruction as byte ranges. -/
def MmaArgs.pRange (a : MmaArgs) : List (Int × Nat) := (a.p.map (fun d => ((dBase d : Int), 8 * a.n))).toList
def MmaArgs.sRange (a : MmaArgs) : List (Int × Nat) := (a.s.map (fun d => ((dBase d : Int), 4 * a.n))).toList

/-- Every byte range that the batch elements of a descriptor address. -/
def MmaArgs.every (a : MmaArgs) (d : TDesc) : List (Int × Nat) := (List.range a.batch).flatMap (allRanges d)

/-- What an instruction reads, and what it writes. -/
def MmaArgs.reads (a : MmaArgs) : List (Int × Nat) := a.every a.x ++ a.every a.y ++ a.pRange
def MmaArgs.writes (a : MmaArgs) : List (Int × Nat) := a.every a.d ++ a.sRange

/-- Whether some two of these byte ranges share a byte. -/
def selfMeets : List (Int × Nat) → Bool
  | [] => false
  | x :: r => meetRanges [x] r || selfMeets r

/-- The fields of a window within R255. -/
def windowOk (d : TDesc) : Bool :=
  let within (v hi : Nat) : Bool := decide (1 ≤ v) && decide (v ≤ hi)
  within (dKH d) 7 && within (dKW d) 7 && within (dSY d) 4 && within (dSX d) 4 && within (dDY d) 4 && within (dDX d) 4 &&
    within (dOW d) 65535 && decide (dCP d % 64 = 0) && decide (dCin d * fmtBits (dFmt d) ≤ 8 * dCP d)

/-- Whether a lane that may move these bytes holds every bank of them: the lanes of a class A pair, of four banks each. -/
def lanesHold (m : Mach) (p k : Nat) (lanes : List Nat) (rs : List (Int × Nat)) : Bool :=
  let banks (l : Nat) : Nat := (List.range 48).countP (fun b => rd m (Reg.SCR_LEASE p k b) == l)
  rs.all (fun r => decide (r.1.toNat / 2 ^ 25 = k) && decide ((r.1.toNat + r.2 - 1) / 2 ^ 25 = k) &&
    (banksOf m p k (r.1.toNat % 2 ^ 25) r.2).all (fun b =>
      lanes.any (fun l => rd m (Reg.SCR_LEASE p k b) == l && decide (banks l ≤ 4))))

/-- Whether an MMA runs weight-stationary: by the mode of its core (R251); the Partner engine is output-stationary. -/
def mmaWs (m : Mach) (q k : Nat) : Bool := q != 8 && rd m (Reg.TC_CORE_STATUS_MODE q k) == 1

/-- A shape that R248, R254, R268, R285, R312 and R313 accept. -/
def mmaShapeOk (a : MmaArgs) : Bool :=
  let cnt (d : TDesc) : Bool := (List.range 3).all (fun i => decide (1 ≤ dN d i))
  let rows (d : TDesc) : Bool := if dKind d = 2 then decide (1 ≤ dOW d) && decide (1 ≤ dOH d) else cnt d
  decide (1 ≤ a.batch) && decide (a.batch ≤ 65535) && rows a.x && cnt a.y && cnt a.d && decide (1 ≤ a.k) &&
    decide (a.k ≤ 16777215) && decide (dK a.y = a.k) && decide (dK a.d = a.n) && decide (dRows a.d = a.m) &&
    (!isBx (dFmt a.x) || decide (a.k % 16 = 0)) && (!isBx (dFmt a.d) || decide (a.n % 16 = 0)) &&
    a.p.all (fun d => decide (8 * a.n ≤ dBytes d % 2 ^ 24)) && a.s.all (fun d => decide (4 * a.n ≤ dBytes d % 2 ^ 24))

/-- The exception that an array instruction raises at decode (R268), the lowest code of those that apply. -/
def mmaFault (m : Mach) (q k : Nat) (o : EngOp) : Option Nat :=
  let a := mmaArgs o
  let fx := dFmt a.x
  let fd := dFmt a.d
  let ptn := q == 8
  if (dKind a.x ≠ 1 ∧ dKind a.x ≠ 2) ∨ dKind a.y ≠ 1 ∨ dKind a.d ≠ 1 ∨ (a.p.toList ++ a.s.toList).any (fun d => dKind d != 4) then some 7
  else if (mmaPair fx (dFmt a.y)).isNone ∨ 0xA < fd ∨ bitsAt o.word 25 9 = 0x0FF ∨ (ptn ∧ (fx ≠ 6 ∨ fd < 5 ∨ 7 < fd)) then some 8
  else if !mmaShapeOk a then some 9
  else if dKind a.x = 2 ∧ !windowOk a.x then some 0xA
  else if dKind a.x = 2 ∧ (mmaTiles a (mmaWs m q k)).any (fun t =>
      decide (1280 < (wordsOf (ranges a.x t.b t.m0 t.m1 t.k0 t.k1)).length)) then some 0xB
  else if !((List.range a.batch).all (fun b => [a.x, a.y, a.d].all (fun d => let s := spanOf d b; spanOk m q s.1 s.2)) &&
      (a.pRange ++ a.sRange).all (fun r => spanOk m q r.1 (r.1 + r.2))) then some 0xC
  else if meetRanges a.writes a.reads ∨ selfMeets a.writes then some 0xD
  else if !ptn ∧ !(lanesHold m q k [0, 1] (a.every a.x) && lanesHold m q k [2, 3] (a.every a.y) &&
      lanesHold m q k [4, 5] (a.every a.d ++ a.pRange ++ a.sRange)) then some 0xE
  else none

/-! ### Issue (R269) -/

/-- The conditions of R269 that hold the head back, as the bits of R278. -/
def mmaHeld (m : Mach) (q k : Nat) (a : MmaArgs) : Nat :=
  let busy := !(engine m q k).flight.isEmpty
  let ramp := q != 8 && (rd m (Reg.TC_CORE_STATUS_RAMP_STATE q k) != 2 ||
    (residueDue m q k && !rdb m (Reg.TC_CORE_CHK_STATUS_RESIDUE_ON q k)))
  let unready := !allReady m q (granulesOf a.reads)
  let taken := !writable m q (granulesOf a.writes)
  b2n busy + 2 * b2n ramp + 4 * b2n unready + 8 * b2n taken

/-- The exact cycle count of an array instruction (R263, R264), or on the Partner engine (R517). -/
def mmaCost (m : Mach) (q k : Nat) (a : MmaArgs) : Nat :=
  if q = 8 then a.batch * ceilDiv a.m 128 * ceilDiv a.n 104 * max (4 * ceilDiv a.k 4) 16 + 60
  else mmaCycles a (mmaWs m q k) (bankOf m q)

/-- TC_CORE_WAIT_CAUSE takes the causes that held an instruction (R278). -/
def waitCause (p k c : Nat) (m : Mach) : Mach :=
  m |> wrb (Reg.TC_CORE_WAIT_CAUSE_PREVIOUS p k) (bitOf c 0) |> wrb (Reg.TC_CORE_WAIT_CAUSE_RAMP p k) (bitOf c 1)
    |> wrb (Reg.TC_CORE_WAIT_CAUSE_NOT_READY p k) (bitOf c 2) |> wrb (Reg.TC_CORE_WAIT_CAUSE_RESERVED p k) (bitOf c 3)

/-- The head of an array queue is decoded, and issues where R269 allows. -/
def mmaIssue (q k : Nat) (m : Mach) : Mach :=
  match (engine m q k).queue with
  | [] => m
  | o :: _ =>
    let a := mmaArgs o
    match mmaFault m q k o with
    | some c => decodeFault q k o c 0 m
    | none =>
      let m := rampWake q k m
      let h := mmaHeld m q k a
      if h ≠ 0 then
        match (engine m q k).queue with
        | [] => m
        | o :: _ => holdHead q k o h m
      else
        let w := headWait m q o
        let m := m |> forEach (granulesOf a.writes) (reserveGran q) |> forEach (granulesOf a.reads) (pinGran q)
        let m := if q = 8 then m
          else m |> ballastOff q k |> addTo (Reg.TC_CORE_CNT_WAIT_CYC q k) w
            |> whenB (o.waited != 0) (waitCause q k o.waited)
        takeIssue q k o (mmaCost m q k a) m

def execMmaIssue (q : Fin 9) (k : Fin 2) (s : State) : Out := s.run (mmaIssue q k)

/-! ### Completion (R252, R253, R259, R260, R478) -/

/-- Write whole scratch words: the words that these bytes touch, zero beside them (R259). -/
def writeWords (q : Nat) (rows : List (Int × List Byte)) (m : Mach) : Mach :=
  let ws := wordsOf (rows.map (fun r => (r.1, r.2.length)))
  m |> forEach ws (fun w m => let a := seqAddr m q (w * 64); zeroMem a (a + 64) m)
    |> forEach rows (fun r m => writeMem (seqAddr m q r.1.toNat) r.2 m)

/-- Format events of a core's instruction, counted and kept (R296, R297). -/
def countFormats (p k : Nat) (c : FmtCounts) (m : Mach) : Mach :=
  let one (n : Nat) (cnt sticky : Fld) (m : Mach) : Mach := if n = 0 then m else m |> addTo cnt n |> wrb sticky true
  m |> one c.clipOut (Reg.TC_CORE_CNT_CLIP_OUT p k) (Reg.TC_CORE_FMT_STICKY_CLIP_OUT p k)
    |> one c.clipAcc (Reg.TC_CORE_CNT_CLIP_ACC p k) (Reg.TC_CORE_FMT_STICKY_CLIP_ACC p k)
    |> one c.flush (Reg.TC_CORE_CNT_BX_FLUSH p k) (Reg.TC_CORE_FMT_STICKY_BX_FLUSH p k)
    |> one c.sat (Reg.TC_CORE_CNT_BX_SAT p k) (Reg.TC_CORE_FMT_STICKY_BX_SAT p k)
    |> one c.nonf (Reg.TC_CORE_CNT_NONFINITE p k) (Reg.TC_CORE_FMT_STICKY_NONFINITE p k)
    |> one c.clipVec (Reg.TC_CORE_CNT_CLIP_VEC p k) (Reg.TC_CORE_FMT_STICKY_CLIP_VEC p k)

/-- Whether some bytes of a sequencer's space are damaged. -/
def rangesBad (m : Mach) (q : Nat) (rs : List (Int × Nat)) : Bool :=
  rs.any (fun r => damage m (seqAddr m q r.1.toNat) r.2 != 0)

/-- What a tile reads: its rows, its columns, and the parameters of the outputs it converts. -/
def tileReads (a : MmaArgs) (t : Tile) : List (Int × Nat) :=
  ranges a.x t.b t.m0 t.m1 t.k0 t.k1 ++ ranges a.y t.b t.n0 t.n1 t.k0 t.k1 ++
    (if t.converts a then (a.p.map (fun d => (((dBase d + 8 * t.n0 : Nat) : Int), 8 * (t.n1 - t.n0)))).toList else [])

/-- The path of the first damaged operand word of a tile. -/
def tileDamage (m : Mach) (q : Nat) (a : MmaArgs) (t : Tile) : Option Nat :=
  if m.bad.isEmpty then none
  else ((tileReads a t).flatMap (fun r => scrDamaged m q r.1.toNat r.2)).head?.map (fun c => pathBank m q (c.1 * 32))

/-- The damaged ECC words among byte ranges, each once. -/
def damagedOf (m : Mach) (q : Nat) (rs : List (Int × Nat)) : List (Nat × Nat) :=
  (rs.flatMap (fun r => scrDamaged m q r.1.toNat r.2)).eraseDups

/-- Outputs and statistics of a tile. -/
def tileOuts (a : MmaArgs) (t : Tile) : List (Int × Nat) :=
  ranges a.d t.b t.m0 t.m1 t.n0 t.n1 ++
    (a.s.map (fun d => (((dBase d + 4 * t.n0 : Nat) : Int), 4 * (t.n1 - t.n0)))).toList

/-- The end of an array instruction on a core: poison on failing tiles' outputs, ready bits on the other granules, counters,
and the exception. -/
def mmaEnd (p k : Nat) (o : EngOp) (a : MmaArgs) (bad : List (Nat × Tile × List ChkRec)) (tiles : Nat) (m : Mach) : Mach :=
  let outs := bad.flatMap (fun t => tileOuts a t.2.1)
  let has (l : List Nat) : Nat := bad.countP (fun t => t.2.2.any (fun r => l.contains r.source))
  let wait := (o.headAt.map (fun t => nsCycles m p (o.issued - t))).getD 0
  let recs := (firstRecs bad).map (ChkRec.log m p k)
  let logic := bad.head?.any (fun t => t.2.2.any (fun r => r.row == 32 || r.col == 32))
  let gs := granulesOf a.writes
  let m := m |> forEach outs (fun r => poisonRange p r.1.toNat r.2)
    |> forEach gs (unreserveGran p) |> forEach (granulesOf a.reads) (unpinGran p)
    |> setReady p true (gs.filter (fun g => !(granulesOf outs).contains g))
    |> inc (Reg.TC_CORE_CNT_ARRAY p k) |> addTo (Reg.TC_CORE_CNT_ARRAY_CYC p k) o.cycles
    |> wr (Reg.TC_CORE_LAST_CYCLES p k) o.cycles |> wr (Reg.TC_CORE_LAST_WAIT p k) (min wait (2 ^ 32 - 1))
    |> addTo (Reg.TC_CORE_CNT_CHK_TILES p k) tiles |> addTo (Reg.TC_CORE_CNT_CHK_FAIL p k) (has [1, 2, 3, 4, 9])
    |> addTo (Reg.TC_CORE_CNT_RES_FAIL p k) (has [5]) |> addTo (Reg.TC_CORE_CNT_DRAIN_FAIL p k) (has [6, 7])
    |> semAdd p (bitsAt o.word 15 4) 1
    |> ballastOn p k
    |> modCore p k (fun c => { c with idleAt := if (engine m p k).queue.isEmpty then some (now m) else none })
  match bad with
  | [] => repeatPassed p k o m
  | (j, _, _) :: _ => m |> wrb (Reg.TC_CORE_CHK_STATUS_MISMATCH p k) true
    |> mismatch p k k o 0xF j recs (pathCore m p k 1 63 63) logic

/-- An array instruction completes (R252, R253): its rows and statistics are written, and its checks decided. -/
def mmaComplete (q k : Nat) (ups : List ArrayUpset) (m : Mach) : Mach :=
  match (engine m q k).flight with
  | [] => m
  | o :: _ =>
    if now m < o.ends then m
    else
      let a := mmaArgs o
      let ws := mmaWs m q k
      let ts := mmaTiles a ws
      let tiles := ts.zipIdx.map (fun t => (t.1, upsetAt ups t.2))
      let g := seqBytes m q
      let r := mmaRun g a (injects tiles)
      let stats := (a.s.map (fun d => ((dBase d : Int), r.stats.flatMap (leBytes 4)))).toList
      let m1 := { m with draws := m.draws + 1 } |> takeDone q k |> writeWords q (r.rows ++ stats)
      if q = 8 then
        if rangesBad m 8 a.reads then partnerFault 2 (pathGroup m 15) m1
        else
          let c : ChkMode := {}
          let bad := failingTiles { g := g, a := a, tiles := tiles } c
          let gs := granulesOf a.writes
          let m1 := m1 |> forEach gs (unreserveGran 8) |> forEach (granulesOf a.reads) (unpinGran 8) |> setReady 8 true gs
            |> semAdd 8 (bitsAt o.word 15 4) 1
          if bad.isEmpty then m1 else raiseExc (o.site 8 k) 0xF 0 [] m1
      else
        let c : ChkMode := { ws := ws, bypass := rdb m (Reg.TC_CORE_CHK_STATUS_CHECK_BYPASSED q k),
                             residue := rdb m (Reg.TC_CORE_CHK_STATUS_RESIDUE_ON q k),
                             operand := fun j => (ts[j]?).bind (tileDamage m q a) }
        let bad := failingTiles { g := g, a := a, tiles := tiles, tol := rd m (Reg.TC_CORE_CHK_CTRL_TOL q k) } c
        let base : LogRec := { routineId := o.rid, instrAddr := o.pc, opcode := o.opcode, tag := o.tag }
        m1 |> forEach (damagedOf m q a.reads) (meetDamage base q true) |> countFormats q k r.counts
          |> mmaEnd q k o a bad ts.length |> killStep q

def execMmaComplete (q : Fin 9) (k : Fin 2) (ups : List ArrayUpset) (s : State) : Out := s.run (mmaComplete q k ups)

end Sys2Proof.Machine
end

