-- ==== Sys2Proof/Machine/Hbm.lean ====
section
/-!
DEFINITION. HBM (R449 to R466): what a read or write of it meets, who may touch which range (R35, R71, R564), accesses held in
self-refresh (R462), temperature, calibration and patrol scrub.
-/

namespace Sys2Proof.Machine

/-! ### The MEMORY section (R463) and the boxes of the SASH section (R422) -/

/-- A field of the MEMORY section; an absent section takes the default. -/
def memField (m : Mach) (off n dflt : Nat) : Nat := if (secOf m 0x13 0).isSome then secLe m 0x13 0 off n else dflt
def calDeferTurns (m : Mach) : Nat := memField m 0 2 16
def calDeferMs (m : Mach) : Nat := memField m 2 2 400
def scrubLimitS (m : Mach) : Nat := memField m 4 4 3600
/-- Patrol rate of a partition in bytes per ns. -/
def patrolRate (m : Mach) : Nat := 8 * 2 ^ memField m 8 1 2
def ceThreshold (m : Mach) : Nat := memField m 9 1 16

/-- A box of the SASH section. -/
structure BoxCfg where
  index : Nat
  dir   : Nat
  link  : Nat
  part  : Nat
  slots : Nat
  bytes : Nat
  base  : Nat
  peer  : Nat
deriving DecidableEq, Repr, Inhabited

def boxCount (m : Mach) : Nat := secLe m 0xE 0 1 1
def boxAt (m : Mach) (i : Nat) : BoxCfg :=
  let o := 0x60 + 32 * i
  let f (off n : Nat) : Nat := secLe m 0xE 0 (o + off) n
  ⟨i, f 0 1, f 1 1, f 2 1, f 3 1, f 4 4, f 8 8, f 0x10 1⟩
def boxCfgs (m : Mach) : List BoxCfg := (List.range (boxCount m)).map (boxAt m)

/-! ### Who may touch what (R35, R71, R564) -/

/-- Whether `n` bytes at `a` touch `len` bytes at `b`. -/
def touches (a n b len : Nat) : Bool := decide (a < b + len) && decide (b < a + n)

/-- Whether `n` bytes at `a` lie in `len` bytes at `b`. -/
def within (a n b len : Nat) : Bool := decide (b ≤ a) && decide (a + n ≤ b + len)

/-- Whether bytes lie in a range that only the loader writes (R71): the staging area while an alteration is in staging, and the
DEST range of a blob whose check has not passed. -/
def loaderOnly (m : Mach) (a n : Nat) : Bool :=
  (m.ldr.alter != .none && touches a n (stagingBase m) 0x1000000) ||
    (List.range (preloadCount m)).any (fun i => !m.ldr.passed.contains i &&
      touches a n (le (preload m i) 0x10 8) (le (preload m i) 0x18 8))

/-- Whether bytes touch a Sash box. -/
def touchesBox (m : Mach) (a n : Nat) : Bool := (boxCfgs m).any (fun b => touches a n b.base (b.slots * b.bytes))

/-- Whether bytes lie in populated HBM. -/
def inHbm (m : Mach) (a n : Nat) : Bool := decide (a + n ≤ hbmBytes m)

/-- Whether one range grants an owner an access (R564): `write` or read. Owner codes are those of R548. -/
def granted (m : Mach) (owner a n : Nat) (write : Bool) : Bool :=
  if owner = 1 ∨ owner = 0x41 ∨ owner = 0x60 then true
  else
    (regions m).any (fun r => r.owner == owner && bitOf r.access (b2n write) && within a n r.base r.bytes) ||
    (decide (0x58 ≤ owner) && decide (owner < 0x60) &&
      (let p := owner - 0x58
       (within a n (p * hbmEighth m) (hbmEighth m) && !touches a n (kvBase m p) (kvPages m p * 65536)) ||
       (!write && (streamEntries m).any (fun e => strPart e == p && within a n (strRegion e) (strRegionBytes e))) ||
       (!write && (ispEntries m).any (fun e => strPart (streamEntry m (le e 0 2)) == p &&
         within a n (ispRegion e) (ispRegionBytes e)))))

/-- Whether a copy of an owner may touch a range that is no Sash box (R564). -/
def rangeOk (m : Mach) (owner a n : Nat) (write : Bool) : Bool :=
  inHbm m a n && granted m owner a n write && !loaderOnly m a n && !touchesBox m a n

/-! ### ECC (R454 to R456) -/

/-- Unit path of the channel and pseudo-channel of an address (R449). -/
def pathHbm (m : Mach) (a : Nat) : Nat :=
  let ch := hbmChannel m a
  upath m (if ch < 16 then 2 else 3) ch (bitsAt a 10 1) 0 63 63

/-- Change a channel's own state. -/
def modChan (ch : Nat) (f : MemCh → MemCh) (m : Mach) : Mach := { m with chans := mmod m.chans ch f }

/-- A damaged ECC word is found: it is reported, and an uncorrectable one becomes poison. -/
def meetHbm (base : LogRec) (scrub : Bool) (c : Nat × Nat) (m : Mach) : Mach :=
  let a := c.1 * 8
  let ch := hbmChannel m a
  let m := m |> wr (Reg.MEM_ERR_ADDR ch) a |> wr (Reg.MEM_ERR_INFO_PC ch) (bitsAt a 10 1)
    |> wrb (Reg.MEM_ERR_INFO_POISONED ch) (c.2 == 2) |> wrb (Reg.MEM_ERR_INFO_BY_SCRUB ch) scrub
    |> wrb (Reg.MEM_ERR_INFO_NEW ch) true
  if c.2 = 2 then inc (Reg.MEM_CNT_POISON_READ ch) m
  else m |> inc (Reg.MEM_CNT_UE ch) |> logErr { base with path := pathHbm m a, source := 0x51, detail := leBytes 8 a }
    |> poisonWord c.1

/-- A correctable word is corrected on a read: counted, and a burst of them between two grid ticks is logged. -/
def countCe (w : Nat) (m : Mach) : Mach :=
  let a := w * 8
  let ch := hbmChannel m a
  let n := (mget m.chans ch).ceTurn + 1
  let m := m |> inc (Reg.MEM_CNT_CE ch) |> modChan ch (fun c => { c with ceTurn := n })
  if n = ceThreshold m + 1 then
    m |> wrb (Reg.MEM_STATUS_CE_BURST ch) true |> logErr { path := pathHbm m a, source := 0x51, detail := leBytes 8 a }
  else m

/-- The words with a correctable error that a range touches. -/
def softWords (m : Mach) (a n : Nat) : List Nat :=
  (m.soft.filter (fun c => decide ((eccSpan a n).1 ≤ c.1) && decide (c.1 < (eccSpan a n).2))).map (·.1)

/-- Errors that have come about in a range: correctable ones at addresses `ce`, uncorrectable ones at `ue`. -/
def upsetHbm (a n : Nat) (ce ue : List Nat) (m : Mach) : Mach :=
  let hit (x : Nat) : Bool := decide (a ≤ x) && decide (x < a + n)
  m |> forEach (ue.filter hit) (fun x m =>
      let w := x / 32 * 4
      if damage m x 1 = 0 then markBad w 1 { m with soft := eraseKey m.soft w } else m)
    |> forEach (ce.filter hit) (fun x m => if damage m x 1 = 0 then { m with soft := setD 0 m.soft (x / 32 * 4) 1 } else m)

/-- The verdict of a read of HBM (R456): 0 whole, 1 uncorrectable, 2 poisoned, with its counts and records. -/
def hbmVerdict (base : LogRec) (a n : Nat) (m : Mach) : Nat × Mach :=
  let l := damaged m a n
  ((l.foldl (fun k c => if k = 1 then 1 else c.2) 0),
    m |> forEach (softWords m a n) countCe |> forEach l (meetHbm base false))

/-- A write that the controller accepts (R451, R454): a word written in part is read first. -/
def hbmWrite (a : Nat) (bs : List Byte) (m : Mach) : Mach :=
  let n := bs.length
  let part (w : Nat) : Bool := decide (w * 8 < a) || decide (a + n < (w + 4) * 8)
  m |> forEach ((softWords m a n).filter part) countCe
    |> forEach ((damaged m a n).filter (fun c => part c.1)) (meetHbm {} false)
    |> writeMem a bs

/-! ### Accesses of masters (R35, R451, R462) -/

/-- Whether a range touches a channel in self-refresh (R461). -/
def inRefresh (m : Mach) (a n : Nat) : Bool :=
  (List.range (min 8 ((a + n - 1) / 256 + 1 - a / 256))).any (fun i => rd m (Reg.MEM_STATUS_STATE (hbmChannel m (a + 256 * i))) == 3) ||
    rd m (Reg.MEM_STATUS_STATE (hbmChannel m (a + n - 1))) == 3

/-- Whether a master other than PCIe reaches a range of HBM (R35). -/
def masterHbm (m : Mach) (w : Requester) (a n : Nat) (write : Bool) : Bool :=
  match w with
  | .hc _ => !touchesBox m a n
  | .mi _ => !touchesBox m a n
  | .dma _ => true
  | .walker _ => true
  | .isp => true
  | .ingress => write && (streamEntries m).any (fun e => within a n (strRegion e) (strRegionBytes e))
  | .sash l => (boxCfgs m).any (fun b => b.link == l && b.dir == 1 && within a n b.base (b.slots * b.bytes))
  | _ => false

/-- Whether R462 holds a master's access until the channels leave self-refresh; any other master's own rows say what it does. -/
def heldMaster (w : Requester) : Bool :=
  match w with
  | .hc _ => true
  | .mi _ => true
  | .dma _ => true
  | .sash _ => true
  | _ => false

/-- A read is performed: its data, or a bus error to the host cluster and the island. -/
def hbmReadNow (w : Requester) (a n : Nat) (ce ue : List Nat) (m : Mach) : Mach :=
  let bs := readMem m a n
  let (v, m) := hbmVerdict {} a n (upsetHbm a n ce ue m)
  match w with
  | .hc _ => emit (if v = 0 then .readBytes w bs else .busError w) m
  | .mi _ => emit (if v = 0 then .readBytes w bs else .busError w) m
  | _ => emit (if v = 0 then .readBytes w bs else .readPoisoned w n) m

/-- A write is performed. -/
def hbmWriteNow (a : Nat) (bs : List Byte) (ce ue : List Nat) (m : Mach) : Mach :=
  hbmWrite a bs (upsetHbm a bs.length ce ue m)

/-- A master's read of HBM. -/
def hbmRead (w : Requester) (a n : Nat) (ce ue : List Nat) (m : Mach) : Mach :=
  if n = 0 ∨ !awake m w then m
  else if !inHbm m a n || !masterHbm m w a n false then refuseAccess w 0 a m
  else if inRefresh m a n then
    if heldMaster w then { m with held := m.held ++ [{ who := w, addr := a, len := n, ce := ce, ue := ue }] } else m
  else hbmReadNow w a n ce ue m

/-- A master's write to HBM: one that touches a range of R71 is refused whole, with a bus error. -/
def hbmStore (w : Requester) (a : Nat) (bs : List Byte) (ce ue : List Nat) (m : Mach) : Mach :=
  let n := bs.length
  if n = 0 ∨ !awake m w then m
  else if !inHbm m a n || !masterHbm m w a n true then refuseAccess w 0 a m
  else if loaderOnly m a n then m |> emit (.busError w) |> hostIfAddr .writeRefused w 0 a
  else if inRefresh m a n then
    if heldMaster w then { m with held := m.held ++ [{ who := w, write := true, addr := a, len := n, data := bs, ce := ce, ue := ue }] }
    else m
  else hbmWriteNow a bs ce ue m

def execHbmRead (who : Requester) (addr len : Nat) (ce ue : List Nat) (s : State) : Out := s.run (hbmRead who addr len ce ue)
def execHbmWrite (who : Requester) (addr : Nat) (data : List Byte) (ce ue : List Nat) (s : State) : Out :=
  s.run (hbmStore who addr data ce ue)

/-! ### What each channel does first (R453, R457 to R460) -/

/-- Refresh has its cost inside R450 and R451 and changes nothing that the part holds. -/
def execHbmRefresh (_ch : Fin 32) (s : State) : Out := s.run id

/-- The controller reads a stack's temperature: refresh doubles above 85 °C and returns to normal below 82 °C. -/
def execHbmTempSample (stack : Fin 2) (temp : Int) (s : State) : Out := s.run (forEach (List.range 16) (fun j m =>
  let ch := 16 * stack + j
  let m := wri (Reg.MEM_TEMP ch) temp m
  if 85 < temp then wrb (Reg.MEM_STATUS_REFRESH_2X ch) true m
  else if temp < 82 then wrb (Reg.MEM_STATUS_REFRESH_2X ch) false m
  else m))

/-- A channel's calibration has been deferred for as many turns, or as long, as R459 allows. -/
def execCalOverdue (ch : Fin 32) (s : State) : Out := s.run (fun m =>
  let c := mget m.chans ch
  if c.calDefer ≠ 0 ∧ (calDeferTurns m ≤ c.calDefer ∨ 1000000 * calDeferMs m ≤ now m - c.deferAt) then
    wrb (Reg.MEM_STATUS_CAL_OVERDUE ch) true m
  else m)

/-- A channel is calibrated: its age and deferral start again; one that was overdue is counted. -/
def calibrate (ch : Nat) (m : Mach) : Mach :=
  m |> whenB (rdb m (Reg.MEM_STATUS_CAL_OVERDUE ch)) (inc (Reg.MEM_CNT_CAL_OVERDUE ch))
    |> wrb (Reg.MEM_STATUS_CAL_OVERDUE ch) false |> wr (Reg.MEM_CAL_AGE ch) 0 |> inc (Reg.MEM_CNT_CAL ch)
    |> modChan ch (fun c => { c with calAt := now m, calDefer := 0, deferAt := 0 })

/-- A channel's calibration is deferred for a turn. -/
def deferCal (ch : Nat) (m : Mach) : Mach :=
  modChan ch (fun c => { c with calDefer := c.calDefer + 1, deferAt := if c.calDefer = 0 then now m else c.deferAt }) m

/-- A patrol pass has not completed within its limit. -/
def execScrubPassTimeout (ch : Fin 32) (s : State) : Out := s.run (fun m =>
  let c := mget m.chans ch
  if rd m (Reg.MEM_STATUS_STATE ch) = 2 ∧ 1000000000 * scrubLimitS m ≤ now m - c.passAt ∧
      !rdb m (Reg.MEM_STATUS_SCRUB_STARVED ch) then
    let a := ch / 4 * hbmEighth m + ch % 4 * 256
    m |> wrb (Reg.MEM_STATUS_SCRUB_STARVED ch) true |> logErr { path := pathHbm m a, source := 0x51, detail := leBytes 8 a }
  else m)

/-- The place of an 8-byte word in its channel's order of ECC words. -/
def scrubPlace (m : Mach) (w : Nat) : Nat := w * 8 % hbmEighth m / 1024 * 8 + w * 8 % 256 / 32

/-- Patrol scrub reads the next `n` ECC words of a channel in address order (R457). -/
def scrubChan (ch n : Nat) (m : Mach) : Mach :=
  let all := hbmEighth m / 128
  let c := mget m.chans ch
  let n := min n (all - c.scrubbed)
  let due (w : Nat) : Bool := decide (w * 8 < hbmBytes m) && decide (hbmChannel m (w * 8) = ch) &&
    decide (c.scrubbed ≤ scrubPlace m w) && decide (scrubPlace m w < c.scrubbed + n)
  let soft := (m.soft.map (·.1)).filter due
  let m := m |> forEach (m.bad.filter (fun c => due c.1)) (meetHbm {} true)
    |> forEach soft (fun w m => inc (Reg.MEM_CNT_SCRUB_FIX ch) { m with soft := eraseKey m.soft w })
  if c.scrubbed + n = all then
    m |> inc (Reg.MEM_CNT_SCRUB_PASS ch) |> modChan ch (fun c => { c with scrubbed := 0, passAt := now m })
  else modChan ch (fun c => { c with scrubbed := c.scrubbed + n }) m

/-- Patrol scrub of a partition's channels for a time, at the rate that MEMORY sets, shared among the four. -/
def patrolScrub (p ns : Nat) (m : Mach) : Mach :=
  forEach (List.range 4) (fun j => scrubChan (4 * p + j) (ns * patrolRate m / 128)) m

end Sys2Proof.Machine
end

