-- ==== Sys2Proof/Machine/SashBase.lean ====
section
/-!
DEFINITION. Sending on a Sash link (R435, R436): frames wait for credits and the replay buffer, VC 0 first, then VC 1 and VC 2 in
turn.
-/

namespace Sys2Proof.Machine

def modLink (l : Nat) (f : SLink → SLink) (m : Mach) : Mach := { m with links := mmod m.links l f }
def modBox (i : Nat) (f : Box → Box) (m : Mach) : Mach := { m with boxes := mmod m.boxes i f }

/-- States of R444. -/
def linkState (m : Mach) (l : Nat) : Nat := rd m (Reg.SASH_STATUS_STATE l)

/-- Rows of a frame: the FRAME row and its data rows. -/
def SFrame.rows (f : SFrame) : Nat := 1 + ceilDiv f.data.length 64

/-- Whether a frame may go now. -/
def canSend (x : SLink) (f : SFrame) : Bool :=
  decide (f.rows ≤ x.credits.getD f.vc 0) && decide (((f :: x.unacked).map (fun u => 64 * u.rows)).sum ≤ 0x80000)

/-- The first frame of a VC that may go. -/
def headOf (x : SLink) (vc : Nat) : Option SFrame :=
  match x.queue.find? (fun f => f.vc == vc) with
  | some f => if canSend x f then some f else none
  | none => none

/-- The frame that goes next. -/
def nextFrame (x : SLink) : Option SFrame :=
  headOf x 0 <|> (if x.vcTurn then headOf x 2 <|> headOf x 1 else headOf x 1 <|> headOf x 2)

/-- A frame goes out with the next SEQ and joins the replay buffer. -/
def sendOne (l : Nat) (f : SFrame) (m : Mach) : Mach :=
  let x := mget m.links l
  let g := { f with seq := x.txSeq }
  m |> modLink l (fun x => { x with
      queue := dropFirst (fun u => u == f) x.queue, unacked := x.unacked ++ [g], txSeq := (x.txSeq + 1) % 65536,
      credits := x.credits.zipIdx.map (fun c => if c.2 = f.vc then c.1 - f.rows else c.1),
      ackAt := if x.unacked.isEmpty then now m else x.ackAt, vcTurn := if f.vc = 0 then x.vcTurn else f.vc == 1 })
    |> emit (.sashFrame l g.vc g.kind g.seq g.fields g.data)

/-- Send what may go. -/
def pumpN (l : Nat) : Nat → Mach → Mach
  | 0, m => m
  | n + 1, m =>
    if linkState m l ≠ 2 then m
    else match nextFrame (mget m.links l) with
      | none => m
      | some f => pumpN l n (sendOne l f m)

def pump (l : Nat) (m : Mach) : Mach := pumpN l (mget m.links l).queue.length m

/-- A frame waits for its turn. -/
def sendFrame (l : Nat) (f : SFrame) (m : Mach) : Mach :=
  m |> modLink l (fun x => { x with queue := x.queue ++ [f] }) |> pump l

/-- KIND codes of R435. -/
def SFrame.refMsg : Nat := 0
def SFrame.refAck : Nat := 1
def SFrame.pageReq : Nat := 2
def SFrame.pageData : Nat := 3
def SFrame.pageGone : Nat := 4
def SFrame.pageErr : Nat := 5
def SFrame.slotData : Nat := 6
def SFrame.slotFree : Nat := 7

/-- Unit path 0.C.SL.l. -/
def pathSash (m : Mach) (l : Nat) : Nat := upath m 0 20 l 0 63 63

/-- An inbox slot is FREE again: its credit goes to the sender (R440). Slot credits that a link cannot carry yet wait in its
queue. -/
def grantSlot (i : Nat) (m : Mach) : Mach :=
  let b := boxAt m i
  sendFrame b.link { vc := 2, kind := SFrame.slotFree, fields := [b.peer] } m

end Sys2Proof.Machine
end

