-- ==== Sys2Proof/Machine/Dma.lean ====
section
/-!
DEFINITION. The DMA engine (R322 to R325, R332, R333): copies with their checks and seams (R237 to R239), Sash box slots (R439,
R440), and the payloads of RESULT and GRID.
-/

namespace Sys2Proof.Machine

/-! ### Descriptors of a copy (R310, R322 to R324) -/

/-- Bytes of a row of a kind 1 or kind 3 descriptor. -/
def copyRow (d : TDesc) : Nat := if dKind d = 3 then dRow d else rowBytesOf (dFmt d) (dK d)

/-- Address of row `i` of a copy's descriptor. -/
def copyAddr (d : TDesc) (i : Nat) : Int :=
  if dKind d = 3 then
    let n1 := dN d 0
    let n2 := dN d 1
    (dAddr d : Int) + (i % n1 : Nat) * dS d 0 + (i / n1 % n2 : Nat) * dS d 1 + (i / n1 / n2 : Nat) * dS d 2
  else rowAddr d 0 i

/-- Rows of a copy. -/
def copyRows (d : TDesc) : Nat := dN d 0 * dN d 1 * dN d 2

/-- The byte ranges of a descriptor's rows. -/
def copyRanges (d : TDesc) : List (Int × Nat) := (List.range (copyRows d)).map (fun i => (copyAddr d i, copyRow d))

/-- The entries of its check table. -/
def chkRanges (d : TDesc) : List (Int × Nat) :=
  if dKind d = 3 ∧ dCheck d = 1 then (List.range (copyRows d)).map (fun i => ((dChk d + 4 * i : Nat), 4)) else []

/-- Row indices in the order that ORDER nests the dimensions, outermost first (R323). -/
def copyOrder (d : TDesc) (order : Nat) : List Nat :=
  let r (j : Nat) : List Nat := List.range (dN d (j - 1))
  let ix (i1 i2 i3 : Nat) : Nat := i1 + dN d 0 * (i2 + dN d 1 * i3)
  let nest (x y z : Nat) (f : Nat → Nat → Nat → Nat) : List Nat :=
    (r x).flatMap (fun a => (r y).flatMap (fun b => (r z).map (fun c => f a b c)))
  match order with
  | 0 => nest 3 2 1 (fun a b c => ix c b a)
  | 1 => nest 3 1 2 (fun a b c => ix b c a)
  | 2 => nest 2 3 1 (fun a b c => ix c a b)
  | 3 => nest 2 1 3 (fun a b c => ix b a c)
  | 4 => nest 1 3 2 (fun a b c => ix a c b)
  | _ => nest 1 2 3 (fun a b c => ix a b c)

/-- A CHECK code that its descriptor's shape accepts, as a source or a destination (R324). -/
def checkOk (d : TDesc) (src : Bool) : Bool :=
  match dCheck d with
  | 0 => true
  | 1 => true
  | 2 => src && decide (copyRows d = 1)
  | 3 => src && decide (dRow d = 64)
  | 4 => src && decide (dRow d = 128)
  | 5 => decide (8 ≤ dRow d)
  | _ => false

/-- What COPY_DESC refuses (R322, R324). -/
def copyDescBad (s d : TDesc) (order : Nat) : Bool :=
  let fmtBad (x : TDesc) : Bool := dKind x == 1 && decide (fmtBits (dFmt x) = 0)
  6 ≤ order || fmtBad s || fmtBad d || [0, 1, 2].any (fun i => dN s i != dN d i || dN s i == 0) || copyRow s != copyRow d ||
    copyRow s == 0 || decide (16777215 < copyRow s) || (dKind s == 3 && !checkOk s true) || (dKind d == 3 && !checkOk d false) ||
    (dKind s == dKind d && meetRanges (copyRanges s) (copyRanges d))

/-! ### Boxes (R439, R440) -/

/-- The box and slot that a byte range lies in whole, if it does. -/
def slotOf (m : Mach) (a n : Nat) : Option (BoxCfg × Nat) :=
  (boxCfgs m).findSome? (fun b =>
    if b.base ≤ a ∧ 0 < b.bytes ∧ a + n ≤ b.base + b.slots * b.bytes ∧ (a - b.base) / b.bytes = (a + n - 1 - b.base) / b.bytes then
      some (b, (a - b.base) / b.bytes)
    else none)

/-- The box slot that a whole slot's descriptor names: one row with a TRAILER at the slot's base. -/
def wholeSlot (m : Mach) (d : TDesc) : Option (BoxCfg × Nat) :=
  if dKind d = 3 ∧ dCheck d = 5 ∧ copyRows d = 1 then
    match slotOf m (dAddr d) (dRow d) with
    | some (b, i) => if dRow d = b.bytes ∧ dAddr d = b.base + i * b.bytes then some (b, i) else none
    | none => none
  else none

/-- Whether a copy of a partition may read bytes of an inbox: its own box's, of ARRIVED slots. -/
def inboxRead (m : Mach) (p a n : Nat) : Bool :=
  (boxCfgs m).any (fun b => b.dir == 1 && b.part == p && within a n b.base (b.slots * b.bytes) &&
    (List.range b.slots).all (fun i => !touches a n (b.base + i * b.bytes) b.bytes || (mget m.boxes b.index).used.contains i))

/-- Whether a partition's copy may post a slot of an outbox. -/
def outboxPost (m : Mach) (p : Nat) (d : TDesc) : Bool :=
  match wholeSlot m d with
  | some (b, i) => b.dir == 0 && b.part == p && !(mget m.boxes b.index).used.contains i
  | none => false

/-- Whether a partition's copy may touch a range of HBM that it names. -/
def copyHbmOk (m : Mach) (p : Nat) (r : Int × Nat) (write : Bool) : Bool :=
  decide (0 ≤ r.1) && rangeOk m (0x58 + p) r.1.toNat r.2 write

/-- Whether every byte a copy's descriptor names is in bounds (R325, R439, R440, R564). -/
def copyBoundsOk (m : Mach) (q : Nat) (d : TDesc) (write : Bool) : Bool :=
  let rs := copyRanges d
  if dKind d = 3 then
    (if rs.any (fun r => touchesBox m r.1.toNat r.2) then
      if write then outboxPost m q d else rs.all (fun r => decide (0 ≤ r.1) && inboxRead m q r.1.toNat r.2)
    else rs.all (fun r => copyHbmOk m q r write)) && (chkRanges d).all (fun r => copyHbmOk m q r write)
  else rs.all (fun r => spanOk m q r.1 (r.1 + r.2))

/-! ### Decode and issue (R325, R332, R333) -/

/-- The source and destination of a copy, and its ORDER. -/
def EngOp.src (o : EngOp) : TDesc := o.descs.getD 0 0
def EngOp.dst (o : EngOp) : TDesc := o.descs.getD 1 0
def EngOp.order (o : EngOp) : Nat := bitsAt o.word 45 3

/-- Whether every bank of a scratch descriptor's rows is leased to class D. -/
def dmaLeased (m : Mach) (p : Nat) (rs : List (Int × Nat)) : Bool := rs.all (fun r => leasedTo m p r.1.toNat r.2 laneD)

/-- The exception at decode of a copy, in the order of the codes. -/
def copyFault (m : Mach) (p : Nat) (o : EngOp) : Option Nat :=
  let kindOk (d : TDesc) : Bool := dKind d == 1 || dKind d == 3
  let leased (d : TDesc) : Bool := dKind d == 3 || dmaLeased m p (copyRanges d)
  if !kindOk o.src || !kindOk o.dst then some 7
  else if copyDescBad o.src o.dst o.order then some 0x16
  else if !copyBoundsOk m p o.src false || !copyBoundsOk m p o.dst true then some 0x17
  else if !leased o.src || !leased o.dst then some 0x18
  else none

/-- The payload of a RESULT or GRID: the rows of a kind 1 tensor or the bytes of a kind 4. -/
def payRanges (d : TDesc) : List (Int × Nat) := if dKind d = 4 then [((dBase d : Int), dBytes d % 2 ^ 24)] else copyRanges d
def payBytes (d : TDesc) : Nat := ((payRanges d).map (·.2)).sum

/-- The exception at decode of a payload. -/
def payFault (m : Mach) (q : Nat) (o : EngOp) : Option Nat :=
  let d := o.src
  if dKind d ≠ 4 ∧ ¬ (dKind d = 1 ∧ o.opcode = 0x7C) then some 7
  else if payBytes d = 0 ∨ 16777215 < payBytes d then some 0x16
  else if !(payRanges d).all (fun r => spanOk m q r.1 (r.1 + r.2)) then some 0x17
  else none

/-- What an instruction of the DMA queue reads from scratch, and what it writes there. -/
def dmaReads (o : EngOp) : List (Int × Nat) :=
  if o.opcode = 0x60 then (if dKind o.src = 1 then copyRanges o.src else []) else payRanges o.src
def dmaWrites (o : EngOp) : List (Int × Nat) := if o.opcode = 0x60 ∧ dKind o.dst = 1 then copyRanges o.dst else []

/-- The head of a DMA queue is decoded, and issues once its granules allow. -/
def dmaIssue (q : Nat) (m : Mach) : Mach :=
  match (engine m q 4).queue with
  | [] => m
  | o :: _ =>
    match (if o.opcode = 0x60 then copyFault m q o else payFault m q o) with
    | some c => decodeFault q 4 o c 0 m
    | none =>
      let rd' := granulesOf (dmaReads o)
      let wr' := granulesOf (dmaWrites o)
      if !allReady m q rd' then holdHead q 4 o 4 m
      else if !writable m q wr' then holdHead q 4 o 8 m
      else m |> forEach wr' (reserveGran q) |> forEach rd' (pinGran q) |> takeIssue q 4 o 0

def execCopyIssue (q : Fin 9) (s : State) : Out := s.run (dmaIssue q)

/-! ### Seams 7 and 11 (R237 to R239) -/

/-- The packet records of a row (R159): the headers run to its end, and every payload passes. -/
def packetsOk : Nat → List Byte → Bool
  | 0, bs => bs.isEmpty
  | n + 1, bs =>
    if bs.isEmpty then true
    else
      let len := le bs 4 2
      decide (16 + len ≤ bs.length) && le bs 12 4 == crc32c ((bs.drop 16).take len) && packetsOk n (bs.drop (16 + roundUp len 16))

/-- The check a source's CHECK names holds for row `i` (R324). -/
def rowPasses (m : Mach) (d : TDesc) (i : Nat) (bs : List Byte) : Bool :=
  if dKind d ≠ 3 then true
  else match dCheck d with
    | 1 => memLe m (dChk d + 4 * i) 4 == crc32c bs
    | 2 => packetsOk (bs.length / 16 + 1) bs
    | 3 => le bs 0x3C 4 == crc32c (bs.take 0x3C)
    | 4 => le bs 0x7C 4 == crc32c (bs.take 0x7C)
    | 5 => le bs (bs.length - 4) 4 == crc32c (bs.take (bs.length - 4))
    | _ => true

/-- The address of a descriptor's row: HBM, or scratch. -/
def copyDev (m : Mach) (p : Nat) (d : TDesc) (i : Nat) : Nat :=
  if dKind d = 3 then (copyAddr d i).toNat else psaAddr m p (copyAddr d i).toNat

/-- The verdict of one row's read: 0 whole, 1 a CRC, 2 uncorrectable, 3 poison. Its table entry is read with it. -/
def rowVerdict (base : LogRec) (p : Nat) (d : TDesc) (i : Nat) (m : Mach) : Nat × Mach :=
  let n := copyRow d
  let bs := readMem m (copyDev m p d i) n
  let ok := rowPasses m d i bs
  let (v, m) :=
    if dKind d = 3 then
      let (v, m) := hbmVerdict base (copyAddr d i).toNat n m
      if dCheck d = 1 then
        let (u, m) := hbmVerdict base (dChk d + 4 * i) 4 m
        (if v = 0 then u else v, m)
      else (v, m)
    else scrVerdict base p true (copyAddr d i).toNat n m
  let m := if dKind d = 3 ∧ v = 2 then inc (Reg.TC_CNT_SEAM_POISON p) m else m
  (if v = 0 then b2n (!ok) else v + 1, m)

/-- Row `i` is written poisoned (R238). -/
def poisonRow (p : Nat) (d : TDesc) (i : Nat) (m : Mach) : Mach :=
  let n := copyRow d
  if dKind d = 3 then
    let (lo, hi) := eccSpan (copyAddr d i).toNat n
    forEach (List.range ((hi - lo) / 4)) (fun j => poisonWord (lo + 4 * j)) m
  else poisonRange p (copyAddr d i).toNat n m

/-- Row `i` is written with its outgoing check (R324). -/
def writeRow (p : Nat) (d : TDesc) (i : Nat) (bs : List Byte) (m : Mach) : Mach :=
  if dKind d ≠ 3 then scrWrite p (copyAddr d i).toNat bs m
  else
    let a := (copyAddr d i).toNat
    match dCheck d with
    | 1 => m |> hbmWrite a bs |> hbmWrite (dChk d + 4 * i) (leBytes 4 (crc32c bs))
    | 5 => hbmWrite a (bs.take (bs.length - 4) ++ leBytes 4 (crc32c (bs.take (bs.length - 4)))) m
    | _ => hbmWrite a bs m

/-- A failed verdict of the DMA engine: the seam's counter and TC_SEAM_LAST. Verdict kinds are those of `rowVerdict`. -/
def seamFailed (p seam kind tag : Nat) (m : Mach) : Mach :=
  m |> inc (if seam = 7 then Reg.TC_CNT_SEAM_DMA_IN p else Reg.TC_CNT_SEAM_DMA_OUT p) |> seamLast p seam (kind - 1) false tag

/-- The record of a failed verdict, and COPY_CHECK. -/
def copyCheck (q seam : Nat) (o : EngOp) (m : Mach) : Mach :=
  raiseExc (o.site q 4) 0x19 0 [{ path := pathEngine m q (some 4), source := 0x50, seam := seam }] m

/-- The oldest instruction of a DMA queue leaves flight, its granules are let go, and its semaphore rises. -/
def dmaLeave (q : Nat) (o : EngOp) (sem : Nat) (m : Mach) : Mach :=
  m |> takeDone q 4 |> forEach (granulesOf (dmaWrites o)) (unreserveGran q) |> forEach (granulesOf (dmaReads o)) (unpinGran q)
    |> semAdd q sem 1

/-- One row of a copy is read, judged and written; the flag and the kind of a failure go on. -/
def copyOne (p : Nat) (o : EngOp) (seam : Nat) (i : Nat) (r : Bool × Mach) : Bool × Mach :=
  let m := r.2
  let bs := readMem m (copyDev m p o.src i) (copyRow o.src)
  let base : LogRec := { routineId := o.rid, instrAddr := o.pc, opcode := o.opcode, tag := o.tag }
  let (v, m) := rowVerdict base p o.src i m
  if v = 0 then (r.1, writeRow p o.dst i bs m) else (true, m |> poisonRow p o.dst i |> seamFailed p seam v o.tag)

/-- TC_SASH_BOX of a box: slots FREE (outbox) or ARRIVED (inbox), and the next of them (R448). -/
def syncBox (i : Nat) (m : Mach) : Mach :=
  let b := boxAt m i
  let x := mget m.boxes i
  m |> wr (Reg.TC_SASH_BOX_COUNT b.part i) (if b.dir = 0 then b.slots - x.used.length else x.used.length)
    |> wr (Reg.TC_SASH_BOX_NEXT b.part i) (if b.dir = 0 then x.next else x.used.headD x.next)

/-- A copy has moved every row whole: a slot of an outbox becomes POSTED, a whole slot read from an inbox is freed and granted
anew, and the granules of a scratch destination become ready. -/
def copyDone (q : Nat) (o : EngOp) (m : Mach) : Mach :=
  let m := match wholeSlot m o.dst with
    | some (b, i) =>
      if linkState m b.link = 1 then inc (Reg.SASH_CNT_SLOTS_LOST b.link) m
      else m |> modBox b.index (fun x => { x with used := x.used ++ [i] }) |> syncBox b.index
    | none => m
  let m := match wholeSlot m o.src with
    | some (b, i) => m |> modBox b.index (fun x => { x with used := x.used.filter (· != i) }) |> syncBox b.index |> grantSlot b.index
    | none => m
  if dKind o.dst = 1 then setReady q true (granulesOf (copyRanges o.dst)) m else m

/-- Whether a copy touches a channel of another partition that is in self-refresh: it is held until exit (R462). -/
def copyHeld (m : Mach) (d : TDesc) : Bool :=
  dKind d == 3 && (copyRanges d ++ chkRanges d).any (fun r => inRefresh m r.1.toNat r.2)

/-- A copy completes. -/
def copyComplete (q : Nat) (o : EngOp) (m : Mach) : Mach :=
  if copyHeld m o.src || copyHeld m o.dst then m
  else
    let seam := if dKind o.src = 3 then 7 else 11
    let (bad, m) := (copyOrder o.src o.order).foldl (fun r i => copyOne q o seam i r) (false, m)
    let m := dmaLeave q o (bitsAt o.word 41 4) m
    killStep q (if bad then copyCheck q seam o m else copyDone q o m)

/-- The bytes of a payload, and the verdict of seam 11 over them. -/
def payRead (q : Nat) (o : EngOp) (m : Mach) : List Byte × Nat × Mach :=
  let base : LogRec := { routineId := o.rid, instrAddr := o.pc, opcode := o.opcode, tag := o.tag }
  let bs := (payRanges o.src).flatMap (fun r => readMem m (seqAddr m q r.1.toNat) r.2)
  let (v, m) := (payRanges o.src).foldl (fun (x : Nat × Mach) r =>
    if q = 8 then (if x.1 = 0 then damage x.2 (ptnAddr r.1.toNat) r.2 else x.1, x.2)
    else
      let (u, m) := scrVerdict base q true r.1.toNat r.2 x.2
      (if x.1 = 0 then u else x.1, m)) (0, m)
  (bs, if v = 0 then 0 else v + 1, m)

/-- A GRID completes: the grid leaves for the Caller. -/
def gridComplete (q : Nat) (o : EngOp) (m : Mach) : Mach :=
  let (bs, v, m) := payRead q o m
  let m := dmaLeave q o 0 m
  if v = 0 then killStep q { m with grids := m.grids ++ [{ partner := q == 8, tag := o.vals.headD 0, data := bs }] }
  else if q = 8 then partnerFault 2 (pathGroup m 15) m
  else killStep q (m |> seamFailed q 11 v o.tag |> copyCheck q 11 o)

/-- The oldest COPY or GRID in flight completes. -/
def execCopyComplete (q : Fin 9) (s : State) : Out := s.run (fun m =>
  match (engine m q 4).flight with
  | [] => m
  | o :: _ => if o.opcode = 0x60 then copyComplete q o m else if o.opcode = 0x7D then gridComplete q o m else m)

/-- The payload CRC of the oldest RESULT in flight is formed, and it commits (R614). -/
def execResultCommit (p : Fin 8) (s : State) : Out := s.run (fun m =>
  match (engine m p 4).flight with
  | [] => m
  | o :: _ =>
    if o.opcode ≠ 0x7C then m
    else
      let (bs, v, m) := payRead p o m
      let m := dmaLeave p o 0 m
      killStep p (if v = 0 then commitResult p (o.vals.headD 0) (o.vals.getD 1 0) bs m
        else m |> modSeq p (fun x => { x with results := x.results.filter (· != o.vals.headD 0) }) |> seamFailed p 11 v o.tag
          |> copyCheck p 11 o))

end Sys2Proof.Machine
end

