-- ==== Sys2Proof/Machine/Kv.lean ====
section
/-!
DEFINITION. The KV walker (R387 to R417): the pool, handles and page tables, KVLD, KVST and KVREF, the commands of KV_CMD, reference
messages, mirrors and page reads, and what a partition reset leaves to complete.
-/

namespace Sys2Proof.Machine

/-! ### Results and reasons (R413) -/

/-- What a step of an operation leaves: a reason where it fails, and the machine with what it did until then. -/
abbrev Walk := Option Nat × Mach

def Walk.then (x : Walk) (f : Mach → Walk) : Walk :=
  match x with
  | (none, m) => f m
  | r => r

def walkOk (m : Mach) : Walk := (none, m)
def walkEach {α : Type} (l : List α) (f : α → Mach → Walk) (m : Mach) : Walk := l.foldl (fun x a => x.then (f a)) (none, m)

def Kvr.badHandle : Nat := 1
def Kvr.stale : Nat := 2
def Kvr.range : Nat := 3
def Kvr.kind : Nat := 4
def Kvr.dropped : Nat := 5
def Kvr.notResident : Nat := 6
def Kvr.pending : Nat := 7
def Kvr.refcount : Nat := 8
def Kvr.poolEmpty : Nat := 9
def Kvr.tableEcc : Nat := 0xA
def Kvr.dataEcc : Nat := 0xB
def Kvr.unreachable : Nat := 0xC
def Kvr.gone : Nat := 0xD

/-- A metadata read: TABLE_ECC where a word of it is damaged. -/
def kvCheck (a n : Nat) (m : Mach) : Walk :=
  let (v, m) := hbmVerdict {} a n m
  (if v = 0 then none else some Kvr.tableEcc, m)

/-! ### Handles (R390, R391) -/

/-- A handle entry. -/
structure Handle where
  idx   : Nat := 0
  kind  : Nat := 0
  rlog  : Nat := 6
  layers : Nat := 1
  epoch : Nat := 0
  ref   : Nat := 0
  len   : Nat := 0
  max   : Nat := 1
  dropFrom : Nat := 0xFFFFFFFF
  dropped : Nat := 0
  dir   : Nat := 0
  gen   : Nat := 0
  commitTag : Nat := 0
  pendTag : Nat := 0
deriving DecidableEq, Repr, Inhabited

def readHandle (m : Mach) (p i : Nat) : Handle :=
  let b := readMem m (kvEntry m p i) 64
  { idx := i, kind := le b 0 1, rlog := le b 1 1, layers := le b 2 2, epoch := le b 4 2, ref := le b 6 2, len := le b 8 4,
    max := le b 0xC 4, dropFrom := le b 0x10 4, dropped := le b 0x14 4, dir := le b 0x18 4, gen := le b 0x1C 1,
    commitTag := le b 0x20 4, pendTag := le b 0x24 4 }

def Handle.bytes (h : Handle) : List Byte :=
  leBytes 1 h.kind ++ leBytes 1 h.rlog ++ leBytes 2 h.layers ++ leBytes 2 h.epoch ++ leBytes 2 h.ref ++ leBytes 4 h.len ++
    leBytes 4 h.max ++ leBytes 4 h.dropFrom ++ leBytes 4 h.dropped ++ leBytes 4 h.dir ++ leBytes 4 h.gen ++
    leBytes 4 h.commitTag ++ leBytes 4 h.pendTag ++ zeros 24

def putHandle (p : Nat) (h : Handle) (m : Mach) : Mach := writeMem (kvEntry m p h.idx) h.bytes m

/-- A free entry: zero but for its EPOCH, which has moved on. -/
def clearHandle (p i epoch : Nat) (m : Mach) : Mach :=
  writeMem (kvEntry m p i) (zeros 4 ++ leBytes 2 ((epoch + 1) % 65536) ++ zeros 58) m

/-- The 32-bit value of a handle. -/
def Handle.value (h : Handle) : Nat := h.idx + h.epoch * 4096

/-- Tokens per page, blocks, and the first PTE index of a generation's layer (R391, R392). -/
def Handle.tpp (h : Handle) : Nat := 65536 / 2 ^ h.rlog
def Handle.blocks (h : Handle) : Nat := ceilDiv h.max h.tpp
def Handle.pte (h : Handle) (g l b : Nat) : Nat := (g * h.layers + l) * h.blocks + b
/-- PTEs of a handle: one generation of a sequence, two of a temporal handle. -/
def Handle.ptes (h : Handle) : Nat := (if h.kind = 2 then 2 else 1) * h.layers * h.blocks
def Handle.temporal (h : Handle) : Bool := h.kind == 2

/-- The entry that a handle value names. An old EPOCH is stale, also where the entry is free by now (R390, R410). -/
def withHandle (p v : Nat) (f : Handle → Mach → Walk) (m : Mach) : Walk :=
  let i := v % 4096
  if kvPages m p = 0 ∨ 2 ^ 28 ≤ v ∨ i = 0 then (some Kvr.badHandle, m)
  else (kvCheck (kvEntry m p i) 64 m).then (fun m =>
    let h := readHandle m p i
    if h.epoch ≠ v / 4096 then (some Kvr.stale, m)
    else if h.kind = 0 then (some Kvr.badHandle, m)
    else f h m)

/-! ### Pages (R393, R403) -/

/-- Whether the free pages of the general sub-pool have fallen below KV_POOL_LOW. -/
def lowWater (p before : Nat) (m : Mach) : Mach :=
  let low := rd m (Reg.KV_POOL_LOW p)
  if rd m (Reg.KV_POOL_FREE p) < low then
    m |> wrb (Reg.KV_STATUS_LOW_WATER p) true |> whenB (decide (low ≤ before)) (emit (.hcSignal p))
  else m

/-- Hand out the first free page of a sub-pool. USE 1 data, 2 directory or table, 3 mirror. -/
def allocPage (p use : Nat) (temporal : Bool) (f : Nat → Mach → Walk) (m : Mach) : Walk :=
  let k := mget m.kvs p
  match (if temporal then k.headT else k.headG) with
  | none => (some Kvr.poolEmpty, m)
  | some i => (kvCheck (kvDesc m p i) 8 m).then (fun m =>
      let nx := kvNext m p i
      let free := if temporal then Reg.KV_POOL_TFREE p else Reg.KV_POOL_FREE p
      let before := rd m free
      m |> modKv p (fun k => if temporal then { k with headT := nx } else { k with headG := nx })
        |> kvSetDesc p i 1 use false temporal none |> wr free (before - 1) |> inc (Reg.KV_CNT_ALLOC p)
        |> whenB (!temporal) (lowWater p before) |> f i)

/-- A page loses a reference; at its last it is freed. -/
def decRef (p i : Nat) (m : Mach) : Walk :=
  (kvCheck (kvDesc m p i) 8 m).then (fun m =>
    let r := kvRef m p i
    walkOk (if r ≤ 1 then kvFree p i m else kvSetDesc p i (r - 1) (kvUse m p i) false (kvIsTemporal m p i) none m))

/-- A page gains a reference (R398). -/
def incRef (p i : Nat) (m : Mach) : Walk :=
  (kvCheck (kvDesc m p i) 8 m).then (fun m =>
    let r := kvRef m p i
    if r = 65535 then (some Kvr.refcount, m)
    else walkOk (kvSetDesc p i (r + 1) (kvUse m p i) false (kvIsTemporal m p i) none m))

/-- A freed page has been written as zero, and goes to the head of its sub-pool's free list. -/
def execKvPageZeroComplete (p : Fin 8) (s : State) : Out := s.run (fun m =>
  match (mget m.kvs p).zeroing with
  | [] => m
  | i :: r =>
    let t := kvIsTemporal m p i
    let k := mget m.kvs p
    let a := kvPage m p i
    let free := if t then Reg.KV_POOL_TFREE p else Reg.KV_POOL_FREE p
    m |> zeroMem a (a + 65536) |> kvSetDesc p i 0 0 false t (if t then k.headT else k.headG)
      |> modKv p (fun k => if t then { k with zeroing := r, headT := some i } else { k with zeroing := r, headG := some i })
      |> inc free |> inc (Reg.KV_CNT_FREED p))

/-- Chain pages `lo` to `hi - 1` into a free list, lowest first. -/
def chainPages (p lo hi : Nat) (temporal : Bool) (m : Mach) : Mach :=
  forEach (List.range (hi - lo)) (fun j =>
    kvSetDesc p (lo + j) 0 0 false temporal (if j + 1 = hi - lo then none else some (lo + j + 1))) m

/-- The pool stands empty: every page zero, no handle, both free lists full (R388, R389). -/
def buildPool (p : Nat) (m : Mach) : Mach :=
  let n := kvPages m p
  let t0 := 5 + kvTables m p
  let g0 := t0 + kvTemporal m p
  if n = 0 then m
  else
    m |> zeroMem (kvBase m p) (kvBase m p + n * 65536) |> chainPages p t0 g0 true |> chainPages p g0 n false
      |> modKv p (fun k => { k with headT := if t0 < g0 then some t0 else none, headG := if g0 < n then some g0 else none,
                                    zeroing := [], lab := [] })
      |> wr (Reg.KV_POOL_TFREE p) (g0 - t0) |> wr (Reg.KV_POOL_FREE p) (n - g0) |> wr (Reg.KV_STATUS_LAB_VALID p) 0

/-! ### Page tables and the look-aside buffer (R392, R394) -/

/-- A page-table entry. -/
abbrev Pte := Nat
def Pte.state (v : Pte) : Nat := bitsAt v 0 2
def Pte.resident (v : Pte) : Bool := bitOf v 2
def Pte.pkg (v : Pte) : Nat := bitsAt v 3 3
def Pte.part (v : Pte) : Nat := bitsAt v 6 3
def Pte.link (v : Pte) : Nat := bitsAt v 9 2
def Pte.page (v : Pte) : Nat := bitsAt v 16 18
def Pte.remote (v : Pte) : Nat := bitsAt v 34 18
def Pte.epoch (v : Pte) : Nat := bitsAt v 52 12
def Pte.local' (page : Nat) : Pte := 1 + page * 2 ^ 16
def Pte.dropped : Pte := 2
/-- A FOREIGN entry of another package. -/
def Pte.away (m : Mach) (v : Pte) : Bool := Pte.state v == 3 && Pte.pkg v != packageIndex m
/-- One that has no mirror yet. -/
def Pte.absent (m : Mach) (v : Pte) : Bool := Pte.away m v && !Pte.resident v

/-- The address of a PTE, where its table page exists. -/
def pteAddr (m : Mach) (p : Nat) (h : Handle) (j : Nat) : Option Nat :=
  if h.dir = 0 then none
  else
    let d := memLe m (kvPage m p h.dir + j / 8192 * 8) 8
    if bitOf d 0 then some (kvPage m p (bitsAt d 16 18) + j % 8192 * 8) else none

/-- A PTE as it stands: EMPTY where it has no table page. -/
def pteOf (m : Mach) (p : Nat) (h : Handle) (j : Nat) : Pte := ((pteAddr m p h j).map (fun a => memLe m a 8)).getD 0

/-- The look-aside buffer takes a line as its most recently used. -/
def labTake (p : Nat) (t : Nat × Nat) (m : Mach) : Mach :=
  let m := modKv p (fun k => { k with lab := (t :: k.lab.filter (· != t)).take 64 }) m
  wr (Reg.KV_STATUS_LAB_VALID p) (mget m.kvs p).lab.length m

/-- Read a PTE: a line that misses costs a read of its directory entry and of the line. -/
def readPte (p : Nat) (h : Handle) (j : Nat) (f : Pte → Mach → Walk) (m : Mach) : Walk :=
  let t := (h.idx, j / 8)
  if (mget m.kvs p).lab.contains t then
    let m := m |> inc (Reg.KV_CNT_LAB_HIT p) |> labTake p t
    f (pteOf m p h j) m
  else
    let dir : Walk := if h.dir = 0 then walkOk m else kvCheck (kvPage m p h.dir + j / 8192 * 8) 8 m
    let line := dir.then (fun m => match pteAddr m p h j with
      | none => walkOk m
      | some a => kvCheck (a / 64 * 64) 64 m)
    line.then (fun m =>
      let m := m |> inc (Reg.KV_CNT_LAB_MISS p) |> labTake p t
      f (pteOf m p h j) m)

/-- Write a PTE: its directory and table pages are taken from the handle's sub-pool when an entry in them is first set. -/
def writePte (p : Nat) (h : Handle) (j : Nat) (v : Pte) (f : Handle → Mach → Walk) (m : Mach) : Walk :=
  let store (h : Handle) (m : Mach) : Walk := match pteAddr m p h j with
    | none => f h m
    | some a => f h (writeMem a (leBytes 8 v) m)
  let table (h : Handle) (m : Mach) : Walk :=
    if v = 0 ∨ (pteAddr m p h j).isSome then store h m
    else allocPage p 2 h.temporal (fun i m =>
      store h (writeMem (kvPage m p h.dir + j / 8192 * 8) (leBytes 8 (1 + i * 2 ^ 16)) m)) m
  if v = 0 ∨ h.dir ≠ 0 then table h m
  else allocPage p 2 h.temporal (fun i m => let h := { h with dir := i }; table h (putHandle p h m)) m

/-! ### Reference messages (R404, R406, R438) -/

/-- KV_STATUS.MSG_BACKLOG (R406). -/
def syncMsgs (p : Nat) (m : Mach) : Mach :=
  wrb (Reg.KV_STATUS_MSG_BACKLOG p) (decide (512 < (mget m.kvs p).msgs.length)) m

/-- Send a reference message to the owner of a page: it stands in the ring until it is acknowledged. One for a fenced peer is
removed and never sent (R434). The sequence number goes on to `f`. -/
def sendRef (p : Nat) (inc' : Bool) (v : Pte) (m : Mach) : Nat × Mach :=
  let dest := Pte.pkg v * 8 + Pte.part v
  let seq := (getD 0 (mget m.kvs p).seqOut dest + 1) % 2 ^ 32
  let away := Pte.away m v
  let l := Pte.link v
  let msg : KvMsg := { inc := inc', pkg := Pte.pkg v, part := Pte.part v, link := if away then l else 4, seq := seq,
                       page := Pte.remote v, epoch := Pte.epoch v }
  let m := modKv p (fun k => { k with seqOut := setD 0 k.seqOut dest seq }) m
  if away ∧ linkState m l = 3 then (seq, inc (Reg.SASH_CNT_STALE l) m)
  else
    let m := m |> modKv p (fun k => { k with msgs := k.msgs ++ [msg] }) |> inc (Reg.KV_CNT_MSG_OUT p) |> syncMsgs p
    (seq, if away then
      sendFrame l { vc := 0, kind := SFrame.refMsg, fields := [p, Pte.part v, b2n inc', Pte.remote v, Pte.epoch v, seq] } m
    else m)

/-- Give up the reference that a PTE holds (R398). -/
def releasePte (p : Nat) (v : Pte) (m : Mach) : Walk :=
  if Pte.state v = 1 then decRef p (Pte.page v) m
  else if Pte.state v = 3 then
    let m := (sendRef p false v m).2
    if Pte.away m v && Pte.resident v then decRef p (Pte.page v) m else walkOk m
  else walkOk m

/-- Whether the owner of a page answers GONE: the page is free, or its pool is new. -/
def pageGone (m : Mach) (p page epoch : Nat) : Bool :=
  decide (kvPages m p ≤ page) || kvRef m p page == 0 || rd m (Reg.KV_STATUS_POOL_EPOCH p) != epoch

/-- A reference message reaches the owner: each sequence number is applied once. Answers whether it is GONE: a page of a peer's
that is temporal is (R419). -/
def applyRef (p src : Nat) (g : KvMsg) (m : Mach) : Bool × Mach :=
  let last := getD 0 (mget m.kvs p).seqIn src
  if g.seq ≤ last then (false, m)
  else
    let m := modKv p (fun k => { k with seqIn := setD 0 k.seqIn src g.seq }) m
    if pageGone m p g.page g.epoch || (decide (8 ≤ src) && kvIsTemporal m p g.page) then (true, m)
    else if g.inc then
      let r := incRef p g.page m
      (r.1.isSome, r.2)
    else (false, (decRef p g.page m).2)

/-! ### Ends of operations (R410, R413) -/

/-- A fault of the walker is counted and kept. -/
def kvFaulted (p reason handle : Nat) (m : Mach) : Mach :=
  m |> wr (Reg.KV_FAULT_LAST_REASON p) reason |> wr (Reg.KV_FAULT_LAST_HANDLE p) (handle % 4096) |> inc (Reg.KV_CNT_FAULT p)

/-- The record of a fault: its unit path and the handle. -/
def kvRecord (m : Mach) (p handle : Nat) : LogRec :=
  { path := pathPartElem m p 8, source := 0x57, detail := leBytes 4 (handle % 2 ^ 32) }

/-- A command ends: STATE 2, or 3 with its reason. -/
def cmdEnd (p : Nat) (r : Option Nat) (m : Mach) : Mach :=
  let m := m |> modKv p (fun k => { k with op := .idle }) |> wr (Reg.KV_CMD_STATUS_STATE p) (if r.isNone then 2 else 3)
    |> wr (Reg.KV_CMD_STATUS_REASON p) (r.getD 0)
  match r with
  | none => m
  | some c => if c = 0x100 then m
    else
      let h := rd m (Reg.KV_ARG p 0)
      m |> kvFaulted p c h |> logErr { kvRecord m p h with detail16 := c }

/-- The handle that an instruction of the walker names. -/
def EngOp.handle (o : EngOp) : Nat := o.vals.headD 0

/-- Scratch ranges that an instruction of the walker writes, and reads. -/
def kvRanges (o : EngOp) : List (Int × Nat) := if o.opcode = 0x6A then [] else copyRanges o.src
def kvWrites (o : EngOp) : List (Int × Nat) := if o.opcode = 0x68 then kvRanges o else []
def kvReads (o : EngOp) : List (Int × Nat) := if o.opcode = 0x69 then kvRanges o else []

/-- The semaphore that an instruction names. -/
def EngOp.kvSem (o : EngOp) : Nat := if o.opcode = 0x6A then 0 else bitsAt o.word 13 4

/-- The instruction in flight ends: ready bits and semaphore, or KV_FAULT. -/
def instrEnd (p : Nat) (o : EngOp) (r : Option Nat) (m : Mach) : Mach :=
  let m := m |> modKv p (fun k => { k with op := .idle }) |> takeDone p 5 |> forEach (granulesOf (kvWrites o)) (unreserveGran p)
    |> forEach (granulesOf (kvReads o)) (unpinGran p)
  let m := match r with
    | none => m |> setReady p true (granulesOf (kvWrites o)) |> semAdd p o.kvSem 1
    | some c =>
      m |> kvFaulted p c o.handle
        |> whenB (c == Kvr.poolEmpty || c == Kvr.notResident || c == Kvr.unreachable || c == Kvr.gone)
            (detEvent p 5 (some o.pc))
        |> raiseExc (o.site p 5) 0x1A c [kvRecord m p o.handle]
  killStep p m

/-! ### Page reads from another package (R395, R405, R437) -/

/-- Begin to read a page into a new mirror. A fenced peer's pages are GONE (R434). -/
def startRead (p a : Nat) (v : Pte) (m : Mach) : Walk :=
  let l := Pte.link v
  if linkState m l = 3 then (some Kvr.gone, m)
  else allocPage p 3 false (fun i m =>
    let k := mget m.kvs p
    let req := k.nextReq * 8 + p
    let r : KvRead := { req := req, addr := a, mirror := i, link := l, part := Pte.part v, page := Pte.remote v,
                        epoch := Pte.epoch v, downAt := if linkState m l = 2 then none else some (now m) }
    walkOk (m |> modKv p (fun k => { k with reads := k.reads ++ [r], nextReq := (k.nextReq + 1) % 2 ^ 28 })
      |> sendFrame l { vc := 1, kind := SFrame.pageReq, fields := [r.part, r.page, r.epoch, req] })) m

/-- Begin to read what is absent of some PTEs, each page once. -/
def startReads (p : Nat) (h : Handle) (js : List Nat) (m : Mach) : Walk :=
  walkEach js (fun j m => readPte p h j (fun v m =>
    match pteAddr m p h j with
    | some a => if Pte.absent m v && !(mget m.kvs p).reads.any (fun r => r.addr == a) then startRead p a v m else walkOk m
    | none => walkOk m) m) m

/-- Whether some of these PTEs are FOREIGN on another package and not resident. -/
def anyAbsent (m : Mach) (p : Nat) (h : Handle) (js : List Nat) : Bool := js.any (fun j => Pte.absent m (pteOf m p h j))

/-! ### Page data (R395, R396, R399) -/

/-- Where the data of a page stands that a PTE names, or why it cannot be read. -/
def pageData (m : Mach) (p : Nat) (v : Pte) : Nat ⊕ Nat :=
  if Pte.state v = 1 then .inl (kvPage m p (Pte.page v))
  else if Pte.away m v then (if Pte.resident v then .inl (kvPage m p (Pte.page v)) else .inr Kvr.notResident)
  else if rd m (Reg.TC_RECOV_STATUS_STATE (Pte.part v)) = 3 then .inr Kvr.unreachable
  else if pageGone m (Pte.part v) (Pte.remote v) (Pte.epoch v) then .inr Kvr.gone
  else .inl (kvPage m (Pte.part v) (Pte.remote v))

/-- Copy a page (R396): a damaged word goes on as poison. -/
def copyPage (p src page : Nat) (m : Mach) : Walk :=
  let l := damaged m src 65536
  let bs := readMem m src 65536
  let (v, m) := hbmVerdict {} src 65536 m
  let d := kvPage m p page
  let m := m |> writeMem d bs |> forEach l (fun c => poisonWord ((d + (c.1 * 8 - src)) / 32 * 4)) |> inc (Reg.KV_CNT_COPY p)
  (if v = 0 then none else some Kvr.dataEcc, m)

/-- Give a PTE a page of its own that nobody else names, holding what the old one held (R396): its page goes on to `f`. -/
def ownPage (p : Nat) (h : Handle) (j : Nat) (f : Handle → Nat → Mach → Walk) (m : Mach) : Walk :=
  readPte p h j (fun v m =>
    let fresh (src : Option Nat) (m : Mach) : Walk := allocPage p 1 h.temporal (fun i m =>
      (match src with
      | none => walkOk m
      | some a => copyPage p a i m).then (fun m => (releasePte p v m).then (fun m =>
        let h := if v = Pte.dropped then
            { h with dropped := h.dropped - 1, dropFrom := if h.dropped ≤ 1 then 0xFFFFFFFF else h.dropFrom } else h
        writePte p h j (Pte.local' i) (fun h m => f h i (putHandle p h m)) m))) m
    if Pte.state v = 1 then
      (kvCheck (kvDesc m p (Pte.page v)) 8 m).then (fun m =>
        if kvRef m p (Pte.page v) ≤ 1 then f h (Pte.page v) m else fresh (some (kvPage m p (Pte.page v))) m)
    else if Pte.state v = 3 then
      match pageData m p v with
      | .inl a => fresh (some a) m
      | .inr c => (some c, m)
    else fresh none m) m

/-! ### KVLD and KVST (R395, R396, R408, R409) -/

/-- Values of KVLD and KVST: first token, count, layer and byte offset. -/
def EngOp.tok (o : EngOp) : Nat := o.vals.getD 1 0
def EngOp.cnt (o : EngOp) : Nat := o.vals.getD 2 0
def EngOp.layer (o : EngOp) : Nat := bitsAt o.word 29 8
def EngOp.byteOff (o : EngOp) : Nat := bitsAt o.word 17 12

/-- The generation that KVLD reads, and the one that KVST writes (R408). -/
def Handle.readGen (h : Handle) : Nat := if h.kind ≠ 2 then 0 else if bitOf h.gen 1 then 1 - h.gen % 2 else h.gen % 2
def Handle.writeGen (h : Handle) : Nat := if h.kind ≠ 2 then 0 else 1 - h.gen % 2

/-- The checks of R395 and R396, before any byte moves. -/
def kvMemOk (o : EngOp) (h : Handle) : Bool :=
  decide (o.layer < h.layers) && decide (o.byteOff + copyRow o.src ≤ 2 ^ h.rlog) && decide (1 ≤ o.cnt) &&
    decide (o.cnt ≤ 65535) && decide (o.cnt = copyRows o.src) &&
    decide (o.tok + o.cnt ≤ if o.opcode = 0x68 then h.len else h.max)

/-- The blocks that an instruction touches. -/
def kvBlocks (o : EngOp) (h : Handle) : List Nat :=
  (List.range ((o.tok + o.cnt - 1) / h.tpp + 1 - o.tok / h.tpp)).map (· + o.tok / h.tpp)

/-- Rows of a block. -/
def kvRows (o : EngOp) (h : Handle) (b : Nat) : List Nat :=
  (List.range o.cnt).filter (fun i => decide ((o.tok + i) / h.tpp = b))

/-- Byte of a page at which row `i`'s record bytes stand. -/
def kvOffset (o : EngOp) (h : Handle) (i : Nat) : Nat := (o.tok + i) % h.tpp * 2 ^ h.rlog + o.byteOff

/-- The mark of a block whose data was damaged: the transfer goes on, and DATA_ECC follows at completion (R413). -/
def Kvr.damaged : Nat := 0x100

/-- Work through the blocks of a transfer; DATA_ECC at its end where one was damaged. -/
def eachBlock (bs : List Nat) (f : Nat → Mach → Walk) (m : Mach) : Walk :=
  let r := bs.foldl (fun (x : Bool × Walk) b =>
    let r := x.2.then (f b)
    if r.1 = some Kvr.damaged then (true, none, r.2) else (x.1, r)) (false, none, m)
  r.2.then (fun m => (if r.1 then some Kvr.dataEcc else none, m))

/-- KVLD of the rows of one block: damaged data goes on as poison. -/
def loadBlock (p : Nat) (o : EngOp) (h : Handle) (b : Nat) (m : Mach) : Walk :=
  let row := copyRow o.src
  let put (i : Nat) (bs : List Byte) (m : Mach) : Mach := scrWrite p (copyAddr o.src i).toNat bs m
  readPte p h (h.pte h.readGen o.layer b) (fun v m =>
    if Pte.state v = 0 then walkOk (forEach (kvRows o h b) (fun i => put i (zeros row)) m)
    else if Pte.state v = 2 then (some Kvr.dropped, m)
    else match pageData m p v with
      | .inr c => (some c, m)
      | .inl a =>
        let r := (kvRows o h b).foldl (fun (y : Bool × Mach) i =>
          let s := a + kvOffset o h i
          let bs := readMem y.2 s row
          let (d, m) := hbmVerdict {} s row y.2
          if d = 0 then (y.1, put i bs m) else (true, poisonRange p (copyAddr o.src i).toNat row m)) (false, m)
        (if r.1 then some Kvr.damaged else none, r.2)) m

/-- KVLD: the first of a temporal handle under an item tag may find a gap in its state (R665). -/
def kvLoad (p : Nat) (o : EngOp) (h : Handle) (m : Mach) : Walk :=
  let key := o.handle * 2 ^ 32 + o.tag
  let first := h.temporal && !(mget m.seqs p).kvFirst.contains key
  let gap := h.commitTag != tagPred o.tag && !(h.commitTag == 0 && tagSeq o.tag == 0)
  m |> whenB first (modSeq p (fun s => { s with kvFirst := key :: s.kvFirst }))
    |> whenB (first && gap) (detEvent p 4 (some o.pc)) |> eachBlock (kvBlocks o h) (loadBlock p o h)

/-- KVST of the rows of one block: a row with a failed incoming verdict is written as poison. -/
def storeBlock (p : Nat) (o : EngOp) (i : Nat) (b : Nat) (m : Mach) : Walk :=
  let base : LogRec := { routineId := o.rid, instrAddr := o.pc, opcode := o.opcode, tag := o.tag }
  let row := copyRow o.src
  let h := readHandle m p i
  ownPage p h (h.pte h.writeGen o.layer b) (fun h page m =>
    let r := (kvRows o h b).foldl (fun (y : Bool × Mach) k =>
      let psa := (copyAddr o.src k).toNat
      let bs := scrBytesAt y.2 p psa row
      let (d, m) := scrVerdict base p true psa row y.2
      let a := kvPage m p page + kvOffset o h k
      let (lo, hi) := eccSpan a row
      if d = 0 then (y.1, hbmWrite a bs m)
      else (true, forEach (List.range ((hi - lo) / 4)) (fun t => poisonWord (lo + 4 * t)) m)) (false, m)
    (if r.1 then some Kvr.damaged else none, r.2)) m

/-- KVST: pages come about or are copied as R396 says; the first under a new item tag makes a generation pending (R408). -/
def kvStore (p : Nat) (o : EngOp) (h : Handle) (m : Mach) : Walk :=
  let newTag := h.temporal && !bitOf h.gen 1
  let m := whenB newTag (putHandle p { h with gen := h.gen % 2 + 2, pendTag := o.tag }) m
  let r := eachBlock (kvBlocks o h) (storeBlock p o h.idx) m
  let h := readHandle r.2 p h.idx
  let m := putHandle p { h with len := max h.len (o.tok + o.cnt) } r.2
  if r.1 = none ∨ r.1 = some Kvr.dataEcc then (r.1, m) else r

/-- The PTEs that an instruction must find resident. -/
def kvNeeds (o : EngOp) (h : Handle) : List Nat :=
  (kvBlocks o h).map (fun b => h.pte (if o.opcode = 0x68 then h.readGen else h.writeGen) o.layer b)

/-! ### Reference operations (R398 to R401) -/

/-- Every PTE of a handle. -/
def allPtes (h : Handle) : List Nat := List.range h.ptes

/-- Blocks `lo` and above in every layer. -/
def ptesFrom (h : Handle) (lo : Nat) : List Nat :=
  (List.range h.layers).flatMap (fun l => (List.range (h.blocks - lo)).map (fun b => h.pte 0 l (lo + b)))

/-- Free a handle (R398): its pages, its table pages and its directory, and the entry. -/
def freeHandle (p : Nat) (h : Handle) (m : Mach) : Walk :=
  let r := walkEach (allPtes h) (fun j => readPte p h j (fun v => releasePte p v)) m
  r.then (fun m =>
    let tables := if h.dir = 0 then []
      else (List.range 8192).filterMap (fun d =>
        let e := memLe m (kvPage m p h.dir + d * 8) 8
        if bitOf e 0 then some (bitsAt e 16 18) else none)
    (walkEach (if h.dir = 0 then [] else tables ++ [h.dir]) (decRef p) m).then (fun m =>
      walkOk (m |> clearHandle p h.idx h.epoch
        |> modKv p (fun k => { k with lab := k.lab.filter (fun t => t.1 != h.idx) }))))

def kvInc (p : Nat) (h : Handle) (m : Mach) : Walk :=
  if h.ref = 65535 then (some Kvr.refcount, m) else walkOk (putHandle p { h with ref := h.ref + 1 } m)

def kvDec (p : Nat) (h : Handle) (m : Mach) : Walk :=
  if h.ref ≤ 1 then freeHandle p h m else walkOk (putHandle p { h with ref := h.ref - 1 } m)

/-- The lowest free entry of the handle table; a full table has no page to give either. -/
def withFreeEntry (p : Nat) (f : Nat → Mach → Walk) (m : Mach) : Walk :=
  match (List.range 4095).find? (fun i => decide ((readHandle m p (i + 1)).kind = 0)) with
  | none => (some Kvr.poolEmpty, m)
  | some i => (kvCheck (kvEntry m p (i + 1)) 64 m).then (f (i + 1))

/-- A page that a FORK shares would take a count above 65,535. -/
def refFull (m : Mach) (p : Nat) (v : Pte) : Bool :=
  (Pte.state v == 1 || (Pte.away m v && Pte.resident v)) && kvRef m p (Pte.page v) == 65535

/-- FORK (R399): the new handle's value goes on to `f`. -/
def kvFork (p : Nat) (h : Handle) (n : Nat) (f : Nat → Mach → Walk) (m : Mach) : Walk :=
  let full := n / h.tpp
  let shared := (List.range h.layers).flatMap (fun l => (List.range full).map (fun b => h.pte 0 l b))
  if h.kind ≠ 1 then (some Kvr.kind, m)
  else if h.len < n then (some Kvr.range, m)
  else if shared.any (fun j => refFull m p (pteOf m p h j)) then (some Kvr.refcount, m)
  else withFreeEntry p (fun i m =>
    let c : Handle := { h with idx := i, epoch := (readHandle m p i).epoch, len := n, ref := 1, dropFrom := 0xFFFFFFFF,
                               dropped := 0, dir := 0 }
    let m := putHandle p c m
    let share (j : Nat) (m : Mach) : Walk := readPte p h j (fun v m =>
      let refd : Walk := if Pte.state v = 1 then incRef p (Pte.page v) m
        else if Pte.state v = 3 then
          let m := (sendRef p true v m).2
          if Pte.away m v && Pte.resident v then incRef p (Pte.page v) m else walkOk m
        else walkOk m
      refd.then (fun m =>
        let c := readHandle m p i
        let c := if v = Pte.dropped then { c with dropped := c.dropped + 1 } else c
        writePte p c j v (fun c m => walkOk (putHandle p c m)) m)) m
    let split (l : Nat) (m : Mach) : Walk := readPte p h (h.pte 0 l full) (fun v m =>
      if Pte.state v = 0 ∨ Pte.state v = 2 then walkOk m
      else match pageData m p v with
        | .inr c => (some c, m)
        | .inl a => allocPage p 1 false (fun k m => (copyPage p a k m).then (fun m =>
            let d := kvPage m p k
            let m := zeroMem (d + n % h.tpp * 2 ^ h.rlog) (d + 65536) m
            writePte p (readHandle m p i) (h.pte 0 l full) (Pte.local' k) (fun c m => walkOk (putHandle p c m)) m)) m) m
    (walkEach shared share m).then (fun m =>
      (walkEach (if n % h.tpp = 0 then [] else List.range h.layers) split m).then (f c.value))) m

/-- TRUNC (R400). -/
def kvTrunc (p : Nat) (h : Handle) (n : Nat) (m : Mach) : Walk :=
  if h.kind ≠ 1 then (some Kvr.kind, m)
  else
    let m := putHandle p { h with len := min h.len n } m
    let cut (j : Nat) (m : Mach) : Walk :=
      let h := readHandle m p h.idx
      readPte p h j (fun v m => (releasePte p v m).then (fun m =>
        let h := if v = Pte.dropped then
            { h with dropped := h.dropped - 1, dropFrom := if h.dropped ≤ 1 then 0xFFFFFFFF else h.dropFrom } else h
        writePte p h j 0 (fun h m => walkOk (putHandle p h m)) m)) m
    let clear (l : Nat) (m : Mach) : Walk :=
      let h := readHandle m p h.idx
      let j := h.pte 0 l (n / h.tpp)
      readPte p h j (fun v m =>
        if Pte.state v = 1 ∨ Pte.state v = 3 then
          ownPage p h j (fun _ i m => let d := kvPage m p i; walkOk (zeroMem (d + n % h.tpp * 2 ^ h.rlog) (d + 65536) m)) m
        else walkOk m) m
    (walkEach (ptesFrom h (ceilDiv n h.tpp)) cut m).then
      (walkEach (if n % h.tpp = 0 ∨ h.blocks ≤ n / h.tpp then [] else List.range h.layers) clear)

/-- DROP (R401). -/
def kvDrop (p : Nat) (h : Handle) (n : Nat) (m : Mach) : Walk :=
  if h.kind ≠ 1 then (some Kvr.kind, m)
  else
    let b0 := n / h.tpp
    let m := putHandle p { h with dropFrom := min h.dropFrom (b0 * h.tpp) } m
    walkEach (ptesFrom h b0) (fun j m =>
      let h := readHandle m p h.idx
      readPte p h j (fun v m =>
        if Pte.state v = 1 ∨ Pte.state v = 3 then
          (releasePte p v m).then (writePte p { h with dropped := h.dropped + 1 } j Pte.dropped
            (fun h m => walkOk (putHandle p h m)))
        else walkOk m) m) m

/-- The PTEs that FORK and TRUNC read pages of: the block that holds token `n`, in each layer. -/
def splitPtes (h : Handle) (n : Nat) : List Nat :=
  if n % h.tpp = 0 ∨ h.blocks ≤ n / h.tpp then [] else (List.range h.layers).map (fun l => h.pte 0 l (n / h.tpp))

/-- A reference operation by its OP (R326): the new handle of FORK goes on to `f`. -/
def kvRefOp (p op v arg : Nat) (f : Nat → Mach → Walk) (m : Mach) : Walk :=
  withHandle p v (fun h m =>
    match op with
    | 0 => kvInc p h m
    | 1 => kvDec p h m
    | 2 => kvFork p h arg f m
    | 3 => kvTrunc p h arg m
    | _ => kvDrop p h arg m) m

/-! ### Commands (R416) -/

/-- CREATE (R391, R407, R416). -/
def kvCreate (p : Nat) (m : Mach) : Walk :=
  let a0 := rd m (Reg.KV_ARG p 0)
  let h : Handle := { kind := a0 % 4, rlog := bitsAt a0 8 4, layers := rd m (Reg.KV_ARG p 1) % 512, max := rd m (Reg.KV_ARG p 2), ref := 1 }
  if kvPages m p = 0 then (some Kvr.badHandle, m)
  else if (h.kind ≠ 1 ∧ h.kind ≠ 2) ∨ h.rlog < 6 ∨ 12 < h.rlog ∨ h.layers = 0 ∨ 256 < h.layers ∨ h.max = 0 ∨ 1048576 < h.max ∨
      67108864 < 2 * h.layers * h.blocks then (some Kvr.range, m)
  else
    let pages := h.ptes + ceilDiv h.ptes 8192 + 1
    if h.kind = 2 ∧ rd m (Reg.KV_POOL_TFREE p) < pages then (some Kvr.poolEmpty, m)
    else withFreeEntry p (fun i m =>
      let h := { h with idx := i, epoch := (readHandle m p i).epoch, len := if h.kind = 2 then h.max else 0 }
      let m := m |> putHandle p h |> wr (Reg.KV_RES p 0) h.value
      if h.kind = 1 then walkOk m
      else walkEach (allPtes h) (fun j m => allocPage p 1 true (fun k m =>
        writePte p (readHandle m p i) j (Pte.local' k) (fun h m => walkOk (putHandle p h m)) m) m) m) m

/-- QUERY (R402, R416). -/
def kvQuery (p : Nat) (m : Mach) : Walk :=
  withHandle p (rd m (Reg.KV_ARG p 0)) (fun h m =>
    walkOk (m |> wr (Reg.KV_RES p 0) h.len |> wr (Reg.KV_RES p 1) h.dropFrom
      |> wr (Reg.KV_RES p 2) (h.ref + h.kind * 65536 + h.gen / 2 % 2 * 2 ^ 18) |> wr (Reg.KV_RES p 3) h.commitTag)) m

/-- A range of PTEs that FETCH and EVICT name. -/
def pteRange (p : Nat) (f : Handle → List Nat → Mach → Walk) (m : Mach) : Walk :=
  let j := rd m (Reg.KV_ARG p 1)
  let n := rd m (Reg.KV_ARG p 2)
  withHandle p (rd m (Reg.KV_ARG p 0)) (fun h m =>
    if n = 0 ∨ 65535 < n ∨ h.ptes < j + n then (some Kvr.range, m) else f h ((List.range n).map (j + ·)) m) m

/-- EVICT (R405): the mirrors of a range are released. -/
def kvEvict (p : Nat) (m : Mach) : Walk :=
  pteRange p (fun h js m =>
    walkEach js (fun j => readPte p h j (fun v m =>
      if Pte.away m v && Pte.resident v then
        (decRef p (Pte.page v) m).then (writePte p h j (v - 4 - Pte.page v * 2 ^ 16)
          (fun _ m => walkOk (inc (Reg.KV_RES p 0) m)))
      else walkOk m)) (wr (Reg.KV_RES p 0) 0 m)) m

/-- MAP_REMOTE (R404): the PTE it will set, where it stands EMPTY. -/
def kvMap (p : Nat) (m : Mach) : Walk :=
  let j := rd m (Reg.KV_ARG p 1)
  let a := rd m (Reg.KV_ARG p 2)
  let v : Pte := 3 + bitsAt a 0 3 * 2 ^ 3 + bitsAt a 3 3 * 2 ^ 6 + bitsAt a 6 2 * 2 ^ 9 + rd m (Reg.KV_ARG p 3) % 2 ^ 18 * 2 ^ 34 +
    bitsAt a 8 12 * 2 ^ 52
  withHandle p (rd m (Reg.KV_ARG p 0)) (fun h m =>
    if h.ptes ≤ j then (some Kvr.range, m)
    else readPte p h j (fun o m =>
      if Pte.state o ≠ 0 then (some Kvr.range, m)
      else if Pte.away m v && linkState m (Pte.link v) == 3 then (some Kvr.gone, m)
      else
        let (s, m) := sendRef p true v m
        walkOk (modKv p (fun k => { k with op := .mapRemote h.idx j v s }) m)) m) m

/-- A command that runs (R416). One that must read pages first waits for them. -/
def runCmd (p code : Nat) (m : Mach) : Mach :=
  let arg := rd m (Reg.KV_ARG p 1)
  let v := rd m (Reg.KV_ARG p 0)
  let done (r : Walk) : Mach := cmdEnd p r.1 r.2
  let absent : Option (Handle × List Nat) :=
    if code = 4 ∨ code = 5 then
      match withHandle p v (fun _ m => (some 0, m)) m with
      | (some 0, m) => let h := readHandle m p (v % 4096); if anyAbsent m p h (splitPtes h arg) then some (h, splitPtes h arg) else none
      | _ => none
    else none
  match absent with
  | some (h, js) =>
    match startReads p h js m with
    | (none, m) => modKv p (fun k => { k with op := .fetchCmd code }) m
    | (some c, m) => cmdEnd p (some c) m
  | none =>
    match code with
    | 1 => done (kvCreate p m)
    | 2 => done (kvRefOp p 0 v arg (fun _ => walkOk) m)
    | 3 => done (kvRefOp p 1 v arg (fun _ => walkOk) m)
    | 4 => done (kvRefOp p 2 v arg (fun n m => walkOk (wr (Reg.KV_RES p 0) n m)) m)
    | 5 => done (kvRefOp p 3 v arg (fun _ => walkOk) m)
    | 6 => done (kvRefOp p 4 v arg (fun _ => walkOk) m)
    | 7 => done (kvQuery p m)
    | 8 => match kvMap p m with
      | (none, m) => m
      | (some c, m) => cmdEnd p (some c) m
    | 9 => match pteRange p (fun h js => startReads p h js) m with
      | (none, m) => if (mget m.kvs p).reads.isEmpty then m |> wr (Reg.KV_RES p 0) 0 |> cmdEnd p none
        else modKv p (fun k => { k with op := .fetchCmd 9, fetched := 0 }) m
      | (some c, m) => m |> forEach (mget m.kvs p).reads (fun r => kvFree p r.mirror) |> modKv p (fun k => { k with reads := [] })
        |> cmdEnd p (some c)
    | 10 => done (kvEvict p m)
    | _ => cmdEnd p (some 0x100) m

/-! ### Instructions of the queue (R326, R410) -/

/-- The exception at decode of KVLD and KVST: their scratch side follows R325. -/
def kvDecode (m : Mach) (p : Nat) (o : EngOp) : Option Nat :=
  if o.opcode = 0x6A then none
  else if dKind o.src ≠ 1 then some 7
  else if fmtBits (dFmt o.src) = 0 ∨ copyRow o.src = 0 ∨ copyRows o.src = 0 then some 0x16
  else if !(copyRanges o.src).all (fun r => spanOk m p r.1 (r.1 + r.2)) then some 0x17
  else if !dmaLeased m p (copyRanges o.src) then some 0x18
  else none

/-- A KVST under a tag while another tag is pending (R409): it waits where that tag's RESULT has been dispatched. -/
def kvPends (m : Mach) (p : Nat) (o : EngOp) : Bool :=
  let h := readHandle m p (o.handle % 4096)
  o.opcode == 0x69 && kvPages m p != 0 && h.kind == 2 && h.value == o.handle && bitOf h.gen 1 && h.pendTag != o.tag &&
    ((mget m.seqs p).results.contains h.pendTag || (mget m.seqs p).commits.contains h.pendTag)

/-- The walker takes the head of its queue, once its granules allow. -/
def takeInstr (p : Nat) (m : Mach) : Mach :=
  match (engine m p 5).queue with
  | [] => m
  | o :: _ =>
    match kvDecode m p o with
    | some c => decodeFault p 5 o c 0 m
    | none =>
      let rd' := granulesOf (kvReads o)
      let wr' := granulesOf (kvWrites o)
      if kvPends m p o then m
      else if !allReady m p rd' then holdHead p 5 o 4 m
      else if !writable m p wr' then holdHead p 5 o 8 m
      else m |> forEach wr' (reserveGran p) |> forEach rd' (pinGran p) |> takeIssue p 5 o 0 |> modKv p (fun k => { k with op := .instr })

/-- The work of the instruction in flight; `none` where it has begun to read pages and waits for them. -/
def instrWork (p : Nat) (o : EngOp) (m : Mach) : Option Walk :=
  let lc := ((mget m.seqs p).run.map (·.kind)).getD 0 == 0
  let reads (h : Handle) (js : List Nat) (m : Mach) : Option Walk :=
    if lc then some (some Kvr.notResident, m)
    else match startReads p h js m with
      | (none, _) => none
      | r => some r
  let look := withHandle p o.handle (fun _ m => (some 0, m)) m
  match look with
  | (some 0, m') =>
    let h := readHandle m' p (o.handle % 4096)
    if o.opcode = 0x6A then
      let op := bitsAt o.word 43 3
      let arg := o.vals.getD 1 0
      if (op = 2 ∨ op = 3) ∧ h.kind = 1 ∧ anyAbsent m p h (splitPtes h arg) then reads h (splitPtes h arg) m
      else some (kvRefOp p op o.handle arg (fun n m =>
        walkOk (modSeq p (fun s => { s with s := if bitsAt o.word 38 5 = 0 then s.s else setD 0 s.s (bitsAt o.word 38 5) (BitVec.ofNat 64 n) }) m)) m)
    else if !kvMemOk o h then some (some Kvr.range, m')
    else if o.opcode = 0x69 ∧ h.temporal ∧ o.tag = 0 then some (some Kvr.kind, m')
    else if o.opcode = 0x69 ∧ h.temporal ∧ bitOf h.gen 1 ∧ h.pendTag ≠ o.tag then some (some Kvr.pending, m')
    else if anyAbsent m p h (kvNeeds o h) then reads h (kvNeeds o h) m'
    else some (if o.opcode = 0x68 then kvLoad p o h m' else kvStore p o h m')
  | r => some r

/-- The machine with the page reads of the instruction in flight begun. -/
def instrReads (p : Nat) (o : EngOp) (m : Mach) : Mach :=
  let h := readHandle m p (o.handle % 4096)
  let js := if o.opcode = 0x6A then splitPtes h (o.vals.getD 1 0) else kvNeeds o h
  modKv p (fun k => { k with op := .fetchInstr }) (startReads p h js m).2

/-- The instruction in flight completes, or begins to read the pages it needs. -/
def instrStep (p : Nat) (m : Mach) : Mach :=
  match (engine m p 5).flight with
  | [] => modKv p (fun k => { k with op := .idle }) m
  | o :: _ =>
    match instrWork p o m with
    | some (r, m) => instrEnd p o r m
    | none => instrReads p o m

/-! ### The boundary between operations (R410) -/

/-- A page request is served no longer, and the one that has waited longest takes its place (R437). -/
def endServe (l req : Nat) (m : Mach) : Mach :=
  let x := mget m.links l
  let rest := x.serving.filter (fun s => s.req != req)
  match x.waiting with
  | [] => modLink l (fun x => { x with serving := rest }) m
  | w :: ws =>
    if 32 ≤ rest.length then modLink l (fun x => { x with serving := rest }) m
    else m |> modLink l (fun x => { x with serving := rest ++ [w], waiting := ws })
      |> modKv w.part (fun k => { k with inbox := k.inbox ++ [.page l w.req w.page w.epoch] })

/-- A page request is answered (R437): GONE, or the page in 16 frames with a temporary reference, or PAGE_ERR. -/
def servePage (p l req page epoch : Nat) (m : Mach) : Mach :=
  let gone (m : Mach) : Mach := m |> sendFrame l { vc := 1, kind := SFrame.pageGone, fields := [req] } |> endServe l req
  if pageGone m p page epoch || kvIsTemporal m p page then gone m
  else match incRef p page m with
    | (some _, m) => gone m
    | (none, m) =>
      let a := kvPage m p page
      let bs := readMem m a 65536
      let (v, m) := hbmVerdict {} a 65536 m
      if v = 0 then
        m |> modLink l (fun x => { x with serving := x.serving.map (fun s => if s.req = req then { s with held := true } else s) })
          |> inc (Reg.SASH_CNT_PAGES_SERVED l) |> forEach (List.range 16) (fun i =>
            sendFrame l { vc := 1, kind := SFrame.pageData, fields := [req, i], data := slice bs (4096 * i) 4096 })
      else
        m |> sendFrame l { vc := 1, kind := SFrame.pageErr, fields := [req] } |> (fun m => (decRef p page m).2) |> endServe l req

/-- The owner's answer to a message reaches its sender: it leaves the ring, and a MAP_REMOTE that awaits it ends. -/
def ackRef (p dest seq : Nat) (gone : Bool) (m : Mach) : Mach :=
  let m := m |> modKv p (fun k => { k with msgs := dropFirst (fun g => g.pkg * 8 + g.part == dest && g.seq == seq) k.msgs }) |> syncMsgs p
  match (mget m.kvs p).op with
  | .mapRemote i j v s =>
    if s = seq ∧ Pte.pkg v * 8 + Pte.part v = dest then
      if gone then cmdEnd p (some Kvr.gone) m
      else
        let r := writePte p (readHandle m p i) j v (fun h m => walkOk (putHandle p h m)) m
        cmdEnd p r.1 r.2
    else m
  | _ => m

/-- A message that waits at the boundary is taken. -/
def takeIn (p : Nat) (g : KvIn) (m : Mach) : Mach :=
  match g with
  | .page l req page epoch => servePage p l req page epoch m
  | .ref src msg =>
    let (gone, m) := applyRef p src msg m
    if src < 8 then ackRef src (packageIndex m * 8 + p) msg.seq gone m
    else sendFrame (src / 8 - 1) { vc := 0, kind := SFrame.refAck, fields := [src % 8, p, msg.seq, b2n gone] } m

/-- Whether the walker may take anything: its pool stands, no operation runs, and no release waits for the ring. -/
def kvIdle (m : Mach) (p : Nat) : Bool :=
  let k := mget m.kvs p
  decide (k.op = .idle) && !k.building && k.journal.isNone && decide (k.msgs.length ≤ 1024) &&
    rd m (Reg.TC_RECOV_STATUS_STATE p) != 3

/-- What the walker takes next: messages, a register command, an instruction. -/
def takeNext (p : Nat) (m : Mach) : Mach :=
  if !kvIdle m p then m
  else
    let l := (mget m.kvs p).inbox
    let m := m |> modKv p (fun k => { k with inbox := [] }) |> forEach l (takeIn p)
    match (mget m.kvs p).pending with
    | some c => m |> modKv p (fun k => { k with pending := none, op := .cmd c }) |> runCmd p c
    | none => takeInstr p m

/-- The operation that the journal holds is completed after a partition reset (R411). -/
def rollForward (p : Nat) (m : Mach) : Mach :=
  match (mget m.kvs p).journal with
  | none => m
  | some j =>
    let m := m |> modKv p (fun k => { k with journal := none }) |> wrb (Reg.KV_STATUS_ROLLFWD p) (mget m.kvs p).building
      |> inc (Reg.KV_CNT_ROLLFWD p)
    match j with
    | .inl c => m |> modKv p (fun k => { k with op := .cmd c }) |> runCmd p c
    | .inr o => (kvRefOp p (bitsAt o.word 43 3) o.handle (o.vals.getD 1 0) (fun _ => walkOk) m).2

/-- A walker operation completes, and the walker takes its next message, command or instruction. -/
def execKvOpComplete (p : Fin 8) (s : State) : Out := s.run (fun m =>
  if rd m (Reg.TC_RECOV_STATUS_STATE p) = 3 then m
  else if (mget m.kvs p).journal.isSome then m |> rollForward p |> takeNext p
  else match (mget m.kvs p).op with
    | .idle => takeNext p m
    | .instr => m |> instrStep p |> takeNext p
    | _ => m)

/-! ### Register commands (R410, R416, R417) -/

/-- A write of KV_CMD: refused while a command is busy, else taken at the next boundary. -/
def kvCommand (who : Requester) (p code : Nat) (m : Mach) : Mach :=
  regWrite who (Reg.KV_CMD_CMD p) .seqfwPfHcMi (fun m =>
    if rd m (Reg.KV_CMD_STATUS_STATE p) = 1 then wrb (Reg.KV_CMD_STATUS_REFUSED p) true m
    else m |> wr (Reg.KV_CMD_STATUS_STATE p) 1 |> wr (Reg.KV_CMD_STATUS_REASON p) 0
      |> modKv p (fun k => { k with pending := some code }) |> takeNext p) m

def execKvCmdCreate (who : Requester) (p : Fin 8) (s : State) : Out := s.run (kvCommand who p 1)
def execKvCmdInc (who : Requester) (p : Fin 8) (s : State) : Out := s.run (kvCommand who p 2)
def execKvCmdDec (who : Requester) (p : Fin 8) (s : State) : Out := s.run (kvCommand who p 3)
def execKvCmdFork (who : Requester) (p : Fin 8) (s : State) : Out := s.run (kvCommand who p 4)
def execKvCmdTrunc (who : Requester) (p : Fin 8) (s : State) : Out := s.run (kvCommand who p 5)
def execKvCmdDrop (who : Requester) (p : Fin 8) (s : State) : Out := s.run (kvCommand who p 6)
def execKvQuery (who : Requester) (p : Fin 8) (s : State) : Out := s.run (kvCommand who p 7)
def execKvMapRemote (who : Requester) (p : Fin 8) (s : State) : Out := s.run (kvCommand who p 8)
def execKvFetch (who : Requester) (p : Fin 8) (s : State) : Out := s.run (kvCommand who p 9)
def execKvEvict (who : Requester) (p : Fin 8) (s : State) : Out := s.run (kvCommand who p 10)
/-- CMD values 11 to 15. -/
def execKvCmdUndefined (who : Requester) (p : Fin 8) (code : Fin 5) (s : State) : Out := s.run (kvCommand who p (11 + code))

/-! ### Building the pool (R389) -/

/-- The walker has finished to zero or to rebuild the pool. -/
def execKvPoolZeroed (p : Fin 8) (s : State) : Out := s.run (fun m =>
  if !(mget m.kvs p).building ∨ !m.ldr.trained ∨ rd m (Reg.TC_RECOV_STATUS_STATE p) = 3 then m
  else m |> modKv p (fun k => { k with building := false }) |> buildPool p
    |> wrb (Reg.KV_STATUS_ENABLED p) (kvPages m p != 0) |> wrb (Reg.KV_STATUS_ROLLFWD p) (mget m.kvs p).journal.isSome |> takeNext p)

/-! ### Messages and page reads from elsewhere (R404, R406, R437, R438) -/

/-- An incoming message or request is taken at the next boundary. -/
def incoming (p : Nat) (g : KvIn) (m : Mach) : Mach :=
  m |> modKv p (fun k => { k with inbox := k.inbox ++ [g] }) |> takeNext p

/-- The oldest message that a walker of this package has for another reaches it: one that stands in its ring and is on its way
no longer. -/
def execReferenceMessageRx (src : Fin 8) (p : Fin 8) (s : State) : Out := s.run (fun m =>
  let here (g : KvMsg) : Bool := decide (g.link = 4) && decide (g.part = p.val)
  let coming (g : KvMsg) : Bool := (mget m.kvs p).inbox.any (fun i => match i with
    | .ref s x => s == src.val && x.seq == g.seq
    | _ => false)
  match ((mget m.kvs src).msgs.take 1024).find? (fun g => here g && !coming g) with
  | none => m
  | some g => if rd m (Reg.TC_RECOV_STATUS_STATE p) = 3 ∨ (mget m.kvs p).building then m else incoming p (.ref src g) m)

/-- A page read of the operation under way has ended: with its page in the mirror, or with a reason. The operation goes on when
its last one has. -/
def readEnd (p req : Nat) (r : Option Nat) (m : Mach) : Mach :=
  match (mget m.kvs p).reads.find? (fun x => x.req == req) with
  | none => m
  | some x =>
    let m := modKv p (fun k => { k with reads := k.reads.filter (fun y => y.req != req), fail := k.fail <|> r,
                                        fetched := k.fetched + b2n r.isNone }) m
    let m := match r with
      | none =>
        let v := memLe m x.addr 8
        m |> writeMem x.addr (leBytes 8 (v - bitsAt v 16 18 * 2 ^ 16 + b2n (!Pte.resident v) * 4 + x.mirror * 2 ^ 16)) |> inc (Reg.KV_CNT_FETCH p)
      | some _ => kvFree p x.mirror m
    let k := mget m.kvs p
    if !k.reads.isEmpty then m
    else
      let m := modKv p (fun k => { k with fail := none }) m
      match k.op, k.fail with
      | .fetchCmd 9, none => m |> wr (Reg.KV_RES p 0) k.fetched |> cmdEnd p none |> takeNext p
      | .fetchCmd 9, some c => m |> wr (Reg.KV_RES p 0) k.fetched |> cmdEnd p (some c) |> takeNext p
      | .fetchCmd _, some c => m |> cmdEnd p (some c) |> takeNext p
      | .fetchCmd n, none => m |> modKv p (fun k => { k with op := .cmd n }) |> runCmd p n |> takeNext p
      | .fetchInstr, none => m |> modKv p (fun k => { k with op := .instr }) |> instrStep p |> takeNext p
      | .fetchInstr, some c => match (engine m p 5).flight with
        | [] => modKv p (fun k => { k with op := .idle }) m
        | o :: _ => m |> instrEnd p o (some c) |> takeNext p
      | _, _ => m

/-- KV_REMOTE_TIMEOUT has passed with the link of a page read down (R404). -/
def execKvRemoteTimeoutExpiry (p : Fin 8) (s : State) : Out := s.run (fun m =>
  let late (x : KvRead) : Bool := x.downAt.any (fun t => decide (1000 * rd m (Reg.KV_REMOTE_TIMEOUT p) ≤ now m - t))
  forEach ((mget m.kvs p).reads.filter late) (fun x => readEnd p x.req (some Kvr.unreachable)) m)

/-- A final record decides the pending generations of its item (R408). -/
def decidePending (tag : Nat) (good : Bool) (m : Mach) : Mach :=
  forEach (List.range 8) (fun p m =>
    if kvPages m p = 0 then m
    else forEach (List.range 4096) (fun i m =>
      let h := readHandle m p i
      if i ≠ 0 ∧ h.kind = 2 ∧ bitOf h.gen 1 ∧ h.pendTag = tag then
        putHandle p (if good then { h with gen := 1 - h.gen % 2, commitTag := tag, pendTag := 0 }
          else { h with gen := h.gen % 2, pendTag := 0 }) m
      else m) m) m

end Sys2Proof.Machine
end

