-- ==== Sys2Proof/Machine/Recovery.lean ====
section
/-!
DEFINITION. Hangs, kills, rescues, wipes and partition resets (R367 to R372, R489 to R493, R608 to R626), and accesses of the host
cluster and the island to scratch (R356, R364).
-/

namespace Sys2Proof.Machine

/-! ### Scratch through class H (R35, R350, R356, R364) -/

/-- The partition and PSA of `n` bytes at a device address, where they lie in the scratch of one core. -/
def scrOf (m : Mach) (a n : Nat) : Option (Nat × Nat) :=
  if a < 0x4000000000 ∨ 0x4800000000 ≤ a then none
  else
    let c := (a - 0x4000000000) / 0x2000000
    let o := a % 0x2000000
    if c < 8 * coresPer m ∧ o + n ≤ scrBytes then some (c / coresPer m, c % coresPer m * 2 ^ 25 + o) else none

/-- Whether `n` bytes lie in the Partner-engine SRAM. -/
def inSram (a n : Nat) : Bool := decide (ptnAddr 0 ≤ a) && decide (a + n ≤ ptnAddr 0x1000000)

/-- The masters of class H (R347). -/
def isH : Requester → Bool
  | .hc _ => true
  | .mi _ => true
  | _ => false

def execScratchHWrite (who : Requester) (addr : Nat) (data : List Byte) (s : State) : Out := s.run (fun m =>
  let n := data.length
  if n = 0 ∨ !awake m who then m
  else match scrOf m addr n with
    | some (p, psa) =>
      if !isH who then refuseAccess who 0 addr m
      else if scrDown m p then m
      else if !allFree m p (granules psa n) then
        m |> emit (.busError who) |> inc (Reg.SCR_CNT_H_REFUSED p) |> hostIfAddr .writeRefused who 0 addr
      else scrWrite p psa data m
    | none =>
      if inSram addr n && (match who with | .mi _ => true | _ => false) then writeMem addr data m else refuseAccess who 0 addr m)

/-- A read of scratch: `ce` words are corrected on it, and those at addresses `ue` have become uncorrectable. -/
def execScratchHRead (who : Requester) (addr len ce : Nat) (ue : List Nat) (s : State) : Out := s.run (fun m =>
  if len = 0 ∨ !awake m who then m
  else match scrOf m addr len with
    | some (p, psa) =>
      if !isH who then refuseAccess who 0 addr m
      else if scrDown m p && !(rdb m (Reg.SCR_STATUS_HELD p) && who == .mi true) then emit (.busError who) m
      else
        let m := m |> addTo (Reg.SCR_CNT_CE p) ce
          |> forEach (ue.filter (fun x => decide (addr ≤ x) && decide (x < addr + len))) (fun x m =>
            if damage m x 1 = 0 then markBad (x / 32 * 4) 1 m else m)
        let (v, m) := scrVerdict {} p false psa len m
        emit (if v = 0 then .readBytes who (readMem m addr len) else .busError who) m
    | none =>
      if inSram addr len && isH who then
        if damage m addr len = 0 then emit (.readBytes who (readMem m addr len)) m
        else m |> emit (.busError who) |> sramFault
      else refuseAccess who 0 addr m)

/-! ### Heartbeats and hangs (R608 to R611) -/

/-- The timer expires every 100 µs from the first write on: a routine takes the entry at its next boundary, which an instruction
that waits puts off; outside a routine SEQFW writes at once. -/
def execHeartbeatExpiry (p : Fin 8) (s : State) : Out := s.run (fun m =>
  let r := mget m.recov p
  if r.hbLast = 0 ∨ now m < r.hbLast + 100000 ∨ rd m (Reg.TC_RECOV_STATUS_STATE p) = 3 then m
  else if (mget m.seqs p).run.isSome ∧ (mget m.seqs p).waiting.isSome then modRecov p (fun r => { r with hbDue := true }) m
  else hbWrite p m)

def execHeartbeatWrite (who : Requester) (p : Fin 8) (s : State) : Out := s.run
  (regWrite who (Reg.TC_HB_WRITE p) .seqfw (fun m => if rd m (Reg.TC_RECOV_STATUS_STATE p) = 3 then m else hbWrite p m))

/-- DETAIL of a HANG record. -/
def hangDetail (m : Mach) (p : Nat) : List Byte :=
  let x := mget m.seqs p
  let kept := x.taken.filter (fun n => !x.commits.contains n.tag && ((lookup m.items n.tag).map (fun it => it.fixed.isNone)).getD false)
  leBytes 4 ((mget m.recov p).hbLast) ++ leBytes 4 (seqPc m p) ++
    leBytes 1 (rd m (Reg.TC_SEQ_STATUS_STATE p) + 4 * b2n x.waiting.isSome) ++ leBytes 1 (imemWord m p (seqPc m p) / 2 ^ 56) ++
    leBytes 1 (busyMask m p) ++ leBytes 1 (b2n ((x.run.map (fun r => r.replayOf.isSome)).getD false)) ++ leBytes 4 kept.length

/-- 300 µs without a heartbeat write: a hang, and the kill that precedes its reset. A kill under way becomes a hang's. -/
def execHangDetected (p : Fin 8) (s : State) : Out := s.run (fun m =>
  let r := mget m.recov p
  if !rdb m (Reg.TC_HB_STATUS_WATCHED p) ∨ now m < r.hbLast + 300000 ∨ r.killing = some .hang ∨
      rd m (Reg.TC_RECOV_STATUS_STATE p) = 3 then m
  else
    let m := m |> wrb (Reg.TC_HB_STATUS_HANG p) true |> inc (Reg.TC_RECOV_CNT_HANG p)
      |> logErr { path := pathPartElem m p 6, source := 0x59, routineId := rd m (Reg.TC_SEQ_ROUTINE_ID p),
                  instrAddr := seqPc m p, opcode := imemWord m p (seqPc m p) / 2 ^ 56, tag := rd m (Reg.TC_SEQ_ITAG p),
                  detail := hangDetail m p }
    let m := modRecov p (fun r => { r with hangSeq := rd m Reg.SAF_LOG_SEQ }) m
    if r.killing.isSome then modRecov p (fun r => { r with killing := some .hang, killAt := now m }) m
    else beginKill p .hang m)

/-- Engines that are still busy 20 µs into the drain of a hang stop where they stand (R612). -/
def execKillDrainTimeout (p : Fin 8) (s : State) : Out := s.run (fun m =>
  let r := mget m.recov p
  if r.killing = some .hang ∧ rd m (Reg.TC_RECOV_STATUS_STATE p) = 1 ∧ r.killAt + 20000 ≤ now m ∧ !flightEmpty m p then
    m |> kvStop p |> forEach (List.range 6) (fun e => modEngine p e (fun x => { x with flight := [] })) |> syncCores p |> afterDrain p
  else m)

/-! ### The rescue (R615) -/

/-- The row check table of a tensor's bytes (R205). -/
def rowChecksOf (e bs : List Byte) : List Byte :=
  (List.range (ispPlanes e)).flatMap (fun c => (List.range (ispOutH e)).flatMap (fun y =>
    leBytes 4 (crc32c (slice bs (c * planeStride e + y * rowPitch e) (ispOutW e)))))

/-- A completion that names an output slot instead of scratch: PLACE 1, DIVERTED. -/
def divertedNotice (slot : Nat) (c : Notice) : Notice :=
  { c with lo := c.lo % 2 ^ 32 + (bitsAt c.lo 32 16 ||| 1) * 2 ^ 32 + 2 ^ 48 + slot * 2 ^ 56 }

/-- Change the completion of a tag wherever it waits; none drops it. -/
def mapEntry (p t : Nat) (f : Notice → Option Notice) (m : Mach) : Mach :=
  let g (l : List Notice) : List Notice := l.filterMap (fun c => if c.tag = t then f c else some c)
  syncFifo p { m with comps := mmod m.comps p g }
    |> modRecov p (fun r => { r with first := g r.first, retained := g r.retained })

/-- The rescue fails an item. -/
def rescueFails (p t : Nat) (st : Status) (reason : Nat) (m : Mach) : Mach :=
  m |> mapEntry p t (fun _ => none) |> failItem t st reason |> inc (Reg.TC_RECOV_CNT_LOST p)

/-- Copy the tensor of an item to the next FREE slot of its stream's output buffer. -/
def rescueOne (p t : Nat) (m : Mach) : Mach :=
  match lookup m.items t with
  | none => m
  | some it =>
    let i := tagStream t
    let e := ispEntry m i
    let x := mget m.isps i
    let base := if x.outBase = 0 then ispOutBase e else x.outBase
    let psa := ispCore e * 2 ^ 25 + it.scr
    let (v, m) := scrVerdict { tag := t } p true psa (tensorBytes e) m
    if v ≠ 0 then rescueFails p t .failedFault Reason.rescueFailed m
    else match nextOut m i base with
      | none => rescueFails p t .failedFault Reason.rescueFailed m
      | some slot =>
        let a := base + slot * ispSlotBytes e
        let bs := scrBytesAt m p psa (tensorBytes e)
        let flags := it.ispFlags ||| flagBit 0
        m |> modIsp i (fun x => { x with held := x.held ++ [(a, t)], outBase := base })
          |> wr (Reg.ISP_STR_STATUS_OUT_NEXT i) ((slot + 1) % ispOutSlots e)
          |> writeMem a (tensorHeader e t flags it.jobTurn it.stamp) |> writeMem (a + 4096) bs
          |> writeMem (a + 4096 + tensorBytes e) (rowChecksOf e bs)
          |> setIspFlags t flags |> mapEntry p t (fun c => some (divertedNotice slot c))
          |> inc (Reg.TC_RECOV_CNT_RESCUED p) |> modRecov p (fun r => { r with rescued := r.rescued + 1 })

/-- The tags of a rescue whose copies end within a time, and those still to be copied then. -/
def rescueBy (m : Mach) (p : Nat) : Nat → List Nat → List Nat × List Nat
  | _, [] => ([], [])
  | left, t :: r =>
    let c := rescueNs m p t
    if c ≤ left then let (a, b) := rescueBy m p (left - c) r; (t :: a, b) else ([], t :: r)

def execRescueComplete (p : Fin 8) (s : State) : Out := s.run (fun m =>
  let r := mget m.recov p
  let ns := (r.rescue.map (rescueNs m p)).sum
  if rd m (Reg.TC_RECOV_STATUS_STATE p) = 2 ∧ r.rescueAt + ns ≤ now m ∧ ns ≤ 250000 then
    m |> forEach r.rescue (rescueOne p) |> afterRescue p
  else m)

def execRescueTimeout (p : Fin 8) (s : State) : Out := s.run (fun m =>
  let r := mget m.recov p
  if rd m (Reg.TC_RECOV_STATUS_STATE p) = 2 ∧ r.rescueAt + 250000 ≤ now m then
    let (good, late) := rescueBy m p 250000 r.rescue
    m |> forEach good (rescueOne p) |> forEach late (fun t => rescueFails p t .failedReset Reason.scratchLost) |> afterRescue p
  else m)

/-! ### Forensic holds (R369, R372) -/

/-- A forensic hold ends: no rescue has run, so items whose input lies only in scratch fail, and the wipe runs. -/
def endForensic (p : Nat) (timedOut : Bool) (m : Mach) : Mach :=
  match (mget m.recov p).forensic with
  | none => m
  | some t =>
    let r := mget m.recov p
    let lost := ((r.retained ++ r.first ++ mget m.comps p).filter (fun c => compPlace c == 0 &&
      strCamera (streamEntry m (tagStream c.tag)))).map (·.tag)
    m |> modRecov p (fun r => { r with forensic := none }) |> wrb (Reg.SCR_STATUS_HELD p) false
      |> wrb (Reg.TC_RECOV_STATUS_HOLD p) false |> wr (Reg.SCR_FORENSIC_HOLD_MS p) (min 65535 ((now m - t) / 1000000))
      |> whenB timedOut (wrb (Reg.SCR_FORENSIC_TIMED_OUT p) true)
      |> forEach lost (fun t => rescueFails p t .failedReset Reason.scratchLost) |> afterRescue p

def execForensicRelease (who : Requester) (p : Fin 8) (s : State) : Out := s.run
  (regWrite who (Reg.SCR_FORENSIC_RELEASE p) .leadMi (endForensic p false))

def execForensicHoldTimeout (p : Fin 8) (s : State) : Out := s.run (fun m =>
  match (mget m.recov p).forensic with
  | some t => if t + 1000000000 ≤ now m then endForensic p true m else m
  | none => m)

/-! ### Scratch images and the light state (R599, R602) -/

/-- Register addresses of the ready bits and of the lease codes of a partition. -/
def imageRegs (p : Nat) : List (Nat × Nat) :=
  let b := 0x7F10080000 + p * 0x1000000
  [(b + 0x20, b + 0x60), (b + 0x1000, b + 0x1800)]

/-- Listed register fields at addresses in these spans. -/
def regsIn (m : Mach) (l : List (Nat × Nat)) : List (Nat × Nat) :=
  m.regs.filter (fun c => l.any (fun x => decide (x.1 * 64 ≤ c.1) && decide (c.1 < x.2 * 64)))

/-- Put register fields of these spans back. -/
def putRegs (l saved : List (Nat × Nat)) (m : Mach) : Mach :=
  let m := forEach l (fun x => clearRegs x.1 x.2) m
  { m with regs := saved.foldl (fun r c => insertKey (eraseKey r c.1) c.1 c.2) m.regs }

/-- First and last device address of a partition's scratch. -/
def scrSpan (m : Mach) (p : Nat) : Nat × Nat := (scrAddr m p 0 0, scrAddr m p 0 0 + coresPer m * 0x2000000)

/-- The image that is resident. -/
def takeImage (m : Mach) (p : Nat) : Image :=
  let (lo, hi) := scrSpan m p
  { bytes := m.mem.filter (fun c => decide (lo ≤ c.1) && decide (c.1 < hi)),
    bad := m.bad.filter (fun c => decide (lo ≤ c.1 * 8) && decide (c.1 * 8 < hi)), regs := regsIn m (imageRegs p) }

/-- Restore an image. -/
def putImage (p : Nat) (x : Image) (m : Mach) : Mach :=
  let (lo, hi) := scrSpan m p
  let m := m |> zeroMem lo hi |> putRegs (imageRegs p) x.regs
  { m with mem := x.bytes.foldl (fun l c => setD 0 l c.1 c.2) m.mem, bad := x.bad.foldl (fun l c => setD 0 l c.1 c.2) m.bad }

/-- The light state of the routine that runs. -/
def takeLight (m : Mach) (p : Nat) : Light :=
  let q := mget m.seqs p
  let es := (List.range 6).map (fun e => (e, (engine m p e).queue))
  { pc := seqPc m p, itag := rd m (Reg.TC_SEQ_ITAG p), s := q.s, t := q.t, sems := (List.range 16).map (fun n => rd m (Reg.TC_SEQ_SEM p n)),
    queues := es, vregs := [0, 1].flatMap (fun k => (coreSt m p k).vregs.map (fun c => (k * 64 + c.1, c.2))),
    vaccs := [0, 1].flatMap (fun k => (coreSt m p k).vaccs.map (fun c => (k * 64 + c.1, c.2))),
    leases := regsIn m [((imageRegs p).headD (0, 0))], taken := q.taken, results := q.results, commits := q.commits,
    grids := q.grids, kvFirst := q.kvFirst }

/-- Restore a light state: dispatch goes on from the saved pc. -/
def putLight (p : Nat) (x : Light) (r : Run) (m : Mach) : Mach :=
  let m := m |> modSeq p (fun q => { q with
      s := x.s, t := x.t, waiting := none, ended := false, run := some r, taken := x.taken, results := x.results, commits := x.commits,
      grids := x.grids, kvFirst := x.kvFirst })
    |> wr (Reg.TC_SEQ_PC p) x.pc |> wr (Reg.TC_SEQ_ITAG p) x.itag |> wr (Reg.TC_SEQ_ROUTINE_ID p) r.id
    |> wr (Reg.TC_SEQ_STATUS_STATE p) 1 |> wr (Reg.TC_SEQ_STATUS_ROUTINE p) r.index |> wr (Reg.TC_SEQ_STATUS_CLASS p) 1
    |> forEach x.sems.zipIdx (fun c => wr (Reg.TC_SEQ_SEM p c.2) c.1)
    |> forEach x.queues (fun c => modEngine p c.1 (fun e => { e with queue := c.2 })) |> syncCores p
    |> putRegs [((imageRegs p).headD (0, 0))] x.leases |> syncResidues p
  forEach [0, 1] (fun k => modCore p k (fun c => { c with
    vregs := (x.vregs.filter (fun v => v.1 / 64 == k)).map (fun v => (v.1 % 64, v.2)),
    vaccs := (x.vaccs.filter (fun v => v.1 / 64 == k)).map (fun v => (v.1 % 64, v.2)) })) m

/-! ### Starting again (R621 to R626) -/

/-- Start a routine under the partition's turn (R303, R621). -/
def startHere (p : Nat) (r : Run) (m : Mach) : Mach := startRun p r (rd m (Reg.TC_TURN_NUMBER p)) (mget m.turns p).tick m

/-- Start the routine that waits to be started again. -/
def startAgain (p : Nat) (m : Mach) : Mach :=
  match (mget m.recov p).restart with
  | none => m
  | some r =>
    m |> modRecov p (fun x => { x with restart := none }) |> inc (Reg.TC_RECOV_CNT_RESTART p) |> startHere p { r with replayOf := none }

/-- The next step of a replay (R624 to R626): suspects that are decided leave; behind a second guilty item the others fail; at the
end of the episode its CLASSIFY record, and the routine runs normally. -/
def replayNext (p : Nat) (m : Mach) : Mach :=
  let live (l : List Notice) : List Notice := l.filter (fun n => ((lookup m.items n.tag).map (fun it => it.fixed.isNone)).getD false)
  let m := modRecov p (fun r => { r with suspects := live r.suspects }) m
  let r := mget m.recov p
  let g := rd m (Reg.TC_RECOV_STATUS_GUILTY p)
  let m := if 2 ≤ g then m |> forEach r.suspects (fun n => failItem n.tag .failedFault Reason.replayLimit)
      |> modRecov p (fun r => { r with suspects := [] })
    else m
  match (mget m.recov p).suspects, r.replayRun with
  | n :: rest, some run =>
    m |> wr (Reg.TC_RECOV_STATUS_STATE p) 4 |> wr (Reg.TC_RECOV_STATUS_SUSPECTS p) (rest.length + 1)
      |> startHere p { run with replayOf := some n.tag }
  | _, _ =>
    let cls := if r.episode = 0 then 0 else if g ≠ 0 then 2 else if r.had then 1 else 3
    let m := m |> whenB (cls != 0) (logErr { path := pathPartElem m p 6, source := 0x0A, cls := cls, detail := leBytes 4 r.episode ++ leBytes 4 0 })
      |> wr (Reg.TC_RECOV_STATUS_STATE p) 0 |> wr (Reg.TC_RECOV_STATUS_SUSPECTS p) 0 |> wr (Reg.TC_RECOV_STATUS_GUILTY p) 0
      |> modRecov p (fun r => { r with first := r.again ++ r.first, again := [], replayRun := none, episode := 0, had := false })
    match r.replayRun with
    | some run => if run.kind = 0 then startHere p { run with replayOf := none } m else lcFinish p m
    | none => m

/-- A suspect's run has reached END: without RESULT the suspect is presented again when the replay ends. -/
def replayEnds (p t : Nat) (m : Mach) : Mach :=
  let r := mget m.recov p
  let open' := ((lookup m.items t).map (fun it => it.fixed.isNone)).getD false
  let s := r.suspects.filter (fun n => n.tag == t)
  m |> modRecov p (fun r => { r with suspects := r.suspects.filter (fun n => n.tag != t), again := if open' then r.again ++ s else r.again })
    |> replayNext p

/-! ### The end of a routine (R304, R594, R622) -/

/-- The open best-effort context has reached END. -/
def closeBe (p : Nat) (m : Mach) : Mach :=
  let r := mget m.recov p
  match r.be with
  | none => m
  | some c =>
    let m := modRecov p (fun r => { r with be := none, switch := if r.lcImage.isSome then .restoringLc else .none }) m
    let m := match c.desc with
      | some d => m |> completeDesc d .ok 0 |> inc (Reg.TC_SCHED_CNT_WORK_DONE p)
      | none => m
    m |> syncSched p |> syncSwitch p

def execRoutineEnd (q : Fin 9) (s : State) : Out := s.run (fun m =>
  let x := mget m.seqs q
  match x.run with
  | none => m
  | some r =>
    if !x.ended || !drained m q then m
    else if q.val = 8 then
      m |> modSeq 8 (fun x => { x with run := none, ended := false }) |> wr (Reg.TC_SEQ_STATUS_STATE 8) 0
        |> wrb Reg.PTN_STATUS_ROUTINE_RUNNING false
    else if (mget m.recov q).killing.isSome then m
    else
      let m := idleSeq q m
      match r.replayOf with
      | some t => replayEnds q t m
      | none => if r.kind = 0 then lcFinish q m else m |> closeBe q |> lcFinish q)

/-! ### Windows (R95) -/

/-- Cycles of each row of R536. -/
def testCycles : List Nat := [0, 24000, 6000, 2000, 12000, 4000, 8000, 4000]

/-- Nanoseconds of a partition's window that its activities of orders 1 to 7 take: catch-up counts with its recalibration. -/
def windowUsed (m : Mach) (p : Nat) (rows : List Nat) (sweep : Bool) (cals : Nat) : Nat :=
  cyclesNs m p ((if sweep then 8192 else 0) + (rows.map (fun r => testCycles.getD r 0)).sum) + 7500 * cals + 2000

/-- Sensors of a partition, with those of a spare that serves it (R652, R653). -/
def partSensors (m : Mach) (p : Nat) : List Nat :=
  let h := p / 4
  let (used, part) := if h = 0 then (rdb m Reg.SAF_SPARE_MAP_S0_IN_USE, rd m Reg.SAF_SPARE_MAP_S0_PART)
    else (rdb m Reg.SAF_SPARE_MAP_S1_IN_USE, rd m Reg.SAF_SPARE_MAP_S1_PART)
  [4 * p, 4 * p + 1, 4 * p + 2, 4 * p + 3] ++ (if used && part == p % 4 then [32 + 2 * h, 33 + 2 * h] else [])

/-- A sensor's temperature in °C. -/
def tempOf (m : Mach) (s : Nat) : Int := signedOf 8 (rd m (Reg.PWR_TEMP_C s))

/-- The hottest working one of some sensors. -/
def hottestOf (m : Mach) (l : List Nat) : Option Int :=
  (l.filter (fun s => !rdb m (Reg.PWR_TEMP_FAILED s))).foldl (fun h s => some (match h with
    | none => tempOf m s
    | some x => max x (tempOf m s))) none

/-- Whether the temperature band of a margin test holds (R494). -/
def marginBand (m : Mach) (p : Nat) : Bool :=
  match hottestOf m (partSensors m p) with
  | some t => decide ((t - signedOf 8 (rd m (Reg.SAF_HOT_REC_HOTTEST p))).natAbs ≤ 10)
  | none => false

/-- A margin test that is due runs in a window where its conditions hold (R494). -/
def marginBegin (p : Nat) (m : Mach) : Mach :=
  let t := mget m.turns p
  let m := modTurn p (fun t => { t with margin := false }) m
  if m.margin.dueAt.isNone ∨ rd m Reg.SAF_MARGIN_STATUS_NEXT ≠ p ∨ rdb m Reg.SAF_MARGIN_STATUS_RUNNING then m
  else
    let r := mget m.recov p
    let cal := ((List.range 4).filter (fun j => rdb m (Reg.MEM_STATUS_CAL_OVERDUE (4 * p + j)))).length
    let used := windowUsed m p (t.overdue ++ [1, 2, 3, 4, 5, 6, 7]) true (cal + (if r.catchUp then 8 else 4))
    let ok := rd m (Reg.TC_TURN_LAG p) == 0 && !rdb m (Reg.TC_CORE_CHK_CTRL_LOCALISE p 0) && !rdb m (Reg.TC_CORE_CHK_CTRL_LOCALISE p 1) &&
      r.events.isEmpty && r.toRetire.isEmpty && !rdb m (Reg.SAF_SUSPECT_HALTED p) &&
      decide (used + cyclesNs m p 72000 + 20000 ≤ t.windowEnd - now m)
    if ok && (m.margin.cool || marginBand m p) then
      { m with margin := { m.margin with endAt := now m + used + cyclesNs m p 72000 } }
        |> wrb Reg.SAF_MARGIN_STATUS_RUNNING true |> wrb Reg.SAF_MARGIN_STATUS_WAITING_TEMP false
        |> modTurn p (fun t => { t with margin := true })
    else wrb Reg.SAF_MARGIN_STATUS_WAITING_TEMP (!m.margin.cool && !marginBand m p) m

/-- The window of a turn begins (R95, R97, R99): overdue tests and calibrations run ahead of it, and extend the turn. -/
def beginWindow (p : Nat) (m : Mach) : Mach :=
  let t := mget m.turns p
  let cal := ((List.range 4).filter (fun j => rdb m (Reg.MEM_STATUS_CAL_OVERDUE (4 * p + j)))).length
  let x := cyclesNs m p (t.overdue.map (fun r => testCycles.getD r 0)).sum + 7500 * cal
  let at0 := atTick m t.tick
  m |> modTurn p (fun t => { t with
      phase := .window, pendWin := false, windowEnd := at0 + x + windowNs m, ext := t.ext + (at0 - t.tick) + x })
    |> wrb (Reg.TC_TURN_STATUS_TEST_OVERDUE p) (!t.overdue.isEmpty)
    |> whenB (mget m.recov p).lcImage.isSome (setSwitch p .restoringLc) |> marginBegin p |> windowBusy p true

/-! ### Wipes (R367, R368) -/

def execWipeComplete (p : Fin 8) (s : State) : Out := s.run (fun m =>
  let r := mget m.recov p
  if !rdb m (Reg.SCR_STATUS_WIPING p) || decide (now m < r.wipeAt + cyclesNs m p 8800) then m
  else
    let m := m |> wrb (Reg.SCR_STATUS_WIPING p) false |> inc (Reg.SCR_CNT_WIPES p)
    if rd m (Reg.TC_RECOV_STATUS_STATE p) = 3 then m
    else if r.switch = .clearing then
      match r.be with
      | some c =>
        m |> wr (Reg.TC_SCHED_LAST_SWITCH p) (min 0xFFFFFFFF (now m - r.requested)) |> inc (Reg.TC_SCHED_CNT_FULL_SWITCH p)
          |> wrb (Reg.TC_SCHED_STATUS_BE_RESIDENT p) true |> startHere p c.run |> setSwitch p .none
      | none => m |> setSwitch p .restoringLc |> whenB (mget m.turns p).pendWin (beginWindow p)
    else m |> startAgain p |> lcFinish p)

/-! ### Suspect units (R489 to R493) -/

/-- Whether a partition is HALTED. -/
def halted (m : Mach) (p : Nat) : Bool := rdb m (Reg.SAF_SUSPECT_HALTED p)

/-- A partition is HALTED (R493): no heartbeat watch, and no routine from its next partition tick. -/
def haltPart (p : Nat) (m : Mach) : Mach := m |> wrb (Reg.SAF_SUSPECT_HALTED p) true |> wrb (Reg.TC_HB_STATUS_WATCHED p) false

/-- Fields of SAF_SPARE_MAP for the spare of a half. -/
def spareInUse (h : Nat) : Fld := if h = 0 then Reg.SAF_SPARE_MAP_S0_IN_USE else Reg.SAF_SPARE_MAP_S1_IN_USE
def sparePart (h : Nat) : Fld := if h = 0 then Reg.SAF_SPARE_MAP_S0_PART else Reg.SAF_SPARE_MAP_S1_PART
def spareCore (h : Nat) : Fld := if h = 0 then Reg.SAF_SPARE_MAP_S0_CORE else Reg.SAF_SPARE_MAP_S1_CORE
def spareFailed (h : Nat) : Fld := if h = 0 then Reg.SAF_SPARE_MAP_S0_FAILED else Reg.SAF_SPARE_MAP_S1_FAILED

/-- No spare is free, or the free one has failed its tests. -/
def noSpare (p k : Nat) (m : Mach) : Mach :=
  m |> logErr { path := pathCore m p k 0 63 63, source := 0x0F, detail := [0] ++ leBytes 1 (coreNo m p k) } |> haltPart p

/-- The spare takes a core's logical index; the partition's steps return to zero (R492). -/
def substitute (p k : Nat) (m : Mach) : Mach :=
  let h := p / 4
  m |> logErr { path := pathCore m p k 0 63 63, source := 0x0E, detail := leBytes 1 h ++ leBytes 1 (coreNo m p k) }
    |> wrb (spareInUse h) true |> wr (sparePart h) (p % 4) |> wr (spareCore h) k
    |> wr (Reg.SAF_SUSPECT_RETIRED p) (rd m (Reg.SAF_SUSPECT_RETIRED p) ||| 2 ^ k)
    |> wr (Reg.SAF_SUSPECT_VSTEP p) 0 |> wrb (Reg.SAF_SUSPECT_FSTEP p) false |> wrb (Reg.SAF_SUSPECT_FSKIPPED p) false
    |> wr (Reg.SAF_SUSPECT_PERMANENT p) 0 |> wr (Reg.TC_TURN_BUDGET p) (budgetNs m p)
    |> wrb (Reg.TC_CORE_CHK_STATUS_CHECK_BYPASSED p k) false |> syncResidue p k |> syncRail p

/-- Whether the spare of a partition's half is free and has not failed. -/
def spareFree (m : Mach) (p : Nat) : Bool := !rdb m (spareInUse (p / 4)) && !rdb m (spareFailed (p / 4))

/-- Retire a core at a partition tick: a partition reset that takes the spare into service, or none. -/
def retire (p k : Nat) (m : Mach) : Mach :=
  let m := modRecov p (fun r => { r with events := [], toRetire := [] }) m
  if !spareFree m p then noSpare p k m
  else m |> substitute p k |> startReset p 3

/-- B′ of R491 at the slowest point, and the limit it must keep. -/
def slowBudget (m : Mach) (p : Nat) : Nat :=
  let f := pointMhz (partSlowest m p)
  ceilDiv (budgetNs m p * f) (f - 25)
def budgetLimit (m : Mach) : Nat := periodNs m - shortenNs m - windowNs m - ceilDiv (periodNs m) 10000

/-- One step of R489 for a permanent event on a core; it may begin the reset of a retirement. -/
def stepEvent (p k : Nat) (m : Mach) : Mach :=
  let v := rd m (Reg.SAF_SUSPECT_VSTEP p)
  let path := pathPartElem m p 0
  if v < 3 then
    let m := m |> wr (Reg.SAF_SUSPECT_VSTEP p) (v + 1) |> syncRail p
    logErr { path := path, source := 0x0B, detail := leBytes 2 (v + 1) ++ leBytes 2 (min 950 (900 + 10 * (v + 1))) } m
  else if !rdb m (Reg.SAF_SUSPECT_FSTEP p) && !rdb m (Reg.SAF_SUSPECT_FSKIPPED p) then
    let b := slowBudget m p
    let d := leBytes 4 b ++ leBytes 4 (budgetLimit m)
    if b ≤ budgetLimit m then
      m |> wrb (Reg.SAF_SUSPECT_FSTEP p) true |> wr (Reg.TC_TURN_BUDGET p) b |> logErr { path := path, source := 0x0C, detail := d }
    else
      m |> wrb (Reg.SAF_SUSPECT_FSKIPPED p) true |> logErr { path := path, source := 0x0D, detail := d } |> retire p k
  else retire p k m

/-- Take the steps that have fallen due, until one begins a reset. -/
def stepEvents (p : Nat) : List Nat → Mach → Mach
  | [], m => m
  | k :: r, m =>
    if rd m (Reg.TC_RECOV_STATUS_STATE p) = 3 ∨ halted m p then m
    else m |> modRecov p (fun x => { x with events := r }) |> stepEvent p k |> stepEvents p r

/-! ### Partition resets (R461, R617 to R622) -/

/-- The order in which a partition's channels leave self-refresh: held accesses that now reach no such channel are performed in
the order of their arrival (R461, R462). -/
def releaseHeld (f : HeldAcc → Mach → Mach) (m : Mach) : Mach :=
  let free (a : HeldAcc) : Bool := !inRefresh m a.addr (max 1 (if a.write then a.data.length else a.len))
  let go := m.held.filter free
  forEach go f { m with held := m.held.filter (fun a => !free a) }

/-- Perform an access of R462 that was held. -/
def performHeld (a : HeldAcc) (m : Mach) : Mach :=
  if a.bar2 then
    if a.write then
      if loaderOnly m a.addr a.data.length then hostIfAddr .ur a.who 2 a.addr m else hbmWriteNow a.addr a.data a.ce a.ue m
    else
      let m' := upsetHbm a.addr a.len a.ce a.ue m
      let (v, m') := hbmVerdict {} a.addr a.len m'
      emit (if v = 0 then .readBytes a.who (readMem m a.addr a.len) else .readPoisoned a.who a.len) m'
  else if a.write then hbmWriteNow a.addr a.data a.ce a.ue m
  else hbmReadNow a.who a.addr a.len a.ce a.ue m

/-- A turn's mode (R112): on the grid, or quickstep. -/
def turnMode (p : Nat) (m : Mach) : Mach :=
  let t := mget m.turns p
  wr (Reg.TC_TURN_STATUS_MODE p) (if !t.begun then 0 else if t.quick then 2 else 1) m

/-- What items do whose stream has left the partition, or whose partition takes no more routines. -/
def failWaiting (p : Nat) (gone : Nat → Bool) (st : Status) (reason : Nat) (m : Mach) : Mach :=
  let r := mget m.recov p
  let l := ((r.first ++ mget m.comps p ++ mget m.rnotes p).map (·.tag)).filter gone
  let keep (x : List Notice) : List Notice := x.filter (fun n => !l.contains n.tag)
  let m := forEach l (fun t m => match lookup m.items t with
    | some it =>
      let m := if it.range && it.hasSlot then m |> freeSlot it.stream it.slot it.gen |> modItem t (fun x => { x with hasSlot := false }) else m
      failItem t st reason m
    | none => m) m
  syncFifo p { m with comps := mmod m.comps p keep, rnotes := mmod m.rnotes p keep } |> modRecov p (fun r => { r with first := keep r.first })

/-- A named partition's reset has ended; with the last one the alteration is applied (R73). -/
def alterDone (p : Nat) (m : Mach) : Mach :=
  let left := m.ldr.altLeft.filter (· != p)
  if m.ldr.alter = .resetting ∧ left = [] then
    { m with ldr := { m.ldr with altLeft := [], altNamed := [], altSecs := [], alter := .none } }
      |> wrb Reg.PAT_STATUS_ALTER_PENDING false |> wr Reg.PAT_ALTER_SEQ (rd m Reg.PAT_ALTER_SEQ + 1)
  else { m with ldr := { m.ldr with altLeft := left } }

/-- A partition reset ends: `imemBad` an uncorrectable word of instruction memory was found in phase D, `spareBad` the spare did
not pass phase E. -/
def execPartitionResetComplete (p : Fin 8) (imemBad spareBad : Bool) (s : State) : Out := s.run (fun m =>
  let r := mget m.recov p
  if rdb m Reg.PWR_STATUS_SHUTDOWN ∨ rd m (Reg.TC_RECOV_STATUS_STATE p) ≠ 3 ∨ now m < r.resetAt + cyclesNs m p (8800 + 16384) then m
  else
    let m := if rdb m (Reg.SCR_STATUS_WIPING p) then m |> wrb (Reg.SCR_STATUS_WIPING p) false |> inc (Reg.SCR_CNT_WIPES p) else m
    let dur := (now m - r.resetAt) / 1000
    let core := rd m (spareCore (p / 4))
    let m := if r.cause = 3 ∧ spareBad then
        m |> wrb (spareInUse (p / 4)) false |> wrb (spareFailed (p / 4)) true |> noSpare p core
      else m
    let m := if imemBad then haltPart p m else m
    let placed (t : Nat) : Bool := strPart (streamEntry m (tagStream t)) == p.val && (streamEntry? m (tagStream t)).isSome
    let m := if r.cause = 2 then failWaiting p (fun t => !placed t) .failedReset Reason.alteration m else m
    let m := if halted m p then failWaiting p (fun _ => true) .failedFault Reason.halted m else m
    let shown := (mget m.recov p).first.length + (mget m.comps p).length + (mget m.rnotes p).length + (mget m.recov p).suspects.length
    let d := leBytes 1 r.cause ++ leBytes 1 (b2n (r.cause == 3) + 2 * b2n (r.cause == 3) + 4 * b2n (halted m p)) ++
      leBytes 2 (min 65535 dur) ++ leBytes 2 (min 65535 r.failedN) ++ leBytes 2 (min 65535 shown) ++
      leBytes 4 (if r.cause = 1 then r.hangSeq else 0) ++ leBytes 4 r.rescued
    let m := m |> logErr { path := pathPartElem m p 6, source := 0x5A, detail := d }
      |> wr (Reg.TC_RECOV_LAST_CAUSE p) r.cause |> wr (Reg.TC_RECOV_LAST_DURATION p) (min 65535 dur)
      |> forEach (List.range 4) (fun j => wr (Reg.MEM_STATUS_STATE (4 * p + j)) 2) |> releaseHeld performHeld
      |> wr (Reg.TC_RECOV_STATUS_STATE p) 0 |> wr (Reg.TC_SEQ_STATUS_STATE p) 0 |> turnMode p |> syncPoint p
      |> modRecov p (fun x => { x with cause := 0, rescued := 0, catchUp := true })
    let m := alterDone p m
    if (mget m.recov p).nextCauses.contains 5 then
      m |> modRecov p (fun r => { r with nextCauses := r.nextCauses.filter (· != 5) }) |> startReset p 5
    else if r.cause = 1 then
      if halted m p then
        m |> forEach r.suspects (fun n => failItem n.tag .failedFault Reason.halted)
          |> modRecov p (fun r => { r with suspects := [], again := [], replayRun := none, episode := 0 })
          |> wr (Reg.TC_RECOV_STATUS_SUSPECTS p) 0 |> lcFinish p
      else replayNext p m
    else if r.cause = 5 then
      (if halted m p then modRecov p (fun r => { r with restart := none }) m else startAgain p m) |> lcFinish p
    else if (mget m.turns p).pendWin then beginWindow p m
    else m)

/-- A host's reset (R617, R634): at once, behind the kill of the routine that runs; ignored while a reset runs. -/
def recovReset (p : Nat) (m : Mach) : Mach :=
  if rdb m Reg.PWR_STATUS_SHUTDOWN then m
  else if rd m (Reg.TC_RECOV_STATUS_STATE p) = 3 then inc (Reg.TC_RECOV_CNT_IGNORED p) m
  else if (mget m.recov p).killing.isSome then
    modRecov p (fun r => { r with nextCauses := if r.nextCauses.contains 5 then r.nextCauses else r.nextCauses ++ [5] }) m
  else beginKill p .host m

def execRecovResetWrite (who : Requester) (p : Fin 8) (s : State) : Out := s.run
  (regWrite who (Reg.TC_RECOV_CTRL_RESET p) .pfHcMi (recovReset p))

end Sys2Proof.Machine
end

