-- ==== Sys2Proof/Machine/Sched.lean ====
section
/-!
DEFINITION. The turns of a partition (R91 to R108), its window and background work (R95 to R99, R365, R366, R536), and the
scheduling of routines and best-effort contexts (R591 to R607).
-/

namespace Sys2Proof.Machine

/-! ### Scrub of scratch (R365, R366) -/

/-- The bank of a PSA, and the word of it (R343). -/
def bankWord (m : Mach) (p psa : Nat) : Nat × Nat :=
  let w := psa % 2 ^ 25 / 64
  match (mapRegions m p (psa / 2 ^ 25)).find? (fun r => decide (r.gf * 64 ≤ w) && decide (w < (r.gf + r.gc) * 64)) with
  | some r => (r.bf + (w - r.gf * 64) % r.bn, r.wf + (w - r.gf * 64) / r.bn)
  | none => (0, 0)

/-- Uncorrectable words of a core's scratch, by PSA. -/
def scrubBad (m : Mach) (p k : Nat) : List Nat :=
  let lo := scrAddr m p k 0
  (m.bad.filter (fun c => decide (lo ≤ c.1 * 8) && decide (c.1 * 8 < lo + scrBytes) && c.2 == 1)).map (fun c => k * 2 ^ 25 + (c.1 * 8 - lo))

/-- Scrub finds an uncorrectable word: poison over it, and a record. -/
def scrubWord (p psa : Nat) (m : Mach) : Mach :=
  m |> logErr { path := pathBank m p psa, source := 0x52, detail := leBytes 4 psa } |> markEcc p (psa / 32) 2

/-- The sweep of the weight banks; `ce` names banks (64 × core + bank) in which it corrects more than 64 words. -/
def weightSweep (p : Nat) (ce : List Nat) (m : Mach) : Mach :=
  let m := forEach (List.range (coresPer m)) (fun k m =>
    forEach ((scrubBad m p k).filter (fun a => weightBank m p k (bankOf m p a))) (scrubWord p) m) m
  m |> forEach (ce.filter (fun b => decide (b / 64 < coresPer m) && weightBank m p (b / 64) (b % 64))) (fun b m =>
      logErr { path := pathCore m p (b / 64) 5 (b % 64) 63, source := 0x52, detail := leBytes 4 0 } m)
    |> inc (Reg.SCR_CNT_WSCRUB_PASS p)

/-- Patrol scrub of the activation banks of a core for `n` cycles, a word of every bank in each. -/
def actScrubCore (p k n : Nat) (m : Mach) : Mach :=
  let key := p * 2 + k
  let pos := getD 0 m.ascrub key
  let n := min n (8192 - pos)
  let due (psa : Nat) : Bool :=
    let (b, w) := bankWord m p psa
    !weightBank m p k b && decide (pos ≤ w) && decide (w < pos + n)
  let heldG := (m.grans.filter (fun c => c.1 / 2 ^ 14 == p && c.1 % 2 ^ 14 / 8192 == k)).map (fun c => c.1 % 2 ^ 14)
  let skipped := heldG.filter (fun g => (List.range 64).any (fun i => due (g * 4096 + 64 * i)))
  let m := m |> addTo (Reg.SCR_CNT_SCRUB_SKIP p) skipped.length
    |> forEach ((scrubBad m p k).filter (fun a => due a && !heldG.contains (a / 4096))) (scrubWord p)
  if pos + n = 8192 then inc (Reg.SCR_CNT_ASCRUB_PASS p) { m with ascrub := setD 0 m.ascrub key 0 }
  else { m with ascrub := setD 0 m.ascrub key (pos + n) }

def actScrub (p ns : Nat) (m : Mach) : Mach :=
  forEach (List.range (coresPer m)) (fun k m => actScrubCore p k (nsCycles m p ns) m) m

/-- Every entry of a partition's poison queues is written (R364). -/
def flushPoison (p : Nat) (m : Mach) : Mach :=
  let l := m.poisonq.filter (fun c => c.1 / 128 == p)
  forEach l (fun c m => forEach c.2 (fun w => markEcc p w 2) m) { m with poisonq := clearRange m.poisonq (p * 128) (p * 128 + 128) }

/-! ### Periodic tests (R99, R536) -/

/-- Checksum logic of an array has failed a self-test: BYPASS (R488). -/
def selfTestBypass (p k : Nat) (m : Mach) : Mach :=
  m |> wrb (Reg.TC_CORE_CHK_STATUS_CHECK_BYPASSED p k) true |> syncResidue p k
    |> logErr { path := pathCore m p k 1 63 63, source := 0x12, detail := leBytes 4 1 }

/-- A row of R536 fails on a core. -/
def periodicFail (p row k : Nat) (m : Mach) : Mach :=
  let m := m |> logErr { path := if row < 5 then pathCore m p k 0 63 63 else pathPartElem m p (if row = 5 then 6 else row + 1),
                         source := 0x4D, detail := leBytes 4 row } |> inc Reg.SAF_CNT_TEST_FAIL
  if row = 1 ∨ row = 4 then permanentEvent p k m
  else if row = 2 then selfTestBypass p k m
  else if row = 3 then modRecov p (fun r => { r with toRetire := r.toRetire ++ [k] }) m
  else
    let again := !(mget m.recov p).testFails.isEmpty
    let m := modRecov p (fun r => { r with testFails := r.testFails ++ [row] }) m
    if again then haltPart p m
    else modRecov p (fun r => { r with nextCauses := if r.nextCauses.contains 4 then r.nextCauses else r.nextCauses ++ [4] }) m

/-- Rows of R536 run; `failed` holds 2 × row + core of those that fail. -/
def runTests (p : Nat) (rows failed : List Nat) (m : Mach) : Mach :=
  m |> whenB (rows.contains 7) (fun m => m |> modKv p (fun k => { k with lab := [] }) |> wr (Reg.KV_STATUS_LAB_VALID p) 0)
    |> forEach (failed.filter (fun f => rows.contains (f / 2))) (fun f => periodicFail p (f / 2) (f % 2))

def syncDeferred (p : Nat) (m : Mach) : Mach := wrb (Reg.TC_TURN_STATUS_TEST_DEFERRED p) (!(mget m.turns p).deferred.isEmpty) m

/-- Deferred rows that did not run within one further turn become overdue; `n` is the turn that ends. -/
def turnOverdue (p n : Nat) (m : Mach) : Mach :=
  m |> modTurn p (fun t => { t with
      overdue := t.overdue ++ (t.deferred.filter (fun d => d.2 != n)).map (·.1), deferred := t.deferred.filter (fun d => d.2 == n) })
    |> syncDeferred p

def execPeriodicTestOverdue (p : Fin 8) (row : Nat) (s : State) : Out := s.run (fun m =>
  let t := mget m.turns p
  let n := rd m (Reg.TC_TURN_NUMBER p)
  if t.deferred.any (fun d => d.1 == row && d.2 != n && d.2 != (n + 2 ^ 32 - 1) % 2 ^ 32) then
    m |> modTurn p (fun t => { t with overdue := t.overdue ++ [row], deferred := t.deferred.filter (fun d => d.1 != row) }) |> syncDeferred p
  else m)

/-! ### Ticks and lag (R93, R102 to R106) -/

/-- A deadline episode ends when the lag is zero (R106, R513). -/
def endDeadline (p : Nat) (m : Mach) : Mach :=
  let m := m |> modTurn p (fun t => { t with deadlined := false }) |> wrb (Reg.TC_TURN_STATUS_DEADLINE p) false
  if m.saf.condDeadline && (List.range 8).all (fun q => !(mget m.turns q).deadlined) then
    refreshSafe { m with saf := { m.saf with condDeadline := false } }
  else m

/-- Pre-empt the open best-effort context (R602, R605). -/
def unstart (p : Nat) (c : BeCtx) (m : Mach) : Mach :=
  m |> modRecov p (fun r => { r with be := none, work := match c.desc with | some d => d :: r.work | none => r.work })
    |> whenB c.desc.isNone (modTurn p (fun t => { t with beDue := c.run.index :: t.beDue })) |> syncSched p

def beginPreempt (p : Nat) (m : Mach) : Mach :=
  let r := mget m.recov p
  match r.be with
  | none => m
  | some c =>
    match r.switch with
    | .none =>
      if ((mget m.seqs p).run.map (·.kind)).getD 0 = 0 then m
      else m |> inc (Reg.TC_SCHED_CNT_PREEMPT p) |> modSeq p (fun x => { x with waiting := none })
        |> modRecov p (fun r => { r with requested := now m }) |> setSwitch p .draining
    | .restoring => setSwitch p (if r.lcImage.isSome then .restoringLc else .none) m
    | .clearing => m |> unstart p c |> whenB (schedMode m p != 2) (setSwitch p .none)
    | .savingLc => m |> whenB c.saved.isNone (unstart p c) |> setSwitch p .none
    | _ => m

/-- Whether steps of a pre-emption are still to be taken. -/
def preempting (m : Mach) (p : Nat) : Bool :=
  let s := (mget m.recov p).switch
  s == .draining || s == .saving || s == .clearing

/-- What a tick finds to do before its window: steps of R489, retirements, and resets that begin at a tick (R617). -/
def tickResets (p : Nat) (m : Mach) : Mach :=
  let r := mget m.recov p
  let m := stepEvents p r.events m
  let up (m : Mach) : Bool := rd m (Reg.TC_RECOV_STATUS_STATE p) != 3 && !halted m p
  let m := match (mget m.recov p).toRetire with
    | k :: _ => if up m then retire p k m else m
    | [] => m
  if up m && (mget m.recov p).nextCauses.contains 4 then
    m |> modRecov p (fun r => { r with nextCauses := r.nextCauses.filter (· != 4) }) |> startReset p 4
  else m

/-- A WHEN 1 blob whose WAITERS name the partition has not passed its check (R61, R62). -/
def blobWaits (m : Mach) (p : Nat) : Bool :=
  (List.range (preloadCount m)).any (fun i => le (preload m i) 1 1 == 1 && bitOf (le (preload m i) 2 1) p && !m.ldr.passed.contains i)

/-- Whether a partition's routines run from a tick on. -/
def partRuns (m : Mach) (p : Nat) : Bool := !blobWaits m p && !halted m p && partRole m p != 0

/-- The latency-critical routines of a turn, in the order of R591. -/
def lcDue (m : Mach) (p : Nat) : List Nat := if partRuns m p then (lcRoutines m p).map (·.index) else []

/-- The best-effort stream routines of a turn (R593). -/
def beStreams (m : Mach) (p : Nat) (quick : Bool) : List Nat :=
  if partRuns m p && !quick && schedMode m p != 0 then
    (List.range 64).filter (((streamEntries m).filter (fun e => !strLc e && strPart e == p)).map strRoutine).contains
  else []

/-- A partition tick (R93, R102 to R104). -/
def execPartitionTick (p : Fin 8) (s : State) : Out := s.run (fun m =>
  let t := mget m.turns p
  match t.gticks with
  | [] => m
  | (g, n) :: rest =>
    let r := mget m.recov p
    if rdb m Reg.PWR_STATUS_SHUTDOWN ∨ now m < plannedTick m p ∨ (t.begun ∧ (!t.lcDone ∨ t.phase ≠ .open)) ∨ rd m (Reg.TC_RECOV_STATUS_STATE p) ≠ 0 ∨
        r.killing.isSome ∨ r.restart.isSome ∨ r.replayRun.isSome then m
    else
      let late := t.begun && decide (plannedTick m p < t.lcEnd)
      let at0 := if late then now m else atTick m (plannedTick m p)
      let lag := at0 - g
      let quick := decide (0 < lag)
      let m := m |> turnOverdue p (rd m (Reg.TC_TURN_NUMBER p))
        |> whenB t.begun (fun m => m |> wr (Reg.TC_TURN_LC_END p) (min 0xFFFFFFFF (t.lcEnd - t.tick))
          |> whenB late (inc (Reg.TC_CNT_LATE_TURNS p)) |> addTo (Reg.TC_SCHED_CNT_LAPSED p) t.beDue.length
          |> forEach t.beDue (fun _ => detEvent p 7 none))
        |> wr (Reg.TC_TURN_NUMBER p) n |> wr (Reg.TC_TURN_LAG p) (min 0x3FFFFFFF lag)
        |> wr (Reg.TC_TURN_LAG_MAX p) (max (rd m (Reg.TC_TURN_LAG_MAX p)) (min 0x3FFFFFFF lag))
        |> whenB quick (inc (Reg.TC_CNT_QS_TURNS p))
      let lc := lcDue m p
      let m := modTurn p (fun t => { t with
          begun := true, tick := at0, grid := g, ext := 0, lcEnd := at0, phase := .idle, quick := quick, lcTodo := lc,
          lcDone := lc.isEmpty, beDue := beStreams m p quick, gticks := rest, pendWin := true, waiting := blobWaits m p }) m
      let m := m |> turnMode p |> modRecov p (fun r => { r with retries := 0 }) |> wr (Reg.TC_RECOV_STATUS_RESTARTS p) 0
        |> whenB (!quick) (endDeadline p)
      let waits := (((mget m.recov p).first ++ mget m.comps p ++ mget m.rnotes p).filter (fun c => !tagLc m c.tag)).length
      let m := if quick then m |> addTo (Reg.TC_CNT_QS_SKIPPED p) waits
          |> failWaiting p (fun t => !tagLc m t) .skippedQuickstep Reason.quickstep
        else m
      let m := if halted m p then failWaiting p (fun _ => true) .failedFault Reason.halted m else m
      let m := m |> beginPreempt p |> tickResets p
      if preempting m p ∨ rd m (Reg.TC_RECOV_STATUS_STATE p) = 3 then m else beginWindow p m)

/-- A partition that waits for its next tick longer than LAG_LIMIT_US behind the grid tick: once per episode (R106). -/
def execDeadlineFault (p : Fin 8) (s : State) : Out := s.run (fun m =>
  let t := mget m.turns p
  match t.gticks with
  | [] => m
  | (g, _) :: _ =>
    if !t.begun ∨ t.deadlined ∨ now m ≤ g + lagLimitNs m then m
    else
      let m := m |> modTurn p (fun t => { t with deadlined := true }) |> wrb (Reg.TC_TURN_STATUS_DEADLINE p) true
        |> inc (Reg.TC_CNT_DEADLINE p)
      react (reactDeadline m) .deadline { path := pathPartElem m p 6, source := 0x4B, detail := leBytes 8 (now m - g) }
        { m with saf := { m.saf with condDeadline := true } })

/-- FAILED_DEADLINE is written at an item's deadline (R105). -/
def execItemDeadline (tag : Nat) (s : State) : Out := s.run (fun m =>
  match lookup m.items tag with
  | some it =>
    if it.lc && it.fixed.isNone && decide (it.deadline ≤ now m) then failItem tag .failedDeadline Reason.deadline m else m
  | none => m)

/-! ### The window (R95 to R99) -/

/-- The window ends. Its activities have run: `failed` holds 2 × row + core of tests that failed; `deferred` names what did not
fit behind catch-up or overdue work: rows 1 to 7 of R536, 8 HBM calibration, 9 the weight sweep; `ce` as for the sweep. -/
def execServiceWindowEnd (p : Fin 8) (failed deferred ce : List Nat) (s : State) : Out := s.run (fun m =>
  let t := mget m.turns p
  if t.phase ≠ .window ∨ now m < t.windowEnd ∨ (mget m.recov p).switch ≠ .none ∨ marginRuns m p then m
  else
    let chs := (List.range 4).map (fun j => 4 * p.val + j)
    let overCal := chs.filter (fun c => rdb m (Reg.MEM_STATUS_CAL_OVERDUE c))
    let catchUp := (mget m.recov p).catchUp
    let mayDefer := catchUp || !t.overdue.isEmpty || !overCal.isEmpty
    let off (x : Nat) : Bool := mayDefer && deferred.contains x
    let rows := [1, 2, 3, 4, 5, 6, 7]
    let ran := rows.filter (fun r => !off r)
    let put := rows.filter off
    let n := rd m (Reg.TC_TURN_NUMBER p)
    let later := t.deferred.filter (fun d => off d.1) ++ (put.filter (fun r => !t.deferred.any (fun d => d.1 == r))).map (fun r => (r, n))
    let cals := overCal.length + (if catchUp then 4 else 0) + (if off 8 then 0 else 4)
    let m := m |> addTo (Reg.TC_CNT_TEST_OVERDUE p) t.overdue.length |> runTests p t.overdue failed |> forEach overCal calibrate
      |> whenB catchUp (fun m => m |> forEach chs calibrate |> rollForward p)
      |> modRecov p (fun r => { r with catchUp := false })
      |> whenB (!off 9) (weightSweep p ce)
      |> runTests p (ran ++ (t.deferred.map (·.1)).filter (fun r => !off r)) failed
      |> addTo (Reg.TC_CNT_TEST_DEFER p) put.length
      |> forEach chs (fun c => if off 8 then deferCal c else calibrate c)
      |> modTurn p (fun t => { t with overdue := [], deferred := later }) |> syncDeferred p
      |> wrb (Reg.TC_TURN_STATUS_TEST_OVERDUE p) false
    let used := windowUsed m p (t.overdue ++ ran) (!off 9) cals
    m |> wr (Reg.TC_TURN_WINDOW_USED p) used
      |> whenB (!t.margin) (fun m => m |> patrolScrub p (windowNs m - used) |> actScrub p (windowNs m - used)) |> flushPoison p |> windowBusy p false
      |> modTurn p (fun t => { t with phase := .open }))

/-- Whether a partition has an idle gap of `len` ns before its next planned latency-critical start (R98). -/
def idleGap (m : Mach) (p len : Nat) : Bool :=
  let t := mget m.turns p
  let r := mget m.recov p
  t.phase == .open && (mget m.seqs p).run.isNone && r.switch == .none && r.killing.isNone && r.work.isEmpty && r.be.isNone &&
    t.beDue.isEmpty && rd m (Reg.TC_RECOV_STATUS_STATE p) == 0 &&
    (match t.lcTodo with
      | [] => true
      | i :: _ => decide (now m + len ≤ t.windowEnd + ((routineAt m p i).map (·.start)).getD 0))

/-- A slice of deferred work in an idle gap: rows 1 to 7 of R536, 8 HBM calibration of up to three channels, 9 the weight sweep, 10
HBM patrol scrub, 11 activation scrub; `failed` as for the window. -/
def execBackgroundSliceStart (p : Fin 8) (activity : Nat) (failed : List Nat) (s : State) : Out := s.run (fun m =>
  let t := mget m.turns p
  let len := if activity ≤ 7 then cyclesNs m p (testCycles.getD activity 0) else if activity = 9 then cyclesNs m p 8192 else 25000
  if 25000 < len ∨ !idleGap m p len then m
  else if activity = 0 then m
  else if activity ≤ 7 then
    if t.deferred.any (fun d => d.1 == activity) then
      m |> runTests p [activity] failed |> modTurn p (fun t => { t with deferred := t.deferred.filter (fun d => d.1 != activity) })
        |> syncDeferred p
    else m
  else if activity = 8 then
    forEach ((((List.range 4).map (fun j => 4 * p.val + j)).filter (fun c => (mget m.chans c).calDefer != 0)).take 3) calibrate m
  else if activity = 9 then weightSweep p [] m
  else if activity = 10 then patrolScrub p 25000 m
  else if activity = 11 then actScrub p 25000 m
  else m)

/-! ### Latency-critical routines (R591) -/

def execLcRoutineStart (p : Fin 8) (s : State) : Out := s.run (fun m =>
  let t := mget m.turns p
  let r := mget m.recov p
  match t.lcTodo with
  | [] => m
  | i :: rest =>
    match routineAt m p i with
    | none => m
    | some x =>
      if t.phase ≠ .open ∨ now m < t.windowEnd + x.start ∨ (mget m.seqs p).run.isSome ∨ r.killing.isSome ∨ r.restart.isSome ∨
          r.replayRun.isSome ∨ r.switch ≠ .none ∨ r.lcImage.isSome ∨ rdb m (Reg.SCR_STATUS_WIPING p) ∨ rdb m (Reg.SCR_STATUS_HELD p) ∨
          rd m (Reg.TC_RECOV_STATUS_STATE p) ≠ 0 ∨ (mget m.kvs p).building then m
      else m |> modTurn p (fun t => { t with lcTodo := rest }) |> startHere p (runOf x 0))

/-! ### Best-effort work (R592, R593, R602 to R605) -/

/-- The next request point (R604). -/
def requestPoint (m : Mach) (p : Nat) : Nat :=
  let t := mget m.turns p
  let out := drainNs m p + (if schedMode m p = 2 then saveNs m p else 3000)
  match t.lcTodo with
  | i :: _ => t.windowEnd + ((routineAt m p i).map (·.start)).getD 0 - (out + (if schedMode m p = 2 then restoreNs m p else 0))
  | [] => plannedTick m p - out

/-- The switch-in cost of R603: a resumption, or a new context. -/
def switchIn (m : Mach) (p : Nat) (resume : Bool) : Nat :=
  if schedMode m p = 2 then saveNs m p + (if resume then restoreNs m p else cyclesNs m p 8800)
  else if resume then 3000
  else cyclesNs m p (64 * max (beCount m p 0) (beCount m p 1) + 608)

/-- Whether a partition sits at OP_SLOWEST with its throttle condition holding (R653). -/
def throttledSlow (m : Mach) (p : Nat) : Bool :=
  rdb m (Reg.PWR_PART_STATUS_THROTTLED p) && decide (partSlowest m p ≤ rd m (Reg.PWR_PART_STATUS_POINT p))

/-- Whether best-effort work may start or resume now: best-effort time of a turn that is neither late nor a quickstep turn, with room
before the next request point. -/
def beMay (m : Mach) (p : Nat) (resume : Bool) : Bool :=
  let t := mget m.turns p
  let r := mget m.recov p
  schedMode m p != 0 && !(mget m.kvs p).building && t.phase == .open && !rdb m Reg.PWR_STATUS_CAP_HOLD && !throttledSlow m p && !t.quick && !t.waiting && !halted m p && r.switch == .none && r.killing.isNone &&
    r.restart.isNone && r.replayRun.isNone && (mget m.seqs p).run.isNone && !rdb m (Reg.SCR_STATUS_WIPING p) &&
    !rdb m (Reg.SCR_STATUS_HELD p) && rd m (Reg.TC_RECOV_STATUS_STATE p) == 0 && r.lcImage.isNone &&
    decide (now m + switchIn m p resume + 25000 ≤ requestPoint m p)

/-- Take up a new best-effort context. -/
def beNew (p : Nat) (run : Run) (d : Option Desc) (m : Mach) : Mach :=
  m |> modRecov p (fun r => { r with be := some { run := run, desc := d }, requested := now m })
    |> syncSched p |> setSwitch p (if schedMode m p = 2 then .savingLc else .clearing)

def execBeWorkStart (p : Fin 8) (s : State) : Out := s.run (fun m =>
  let r := mget m.recov p
  let t := mget m.turns p
  match r.be with
  | some _ =>
    if beMay m p true then
      m |> modRecov p (fun r => { r with requested := now m }) |> setSwitch p (if schedMode m p = 2 then .savingLc else .restoring)
    else m
  | none =>
    if !beMay m p false then m
    else match t.beDue with
      | i :: rest =>
        let m := modTurn p (fun t => { t with beDue := rest }) m
        match routineAt m p i with
        | some x => beNew p (runOf x 1) none m
        | none => m
      | [] =>
        match r.work with
        | [] => m
        | d :: rest =>
          let m := modRecov p (fun r => { r with work := rest }) m
          match routineAt m p (d.c % 256) with
          | some x => beNew p (runOf x 2) (some d) m
          | none => m |> completeDesc d .failedData Reason.badDesc |> syncSched p)

/-- The range clear of a new context under LIGHT ends, and it starts (R599). -/
def execBeRangeClearComplete (p : Fin 8) (s : State) : Out := s.run (fun m =>
  let r := mget m.recov p
  match r.be with
  | none => m
  | some c =>
    if r.switch ≠ .clearing ∨ schedMode m p ≠ 1 ∨ now m < r.requested + switchIn m p false then m
    else
      let clear (k : Nat) (m : Mach) : Mach :=
        let a := scrAddr m p k (beFirst m p k * 4096)
        m |> zeroMem a (a + beCount m p k * 4096) |> setReady p false (granRun (k * 8192 + beFirst m p k) (beCount m p k))
      m |> forEach (List.range (coresPer m)) clear |> wr (Reg.TC_SCHED_LAST_SWITCH p) (min 0xFFFFFFFF (now m - r.requested))
        |> startHere p c.run |> setSwitch p .none)

def execPreemptRequest (p : Fin 8) (s : State) : Out := s.run (fun m =>
  if requestPoint m p ≤ now m then beginPreempt p m else m)

/-- Behind the steps of a pre-emption: a window that waits begins. -/
def afterPreempt (p : Nat) (m : Mach) : Mach :=
  if (mget m.turns p).pendWin && rd m (Reg.TC_RECOV_STATUS_STATE p) != 3 then beginWindow p m else m

/-- Nothing issued is left of a pre-empted context: its light state is saved, unless it has reached END (R602, R605). -/
def execPreemptDrainComplete (p : Fin 8) (s : State) : Out := s.run (fun m =>
  let r := mget m.recov p
  let q := mget m.seqs p
  match r.be, q.run with
  | some c, some _ =>
    if r.switch ≠ .draining || !flightEmpty m p || r.killing.isSome then m
    else
      let m := if r.requested + drainNs m p < now m then inc (Reg.TC_SCHED_CNT_OVERRUN p) m else m
      if q.ended && drained m p then m |> idleSeq p |> closeBe p |> afterPreempt p
      else if c.desc.any (·.cancelled) then
        m |> forEach (List.range 6) (fun e => modEngine p e (fun x => { x with queue := [] })) |> syncCores p |> idleSeq p |> discardBe p Reason.reset
          |> afterPreempt p
      else
        let l := takeLight m p
        let m := m |> forEach (List.range 6) (fun e => modEngine p e (fun x => { x with queue := [] })) |> syncCores p |> idleSeq p
          |> modRecov p (fun r => { r with be := some { c with saved := some l } }) |> syncSched p
        if schedMode m p = 2 then setSwitch p .saving m
        else m |> setSwitch p .none |> wr (Reg.TC_SCHED_LAST_SWITCH p) (min 0xFFFFFFFF (now m - r.requested)) |> afterPreempt p
  | _, _ => m)

/-- A scratch image is in the save area (R599, R603): the best-effort one on the way out, or the latency-critical one on the way in. -/
def execContextSaveComplete (p : Fin 8) (s : State) : Out := s.run (fun m =>
  let r := mget m.recov p
  match r.be, r.switch with
  | some c, .saving =>
    let m := modRecov p (fun r => { r with be := some { c with image := takeImage m p } }) m
    if (mget m.turns p).pendWin then m |> setSwitch p .none |> afterPreempt p
    else setSwitch p (if (mget m.turns p).lcTodo.isEmpty then .none else .restoringLc) m
  | some c, .savingLc =>
    let m := modRecov p (fun r => { r with lcImage := some (takeImage m p) }) m
    if c.saved.isSome then setSwitch p .restoring m else m |> wipePart p |> setSwitch p .clearing
  | _, _ => m)

/-- A restore ends (R599, R602, R605); `bad`: it has met an uncorrectable or poisoned word. -/
def execContextRestoreComplete (p : Fin 8) (bad : Bool) (s : State) : Out := s.run (fun m =>
  let r := mget m.recov p
  let full := decide (schedMode m p = 2)
  let took (m : Mach) : Mach := wr (Reg.TC_SCHED_LAST_SWITCH p) (min 0xFFFFFFFF (now m - r.requested)) m
  match r.switch with
  | .restoring =>
    match r.be with
    | some c =>
      if bad || !c.image.bad.isEmpty then discardBe p Reason.reset m
      else
        m |> whenB full (fun m => m |> putImage p c.image |> wrb (Reg.TC_SCHED_STATUS_BE_RESIDENT p) true |> inc (Reg.TC_SCHED_CNT_FULL_SWITCH p))
          |> putLight p (c.saved.getD {}) c.run
          |> modRecov p (fun r => { r with be := some { c with saved := none, image := {} } }) |> syncSched p |> setSwitch p .none |> took
    | none => setSwitch p .none m
  | .restoringLc =>
    match r.lcImage with
    | none => setSwitch p .none m
    | some x =>
      let m := m |> modRecov p (fun r => { r with lcImage := none }) |> wrb (Reg.TC_SCHED_STATUS_BE_RESIDENT p) false |> setSwitch p .none
      if bad || !x.bad.isEmpty then wipePart p m
      else m |> putImage p x |> inc (Reg.TC_SCHED_CNT_FULL_SWITCH p) |> took
  | _ => m)

end Sys2Proof.Machine
end

