-- ==== Sys2Proof/Machine/Power.lean ====
section
/-!
DEFINITION. Power and temperature (R636 to R662) and margin tests (R494 to R496, R651): operating points, the package cap, HINT windows,
trimming, throttling, over-limit faults and energy accounts.
-/

namespace Sys2Proof.Machine

/-! ### The POWER section (R640) -/

def capHystMw (m : Mach) : Nat := 1000 * pwrF m 2 1
def hcPriority (m : Mach) : Nat := pwrF m 3 1
def capGraceNs (m : Mach) : Nat := 1000000 * pwrF m 4 2
def tjThrottle (m : Mach) : Int := pwrF m 6 1
def tstackThrottle (m : Mach) : Int := pwrF m 7 1
/-- The grade's highest cap in W (R3). -/
def capMax (m : Mach) : Nat := if grade m = 2 then 150 else 250

/-! ### Records (R658) -/

/-- Unit paths 0.C.PW, 0.C.p.VR and that of a spare's regulator. -/
def pathPw (m : Mach) : Nat := pathGroup m 23
def pathVr (m : Mach) (u : Nat) : Nat :=
  if u < 8 then pathPartElem m u 10 else if u < 10 then upath m 0 8 (u - 8) 10 63 63 else pathPw m

/-- A POWER record: the event, the sensor (0xFF for none), the value and the limit it crossed. -/
def powerRec (m : Mach) (path event sensor : Nat) (value limit : Int) : LogRec :=
  { path := path, source := 0x5D,
    detail := leBytes 1 event ++ leBytes 1 sensor ++ leBytes 2 (fieldOf 16 value) ++ leBytes 2 (fieldOf 16 limit) ++ leBytes 2 0 ++
      leBytes 4 (rd m Reg.PWR_POWER) }

/-! ### Operating points (R638, R639, R642) -/

def modPower (f : Power → Power) (m : Mach) : Mach := { m with power := f m.power }

/-- Voltages of the host cluster's points in mV. -/
def hcMv (n : Nat) : Nat := [850, 800, 720, 650].getD n 650

/-- A change of the host cluster's point begins where one is due. -/
def syncHc (m : Mach) : Mach :=
  let n := rd m Reg.PWR_HC_POINT_POINT
  let d := if rdb m Reg.PWR_STATUS_FORCED_SLOW then 3 else max (rd m Reg.PWR_HC_POINT_CAP_LEVEL) (rd m Reg.PWR_HC_POINT_THERM_LEVEL)
  if d = n ∨ m.power.hcChange.isSome ∨ rdb m Reg.PWR_STATUS_SHUTDOWN then m
  else m |> modPower (fun x => { x with hcChange := some d, hcChangeAt := now m })
    |> whenB (decide (n < d)) (wr Reg.PWR_HC_POINT_POINT d)

/-- Every unit's point follows its levels. -/
def syncPoints (m : Mach) : Mach := m |> forEach (List.range 8) syncPoint |> syncHc

/-- Nanoseconds that a ramp of some mV takes at 10 mV/µs; a raise waits 1 µs more. -/
def rampNs (mv : Nat) (raise : Bool) : Nat := 100 * mv + (if raise then 1000 else 0)

/-- A change ends: a raise switches the clock now. `u` is a partition, or 8 for the host cluster. -/
def execOpChangeComplete (u : Fin 9) (s : State) : Out := s.run (fun m =>
  if u.val = 8 then
    match m.power.hcChange with
    | none => m
    | some d =>
      let n := rd m Reg.PWR_HC_POINT_POINT
      if now m < m.power.hcChangeAt + (if d < n then rampNs (hcMv d - hcMv n) true else 0) then m
      else m |> modPower (fun x => { x with hcChange := none }) |> wr Reg.PWR_HC_POINT_POINT d |> syncHc
  else
    let x := mget m.pparts u
    match x.change with
    | none => m
    | some d =>
      let n := rd m (Reg.PWR_PART_STATUS_POINT u)
      if now m < x.changeAt + (if d < n then rampNs (50 * (n - d)) true else 0) then m
      else m |> modPwr u (fun x => { x with change := none }) |> wrb (Reg.PWR_PART_STATUS_CHANGING u) false
        |> wr (Reg.PWR_PART_STATUS_POINT u) d |> syncRail u |> syncPoint u)

/-! ### Measurement and energy (R641, R657) -/

/-- The average of the newest `n` samples. -/
def average (n : Nat) (l : List Nat) : Nat :=
  let x := l.take n
  if x.isEmpty then 0 else x.sum / x.length

/-- Accounts of R657: a routine index, or 256 SERVICE, 257 RECOVERY, 258 IDLE. -/
def accountOf (m : Mach) (p : Nat) : Nat :=
  let r := mget m.recov p
  let run := (mget m.seqs p).run
  let replayed := run.any (fun x => x.replayOf.isSome)
  if (r.killing.isSome || rd m (Reg.TC_RECOV_STATUS_STATE p) != 0 || r.replayRun.isSome) && !replayed then 257
  else if r.switch ≠ .none then (r.be.map (·.run.index)).getD 258
  else match run with
    | some x => x.index
    | none =>
      if rdb m (Reg.SCR_STATUS_WIPING p) || r.restart.isSome then (r.restart.map (·.index)).getD 257
      else match (mget m.pparts p).ballast with
        | some i => if arraysCold m p then (if (mget m.turns p).phase = .window then 256 else 258) else i
        | none => if (mget m.turns p).phase = .window then 256 else 258

/-- One microsecond's energy goes to one account. -/
def chargeEnergy (p nj : Nat) (m : Mach) : Mach :=
  let a := accountOf m p
  let f := if a < 256 then Reg.PWR_PART_E_ROUTINE p a else if a = 256 then Reg.PWR_PART_E_SERVICE p
    else if a = 257 then Reg.PWR_PART_E_RECOVERY p else Reg.PWR_PART_E_IDLE p
  let m := m |> wr f (rd m f + nj) |> wr (Reg.PWR_PART_E_TOTAL p) (rd m (Reg.PWR_PART_E_TOTAL p) + nj)
  wr (Reg.TC_PWR_ENERGY p) (rd m (Reg.PWR_PART_E_TOTAL p) / 1000) m

/-- Every 1 µs: the package power in mW, and each partition's rail in mV, current in 10 mA and energy in nJ. -/
def execPowerSample (pkg : Nat) (parts : List (Nat × Nat × Nat)) (s : State) : Out := s.run (fun m =>
  let l := (pkg :: m.power.samples).take 10000
  let e := m.power.energy + pkg
  let m := m |> modPower (fun x => { x with samples := l, energy := e % 1000 })
    |> wr Reg.PWR_POWER (average 10000 l) |> wr Reg.PWR_POWER_CTL (average 1000 l)
    |> wr Reg.PWR_ENERGY_PKG (rd m Reg.PWR_ENERGY_PKG + e / 1000)
  forEach (parts.zipIdx.take 8) (fun x m =>
    m |> wr (Reg.PWR_PART_RAIL_MEASURED x.2) x.1.1 |> wr (Reg.PWR_PART_CURRENT x.2) x.1.2.1 |> chargeEnergy x.2 x.1.2.2) m)

/-! ### The package cap (R643, R644) -/

/-- Units in lowering order: ascending priority, the host cluster (8) before partitions, higher partition indices first. -/
def lowerOrder (m : Mach) : List Nat :=
  let pri (u : Nat) : Nat := if u = 8 then hcPriority m else pwrPriority m u
  sortBy (fun a b => decide (pri a < pri b) || (pri a == pri b && decide (b ≤ a))) [8, 7, 6, 5, 4, 3, 2, 1, 0]

def capLevelOf (u : Nat) : Fld := if u = 8 then Reg.PWR_HC_POINT_CAP_LEVEL else Reg.PWR_PART_STATUS_CAP_LEVEL u
def capAtOf (m : Mach) (u : Nat) : Option Nat := if u = 8 then m.power.hcAt else (mget m.pparts u).capAt

/-- Whether a unit's CAP_LEVEL can move, to a slower point (`down`) or a faster one, and has not changed in the last 1 ms. -/
def eligible (m : Mach) (down : Bool) (u : Nat) : Bool :=
  let v := rd m (capLevelOf u)
  let slow := if u = 8 then 3 else partSlowest m u
  let fast := if u = 8 then 0 else partFastest m u
  (if down then decide (v < slow) else decide (fast < v)) && (match capAtOf m u with
    | none => true
    | some t => decide (t + 1000000 ≤ now m))

/-- Move a unit's CAP_LEVEL. -/
def moveCap (down : Bool) (u : Nat) (m : Mach) : Mach :=
  let f := capLevelOf u
  m |> wr f (if down then rd m f + 1 else rd m f - 1) |> inc Reg.PWR_CNT_CAP_STEPS
    |> (if u = 8 then modPower (fun x => { x with hcAt := some (now m) }) else modPwr u (fun x => { x with capAt := some (now m) }))
    |> (if u = 8 then syncHc else fun m => m |> syncRail u |> syncPoint u)

/-- Every 100 µs. -/
def execCapControlTick (s : State) : Out := s.run (fun m =>
  if now m < m.power.ctlAt + 100000 ∨ !applied m then m
  else
    let m := modPower (fun x => { x with ctlAt := now m }) m
    let pw := rd m Reg.PWR_POWER_CTL
    let c := 1000 * rd m Reg.PWR_CAP
    if c < pw then
      let m := modPower (fun x => { x with under := none }) m
      match (lowerOrder m).find? (eligible m true) with
      | some u => m |> moveCap true u |> modPower (fun x => { x with above := none })
      | none => modPower (fun x => { x with above := x.above <|> some (now m) }) m
    else
      let m := modPower (fun x => { x with above := none }) m
      if pw + capHystMw m < c then
        let m := modPower (fun x => { x with under := x.under <|> some (now m) }) m
        match (lowerOrder m).reverse.find? (eligible m false) with
        | some u => moveCap false u m
        | none => m
      else modPower (fun x => { x with under := none }) m)

/-- A write of PWR_CAP. -/
def execPwrCapWrite (who : Requester) (v : Word) (s : State) : Out :=
  s.run (regWrite who Reg.PWR_CAP .pfHcMi (fun m =>
    let w := v.toNat % 512
    if w < 75 ∨ capMax m < w then wrb Reg.PWR_STATUS_CAP_ERROR true m
    else m |> modPower (fun x => { x with capNext := some w }) |> wrb Reg.PWR_STATUS_CAP_PENDING true))

/-- A grid tick takes a written cap into force. -/
def takeCap (m : Mach) : Mach :=
  match m.power.capNext with
  | none => m
  | some w => m |> modPower (fun x => { x with capNext := none }) |> wr Reg.PWR_CAP w |> wrb Reg.PWR_STATUS_CAP_PENDING false

/-- CAP_GRACE_MS has passed above the cap with no unit to lower. -/
def execCapHoldEntry (s : State) : Out := s.run (fun m =>
  if rdb m Reg.PWR_STATUS_CAP_HOLD || !m.power.above.any (fun t => decide (t + capGraceNs m ≤ now m)) then m
  else m |> wrb Reg.PWR_STATUS_CAP_HOLD true |> inc Reg.PWR_CNT_CAP_HOLD |> modPower (fun x => { x with heldAt := now m })
    |> logErr (powerRec m (pathPw m) 1 0xFF 0 0)
    |> forEach (List.range 8) (fun p m => if ((mget m.seqs p).run.map (·.kind)).getD 0 == 1 || ((mget m.seqs p).run.map (·.kind)).getD 0 == 2
        then beginPreempt p m else m))

/-- A further CAP_GRACE_MS has passed in cap hold. -/
def execCapUnmetExpiry (s : State) : Out := s.run (fun m =>
  if rdb m Reg.PWR_STATUS_CAP_HOLD && !rdb m Reg.PWR_STATUS_CAP_UNMET && m.power.above.isSome &&
      decide (m.power.heldAt + capGraceNs m ≤ now m) then
    m |> wrb Reg.PWR_STATUS_CAP_UNMET true |> logErr (powerRec m (pathPw m) 2 0xFF 0 0)
  else m)

/-- The power has been below the cap less its hysteresis for CAP_GRACE_MS. -/
def execCapHoldExit (s : State) : Out := s.run (fun m =>
  if rdb m Reg.PWR_STATUS_CAP_HOLD && m.power.under.any (fun t => decide (t + capGraceNs m ≤ now m)) then
    m |> wrb Reg.PWR_STATUS_CAP_HOLD false |> wrb Reg.PWR_STATUS_CAP_UNMET false
  else m)

/-! ### HINT windows (R646) -/

/-- The rail starts to rise at a HINT's lead less 6 µs. -/
def execHintRailRise (p : Fin 8) (s : State) : Out := s.run (fun m =>
  if (mget m.pparts p).wins.any (fun w => decide (w.opened + 1000 * (w.lead - 6) ≤ now m)) then setLight p false m else m)

/-- Whether a window closes: unused for 1,000 µs behind its lead, or its arrays COLD again for 10 µs. -/
def winCloses (m : Mach) (w : HintWin) : Bool :=
  if w.left = 0 then decide (w.opened + 1000 * (w.lead + 1000) ≤ now m)
  else w.coldAt.any (fun t => decide (t + 10000 ≤ now m))

def execHintWindowClose (p : Fin 8) (s : State) : Out := s.run (fun m =>
  let l := (mget m.pparts p).wins
  let gone := l.filter (winCloses m)
  if gone.isEmpty then m
  else m |> addTo (Reg.TC_PWR_CNT_HINT_UNUSED p) (gone.filter (fun w => w.left == 0)).length
    |> modPwr p (fun x => { x with wins := l.filter (fun w => !winCloses m w) }) |> syncRail p |> fallLight p)

/-! ### Trimming (R649, R650) -/

/-- Whether R650 holds V_trim at 0. -/
def trimOff (m : Mach) (p : Nat) : Bool :=
  rd m (Reg.SAF_SUSPECT_VSTEP p) != 0 || rdb m (Reg.SAF_SUSPECT_FSTEP p) || marginRuns m p || rdb m (Reg.PWR_PART_STATUS_LIGHT p)

/-- V_trim, held or not. -/
def setTrim (p mv : Nat) (held : Bool) (m : Mach) : Mach :=
  m |> wr (Reg.PWR_PART_STATUS_TRIM_MV p) mv |> wrb (Reg.PWR_PART_STATUS_TRIM_HELD p) held |> syncRail p

/-- The margin monitors of a partition are read: the least slack of the 16 in ps. -/
def execMarginMonitorSample (p : Fin 8) (slack : Int) (s : State) : Out := s.run (fun m =>
  let x := mget m.pparts p
  let v := rd m (Reg.PWR_PART_STATUS_TRIM_MV p)
  if trimOff m p || x.exhaust.isSome then m |> modPwr p (fun x => { x with fine := none }) |> setTrim p 0 true
  else if slack < 5 then
    m |> modPwr p (fun x => { x with fine := none, exhaust := some (now m) }) |> setTrim p 0 true |> inc Reg.PWR_CNT_MARGIN_EXH
      |> logErr (powerRec m (pathVr m p) 6 0xFF slack 5)
  else if slack < 20 then m |> modPwr p (fun x => { x with fine := none }) |> setTrim p (v - 10) false
  else if slack < 40 then m |> modPwr p (fun x => { x with fine := none }) |> setTrim p v false
  else
    match x.fine with
    | none => m |> modPwr p (fun x => { x with fine := some (now m) }) |> setTrim p v false
    | some t =>
      if t + 100000000 ≤ now m ∧ v < trimMax m p then
        m |> modPwr p (fun x => { x with fine := some (now m) }) |> setTrim p (v + 5) false
      else setTrim p v false m)

/-- The hold of 1 s after an exhausted margin ends. -/
def execTrimHoldExpiry (p : Fin 8) (s : State) : Out := s.run (fun m =>
  if (mget m.pparts p).exhaust.any (fun t => decide (t + 1000000000 ≤ now m)) then
    m |> modPwr p (fun x => { x with exhaust := none }) |> wrb (Reg.PWR_PART_STATUS_TRIM_HELD p) (trimOff m p) |> syncRail p
  else m)

/-! ### Temperature (R652, R653, R656) -/

/-- Stack temperature of a partition. -/
def stackTemp (m : Mach) (p : Nat) : Int := signedOf 8 (rd m (Reg.MEM_TEMP (4 * p)))

/-- A sensor's reading is taken; `differ`: its two converters are more than 5 °C apart. -/
def takeSensor (i : Nat) (t : Int) (differ : Bool) (m : Mach) : Mach :=
  let m := if rdb m (Reg.PWR_TEMP_FAILED i) then m else wri (Reg.PWR_TEMP_C i) t m
  if differ && !rdb m (Reg.PWR_TEMP_FAILED i) then
    m |> wrb (Reg.PWR_TEMP_FAILED i) true |> logErr (powerRec m (pathPw m) 5 i t 5)
  else m

/-- Steps of THERM_LEVEL: lowered once per 1 ms, raised once per 10 ms. Answers the new level, if it moves. -/
def thermStep (m : Mach) (hot cool : Bool) (v slow fast : Nat) (dn up : Option Nat) : Option Nat :=
  let since (t : Option Nat) (n : Nat) : Bool := match t with
    | none => true
    | some t => decide (t + n ≤ now m)
  if hot && decide (v < slow) && since dn 1000000 then some (v + 1)
  else if cool && decide (fast < v) && since up 10000000 then some (v - 1)
  else none

/-- The sensor of a list that shows a temperature. -/
def sensorAt (m : Mach) (l : List Nat) (t : Int) : Nat :=
  (l.find? (fun s => !rdb m (Reg.PWR_TEMP_FAILED s) && tempOf m s == t)).getD 0xFF

/-- Throttling of a partition. -/
def throttlePart (p : Nat) (m : Mach) : Mach :=
  let l := partSensors m p
  let t := (hottestOf m l).getD (tjThrottle m)
  let st := stackTemp m p
  let die := decide (tjThrottle m ≤ t)
  let stack := decide (tstackThrottle m ≤ st)
  let cool := decide (t < tjThrottle m - 5) && decide (st < tstackThrottle m - 5)
  let x := mget m.pparts p
  let v := rd m (Reg.PWR_PART_STATUS_THERM_LEVEL p)
  let m := m |> whenB (die && !x.dieEp) (logErr (powerRec m (pathPartElem m p 10) 3 (sensorAt m l t) t (tjThrottle m)))
    |> whenB (stack && !x.stackEp) (logErr (powerRec m (pathHbm m (p * hbmEighth m)) 4 0xFF st (tstackThrottle m)))
    |> modPwr p (fun x => { x with dieEp := (x.dieEp || die) && !cool, stackEp := (x.stackEp || stack) && !cool })
    |> wrb (Reg.PWR_PART_STATUS_THROTTLED p) (die || stack)
  let m := match thermStep m (die || stack) cool v (partSlowest m p) (partFastest m p) x.thermDn x.thermUp with
    | none => m
    | some w => m |> wr (Reg.PWR_PART_STATUS_THERM_LEVEL p) w |> inc Reg.PWR_CNT_THROTTLE_STEPS
      |> modPwr p (fun x => if v < w then { x with thermDn := some (now m) } else { x with thermUp := some (now m) })
  m |> syncRail p |> syncPoint p

/-- Throttling of the host cluster: by any sensor of the two dies. -/
def throttleHc (m : Mach) : Mach :=
  match hottestOf m (List.range 64) with
  | none => m
  | some t =>
    let hot := decide (tjThrottle m ≤ t)
    let cool := decide (t < tjThrottle m - 5)
    let v := rd m Reg.PWR_HC_POINT_THERM_LEVEL
    let m := m |> whenB (hot && !m.power.hcEp) (logErr (powerRec m (pathGroup m 9) 3 (sensorAt m (List.range 64) t) t (tjThrottle m)))
      |> modPower (fun x => { x with hcEp := (x.hcEp || hot) && !cool })
    match thermStep m hot cool v 3 0 m.power.hcDn m.power.hcUp with
    | none => m
    | some w => m |> wr Reg.PWR_HC_POINT_THERM_LEVEL w |> inc Reg.PWR_CNT_THROTTLE_STEPS
      |> modPower (fun x => if v < w then { x with hcDn := some (now m) } else { x with hcUp := some (now m) }) |> syncHc

/-- SAF_HOT_REC follows the hottest sensor of a partition (R500). -/
def hotRecord (p : Nat) (m : Mach) : Mach :=
  match hottestOf m (partSensors m p) with
  | none => m
  | some t => if signedOf 8 (rd m (Reg.SAF_HOT_REC_HOTTEST p)) < t then wri (Reg.SAF_HOT_REC_HOTTEST p) t m else m

/-- Every 1 ms the die sensors are sampled: reading `i` is sensor `i`'s. -/
def execTempSample (readings : List (Int × Bool)) (s : State) : Out := s.run (fun m =>
  let m := forEach (readings.zipIdx.take 64) (fun x => takeSensor x.2 x.1.1 x.1.2) m
  let cold := (List.range 64).find? (fun i => !rdb m (Reg.PWR_TEMP_FAILED i) && decide (tempOf m i < -40))
  let m := match cold with
    | some i => m |> whenB (!m.power.cold) (logErr (powerRec m (pathPw m) 15 i (tempOf m i) (-40)))
    | none => m
  let m := modPower (fun x => { x with cold := cold.isSome }) m
  let m := forEach (List.range 8) hotRecord m
  if applied m then m |> forEach (List.range 8) throttlePart |> throttleHc else m)

/-! ### Over-limit faults (R654, R655) -/

/-- A condition of R654 holds, or does no longer. -/
def overLimit (event : Nat) (r : LogRec) (holds : Bool) (m : Mach) : Mach :=
  if holds then
    if m.power.conds.contains event then m
    else m |> modPower (fun x => { x with conds := x.conds ++ [event] }) |> wrb Reg.PWR_STATUS_OVER_LIMIT true |> fatal .power r
  else if !m.power.conds.contains event then m
  else
    let l := m.power.conds.filter (· != event)
    m |> modPower (fun x => { x with conds := l, lastCond := some (now m), heat := if event ≤ 9 then some (now m) else x.heat })
      |> wrb Reg.PWR_STATUS_OVER_LIMIT (!l.isEmpty)

/-- Every unit is forced to its slowest point. -/
def forceSlow (m : Mach) : Mach := m |> wrb Reg.PWR_STATUS_FORCED_SLOW true |> syncPoints

/-- Unit path of a die sensor: its partition's regulator, or the manager. -/
def pathSensor (m : Mach) (i : Nat) : Nat := if i < 32 then pathPartElem m (i / 4) 10 else pathPw m

def execOverTemp (sensor : Fin 64) (temp : Int) (holds : Bool) (s : State) : Out := s.run (fun m =>
  m |> overLimit 8 (powerRec m (pathSensor m sensor) 8 sensor temp 115) holds |> whenB holds forceSlow)

def execStackOverTemp (stack : Fin 2) (temp : Int) (holds : Bool) (s : State) : Out := s.run (fun m =>
  m |> overLimit 9 (powerRec m (pathHbm m (4 * stack * hbmEighth m)) 9 0xFF temp 110) holds |> whenB holds forceSlow)

/-- The rail of partition `u`, or of spare `u - 8`. -/
def execRailUnder (u : Fin 10) (mv : Nat) (holds : Bool) (s : State) : Out := s.run (fun m =>
  if holds && decide (u.val < 8) && rdb m (Reg.PWR_PART_STATUS_CHANGING u) then m
  else overLimit 10 (powerRec m (pathVr m u) 10 0xFF mv ((if u.val < 8 then vSet m u else 0) - 50)) holds m)

/-- Any regulated rail: of a partition, a spare, or another unit (10). -/
def execRailOver (u : Fin 11) (mv : Nat) (holds : Bool) (s : State) : Out := s.run (fun m =>
  overLimit 11 (powerRec m (pathVr m u) 11 0xFF mv 1000) holds m)

def execOvercurrent (p : Fin 8) (current : Nat) (holds : Bool) (s : State) : Out := s.run (fun m =>
  overLimit 12 (powerRec m (pathVr m p) 12 0xFF current 4000) holds m)

/-- A supply ball group, its level and the limit it crosses in mV. -/
def execSupply (mv limit : Int) (holds : Bool) (s : State) : Out := s.run (fun m =>
  overLimit 13 (powerRec m (pathPw m) 13 0xFF mv limit) holds m)

/-- A partition's regulator is off: its sequencer and engines stop for good, and best-effort items and descriptors fail. -/
def powerOff (p : Nat) (m : Mach) : Mach :=
  let work := (mget m.recov p).work
  { m with engines := clearRange m.engines (p * 8) (p * 8 + 8) } |> unrepeated p |> discardBe p Reason.reset |> idleSeq p
    |> wr (Reg.TC_SEQ_STATUS_STATE p) 0 |> windowBusy p false
    |> abandonLocks (0x58 + p) |> kvStop p
    |> modRecov p (fun r => { r with killing := none, restart := none, replayRun := none, switch := .none, work := [], hbDue := false })
    |> forEach work (fun d => completeDesc d .failedReset Reason.reset)
    |> modTurn p (fun t => { t with phase := .idle, lcTodo := [], beDue := [], pendWin := false, gticks := [] })
    |> failWaiting p (fun t => !tagLc m t) .failedReset Reason.reset
    |> wrb (Reg.TC_HB_STATUS_WATCHED p) false |> syncSched p |> syncSwitch p |> syncCores p

/-- A die sensor reaches 125 °C: the part stays so until PORST_n. -/
def execShutdown (sensor : Fin 64) (temp : Int) (s : State) : Out := s.run (fun m =>
  if rdb m Reg.PWR_STATUS_SHUTDOWN then m
  else
    m |> overLimit 14 (powerRec m (pathPw m) 14 sensor temp 125) true |> wrb Reg.PWR_STATUS_SHUTDOWN true
      |> forEach (List.range 8) powerOff |> forEach (List.range 32) (fun ch => wr (Reg.MEM_STATUS_STATE ch) 3)
      |> forEach (List.range 16) (fun c => abandonLocks (0x70 + c))
      |> (fun m => { m with ldr := { m.ldr with hcUp := false } }))

/-- OVER_TEMP and STACK_OVER_TEMP have been absent for 1 s. -/
def execForcedSlowRelease (s : State) : Out := s.run (fun m =>
  if rdb m Reg.PWR_STATUS_FORCED_SLOW && !m.power.conds.contains 8 && !m.power.conds.contains 9 &&
      m.power.heat.any (fun t => decide (t + 1000000000 ≤ now m)) then
    m |> wrb Reg.PWR_STATUS_FORCED_SLOW false |> modPower (fun x => { x with heat := none }) |> syncPoints
  else m)

/-- Whether cause 19 has met its exit (R656). -/
def powerMayExit (m : Mach) : Bool :=
  !rdb m Reg.PWR_STATUS_SHUTDOWN && m.power.conds.isEmpty && m.power.lastCond.all (fun t => decide (t + 1000000000 ≤ now m))

/-- A base pattern is applied: the cap, and every level at the fastest allowed point (R640, R642). -/
def applyPower (m : Mach) : Mach :=
  m |> wr Reg.PWR_CAP (pwrF m 0 2) |> forEach (List.range 8) (fun p m =>
      m |> wr (Reg.PWR_PART_STATUS_CAP_LEVEL p) (partFastest m p) |> wr (Reg.PWR_PART_STATUS_THERM_LEVEL p) (partFastest m p)
        |> syncRail p |> syncPoint p |> fallLight p)
    |> wr Reg.PWR_HC_POINT_CAP_LEVEL 0 |> wr Reg.PWR_HC_POINT_THERM_LEVEL 0 |> syncHc

/-- A reset that applies new PARTITION values clamps the partition's levels to its range. -/
def clampLevels (p : Nat) (m : Mach) : Mach :=
  let c (f : Fld) (m : Mach) : Mach := wr f (max (partFastest m p) (min (partSlowest m p) (rd m f))) m
  m |> c (Reg.PWR_PART_STATUS_CAP_LEVEL p) |> c (Reg.PWR_PART_STATUS_THERM_LEVEL p) |> syncRail p |> syncPoint p

/-! ### Margin tests (R494 to R496, R651) -/

def modMargin (f : Margin → Margin) (m : Mach) : Mach := { m with margin := f m.margin }
def marginPeriodNs (m : Mach) : Nat := 1000000000 * max 60 (rd m Reg.SAF_MARGIN_CTRL_PERIOD_S)

/-- Whether spare `h` serves a partition. -/
def spareServes (m : Mach) (h : Nat) : Bool := rdb m (spareInUse h)

/-- The next unit's turn comes. -/
def marginNext (m : Mach) : Mach :=
  m |> wr Reg.SAF_MARGIN_STATUS_NEXT ((rd m Reg.SAF_MARGIN_STATUS_NEXT + 1) % 10) |> wrb Reg.SAF_MARGIN_STATUS_RUNNING false
    |> wrb Reg.SAF_MARGIN_STATUS_WAITING_TEMP false |> modMargin (fun x => { x with dueAt := none, cool := false })

/-- PERIOD_S has passed since the next unit's test last fell due. A spare that serves a partition has none of its own; one that serves
none is tested at once. -/
def execMarginTestDue (s : State) : Out := s.run (fun m =>
  let u := rd m Reg.SAF_MARGIN_STATUS_NEXT
  if !applied m || !rdb m Reg.SAF_MARGIN_CTRL_ENABLE || m.margin.dueAt.isSome ||
      decide (now m < getD 0 m.margin.last u + marginPeriodNs m) then m
  else
    let m := modMargin (fun x => { x with dueAt := some (now m), last := setD 0 x.last u (now m) }) m
    if u < 8 then wrb Reg.SAF_MARGIN_STATUS_WAITING_TEMP (!marginBand m u) m
    else if spareServes m (u - 8) then marginNext m
    else m |> wrb Reg.SAF_MARGIN_STATUS_RUNNING true |> modMargin (fun x => { x with endAt := now m + ceilDiv (72000 * 1000) 1250 }))

/-- The band has not been met in time: the test runs without it. -/
def execMarginCoolTimeout (s : State) : Out := s.run (fun m =>
  if !rdb m Reg.SAF_MARGIN_STATUS_RUNNING && !m.margin.cool &&
      m.margin.dueAt.any (fun t => decide (t + min 600000000000 (marginPeriodNs m) ≤ now m)) then
    m |> modMargin (fun x => { x with cool := true }) |> wrb Reg.SAF_MARGIN_STATUS_WAITING_TEMP false
  else m)

/-- A test's three runs end. `failed` holds the stress points that fail (0 −30 mV, 1 −60 mV, 2 +5 %), `core` the core they fail on, `loc` the
localised unit path, `sig` the signature read, `age` the ageing that the monitors show in mV. -/
def execMarginTestComplete (failed : List (Fin 3)) (core : Fin 2) (loc : Option Nat) (sig : Word) (age : Int) (s : State) : Out :=
  s.run (fun m =>
    let u := rd m Reg.SAF_MARGIN_STATUS_NEXT
    if !rdb m Reg.SAF_MARGIN_STATUS_RUNNING || decide (now m < m.margin.endAt) then m
    else
      let temp := (hottestOf m (if u < 8 then partSensors m u else [32 + 2 * (u - 8), 33 + 2 * (u - 8)])).getD 0
      let path := loc.getD (if u < 8 then pathCore m u core 0 63 63 else upath m 0 8 (u - 8) 0 63 63)
      let cool := m.margin.cool
      let hard := failed.filter (fun x => x.val != 1)
      let det (point : Nat) : List Byte :=
        leBytes 1 point ++ leBytes 1 (b2n cool) ++ leBytes 1 (fieldOf 8 temp) ++ [0] ++ leBytes 4 sig.toNat ++
          leBytes 4 (Config.goldenSignature (grade m) (16 * rd m Reg.PAT_ID_STEP_LETTER + rd m Reg.PAT_ID_STEP_NUMBER))
      let rec' (point source : Nat) : LogRec := { path := path, source := source, detail := det point }
      let m := match hard with
        | x :: _ =>
          let m := m |> logErr (rec' x 0x10) |> inc Reg.SAF_CNT_TEST_FAIL
          if u < 8 then permanentEvent u core m else wrb (spareFailed (u - 8)) true m
        | [] => if failed.isEmpty then m else logErr (rec' 1 0x11) m
      let m := marginNext m
      if 8 ≤ u then m
      else
        let m := m |> wri (Reg.SAF_HOT_REC_LAST_TEMP u) temp |> wrb (Reg.SAF_HOT_REC_LAST_PASS u) hard.isEmpty
          |> wrb (Reg.SAF_HOT_REC_LAST_COOL u) cool |> wri (Reg.PWR_PART_AGE u) age |> syncPoint u
        if decide (25 < age) && !(mget m.pparts u).aged then
          m |> modPwr u (fun x => { x with aged := true }) |> logErr (powerRec m (pathVr m u) 7 0xFF age 25)
        else m)

end Sys2Proof.Machine
end

