-- ==== Sys2Proof/Machine/SafetyUnit.lean ====
section
/-!
DEFINITION. The safety side (R503 to R544): SAFE_n and its exits, the Minuet island and its debug halt, the Partner engine's input,
routine and faults, the Caller, and the frames of the safety ports.
-/

namespace Sys2Proof.Machine

def modSaf (f : Safety → Safety) (m : Mach) : Mach := { m with saf := f m.saf }

/-! ### Fatal indications and SAFE_n (R507, R512, R534) -/

/-- A fatal indication that has no record of its own beside SAFE_ENTER: the first path is kept (R541). -/
def fatalOnly (c : Cause) (path : Nat) (m : Mach) : Mach :=
  m |> whenB (rd m Reg.SAF_FATAL_PATH == 0) (wr Reg.SAF_FATAL_PATH path) |> enterSafe c

/-- A fatal indication: 0 the fault-collector copies disagree, 1 the Caller copies disagree, 2 an uncorrectable or poisoned island SRAM
word at `addr`. -/
def execFatalIndication (kind : Fin 3) (addr : Nat) (s : State) : Out := s.run (fun m =>
  match kind with
  | 0 => fatalOnly .faultCollector (pathGroup m 12) m
  | 1 => fatal .caller { path := pathGroup m 11, source := 0x49 } m
  | _ => fatal .islandMemory { path := pathIsland m 63, source := 0x47, detail := leBytes 4 addr } m)

/-- The island reads the ball back. -/
def execSafeNReadback (level : Bool) (s : State) : Out := s.run (fun m =>
  if !m.saf.islandUp then m
  else
    let m' := wrb Reg.SAF_STATUS_SAFE_N level m
    if level = (!m.saf.latchA && !m.saf.latchB) then m' else fatalOnly .faultCollector (pathGroup m 12) m')

/-! ### The island (R529 to R532) -/

/-- The island stops: no votes, no frames, no HB_OUT (R509). -/
def islandLost : Mach → Mach := modSaf (fun x => { x with islandUp := false, odd := none, aliveDue := none })

/-- Resynchronisation of an odd core begins (R530). -/
def beginResync (c : Nat) (m : Mach) : Mach :=
  m |> logErr { path := pathIsland m c, source := 0x43, detail := leBytes 4 c }
    |> modSaf (fun x => { x with odd := some c, oddAt := now m }) |> wr Reg.SAF_STATUS_ISLAND_MODE 1 |> refreshSafe

/-- A mismatch at the voter: the odd core, or none where all three differ. A detecting pair that disagrees has lost its vote too. -/
def execIslandVoteMismatch (odd : Option (Fin 3)) (s : State) : Out := s.run (fun m =>
  if !m.saf.islandUp || m.saf.halted then m
  else match odd, pairMode m with
    | some c, false => beginResync c m
    | _, _ => m |> fatal .islandVote { path := pathIsland m 63, source := 0x43, detail := leBytes 4 0xFF } |> islandLost)

/-- Resynchronisation ends; a core's third within 1 s fences it. -/
def execIslandResyncComplete (s : State) : Out := s.run (fun m =>
  match m.saf.odd with
  | none => m
  | some c =>
    let past := now m :: (mget m.saf.resyncs c).filter (fun t => decide (now m < t + 1000000000))
    let m := m |> modSaf (fun x => { x with odd := none, resyncs := mset x.resyncs c past }) |> inc Reg.SAF_CNT_RESYNC
      |> logErr { path := pathIsland m c, source := 0x44, detail := leBytes 4 c ++ leBytes 4 (now m - m.saf.oddAt) }
    if 3 ≤ past.length then
      m |> modSaf (fun x => { x with fenced := [c] }) |> wr Reg.SAF_STATUS_ISLAND_MODE 2 |> wr Reg.SAF_STATUS_FENCED_CORE c
        |> logErr { path := pathIsland m c, source := 0x45, detail := leBytes 4 c } |> refreshSafe
    else m |> wr Reg.SAF_STATUS_ISLAND_MODE 0 |> refreshSafe)

/-- A watchdog fault. -/
def wdogFault (m : Mach) : Mach := fatal .islandWdog { path := pathGroup m 13, source := 0x46 } m

/-- The island firmware writes its watchdog. -/
def execIslandWatchdogWrite (s : State) : Out := s.run (fun m =>
  match m.saf.wdogLast with
  | none => m
  | some t =>
    if !m.saf.islandUp || m.saf.halted then m
    else
      let gap := now m - t
      let ok := m.saf.wdogFresh || decide (50000 ≤ gap)
      let m := modSaf (fun x => { x with wdogLast := some (now m), wdogFresh := false }) m
      if ok && decide (gap ≤ 150000) then m else wdogFault m)

/-- 150 µs have passed without a write. -/
def execIslandWatchdogTimeout (s : State) : Out := s.run (fun m =>
  if m.saf.islandUp && !m.saf.halted && m.saf.wdogLast.any (fun t => decide (t + 150000 < now m)) then m |> wdogFault |> islandLost
  else m)

/-- A debug session is open (R78). -/
def debugOpen (m : Mach) : Bool := rdb m Reg.PAT_STATUS_DEBUG_SESSION

/-- A DEBUG record; the code of its event is open. -/
def debugRec (m : Mach) : Mach :=
  let (e, m) := draw 8 m
  logErr { path := pathIsland m 0, source := 0x5C, detail := leBytes 4 e } m

/-- All three cores halt at one instruction boundary. -/
def execDebugHalt (s : State) : Out := s.run (fun m =>
  if debugOpen m && !m.saf.halted && m.saf.islandUp then
    m |> modSaf (fun x => { x with halted := true }) |> debugRec |> enterSafe .debugHalt
  else m)

/-- A step on all three cores changes nothing that the part's interfaces show. -/
def execDebugStep (s : State) : Out := s.run id

/-- A register, CSR or breakpoint write of the debugger: 256 entries are kept. -/
def execDebugStateWrite (reg value : Nat) (s : State) : Out := s.run (fun m =>
  if !debugOpen m then m
  else if 256 ≤ m.saf.replay.length then emit .debugBusy m
  else modSaf (fun x => { x with replay := x.replay ++ [(reg, value)] }) m)

/-- Resume: the replay buffer is applied and empties, and the states are compared; an odd core is resynchronised. -/
def execDebugResume (odd : Option (Fin 3)) (s : State) : Out := s.run (fun m =>
  if !(debugOpen m && m.saf.halted) then m
  else
    let m := m |> modSaf (fun x => { x with halted := false, replay := [], wdogLast := some (now m), wdogFresh := true }) |> debugRec
    match odd with
    | some c => if pairMode m then m else m |> beginResync c |> emit .debugEvent
    | none => m)

/-! ### The Partner engine (R514 to R518) -/

/-- The stream entry of the PARTNER section. -/
def ptnEntry (m : Mach) (i : Nat) : Option (List Byte) :=
  let b := sec m 0xB 0
  ((List.range (le b 0 2)).map (fun k => slice b (64 + 32 * k) 32)).find? (fun e => le e 0 2 == i)

/-- Where the Partner routine's binary begins in the section. -/
def ptnOff (m : Mach) : Nat := roundUp (64 + 32 * secLe m 0xB 0 0 2) 64

/-- The Partner routine: its binary stands at address 0 of the Partner sequencer's instruction memory. -/
def ptnRun (m : Mach) : Run :=
  let r := readRoutine (sec m 0xB 0) 0 (ptnOff m) 0
  { runOf { r with base := 64 } 3 with high := false }

/-- Most chunks that an item of a stream has, and the bytes of its valid bitmap (R516). -/
def ptnChunks (e : List Byte) : Nat := if strCamera e then strHeight e / decimD e else ceilDiv (strHeight e) (decimK e)
def ptnMap (e : List Byte) : Nat := roundUp (ceilDiv (ptnChunks e) 8) 64

/-- Offset of the slot that takes an item. -/
def ptnSlot (x : List Byte) (tag : Nat) : Nat := le x 4 4 + tagSeq tag % le x 2 1 * le x 8 4

/-- A chunk, or a notice of it, is dropped: its item carries DECIM_DROP. -/
def ptnDrop (tag : Nat) (m : Mach) : Mach :=
  m |> inc Reg.PTN_CNT_DROPS |> modItem tag (fun it => { it with itemFlags := it.itemFlags ||| flagBit 21 })

/-- Post a notice (R338); one that finds the FIFO full is discarded. -/
def ptnNotice (tag index len off : Nat) (m : Mach) : Mach :=
  if 512 ≤ (mget m.rnotes 8).length then
    m |> withPe (fun path => logErr { path := path, source := 0x5B, tag := tag, detail := leBytes 4 2 }) |> ptnDrop tag
  else { m with rnotes := mset m.rnotes 8 (mget m.rnotes 8 ++
    [{ tag := tag, lo := tag + index * 2 ^ 32, hi := len + off * 2 ^ 32 }]) }

/-- The slot takes an item with its first chunk, where its first granule's ready bit is clear. -/
def ptnBegin (x e : List Byte) (c : Chunk) (m : Mach) : Mach :=
  let g := ptnSlot x c.tag / 4096
  let ok := !ready m 8 g
  let m := modSaf (fun s => { s with ptnIn := insertKey (eraseKey s.ptnIn c.tag) c.tag ok }) m
  if ok then
    m |> writeMem (ptnAddr (ptnSlot x c.tag)) (leBytes 4 c.tag ++ leBytes 4 0 ++ leBytes 8 c.stamp ++ zeros (48 + ptnMap e))
      |> setReady 8 true [g]
  else m

/-- The oldest chunk on the lane group reaches the Partner engine; `bad`: its CRC fails at seam 4. -/
def execPartnerChunkRx (bad : Bool) (s : State) : Out := s.run (fun m =>
  match m.lane with
  | [] => m
  | c :: rest =>
    if c.index = 0xFFFFFFFF then m
    else
      let m := { m with lane := rest }
      let e := streamEntry m (tagStream c.tag)
      match ptnEntry m (tagStream c.tag) with
      | none => ptnDrop c.tag m
      | some x =>
        if 2 ≤ rd m Reg.PTN_STATUS_STATE then ptnDrop c.tag m
        else if bad then m |> withPe (fun path => logErr { path := path, source := 0x50, seam := 4, tag := c.tag }) |> ptnDrop c.tag
        else
          let m := if (lookup m.saf.ptnIn c.tag).isNone then ptnBegin x e c m else m
          if lookup m.saf.ptnIn c.tag ≠ some true then ptnDrop c.tag m
          else
            let base := ptnSlot x c.tag
            let off := base + 64 + ptnMap e + c.index * le x 12 4
            let a := ptnAddr (base + 64 + c.index / 8)
            let m := writeMem (ptnAddr off) c.data m
            let m := if c.valid then writeMem a [rb m a ||| BitVec.ofNat 8 (2 ^ (c.index % 8))] m else m
            ptnNotice c.tag c.index c.data.length off m)

/-- An item's close reaches the Partner engine. -/
def execPartnerItemClose (s : State) : Out := s.run (fun m =>
  match m.lane with
  | [] => m
  | c :: rest =>
    if c.index ≠ 0xFFFFFFFF then m
    else
      let had := lookup m.saf.ptnIn c.tag
      let m := { m with lane := rest } |> modSaf (fun s => { s with ptnIn := eraseKey s.ptnIn c.tag })
      match ptnEntry m (tagStream c.tag), had with
      | some x, some true =>
        let base := ptnSlot x c.tag
        m |> writeMem (ptnAddr (base + 4)) (leBytes 4 c.stamp) |> ptnNotice c.tag 0xFFFFFFFF c.stamp base
      | _, _ => m)

/-- The island compares the Partner clock: the difference in units of 0.01 %. -/
def execPartnerClockCheck (dev : Int) (s : State) : Out := s.run (fun m =>
  let d := min 65535 dev.natAbs
  let m := wr Reg.PTN_STATUS_CLOCK_DEV d m
  if 100 < d ∧ rd m Reg.PTN_STATUS_STATE = 1 then withPe (partnerFault 5) m else m)

/-- A Partner fault of R518, in its order: 0 an exception, 1 an SRAM word, 2 an overrun, 3 a periodic test, 4 the clock, 5 the decimator
comparators. -/
def execPartnerFault (cause : Fin 6) (s : State) : Out := s.run (fun m =>
  if rd m Reg.PTN_STATUS_STATE = 1 then (if cause.val = 1 then partnerFault 2 (pathGroup m 15) else withPe (partnerFault (cause + 1))) m else m)

/-- The wipe of the Partner SRAM ends: the engine is held until the next grid tick. -/
def execPartnerWipeComplete (s : State) : Out := s.run (fun m =>
  if rd m Reg.PTN_STATUS_STATE = 2 ∧ m.saf.ptnWipeAt + 36409 ≤ now m then wr Reg.PTN_STATUS_STATE 0 m else m)

/-- What the Partner engine does at a grid tick: its periodic test, then its routine (R517). -/
def partnerTick (testFails : Bool) (m : Mach) : Mach :=
  if (secOf m 0xB 0).isNone ∨ 2 ≤ rd m Reg.PTN_STATUS_STATE then m
  else if rdb m Reg.PTN_STATUS_ROUTINE_RUNNING then withPe (partnerFault 3) m
  else if testFails then m |> wrb Reg.PTN_STATUS_TEST_PASS false |> withPe (partnerFault 4)
  else m |> wr Reg.PTN_STATUS_STATE 1 |> wrb Reg.PTN_STATUS_TEST_PASS true |> wrb Reg.SAF_STATUS_PARTNER_OK true
    |> startRun 8 (ptnRun m) (gridTurn m) (rd m Reg.TIME_TURN_TICK)

/-! ### Safety frames (R525 to R528) -/

/-- A payload on every enabled port that is up; `f` makes it for a port. -/
def safetySend (f : Nat → List Byte) (m : Mach) : Mach :=
  forEach [0, 1] (fun e m =>
    if rd m (Reg.SAF_ETH_STATUS_STATE e) = 2 then
      let b := f e
      m |> emit (.safetyFrame e (b ++ leBytes 4 (crc32 b))) |> inc (Reg.SAF_ETH_CNT_TX e)
    else m) m

/-- The alive frame of a port, without its CRC. -/
def aliveBytes (m : Mach) (a : Alive) (port : Nat) : List Byte :=
  [0x46, 0x4B, 0x41, 0x4C, 1] ++ leBytes 1 (rd m Reg.SAF_STATUS_STATE) ++ leBytes 1 (tq m + 4 * b2n (pairMode m)) ++ leBytes 1 port ++
    leBytes 4 m.saf.aliveSeq ++ leBytes 4 a.turn ++ leBytes 8 a.tick ++ leBytes 1 (packageIndex m) ++
    leBytes 1 (if inSafe m then rd m Reg.SAF_CAUSE_SAFE_CAUSE else 0) ++ leBytes 1 (rd m Reg.SAF_CAUSE_DEGRADE) ++ [0] ++
    leBytes 2 (min 65535 a.accepted) ++ leBytes 2 (min 65535 a.rejected) ++ leBytes 2 (min 65535 a.missing) ++
    leBytes 2 m.saf.condQuar.length ++ leBytes 2 (a.first.getD 0xFFFF) ++ leBytes 2 0 ++
    leBytes 4 (rd m Reg.SAF_LAST_FATAL_SEQ) ++ leBytes 4 (rd m Reg.SAF_LOG_SEQ) ++ leBytes 8 (rd m Reg.PAT_PATTERN_ID) ++
    leBytes 4 (rd m Reg.PAT_ALTER_SEQ)

/-- The island sends a tick's alive frame, and toggles HB_OUT. -/
def execAliveFrameSend (s : State) : Out := s.run (fun m =>
  match m.saf.aliveDue with
  | none => m
  | some a =>
    if !m.saf.islandUp || m.saf.halted then m
    else
      let m := modSaf (fun x => { x with aliveDue := none, aliveSeq := (x.aliveSeq + 1) % 2 ^ 32 }) m
      m |> safetySend (aliveBytes m a) |> inc Reg.SAF_CNT_ALIVE |> wrb Reg.SAF_STATUS_HB_OUT (!rdb m Reg.SAF_STATUS_HB_OUT))

/-- A frame received on a safety port: an ARP request for SRC_IP is answered, PTP of the time port goes to the time unit by its own
commands, and every other is discarded. -/
def execSafetyEthRx (e : Fin 2) (frame : List Byte) (s : State) : Out := s.run (fun m =>
  if rd m (Reg.SAF_ETH_STATUS_STATE e) ≠ 2 then m
  else
    let c := safPort m e
    let (tagged, vlan, type, p) := ethHeader frame
    let mac := slice c 4 6
    let ours := (slice frame 0 6).all (· == 0xFF) || slice frame 0 6 == mac
    if type = 0x0806 ∧ ours ∧ beNat (slice p 6 2) = 1 ∧ slice p 24 4 = slice c 0x10 4 ∧
        (if bitOf (le c 1 1) 0 then vlan == some (le c 2 2) else vlan.isNone) then
      m |> inc (Reg.SAF_ETH_CNT_ARP e) |> emit (.ethFrame (16 + e) (arpAnswer mac (slice c 0x10 4) p (slice frame 6 6)))
    else if type = 0x88F7 ∧ !tagged ∧ timePort m = 16 + e.val then m
    else inc (Reg.SAF_ETH_CNT_RX_DISCARD e) m)

/-! ### The Caller (R519 to R524) -/

/-- Whether cell `i` lies in a region of a profile. -/
def inRegion (pr : List Byte) (i : Nat) : Bool :=
  let w := max 1 (le pr 0 2)
  (List.range (le pr 5 1)).any (fun r =>
    let f (o : Nat) : Nat := le pr (8 + 8 * r + o) 2
    decide (f 0 ≤ i % w) && decide (i % w < f 0 + f 4) && decide (f 2 ≤ i / w) && decide (i / w < f 2 + f 6))

/-- One cell of both grids agrees (R521). -/
def cellAgrees (tol : Nat) (a b : Byte) : Bool :=
  a != 0xFF && b != 0xFF && decide ((a.toNat : Int) - b.toNat ≤ tol) && decide ((b.toNat : Int) - a.toNat ≤ tol)

/-- The cells that go out, how many disagree, and whether one of those lies in a region. -/
def compareCells (pr : List Byte) (a b : List Byte) : List Byte × Nat × Bool :=
  let tol := le pr 4 1
  let l := (a.zip b).zipIdx
  let bad := l.filter (fun x => !cellAgrees tol x.1.1 x.1.2)
  (l.map (fun x => if cellAgrees tol x.1.1 x.1.2 then (if x.1.1.toNat < x.1.2.toNat then x.1.2 else x.1.1) else 0xFF),
    bad.length, bad.any (fun x => inRegion pr x.2))

/-- A fragment of an accepted grid (R528), without its CRC. -/
def gridFrag (m : Mach) (tag : Nat) (it : Item) (pr out : List Byte) (f seq port : Nat) : List Byte :=
  let n := out.length
  let cells := (out.drop (1400 * f)).take 1400
  [0x46, 0x4B, 0x47, 0x44, 1] ++ leBytes 1 f ++ leBytes 1 (ceilDiv n 1400) ++ leBytes 1 (it.stampTq + 4 * port) ++ leBytes 4 seq ++
    leBytes 4 tag ++ leBytes 8 it.stamp ++ leBytes 4 (gridTurn m) ++ leBytes 2 (le pr 0 2) ++ leBytes 2 (le pr 2 2) ++
    leBytes 2 (1400 * f) ++ leBytes 2 cells.length ++ leBytes 2 (out.filter (· == 0xFF)).length ++ leBytes 1 (packageIndex m) ++ [0] ++ cells

/-- The frames of an accepted grid. -/
def sendGrid (tag : Nat) (it : Item) (pr out : List Byte) (m : Mach) : Mach :=
  forEach (List.range (ceilDiv out.length 1400)) (fun f m =>
    let m := modSaf (fun x => { x with gseq := (x.gseq + 1) % 2 ^ 32 }) m
    safetySend (gridFrag m tag it pr out f m.saf.gseq) m) m

/-- Class G (R512, R523): once in a run of REJECT_RUN rejected grids. -/
def classG (i : Nat) (m : Mach) : Mach :=
  if m.saf.raised.contains i || decide (getD 0 m.saf.runs i < rejectRun m) then m
  else
    let m := modSaf (fun x => { x with raised := x.raised ++ [i], condReject := x.condReject ++ [i] }) m
    if reactReject m = 2 then enterSafe .reject m else refreshSafe m

/-- Counters of a reject reason (R540, R541): MISSING_BOTH counts as both. -/
def rejectCount (reason : Nat) (m : Mach) : Mach :=
  match reason with
  | 1 => inc Reg.SAF_CALLER_CNT_REJ_COUNT m
  | 2 => inc Reg.SAF_CALLER_CNT_REJ_REGION m
  | 3 => inc Reg.SAF_CALLER_CNT_MISS_MAIN m
  | 4 => inc Reg.SAF_CALLER_CNT_MISS_PARTNER m
  | 5 => m |> inc Reg.SAF_CALLER_CNT_MISS_MAIN |> inc Reg.SAF_CALLER_CNT_MISS_PARTNER
  | 6 => inc Reg.SAF_CALLER_CNT_CRC_FAIL m
  | _ => inc Reg.SAF_CALLER_CNT_SAFE_STATE m

/-- An item's grid is rejected (R521 to R523). -/
def rejectGrid (tag reason dis : Nat) (m : Mach) : Mach :=
  let i := tagStream tag
  m |> rejectCount reason |> wr Reg.SAF_CALLER_LAST_REASON reason |> wr Reg.SAF_CALLER_LAST_DISAGREE (min 16384 dis)
    |> wr Reg.SAF_CALLER_LAST_TAG tag
    |> logErr { path := pathGroup m 11, source := 0x48, tag := tag, detail := leBytes 1 reason ++ leBytes 2 dis }
    |> modSaf (fun x => { x with
        caller := eraseKey x.caller tag, reasons := setD 0 x.reasons tag reason, rejected := x.rejected + 1,
        missing := x.missing + b2n (decide (3 ≤ reason) && decide (reason ≤ 5)), firstRej := x.firstRej <|> some i,
        runs := setD 0 x.runs i (getD 0 x.runs i + 1) })
    |> classG i |> modItem tag (fun it => { it with verdict := some false }) |> tryDecide tag
    |> modSaf (fun x => { x with reasons := eraseKey x.reasons tag })

/-- An item's grid is accepted. -/
def acceptGrid (tag : Nat) (it : Item) (pr out : List Byte) (m : Mach) : Mach :=
  let i := tagStream tag
  m |> inc Reg.SAF_CALLER_CNT_ACCEPTED |> sendGrid tag it pr out
    |> modSaf (fun x => { x with
        caller := eraseKey x.caller tag, accepted := x.accepted + 1, runs := eraseKey x.runs i,
        raised := x.raised.filter (· != i), condReject := x.condReject.filter (· != i) })
    |> refreshSafe |> modItem tag (fun it => { it with verdict := some true }) |> tryDecide tag

/-- Both grids of an item are present: the cells are compared. -/
def callerVerdict (tag : Nat) (it : Item) (a b : List Byte) (m : Mach) : Mach :=
  let pr := (callerProfile m (tagStream tag)).getD []
  let (out, dis, region) := compareCells pr a b
  if region then rejectGrid tag 2 dis m
  else if le pr 6 2 < dis then rejectGrid tag 1 dis m
  else acceptGrid tag it pr out m

/-- A grid that travels to the Caller, with what is left on the way. -/
def takeGrid (partner : Bool) (tag : Nat) : List GridMsg → Option (GridMsg × List GridMsg)
  | [] => none
  | g :: r => if g.partner = partner ∧ g.tag = tag then some (g, r) else (takeGrid partner tag r).map (fun x => (x.1, g :: x.2))

/-- The Partner condition ends with a grid posted in time by an engine whose test passed (R513). -/
def endPartner (m : Mach) : Mach :=
  if m.saf.condPartner && rdb m Reg.PTN_STATUS_TEST_PASS then m |> modSaf (fun x => { x with condPartner := false }) |> refreshSafe else m

/-- A grid reaches the Caller; `bad`: its CRC fails; `differ`: the two copies of the Caller disagree over it, which is fatal. -/
def execCallerGridArrival (partner : Bool) (tag : Nat) (bad differ : Bool) (s : State) : Out := s.run (fun m =>
  match takeGrid partner tag m.grids with
  | none => m
  | some (g, rest) =>
    let m := { m with grids := rest }
    match (lookup m.items tag).filter (fun it => it.verdict.isNone) with
    | none => m |> inc Reg.SAF_CALLER_CNT_LATE_GRID |> whenB partner (inc Reg.PTN_CNT_LATE_GRIDS)
    | some it =>
      if bad then
        m |> logErr { path := pathGroup m 11, source := 0x50, seam := 11, tag := tag }
          |> modSaf (fun x => { x with caller := mmod x.caller tag (fun c => { c with crc := true }) })
      else
        let m := m |> whenB partner endPartner
          |> modSaf (fun x => { x with caller := mmod x.caller tag (fun c =>
              if partner then { c with partner := some g.data } else { c with main := some g.data }) })
        let c := mget m.saf.caller tag
        if inSafe m then rejectGrid tag 7 0 m
        else match c.main, c.partner with
          | some a, some b =>
            if differ then m |> fatal .caller { path := pathGroup m 11, source := 0x49 } |> rejectGrid tag 7 0
            else callerVerdict tag it a b m
          | _, _ => m)

/-- The Caller's deadline (R522): items of turn `n` and before that lack a grid are rejected at the grid tick that ends it. -/
def callerDeadline (n : Nat) (m : Mach) : Mach :=
  forEach (m.items.filter (fun x => x.2.safety && x.2.verdict.isNone &&
      x.2.turnOf.any (fun t => decide ((n + 2 ^ 32 - t) % 2 ^ 32 < 2 ^ 31)))) (fun x m =>
    if (lookup m.items x.1).isNone then m
    else
      let c := mget m.saf.caller x.1
      let r := if inSafe m then 7 else if c.crc then 6 else if c.main.isSome then 4 else if c.partner.isSome then 3 else 5
      rejectGrid x.1 r 0 m) m

/-- A stream's run of rejected grids has reached REJECT_RUN. -/
def execRejectRunLimit (i : Nat) (s : State) : Out := s.run (fun m => if getD 0 m.saf.runs i = 0 then m else classG i m)

/-! ### Entering and leaving on request (R538, R539) -/

/-- Whether a cause has met its exit by request. -/
def mayExit (m : Mach) : Cause → Bool
  | .debugHalt => !m.saf.halted
  | .hostRequest => true
  | .deadline => !m.saf.condDeadline
  | .quarantine => m.saf.condQuar.isEmpty
  | .reject => m.saf.condReject.isEmpty
  | .partner => !m.saf.condPartner
  | .power => powerMayExit m
  | _ => false

/-- A request of HOST_SAF_REQUEST that is refused. -/
def refuseExit (m : Mach) : Mach :=
  m |> inc Reg.SAF_CNT_EXIT_REFUSED |> logErr { path := pathIsland m 63, source := 0x41, detail := leBytes 4 0 }

def execSafeEnterRequest (who : Requester) (s : State) : Out :=
  s.run (regWrite who Reg.HOST_SAF_REQUEST_ACTION .pfHc (enterSafe .hostRequest))

def execSafeExitRequest (who : Requester) (token : BitVec 16) (s : State) : Out :=
  s.run (regWrite who Reg.HOST_SAF_REQUEST_ACTION .pfHc (fun m =>
    if exitMode m = 1 ∧ rd m Reg.SAF_STATUS_EXIT_TOKEN = token.toNat ∧ m.saf.causes.all (mayExit m) then
      m |> modSaf (fun x => { x with exit := some { at0 := now m } }) |> wrb Reg.SAF_STATUS_EXIT_PENDING true
    else refuseExit m))

/-- An ACTION that is neither 1 nor 2. -/
def execSafRequestInvalid (who : Requester) (action : Byte) (s : State) : Out :=
  s.run (regWrite who Reg.HOST_SAF_REQUEST_ACTION .pfHc (fun m => if action = 1 ∨ action = 2 then m else refuseExit m))

/-- The tests of step 1 end, 2 ms after the request. -/
def execSafeExitTestsComplete (failed : Bool) (s : State) : Out := s.run (fun m =>
  match m.saf.exit with
  | none => m
  | some x =>
    if x.tested ∨ now m < x.at0 + 2000000 then m
    else if failed then fatalOnly .selftest (pathIsland m 63) m
    else modSaf (fun y => { y with exit := some { x with tested := true } }) m)

/-- Both latches clear, and no cause is held. -/
def leaveSafe (m : Mach) : Mach :=
  m |> modSaf (fun x => { x with latchA := false, latchB := false, causes := [], exit := none })
    |> wrb Reg.SAF_STATUS_EXIT_PENDING false |> wrb Reg.SAF_STATUS_SAFE_N true |> refreshSafe

/-- An accepted exit counts the grid turns that end at a tick. -/
def exitTick (m : Mach) : Mach :=
  modSaf (fun y => { y with exit := y.exit.map (fun x => if x.tested then { x with turns := some (x.turns.elim 0 (· + 1)) } else x) }) m

/-- EXIT_TURNS turns have passed: SAFE_n rises at the grid tick. -/
def execSafeExitComplete (s : State) : Out := s.run (fun m =>
  match m.saf.exit with
  | some ⟨_, true, some n⟩ =>
    if exitTurns m ≤ n ∧ now m ≤ rd m Reg.TIME_TURN_TICK + 2 ∧ m.saf.causes.all (mayExit m) then
      m |> leaveSafe |> logErr { path := pathIsland m 63, source := 0x41, detail := leBytes 4 n }
    else m
  | _ => m)

/-- The first turn tick (R538): NOT_STARTED and RELOAD end, if every start-up test that holds the part has passed. -/
def startExit (m : Mach) : Mach :=
  if m.saf.voterBad then m
  else
    let l := m.saf.causes.filter (fun c => c != .notStarted && c != .reload)
    if l.isEmpty then leaveSafe m else m |> modSaf (fun x => { x with causes := l }) |> refreshSafe

end Sys2Proof.Machine
end

