-- ==== Sys2Proof/Machine/Sash.lean ====
section
/-!
DEFINITION. The Sash links (R421 to R448): lock and alignment, training and drops, hello, frames with their credits and replay,
pages, messages and slots, and turn alignment.
-/

namespace Sys2Proof.Machine

/-! ### The SASH section (R422) -/

def linkEnabled (m : Mach) (l : Nat) : Bool := bitOf (secLe m 0xE 0 0 1) l
def retrainLimitNs (m : Mach) : Nat := 1000000 * secLe m 0xE 0 2 2
def skewLimitNs (m : Mach) : Nat := secLe m 0xE 0 4 4
def groupId (m : Mach) : Nat := secLe m 0xE 0 8 8
def peerPackage (m : Mach) (l : Nat) : Nat := secLe m 0xE 0 (0x20 + 16 * l) 1
def peerLink (m : Mach) (l : Nat) : Nat := secLe m 0xE 0 (0x21 + 16 * l) 1

/-- Boxes of a link. -/
def linkBoxes (m : Mach) (l : Nat) : List BoxCfg := (boxCfgs m).filter (fun b => b.link == l)
def outboxes (m : Mach) (l : Nat) : List BoxCfg := (linkBoxes m l).filter (fun b => b.dir == 0)
def inboxes (m : Mach) (l : Nat) : List BoxCfg := (linkBoxes m l).filter (fun b => b.dir == 1)

/-- UP or FENCED. -/
def linkRuns (m : Mach) (l : Nat) : Bool := linkState m l == 2 || linkState m l == 3

/-- A link's state and phase, and LINK_UP of its boxes (R444, R448). -/
def setLink (l st phase : Nat) (m : Mach) : Mach :=
  m |> wr (Reg.SASH_STATUS_STATE l) st |> wr (Reg.SASH_STATUS_PHASE l) phase
    |> forEach (linkBoxes m l) (fun b => wrb (Reg.TC_SASH_BOX_LINK_UP b.part b.index) (st == 2))

/-- The record of a link error: non-fatal, with the link as its detail. -/
def sashErr (l : Nat) (m : Mach) : Mach := logErr { path := pathSash m l, source := 0x58, detail := leBytes 4 l } m

/-! ### Rows and credits (R424, R436) -/

/-- Row types of R424. -/
def rowHello : Nat := 0x4B
def rowAck : Nat := 0x55
def rowTurn : Nat := 0x66
def rowDelay : Nat := 0x78

/-- Send an ACK row: SEQ of the last frame in order, NAK, and the credits of the rows taken since the last one. -/
def ackRow (l : Nat) (m : Mach) : Mach :=
  let x := mget m.links l
  m |> emit (.sashRow l rowAck ([(x.rxSeq + 65535) % 65536, b2n x.nak] ++ x.owed))
    |> modLink l (fun x => { x with owed := [0, 0, 0], rows := 0, ackSent := now m, nak := false })

/-- A frame fails: it is discarded and NAKed. -/
def frameBad (l : Nat) (m : Mach) : Mach :=
  m |> inc (Reg.SASH_CNT_CRC_NAK l) |> modLink l (fun x => { x with nak := true }) |> ackRow l

/-- A frame has been received: in order and good, it is taken (`f`); out of order it fails. What a FENCED link receives is
acknowledged and dropped (R434). -/
def frameRx (l vc seq len : Nat) (ok : Mach → Bool) (f : Mach → Mach) (m : Mach) : Mach :=
  if !linkRuns m l then m
  else if seq ≠ (mget m.links l).rxSeq ∨ !ok m then frameBad l m
  else
    let rows := 1 + ceilDiv len 64
    let m := modLink l (fun x => { x with
      rxSeq := (x.rxSeq + 1) % 65536, rows := x.rows + rows,
      owed := x.owed.zipIdx.map (fun c => if c.2 = vc then c.1 + rows else c.1) }) m
    if linkState m l = 3 then m else f m

/-! ### What a link gives up, and how it comes back (R432 to R434) -/

/-- Page reads of this package's walkers on a link. -/
def readsOn (m : Mach) (l : Nat) : List (Nat × KvRead) :=
  (List.range 8).flatMap (fun p => ((mget m.kvs p).reads.filter (fun r => r.link == l)).map (fun r => (p, r)))

/-- Change every page read on a link. -/
def eachRead (l : Nat) (f : KvRead → KvRead) (m : Mach) : Mach :=
  forEach (List.range 8) (fun p => modKv p (fun k => { k with reads := k.reads.map (fun r => if r.link = l then f r else r) })) m

/-- The link is down: its page reads wait from now on. -/
def readsDown (l : Nat) (m : Mach) : Mach := eachRead l (fun r => { r with downAt := r.downAt <|> some (now m) }) m

/-- The link is up again: page reads that it has not lost go on. -/
def readsUp (l : Nat) (m : Mach) : Mach := eachRead l (fun r => { r with downAt := if r.lost then r.downAt else none }) m

/-- The temporary references held for a peer's reads are released, and its requests are forgotten. -/
def dropServing (l : Nat) (m : Mach) : Mach :=
  m |> forEach (mget m.links l).serving (fun s m => if s.held then (decRef s.part s.page m).2 else m)
    |> modLink l (fun x => { x with serving := [], waiting := [] })
    |> forEach (List.range 8) (fun p => modKv p (fun k => { k with inbox := k.inbox.filter (fun g => match g with
        | .page l' _ _ _ => l' != l
        | .ref _ _ => true) }))

/-- Sequence numbers, credits and buffers start anew on both sides. -/
def freshLink (x : SLink) : SLink :=
  { x with txSeq := 0, rxSeq := 0, credits := [256, 4096, 4096], owed := [0, 0, 0], queue := [], unacked := [],
           fails := 0, nak := false, rows := 0 }

/-- What a link that goes down without keeping its state discards (R433). -/
def giveUp (l : Nat) (m : Mach) : Mach :=
  m |> modLink l freshLink |> eachRead l (fun r => { r with lost := true, downAt := r.downAt <|> some (now m) }) |> dropServing l
    |> forEach (outboxes m l) (fun b m => m |> addTo (Reg.SASH_CNT_SLOTS_LOST l) (mget m.boxes b.index).used.length
        |> modBox b.index (fun x => { x with used := [], sent := [], grants := 0 }) |> syncBox b.index)
    |> forEach (inboxes m l) (fun b m => m |> modBox b.index (fun x => { x with frames := 0 }) |> syncBox b.index)

/-- An attempt to train starts at equalisation. -/
def startAttempt (l st : Nat) (m : Mach) : Mach :=
  m |> setLink l st 0 |> modLink l (fun x => { x with lanes := [] }) |> wr (Reg.SASH_LANE_LOCK_BLOCK l) 0
    |> wr (Reg.SASH_LANE_LOCK_MARKER l) 0

/-- TRAINING begins, with no state kept. -/
def startTraining (l : Nat) (m : Mach) : Mach :=
  m |> startAttempt l 1 |> modLink l (fun x => { x with attemptAt := now m })

/-- The link drops, and trains. -/
def dropLink (l : Nat) (m : Mach) : Mach :=
  m |> giveUp l |> inc (Reg.SASH_CNT_DROP l) |> sashErr l |> startTraining l

/-- An UP or FENCED link retrains, its state kept. -/
def retrain (l : Nat) (m : Mach) : Mach :=
  if !linkRuns m l then m
  else m |> inc (Reg.SASH_CNT_RETRAIN l) |> modLink l (fun x => { x with fenced := linkState m l == 3, attemptAt := now m })
    |> readsDown l |> startAttempt l 4

/-- A lane loses lock: a running link retrains, and an attempt starts again (R429, R432). -/
def lockLost (l : Nat) (m : Mach) : Mach :=
  if linkRuns m l then retrain l m
  else if linkState m l = 1 ∨ linkState m l = 4 then startAttempt l (linkState m l) m else m

/-- Reference messages of this package's walkers that a link carries. -/
def msgsOn (m : Mach) (l : Nat) : List (Nat × KvMsg) :=
  (List.range 8).flatMap (fun p => (((mget m.kvs p).msgs.take 1024).filter (fun g => g.link == l)).map (fun g => (p, g)))

/-- Reference messages that no frame carries are sent again (R406). -/
def resendMsgs (l : Nat) (m : Mach) : Mach :=
  forEach (msgsOn m l) (fun pg m =>
    let g := pg.2
    let fields := [pg.1, g.part, b2n g.inc, g.page, g.epoch, g.seq]
    let x := mget m.links l
    if (x.unacked ++ x.queue).any (fun f => f.kind == SFrame.refMsg && f.fields == fields) then m
    else m |> inc (Reg.KV_CNT_MSG_OUT pg.1) |> sendFrame l { vc := 0, kind := SFrame.refMsg, fields := fields }) m

/-- Every frame that is not acknowledged goes out again, in order. -/
def sendAgain (l : Nat) (m : Mach) : Mach :=
  let x := mget m.links l
  m |> addTo (Reg.SASH_CNT_REPLAY_ROWS l) (x.unacked.map SFrame.rows).sum
    |> modLink l (fun x => { x with ackAt := now m })
    |> forEach x.unacked (fun f => emit (.sashFrame l f.vc f.kind f.seq f.fields f.data))

/-- The link becomes UP, from a retrain or afresh: slots FREE in its inboxes are granted anew where its state was not kept. -/
def becomeUp (l : Nat) (fresh : Bool) (m : Mach) : Mach :=
  let m := m |> setLink l 2 0 |> modLink l (fun x => { x with
    fenced := false, fails := 0,
    queue := if fresh then x.queue.filter (fun f => f.kind != SFrame.slotFree) else x.queue })
  let m := m |> readsUp l |> whenB (!fresh) (sendAgain l) |> resendMsgs l
  if fresh then
    forEach (inboxes m l) (fun b m => forEach (List.range (b.slots - (mget m.boxes b.index).used.length)) (fun _ => grantSlot b.index) m) m
      |> pump l
  else pump l m

/-- The link becomes FENCED: walker messages for the peer leave their rings, pending page requests end with GONE (R434). -/
def becomeFenced (l : Nat) (m : Mach) : Mach :=
  let m := setLink l 3 0 m
  let m := forEach (msgsOn m l) (fun pg m => m |> inc (Reg.SASH_CNT_STALE l) |> ackRef pg.1 (pg.2.pkg * 8 + pg.2.part) pg.2.seq true) m
  let m := forEach (readsOn m l) (fun pr => readEnd pr.1 pr.2.req (some Kvr.gone)) m
  m |> modLink l (fun x => { x with fenced := true })
    |> forEach (List.range 8) takeNext

/-- A base pattern is applied: the island draws a SESSION for each link, boxes are bound, and enabled links train (R432, R434, R448).
`returned`: the lifecycle state is RETURNED (R77). -/
def applySash (returned : Bool) (m : Mach) : Mach :=
  let (ses, m) := draw 32 m
  let m := m |> forEach (boxCfgs m) (fun b m => m |> wr (Reg.TC_SASH_BOX_DIR b.part b.index) b.dir
    |> wrb (Reg.TC_SASH_BOX_VALID b.part b.index) true |> syncBox b.index)
  forEach (List.range 4) (fun l m =>
    let m := wr (Reg.SASH_SESSION l) ses m
    if linkEnabled m l && !returned && !rdb m (Reg.SASH_CTRL_HOLD l) then startTraining l m else m) m

/-! ### Lanes (R427 to R431) -/

/-- Change a lane's own state. -/
def modLane (l i : Nat) (f : SLane → SLane) (m : Mach) : Mach := modLink l (fun x => { x with lanes := mmod x.lanes i f }) m

/-- SASH_LANE_LOCK as the lanes stand (R443). -/
def syncLanes (l : Nat) (m : Mach) : Mach :=
  let bits (f : SLane → Bool) : Nat := ((List.range 8).map (fun i => b2n (f (mget (mget m.links l).lanes i)) * 2 ^ i)).sum
  m |> wr (Reg.SASH_LANE_LOCK_BLOCK l) (bits (·.block)) |> wr (Reg.SASH_LANE_LOCK_MARKER l) (bits (fun x => x.lock.isSome))

/-- Blocks from a lane's last marker to the one that bears counter `c`, all lanes at the same block time: where its marker of that
counter stands. Counters count modulo 2^16 from the nearer side. -/
def markerAt (k : Cand) (c : Nat) : Int :=
  let d : Nat := (k.count + 65536 - c) % 65536
  (k.due : Int) - 16384 * (if d < 32768 then (d : Int) else (d : Int) - 65536)

/-- All eight lanes are marker-locked: the map and the skew are found, or the attempt starts again (R431). -/
def deskew (l : Nat) (m : Mach) : Mach :=
  let ks := (List.range 8).filterMap (fun i => (mget (mget m.links l).lanes i).lock)
  if ks.length < 8 then m
  else
    let at0 := ks.map (fun k => markerAt k ((ks.headD {}).count))
    let hi := at0.foldl max (at0.headD 0)
    let lo := at0.foldl min (at0.headD 0)
    if hi - lo > 48 ∨ !(ks.map (·.lane)).Nodup then startAttempt l (linkState m l) m
    else
      m |> wr (Reg.SASH_LANE_MAP l) ((ks.zipIdx.map (fun k => k.1.lane * 8 ^ k.2)).sum) |> wr (Reg.SASH_DESKEW l) (hi - lo).toNat
        |> wr (Reg.SASH_STATUS_PHASE l) 4
        |> emit (.sashRow l rowHello ([groupId m, packageIndex m, l, periodNs m / 1000, rd m (Reg.SASH_SESSION l)] ++
            (linkBoxes m l).flatMap (fun b => [b.index, b.dir, b.slots, b.bytes, b.peer])))

/-- The counter value one up. -/
def ctrNext (c : Nat) : Nat := (c + 1) % 65536

/-- A block of an unlocked lane, with what it bears (its pattern's lane and its counter) and whether its BIP holds: candidates due here
are confirmed or dropped, and a pattern that confirms none is a new candidate (R428). Answers the lane and how many candidates were
rejected. -/
def hunt (block : Nat) (found : Option (Nat × Nat)) (bip : Bool) (x : SLane) : SLane × Nat :=
  let confirms (c : Cand) : Bool := decide (c.due = block) && found == some (c.lane, c.count) && bip
  let keep := x.cands.filter (fun c => decide (block < c.due) || confirms c)
  let rejected := x.cands.length - keep.length
  let keep := keep.map (fun c => if c.due = block then { c with due := block + 16384, count := ctrNext c.count, good := c.good + 1 } else c)
  match keep.find? (fun c => c.good == 3) with
  | some c => ({ x with cands := [], lock := some c, miss := 0 }, rejected)
  | none =>
    match found with
    | none => ({ x with cands := keep }, rejected)
    | some (lane, ctr) =>
      if x.cands.any confirms then ({ x with cands := keep }, rejected)
      else if 4 ≤ keep.length then ({ x with cands := keep }, rejected + 1)
      else ({ x with cands := keep ++ [{ due := block + 16384, lane := lane, count := ctrNext ctr }] }, rejected)

/-- A block of a locked lane at or behind the position where a marker is due (R429): 0 good, 1 missing, 2 bad, 3 bad by its BIP alone. -/
def judge (block : Nat) (found : Option (Nat × Nat)) (bip : Bool) (c : Cand) : Nat :=
  if block ≠ c.due then 1
  else match found with
    | none => 1
    | some (lane, ctr) => if lane ≠ c.lane then 1 else if ctr ≠ c.count then 2 else if bip then 0 else 3

/-- A marker position of a locked lane passes. -/
def markerPass (l i block : Nat) (found : Option (Nat × Nat)) (bip : Bool) (m : Mach) : Mach :=
  let x := mget (mget m.links l).lanes i
  match x.lock with
  | none => m
  | some c =>
    if block < c.due then m
    else
      let j := judge block found bip c
      let miss := if j = 0 then 0 else x.miss + 1
      let m := m |> whenB (decide (2 ≤ j)) (inc (Reg.SASH_CNT_MARKER_BAD l)) |> whenB (j == 3) (inc (Reg.SASH_CNT_BIP_ERR l))
      if miss = 4 then
        m |> modLane l i (fun x => { x with lock := none, miss := 0, cands := [] }) |> syncLanes l |> lockLost l
      else modLane l i (fun x => { x with miss := miss, lock := some { c with due := c.due + 16384, count := ctrNext c.count } }) m

/-- Marker positions passed up to a block: at most four of them before the lane's lock is lost. -/
def markerPasses (l i block : Nat) (found : Option (Nat × Nat)) (bip : Bool) : Nat → Mach → Mach
  | 0, m => m
  | n + 1, m => markerPasses l i block found bip n (markerPass l i block found bip m)

/-- Whether a link's lanes receive: it has ended equalisation. -/
def lanesOn (m : Mach) (l : Nat) : Bool :=
  linkRuns m l || ((linkState m l == 1 || linkState m l == 4) && rd m (Reg.SASH_STATUS_PHASE l) != 0)

/-- Equalisation ends, well or not. -/
def execSashEqualisationDone (l : Fin 4) (ok : Bool) (s : State) : Out := s.run (fun m =>
  if (linkState m l = 1 ∨ linkState m l = 4) ∧ rd m (Reg.SASH_STATUS_PHASE l) = 0 then
    if ok && m.serdes then wr (Reg.SASH_STATUS_PHASE l) 1 m else startAttempt l (linkState m l) m
  else m)

/-- A lane has seen 64 valid sync headers in a row. -/
def execSashBlockLock (l : Fin 4) (lane : Fin 8) (s : State) : Out := s.run (fun m =>
  if !lanesOn m l || (mget (mget m.links l).lanes lane).block then m
  else
    let m := m |> modLane l lane (fun x => { x with block := true, cands := [], lock := none, miss := 0 }) |> syncLanes l
    if rd m (Reg.SASH_LANE_LOCK_BLOCK l) = 255 ∧ rd m (Reg.SASH_STATUS_PHASE l) = 1 then wr (Reg.SASH_STATUS_PHASE l) 2 m else m)

/-- At block time `block` a lane receives a control block with one of the patterns (its logical lane and its counter), or a block
without one where a marker was due; `bip` tells whether the parity is the receiver's. -/
def execSashMarkerRx (l : Fin 4) (lane : Fin 8) (block : Nat) (found : Option (Fin 8 × BitVec 16)) (bip : Bool) (s : State) : Out :=
  s.run (fun m =>
    let x := mget (mget m.links l).lanes lane
    let found := found.map (fun f => (f.1.val, f.2.toNat))
    if !lanesOn m l || !x.block then m
    else if x.lock.isSome then markerPasses l lane block found bip 4 m
    else
      let (y, rejected) := hunt block found bip x
      let m := m |> modLane l lane (fun _ => y) |> addTo (Reg.SASH_CNT_CAND_REJECT l) rejected |> syncLanes l
      if rd m (Reg.SASH_LANE_LOCK_MARKER l) = 255 ∧ rd m (Reg.SASH_STATUS_PHASE l) = 2 then
        m |> wr (Reg.SASH_STATUS_PHASE l) 3 |> deskew l
      else m)

/-- A lane loses block lock (16 invalid sync headers within 64 blocks), and marker lock with it; or marker lock alone. -/
def execSashLockLoss (l : Fin 4) (lane : Fin 8) (block : Bool) (s : State) : Out := s.run (fun m =>
  let x := mget (mget m.links l).lanes lane
  if !x.block || (!block && x.lock.isNone) then m
  else m |> modLane l lane (fun x => { block := x.block && !block }) |> syncLanes l |> lockLost l)

/-- The scrambler's seed after a marker (R425). -/
def scramblerSeed (lane counter : Nat) : Nat := lane % 8 * 2 ^ 20 + counter % 65536 * 16 + 10

/-- One step of the additive scrambler: its next state and its output bit. -/
def scramblerStep (x : BitVec 23) : BitVec 23 × Bool :=
  let b := x.getLsbD 22 ^^ x.getLsbD 20 ^^ x.getLsbD 15 ^^ x.getLsbD 7 ^^ x.getLsbD 4 ^^ x.getLsbD 1
  ((x <<< 1) ||| (BitVec.ofBool b).setWidth 23, b)

/-- Every lane sends its marker: the pattern's bytes, the counter, the parity of what the lane has sent (a free value), and the seed its
scrambler takes. -/
def execSashMarkerTx (l : Fin 4) (s : State) : Out := s.run (fun m =>
  if linkState m l = 0 ∨ linkState m l = 5 then m
  else
    let c := (mget m.links l).marker
    m |> modLink l (fun x => { x with marker := ctrNext c })
      |> forEach (List.range 8) (fun i m =>
        let (bip, m) := draw 8 m
        emit (.marker l i [0x5A, 0x4D, 0x96, 0x3A, i * 16 + (7 - i), c % 256, c / 256, bip, scramblerSeed i c]) m))

/-! ### Hello (R434) -/

/-- A box as the peer's HELLO gives it: index, DIR, SLOTS, SLOT_BYTES, PEER_BOX. -/
abbrev HelloBox := Nat × Nat × Nat × Nat × Nat

/-- The first check that a HELLO fails: HALT_REASON, 0 none. -/
def helloCheck (m : Mach) (l group package link period : Nat) (boxes : List HelloBox) : Nat :=
  if group ≠ groupId m then 1
  else if package ≠ peerPackage m l then 2
  else if link ≠ peerLink m l then 3
  else if period * 1000 ≠ periodNs m then 4
  else if (linkBoxes m l).all (fun b => boxes.any (fun h => h.1 == b.peer && h.2.1 != b.dir && h.2.2.2.1 == b.bytes && h.2.2.2.2 == b.index))
    then 0 else 5

/-- The peer of a link has loaded a pattern: nothing that it counted stands any longer. -/
def newSession (l : Nat) (m : Mach) : Mach :=
  m |> modLink l freshLink |> dropServing l
    |> forEach (List.range 8) (fun p => modKv p (fun k => { k with seqIn := clearRange k.seqIn (8 + l * 8) (16 + l * 8) }))
    |> forEach (outboxes m l) (fun b m => m |> modBox b.index (fun x => { x with sent := [], grants := 0, next := x.used.headD x.next })
        |> syncBox b.index)
    |> forEach (inboxes m l) (fun b => modBox b.index (fun x => { x with frames := 0 }))

/-- The peer's HELLO is whole. -/
def execSashHelloRx (l : Fin 4) (group : BitVec 64) (package link : Byte) (period session : Word) (boxes : List HelloBox) (s : State) : Out :=
  s.run (fun m =>
    let st := linkState m l
    let x := mget m.links l
    if !((st == 1 || st == 4) && rd m (Reg.SASH_STATUS_PHASE l) == 4) then m
    else
      let r := helloCheck m l group.toNat package.toNat link.toNat period.toNat boxes
      if r ≠ 0 then m |> giveUp l |> setLink l 5 0 |> wr (Reg.SASH_STATUS_HALT_REASON l) r
      else
        let changed := x.known && rd m (Reg.SASH_PEER_SESSION l) != session.toNat
        let m := m |> wr (Reg.SASH_PEER_PACKAGE l) package.toNat |> wr (Reg.SASH_PEER_LINK l) link.toNat
          |> wr (Reg.SASH_PEER_SESSION l) session.toNat |> modLink l (fun x => { x with known := true })
        if changed then m |> newSession l |> becomeFenced l |> wrb (Reg.SASH_STATUS_SESSION_CHANGED l) true
        else if x.fenced then becomeFenced l m
        else becomeUp l (st == 1) m)

/-! ### Rows (R424, R426, R436) -/

/-- An IDLE row is deleted. -/
def execSashIdleRx (_l : Fin 4) (s : State) : Out := s.run id

/-- A control row of no known type, or of mixed types, or a stray data row; `frameDue` where a FRAME row was due. -/
def execSashRowInvalid (l : Fin 4) (frameDue : Bool) (s : State) : Out := s.run (fun m =>
  if !linkRuns m l then m
  else m |> inc (Reg.SASH_CNT_ROW_ERR l) |> whenB frameDue (frameBad l))

/-- Replay begins: the fifth time that no ACK has advanced, the link retrains instead (R433). -/
def replay (l : Nat) (m : Mach) : Mach :=
  let x := mget m.links l
  if x.unacked.isEmpty then m
  else if x.fails = 4 then retrain l m
  else m |> modLink l (fun x => { x with fails := x.fails + 1 }) |> sendAgain l

/-- A page's last frame is acknowledged: its temporary reference goes, and its serving ends (R437). -/
def pageAcked (l req : Nat) (m : Mach) : Mach :=
  match (mget m.links l).serving.find? (fun s => s.req == req) with
  | none => m
  | some s => m |> (fun m => (decRef s.part s.page m).2) |> endServe l req

/-- The last frame of a slot for the peer's inbox `i` is acknowledged: the outbox slot is FREE (R439). -/
def slotAcked (l i : Nat) (m : Mach) : Mach :=
  forEach ((outboxes m l).filter (fun b => b.peer == i)) (fun b m =>
    match (mget m.boxes b.index).sent with
    | [] => m
    | k :: r => m |> modBox b.index (fun x => { x with sent := r, used := x.used.filter (· != k) }) |> syncBox b.index) m

/-- What the acknowledgement of a frame sets free. -/
def frameAcked (l : Nat) (f : SFrame) (m : Mach) : Mach :=
  if f.kind = SFrame.pageData ∧ f.fields.getD 1 0 = 15 then pageAcked l (f.fields.getD 0 0) m
  else if f.kind = SFrame.slotData then
    match (outboxes m l).find? (fun b => b.peer == f.fields.getD 0 0) with
    | some b => if (f.fields.getD 1 0 + 1) * 4096 = b.bytes then slotAcked l b.peer m else m
    | none => m
  else m

/-- An ACK row: credits in rows by VC, the last frame in order, and NAK. -/
def execSashAckRx (l : Fin 4) (seq : BitVec 16) (nak : Bool) (c0 c1 c2 : Nat) (s : State) : Out := s.run (fun m =>
  if !linkRuns m l then m
  else
    let m := modLink l (fun x => { x with credits := [x.credits.getD 0 0 + c0, x.credits.getD 1 0 + c1, x.credits.getD 2 0 + c2] }) m
    let x := mget m.links l
    let m := if x.unacked.any (fun f => f.seq == seq.toNat) then
        let n := (x.unacked.takeWhile (fun f => f.seq != seq.toNat)).length + 1
        m |> modLink l (fun x => { x with unacked := x.unacked.drop n, fails := 0, ackAt := now m })
          |> forEach (x.unacked.take n) (frameAcked l)
      else m
    m |> whenB nak (replay l) |> pump l |> forEach (List.range 8) takeNext)

/-- An ACK row is sent. -/
def execSashAckTx (l : Fin 4) (s : State) : Out := s.run (fun m => if linkRuns m l then ackRow l m else m)

/-- 20 µs have passed with frames outstanding and no ACK that advanced. -/
def execSashReplayTimeout (l : Fin 4) (s : State) : Out := s.run (fun m =>
  let x := mget m.links l
  if linkRuns m l && !x.unacked.isEmpty && decide (x.ackAt + 20000 ≤ now m) then replay l m else m)

/-- RETRAIN_LIMIT_MS has passed. -/
def execSashRetrainTimeout (l : Fin 4) (s : State) : Out := s.run (fun m =>
  if (linkState m l = 1 ∨ linkState m l = 4) ∧ (mget m.links l).attemptAt + retrainLimitNs m ≤ now m then dropLink l m else m)

/-! ### Frames received (R435 to R440) -/

/-- A frame with a bad CRC, or with a VC or a KIND of no meaning. -/
def execSashFrameBad (l : Fin 4) (s : State) : Out := s.run (fun m => if linkRuns m l then frameBad l m else m)

def execSashFrameRefMsg (l : Fin 4) (seq : BitVec 16) (src dest : Fin 8) (add : Bool) (page epoch msgSeq : Nat) (s : State) : Out :=
  s.run (frameRx l 0 seq.toNat 0 (fun _ => true)
    (incoming dest (.ref (8 + l * 8 + src) { inc := add, seq := msgSeq, page := page, epoch := epoch })))

def execSashFrameRefAck (l : Fin 4) (seq : BitVec 16) (src dest : Fin 8) (msgSeq : Nat) (gone : Bool) (s : State) : Out :=
  s.run (frameRx l 0 seq.toNat 0 (fun _ => true) (fun m =>
    m |> ackRef src (peerPackage m l * 8 + dest) msgSeq gone |> takeNext src))

def execSashFramePageReq (l : Fin 4) (seq : BitVec 16) (p : Fin 8) (page epoch req : Nat) (s : State) : Out :=
  s.run (frameRx l 1 seq.toNat 0 (fun _ => true) (fun m =>
    let q : Serve := { req := req, part := p, page := page, epoch := epoch }
    if (mget m.links l).serving.length < 32 then
      m |> modLink l (fun x => { x with serving := x.serving ++ [q] }) |> incoming p (.page l req page epoch)
    else modLink l (fun x => { x with waiting := x.waiting ++ [q] }) m))

/-- The read that a request number names on a link, unless the link has lost it. -/
def readOf (m : Mach) (l req : Nat) : Option KvRead := (mget m.kvs (req % 8)).reads.find? (fun r => r.req == req && r.link == l && !r.lost)

/-- A frame of a page goes into the mirror; the page is resident once all 16 have. -/
def execSashFramePageData (l : Fin 4) (seq : BitVec 16) (req : Nat) (index : Fin 16) (data : List Byte) (s : State) : Out :=
  s.run (frameRx l 1 seq.toNat 4096 (fun _ => true) (fun m =>
    let p := req % 8
    match readOf m l req with
    | none => m
    | some r =>
      let m := m |> hbmWrite (kvPage m p r.mirror + 4096 * index) (padTo 4096 data)
        |> modKv p (fun k => { k with reads := k.reads.map (fun x => if x.req = req then { x with frames := x.frames + 1 } else x) })
      if r.frames + 1 = 16 then readEnd p req none m else m))

def execSashFramePageGone (l : Fin 4) (seq : BitVec 16) (req : Nat) (s : State) : Out :=
  s.run (frameRx l 1 seq.toNat 0 (fun _ => true) (fun m =>
    if (readOf m l req).isSome then readEnd (req % 8) req (some Kvr.gone) m else m))

def execSashFramePageErr (l : Fin 4) (seq : BitVec 16) (req : Nat) (s : State) : Out :=
  s.run (frameRx l 1 seq.toNat 0 (fun _ => true) (fun m =>
    if (readOf m l req).isSome then readEnd (req % 8) req (some Kvr.dataEcc) m else m))

/-- The next FREE slot of an inbox in ring order. -/
def freeInSlot (m : Mach) (b : BoxCfg) : Option Nat :=
  let x := mget m.boxes b.index
  ((List.range b.slots).map (fun k => (x.next + k) % b.slots)).find? (fun k => !x.used.contains k)

/-- A frame of a slot is written into the inbox slot that is being received; the last one makes it ARRIVED. -/
def slotFrame (i : Nat) (data : List Byte) (m : Mach) : Mach :=
  let b := boxAt m i
  let x := mget m.boxes i
  match freeInSlot m b with
  | none => m
  | some k =>
    let m := hbmWrite (b.base + k * b.bytes + 4096 * x.frames) (padTo 4096 data) m
    if (x.frames + 1) * 4096 < b.bytes then modBox i (fun x => { x with frames := x.frames + 1 }) m
    else m |> modBox i (fun x => { x with used := x.used ++ [k], next := (k + 1) % b.slots, frames := 0 })
      |> inc (Reg.SASH_CNT_SLOTS_RECV b.link) |> wr (Reg.TC_SASH_BOX_TOTAL b.part i) (rd m (Reg.TC_SASH_BOX_TOTAL b.part i) + 1) |> syncBox i

/-- Whether box `i` is a box of link `l` in a direction. -/
def boxOn (m : Mach) (l i dir : Nat) : Bool := (linkBoxes m l).any (fun b => b.index == i && b.dir == dir)

/-- Frame `index` of the slot being sent to inbox `box`. One that fits no inbox, or no slot, has bad fields. -/
def execSashFrameSlotData (l : Fin 4) (seq : BitVec 16) (box : Nat) (index : Nat) (data : List Byte) (s : State) : Out :=
  s.run (frameRx l 2 seq.toNat 4096
    (fun m => boxOn m l box 1 && (mget m.boxes box).frames == index && (freeInSlot m (boxAt m box)).isSome)
    (slotFrame box data))

def execSashFrameSlotFree (l : Fin 4) (seq : BitVec 16) (box : Nat) (s : State) : Out :=
  s.run (frameRx l 2 seq.toNat 0 (fun m => boxOn m l box 0) (modBox box (fun x => { x with grants := x.grants + 1 })))

/-! ### Slots sent (R439) -/

/-- The link reads the oldest POSTED slot of an outbox that it has not sent, verifies its trailer and sends it. -/
def execSashSlotSend (l : Fin 4) (box : Fin 32) (s : State) : Out := s.run (fun m =>
  let b := boxAt m box
  let x := mget m.boxes box
  match x.used.find? (fun k => !x.sent.contains k) with
  | none => m
  | some k =>
    if linkState m l ≠ 2 ∨ !boxOn m l box 0 ∨ x.grants = 0 then m
    else
      let a := b.base + k * b.bytes
      let bs := readMem m a b.bytes
      let (v, m) := hbmVerdict {} a b.bytes m
      if v ≠ 0 ∨ le bs (b.bytes - 4) 4 ≠ crc32c (bs.take (b.bytes - 4)) then
        m |> modBox box (fun x => { x with used := x.used.filter (· != k), next := (k + 1) % b.slots }) |> syncBox box
          |> inc (Reg.SASH_CNT_BAD_POST l) |> sashErr l
      else
        m |> modBox box (fun x => { x with sent := x.sent ++ [k], grants := x.grants - 1, next := (k + 1) % b.slots }) |> syncBox box
          |> inc (Reg.SASH_CNT_SLOTS_SENT l) |> wr (Reg.TC_SASH_BOX_TOTAL b.part box) (rd m (Reg.TC_SASH_BOX_TOTAL b.part box) + 1)
          |> forEach (List.range (b.bytes / 4096)) (fun i =>
            sendFrame l { vc := 2, kind := SFrame.slotData, fields := [b.peer, i], data := slice bs (4096 * i) 4096 }))

/-! ### Turn alignment (R441, R442) -/

/-- TURN rows of a grid tick. -/
def turnRows (m : Mach) : Mach :=
  forEach (List.range 4) (fun l m =>
    if linkRuns m l then emit (.sashRow l rowTurn [gridTurn m, m.time.lastTick, tq m]) m else m) m

/-- A signed number held to ±0x7FFF_FFFF. -/
def satNs (i : Int) : Int := max (-0x7FFFFFFF) (min 0x7FFFFFFF i)

/-- A TURN row arrives: the peer's turn number, and the time of its grid tick. -/
def execSashTurnRx (l : Fin 4) (turn : Word) (time arrival : Nat) (s : State) : Out := s.run (fun m =>
  if !linkRuns m l || !rdb m Reg.TIME_TURN_STATUS_RUNNING then m
  else
    let a : Int := (arrival : Int) - rd m (Reg.SASH_LINK_DELAY l)
    let k : Int := (2 * (a - m.time.lastTick) + periodNs m) / (2 * periodNs m)
    let g : Int := m.time.lastTick + k * periodNs m
    let skew := satNs (a - g)
    let off := fieldOf 32 ((turn.toNat : Int) - (gridTurn m + k))
    let above := decide ((skewLimitNs m : Int) < skew.natAbs)
    let m := m |> wri (Reg.SASH_TURN_SKEW l) skew |> wri (Reg.SASH_TIME_DIFF l) (satNs ((time : Int) - g))
      |> wr (Reg.SASH_TURN_OFFSET l) off |> forEach (List.range 8) (fun p => wr (Reg.TC_SASH_TURN_OFFSET p l) off)
    if above && !rdb m (Reg.SASH_STATUS_SKEW_ALARM l) then
      m |> wrb (Reg.SASH_STATUS_SKEW_ALARM l) true |> wrb (Reg.SASH_STATUS_SKEW_EVENT l) true |> sashErr l
    else wrb (Reg.SASH_STATUS_SKEW_ALARM l) above m)

/-- A DELAY exchange begins, 125 ms after the last. -/
def execSashDelayTx (l : Fin 4) (s : State) : Out := s.run (fun m =>
  if linkRuns m l && decide ((mget m.links l).delayAt + 125000000 ≤ now m) then
    m |> modLink l (fun x => { x with delayT1 := some (now m), delayAt := now m }) |> emit (.sashRow l rowDelay [0, now m])
  else m)

/-- A DELAY row arrives at `arrival`: a request, sent at `t1`, is answered with its stamps; an answer to ours gives the delay. -/
def execSashDelayRx (l : Fin 4) (answer : Bool) (t1 t2 t3 arrival : Nat) (s : State) : Out := s.run (fun m =>
  if !linkRuns m l then m
  else if !answer then emit (.sashRow l rowDelay [1, t1, arrival, now m]) m
  else if (mget m.links l).delayT1 ≠ some t1 then m
  else
    m |> modLink l (fun x => { x with delayT1 := none })
      |> wri (Reg.SASH_LINK_DELAY l) ((((arrival : Int) - t1) - ((t3 : Int) - t2)) / 2))

/-! ### SASH_CTRL (R445) -/

/-- RETRAIN: an UP or FENCED link retrains, and HALTED is left for TRAINING. -/
def execSashRetrain (who : Requester) (l : Fin 4) (s : State) : Out :=
  s.run (regWrite who (Reg.SASH_CTRL_RETRAIN l) .pfHcMi (fun m =>
    if linkState m l = 5 then m |> wr (Reg.SASH_STATUS_HALT_REASON l) 0 |> startTraining l else retrain l m))

/-- UNFENCE: a FENCED link becomes UP. -/
def execSashUnfence (who : Requester) (l : Fin 4) (s : State) : Out :=
  s.run (regWrite who (Reg.SASH_CTRL_UNFENCE l) .pfHcMi (fun m => if linkState m l = 3 then becomeUp l true m else m))

/-- HOLD: 1 keeps the link DISABLED, 0 lets an enabled one train. -/
def execSashHoldWrite (who : Requester) (l : Fin 4) (v : Bool) (s : State) : Out :=
  s.run (regWrite who (Reg.SASH_CTRL_HOLD l) .pfHcMi (fun m =>
    let m := wrb (Reg.SASH_CTRL_HOLD l) v m
    if v then
      if linkState m l = 0 then m
      else m |> giveUp l |> setLink l 0 0 |> wr (Reg.SASH_STATUS_HALT_REASON l) 0
    else if linkState m l = 0 ∧ applied m ∧ linkEnabled m l ∧ rd m Reg.PAT_STATUS_LIFECYCLE ≠ 2 then startTraining l m
    else m))

end Sys2Proof.Machine
end

