-- ==== Sys2Proof/Machine/Host.lean ====
section
/-!
DEFINITION. The host interface: ring control and indices (R550 to R554), descriptors, host DMA and NVMe (R555 to R569), placement of
records (R556, R561, R563), resets of functions (R574 to R578), and the PCIe link (R545 to R547, R679, R685).
-/

namespace Sys2Proof.Machine

/-! ### Ring control (R551, R554) -/

/-- A queue context that the HOST section has; any other follows R13 (R583). -/
def hasQueue (m : Mach) (q : Nat) : Bool := (queueEntry m q).isSome

/-- Whether bytes lie in one region that an owner may write. -/
def inWritable (m : Mach) (owner a n : Nat) : Bool :=
  (regions m).any (fun r => r.owner == owner && bitOf r.access 1 && within a n r.base r.bytes)

/-- The checks of R551: 0, or the code of the first that fails. -/
def enableError (m : Mach) (q : Nat) : Nat :=
  let k := rd m (Reg.HOST_Q_CTRL_SIZE_LOG2 q)
  let base := rd m (Reg.HOST_Q_BASE q)
  let pay := rd m (Reg.HOST_Q_PAY q)
  let o := qOwner m q
  let hbm := qInHbm m q
  let vec := rd m (Reg.HOST_Q_IRQ_VECTOR q)
  if k < 4 ∨ 16 < k then 1
  else if base % 4096 ≠ 0 ∨ (hbm && !inWritable m o base (64 * 2 ^ k + 64)) then 2
  else if qKind m q = 1 ∧ qPaySlot m q ≠ 0 ∧ (pay % 64 ≠ 0 ∨ (hbm && !inWritable m o pay (2 ^ k * qPaySlot m q))) then 2
  else if (if o = 0x41 then 16 else if o = 1 then 2048 else 64) ≤ vec then 3
  else 0

/-- A ring's indices and counters start again, and its index block is zero. -/
def startRing (q : Nat) (m : Mach) : Mach :=
  let k := rd m (Reg.HOST_Q_CTRL_SIZE_LOG2 q)
  let base := rd m (Reg.HOST_Q_BASE q)
  m |> modRing q (fun _ => { k := k, base := base, pay := rd m (Reg.HOST_Q_PAY q) })
    |> wrb (Reg.HOST_Q_CTRL_ENABLE q) true |> wr (Reg.HOST_Q_STATUS_STATE q) 1 |> wr (Reg.HOST_Q_STATUS_ERROR q) 0
    |> wr (Reg.HOST_Q_PROD q) 0 |> wr (Reg.HOST_Q_CONS q) 0 |> wr (Reg.HOST_Q_SPILL_USED q) 0
    |> wr (Reg.HOST_Q_CNT_NOT_OPENED q) 0 |> wr (Reg.HOST_Q_CNT_PLACED q) 0
    |> whenB (reachable m q) (ringWrite q (base + 64 * 2 ^ k) (zeros 64))

/-- A write of HOST_Q_CTRL with ENABLE 1: it acts on a DISABLED ring. -/
def execQueueEnable (who : Requester) (q : Nat) (v : Word) (s : State) : Out :=
  s.run (regWrite who (Reg.HOST_Q_CTRL_ENABLE q) .queueOwner (fun m =>
    if !hasQueue m q ∨ !v.getLsbD 0 then m
    else
      let m := wr (Reg.HOST_Q_CTRL_SIZE_LOG2 q) (bitsAt v.toNat 1 5) m
      if qState m q ≠ 0 then m
      else
        let e := enableError m q
        if e = 0 then startRing q m else wr (Reg.HOST_Q_STATUS_ERROR q) e m))

/-- A write of HOST_Q_CTRL with ENABLE 0: a ring drains, and one in ERROR is DISABLED with its reservations kept. -/
def execQueueDisable (who : Requester) (q : Nat) (v : Word) (s : State) : Out :=
  s.run (regWrite who (Reg.HOST_Q_CTRL_ENABLE q) .queueOwner (fun m =>
    if !hasQueue m q ∨ v.getLsbD 0 then m
    else
      let m := m |> wr (Reg.HOST_Q_CTRL_SIZE_LOG2 q) (bitsAt v.toNat 1 5) |> wrb (Reg.HOST_Q_CTRL_ENABLE q) false
      let st := qState m q
      if qKind m q = 2 then
        if st = 1 ∨ st = 3 then m |> wr (Reg.HOST_Q_STATUS_STATE q) 2 |> drainSubmit q else m
      else if st = 3 then wr (Reg.HOST_Q_STATUS_STATE q) 0 m
      else if st = 1 then
        wr (Reg.HOST_Q_STATUS_STATE q)
          (if rd m (Reg.HOST_Q_STATUS_RESERVED q) = 0 ∧ (mget m.rings q).spill.isEmpty then 0 else 2) m
      else m))

/-! ### Placement (R552, R553, R556, R561, R563, R575) -/

/-- The final record of an item or a descriptor whose ring cannot take it: a HOST_IF record with the decided status. -/
def strandedRec (e : HostEvent) (r : Rec) (m : Mach) : Mach :=
  m |> hostIf e (qOwner m r.queue) r.queue 0 r.descTag r.fixed.status.code r.tag
    |> whenB (e == .resetVf) (inc Reg.HOST_CNT_RESET_VF)

/-- Write a record with its payload at the next index of its ring. -/
def writeRec (r : Rec) (m : Mach) : Mach :=
  let q := r.queue
  let i := rd m (Reg.HOST_Q_PROD q)
  let x := mget m.rings q
  let a := x.pay + i % 2 ^ x.k * qPaySlot m q
  m |> whenB (!r.fixed.payload.isEmpty) (ringWrite q a r.fixed.payload) |> ringPut q (r.bytes r.spilled a i)

def syncSpill (q : Nat) (m : Mach) : Mach := wr (Reg.HOST_Q_SPILL_USED q) (mget m.rings q).spill.length m

/-- A ring whose owner's Bus Master Enable is 0 moves to ERROR, and what its spill holds becomes HOST_IF records. -/
def ringLost (q : Nat) (m : Mach) : Mach :=
  let l := (mget m.rings q).spill
  m |> wr (Reg.HOST_Q_STATUS_STATE q) 3 |> wr (Reg.HOST_Q_STATUS_ERROR q) 5
    |> modRing q (fun x => { x with lost := true, spill := [] }) |> syncSpill q |> forEach l (strandedRec .ringUnreachable)

/-- Spilled records move into the ring while it has free entries, oldest first. -/
def unspill (q : Nat) : Nat → Mach → Mach
  | 0, m => m
  | n + 1, m =>
    match (mget m.rings q).spill with
    | [] => m
    | r :: rest =>
      if qSize m q ≤ qHeld m q then m
      else if !reachable m q then ringLost q m
      else
        let m := m |> modRing q (fun x => { x with spill := rest }) |> syncSpill q |> writeRec r
        let m := if qState m q = 2 ∧ rest.isEmpty ∧ rd m (Reg.HOST_Q_STATUS_RESERVED q) = 0 then wr (Reg.HOST_Q_STATUS_STATE q) 0 m else m
        unspill q n m

/-- A decided record reaches its ring. -/
def placeRec (r : Rec) (m : Mach) : Mach :=
  let q := r.queue
  if r.orphan then m |> strandedRec .resetVf r |> unreserve q
  else if (mget m.rings q).lost then m |> strandedRec .ringUnreachable r |> unreserve q
  else if !(mget m.rings q).spill.isEmpty ∨ qSize m q ≤ qHeld m q then
    m |> modRing q (fun x => { x with spill := x.spill ++ [{ r with spilled := true }] }) |> syncSpill q |> unreserve q
  else if !reachable m q then m |> ringLost q |> strandedRec .ringUnreachable r |> unreserve q
  else m |> writeRec r |> unreserve q

/-- A failed verdict at seam 12 (R239). -/
def seam12 (r : Rec) (m : Mach) : Mach :=
  m |> logErr { path := pathGroup m 16, source := 0x50, seam := 12, tag := r.tag }
    |> seamLast (strPart (streamEntry m (tagStream r.tag))) 12 0 true r.tag

/-- The first decided record of a ring, and the decided records without it. -/
def takeDecided (q : Nat) : List Rec → Option (Rec × List Rec)
  | [] => none
  | r :: l => if r.queue = q then some (r, l) else (takeDecided q l).map (fun x => (x.1, r :: x.2))

/-- Whether a placement would write to a channel in self-refresh (R462). -/
def ringHeld (m : Mach) (q : Nat) : Bool :=
  let x := mget m.rings q
  qInHbm m q && (inRefresh m (x.base + rd m (Reg.HOST_Q_PROD q) % 2 ^ x.k * 64) 64 || inRefresh m (x.base + 2 ^ x.k * 64) 4)

/-- The oldest decided record of ring `q` is placed; the payload CRC of an item's record fails `fails` times at seam 12. -/
def execRecordPlace (q : Nat) (fails : Fin 3) (s : State) : Out := s.run (fun m =>
  match takeDecided q m.decided with
  | none => m
  | some (r, rest) =>
    if ringHeld m q then m
    else
      let n := if r.kind = 0 ∧ !r.fixed.payload.isEmpty then fails.val else 0
      let m := { m with decided := rest } |> forEach (List.range n) (fun _ => seam12 r)
      let r := if n = 2 then { r with fixed := { r.fixed with status := .failedFault, reason := Reason.seam, payload := [] } } else r
      let m := placeRec r m
      if r.kind = 0 then decidePending r.tag (r.fixed.status == .ok || r.fixed.status == .late) m else m)

/-- TIME µs have passed since a ring's first placement that it has not signalled (R566). -/
def execMsixCoalesceTimeout (q : Nat) (s : State) : Out := s.run (fun m =>
  match (mget m.rings q).firstPlaced with
  | none => m
  | some t =>
    if rdb m (Reg.HOST_Q_IRQ_IRQ_EN q) ∧ t + 1000 * rd m (Reg.HOST_Q_IRQ_TIME q) ≤ now m then ringSignal q m else m)

/-! ### Indices (R550) -/

/-- A write of an index that breaks R550. -/
def badIndex (who : Requester) (q : Nat) (v : Word) (m : Mach) : Mach :=
  m |> wrb (Reg.HOST_Q_STATUS_BAD_INDEX q) true |> hostIf .badIndex (reqCode who) q v.toNat 0 0 0

/-- The distance of an index from CONS. -/
def fromCons (m : Mach) (q : Nat) (v : Word) : Nat := (v.toNat + 2 ^ 32 - rd m (Reg.HOST_Q_CONS q)) % 2 ^ 32

/-- The owner writes PROD of a SUBMIT ring. -/
def execSubmitDoorbell (who : Requester) (q : Nat) (v : Word) (s : State) : Out :=
  s.run (regWrite who (Reg.HOST_Q_PROD q) .queueOwner (fun m =>
    if !hasQueue m q ∨ qKind m q ≠ 2 ∨ qState m q = 0 then m
    else if qHeld m q ≤ fromCons m q v ∧ fromCons m q v ≤ qSize m q then wr (Reg.HOST_Q_PROD q) v.toNat m
    else badIndex who q v m))

/-- The consumer writes CONS of an out-going ring. -/
def execConsumerIndexWrite (who : Requester) (q : Nat) (v : Word) (s : State) : Out :=
  s.run (regWrite who (Reg.HOST_Q_CONS q) .queueOwner (fun m =>
    if !hasQueue m q ∨ qKind m q = 2 ∨ qState m q = 0 then m
    else if fromCons m q v ≤ qHeld m q then
      let m := wr (Reg.HOST_Q_CONS q) v.toNat m
      unspill q (mget m.rings q).spill.length m
    else badIndex who q v m))

/-! ### Descriptors (R554, R555, R558, R559) -/

/-- Read a descriptor (R558). -/
def readDesc (q i : Nat) (b : List Byte) : Desc :=
  { ring := q, index := i, opcode := le b 0 1, flags := le b 1 1, tag := le b 4 4, a := le b 8 8, b := le b 0x10 8,
    bytes := le b 0x18 4, c := le b 0x1C 4,
    reserved := decide (2 ≤ le b 1 1) || le b 2 2 != 0 || le b 0x1B 1 != 0 || (slice b 0x20 0x20).any (· != 0) }

def qWork (m : Mach) (q : Nat) : Bool := rdb m (Reg.HOST_Q_CFG_WORK q)
def qStorage (m : Mach) (q : Nat) : Bool := rdb m (Reg.HOST_Q_CFG_STORAGE q)

/-- Descriptors on their way to a partition's WORK FIFO, and those in it. -/
def workCount (m : Mach) (p : Nat) : Nat :=
  (mget m.recov p).work.length +
    (m.rings.map (fun r => (r.2.fetched.filter (fun d => d.opcode == 4 && !d.started && qWork m r.1 &&
      rd m (Reg.HOST_Q_CFG_PARTITION r.1) == p)).length)).sum

/-- A SUBMIT ring may fetch its next descriptor (R553, R555, R594). -/
def mayFetch (m : Mach) (q : Nat) : Bool :=
  qKind m q == 2 && qState m q == 1 && decide (qHeld m q ≠ 0) && reachable m q && canReserve m (qCompletion m q) &&
    (!qWork m q || decide (workCount m (rd m (Reg.HOST_Q_CFG_PARTITION q)) < 64))

/-- A descriptor read fails: the ring moves to ERROR. -/
def fetchError (q : Nat) (m : Mach) : Mach :=
  m |> wr (Reg.HOST_Q_STATUS_STATE q) 3 |> wr (Reg.HOST_Q_STATUS_ERROR q) 4
    |> hostIf .queueError (qOwner m q) q (rd m (Reg.HOST_Q_CONS q)) 0 0 0

/-- The queue manager fetches a ring's next descriptor; `host` is what the owner's memory answers for LOCATION 0. -/
def execDescriptorFetch (q : Nat) (host : List Byte) (s : State) : Out := s.run (fun m =>
  if !mayFetch m q then m
  else
    let x := mget m.rings q
    let i := rd m (Reg.HOST_Q_CONS q)
    let a := x.base + i % 2 ^ x.k * 64
    if qInHbm m q ∧ inRefresh m a 64 then m
    else
      let b := if qInHbm m q then readMem m a 64 else padTo 64 host
      let (bad, m) := if qInHbm m q then hbmVerdict {} a 64 m else (0, m)
      if bad ≠ 0 then fetchError q m
      else m |> reserve (qCompletion m q) |> modRing q (fun x => { x with fetched := x.fetched ++ [readDesc q i b] })
        |> wr (Reg.HOST_Q_CONS q) (i + 1) |> ringWrite q (x.base + 2 ^ x.k * 64) (leBytes 4 ((i + 1) % 2 ^ 32)))

def execDescriptorReadError (q : Nat) (s : State) : Out := s.run (fun m => if mayFetch m q then fetchError q m else m)

/-- The descriptor of a ring that may start: a WORK behind others that are in its FIFO, any other behind none (R560, FENCE). -/
def nextDesc (m : Mach) (q : Nat) : Option Desc :=
  let l := (mget m.rings q).fetched
  match l.dropWhile (·.started) with
  | [] => none
  | d :: _ =>
    let first := l.all (fun x => !x.started)
    if first || (d.opcode == 4 && !bitOf d.flags 0 && l.all (fun x => !x.started || x.opcode == 4)) then some d else none

/-- Change a fetched descriptor. -/
def modDesc (d : Desc) (f : Desc → Desc) (m : Mach) : Mach :=
  modRing d.ring (fun x => { x with fetched := x.fetched.map (fun y => if y.index = d.index then f y else y) }) m

/-- Whether an opcode may stand in a ring (R559). -/
def opAllowed (m : Mach) (q op : Nat) : Bool :=
  if op = 1 ∨ op = 2 then decide (qOwner m q ≤ 0x40)
  else if op = 3 ∨ op = 5 then true
  else if op = 4 then qWork m q
  else if 6 ≤ op ∧ op ≤ 8 then qStorage m q
  else false

/-- Fields that R559 wants zero are zero, and those of WORK are in range. -/
def fieldsOk (d : Desc) : Bool :=
  match d.opcode with
  | 1 => d.c == 0
  | 2 => d.c == 0
  | 3 => d.c == 0
  | 4 => d.b == 0 && bitsAt d.c 10 6 == 0 && bitsAt d.c 8 2 != 3 && bitsAt d.c 16 16 != 0
  | 5 => d.a == 0 && d.b == 0 && d.c == 0
  | 8 => d.a == 0 && d.b == 0
  | _ => true

/-- The HBM ranges of a descriptor: first byte, and whether it is written. -/
def descRanges (d : Desc) : List (Nat × Bool) :=
  match d.opcode with
  | 1 => [(d.b, true)]
  | 2 => [(d.b, false)]
  | 3 => [(d.a, true), (d.b, false)]
  | 4 => [(d.a, false)]
  | 6 => [(d.b, true)]
  | 7 => [(d.b, false)]
  | _ => []

/-- The checks of R559 in order, but ROLE: the reason of the first that fails. -/
def descError (m : Mach) (d : Desc) : Option Nat :=
  if d.reserved || !opAllowed m d.ring d.opcode || !fieldsOk d then some Reason.badDesc
  else if (d.bytes == 0 && d.opcode != 5 && d.opcode != 8) || (d.opcode == 8 && d.bytes != 0) then some Reason.badLength
  else if (descRanges d).any (fun r => !rangeOk m (qOwner m d.ring) r.1 d.bytes r.2) then some Reason.bounds
  else none

/-- Whether a role refuses a class of WORK. -/
def roleRefuses (role cls : Nat) : Bool :=
  if role = 0 then true else if cls = 1 then role != 2 else if cls = 2 then role != 3 else decide (4 < role)

/-- Start a ring's next descriptor if its opcode is `op`: it fails by R559, or `act` takes it. -/
def startDesc (q op : Nat) (act : Desc → Mach → Mach) (m : Mach) : Mach :=
  match nextDesc m q with
  | none => m
  | some d =>
    if d.opcode ≠ op then m
    else match descError m d with
      | some r => completeDesc d .failedData r m
      | none => act d m

/-- Descriptors that host DMA engines execute. -/
def dmaBusy (m : Mach) : Nat :=
  (m.rings.map (fun r => (r.2.fetched.filter (fun d => d.started && decide (1 ≤ d.opcode) && decide (d.opcode ≤ 3))).length)).sum

/-- A copy takes one of the eight host DMA engines. -/
def startCopy (d : Desc) (m : Mach) : Mach :=
  if 8 ≤ dmaBusy m then m else modDesc d (fun x => { x with started := true }) m

def execDescCopyIn (q : Nat) (s : State) : Out := s.run (startDesc q 1 startCopy)
def execDescCopyOut (q : Nat) (s : State) : Out := s.run (startDesc q 2 startCopy)
def execDescCopyHbm (q : Nat) (s : State) : Out := s.run (startDesc q 3 startCopy)
def execDescNop (q : Nat) (s : State) : Out := s.run (startDesc q 5 (completeDesc · .ok 0))

/-- Delivery of a WORK descriptor (R559, R594). -/
def startWork (d : Desc) (m : Mach) : Mach :=
  let p := rd m (Reg.HOST_Q_CFG_PARTITION d.ring)
  if roleRefuses (partRole m p) (bitsAt d.c 8 2) then completeDesc d .failedData Reason.role m
  else match (routineAt m p (d.c % 256)).filter (fun r => r.cls != 0 && schedMode m p != 0) with
    | none => completeDesc d .failedData Reason.badDesc m
    | some _ =>
      if 64 ≤ (mget m.recov p).work.length then m
      else m |> modDesc d (fun x => { x with started := true })
        |> modRecov p (fun r => { r with work := r.work ++ [{ d with started := true }] }) |> syncSched p

def execWork (q : Nat) (s : State) : Out := s.run (startDesc q 4 startWork)

/-- A reserved opcode. -/
def execDescReserved (q : Nat) (s : State) : Out := s.run (fun m =>
  match nextDesc m q with
  | some d => if d.opcode = 0 ∨ 9 ≤ d.opcode then completeDesc d .failedData Reason.badDesc m else m
  | none => m)

/-! ### Host DMA (R560) -/

/-- A burst of an executing copy: 4,096 bytes, or the rest. `data` is what the owner's memory answers to a COPY_IN, none for an
error. A word that fails in HBM is written onward as poison. -/
def moveBurst (d : Desc) (data : Option (List Byte)) (m : Mach) : Option Mach :=
  let n := min 4096 (d.bytes - d.done)
  let src := d.b + d.done
  let step (m : Mach) : Mach := modDesc d (fun x => { x with done := x.done + n }) m
  match d.opcode with
  | 1 => data.map (fun bs => m |> hbmWrite src (padTo n bs) |> step)
  | 2 =>
    let m := (hbmVerdict {} src n m).2
    some (m |> emit (.busWrite (qOwner m d.ring) (d.a + d.done) (readMem m src n)) |> step)
  | _ =>
    let bad := damaged m src n
    let m := (hbmVerdict {} src n m).2
    some (m |> hbmWrite (d.a + d.done) (readMem m src n)
      |> forEach bad (fun c => forEach [c.1 * 8, c.1 * 8 + 31] (fun x =>
          if src ≤ x ∧ x < src + n then poisonWord ((x - src + d.a + d.done) / 32 * 4) else id))
      |> step)

/-- The HBM ranges of a copy's next burst. -/
def burstHeld (m : Mach) (d : Desc) : Bool :=
  let n := min 4096 (d.bytes - d.done)
  inRefresh m (d.b + d.done) n || (d.opcode == 3 && inRefresh m (d.a + d.done) n)

/-- The burst of ring `q`'s copy ends. -/
def execHostDmaBurstComplete (q : Nat) (data : Option (List Byte)) (s : State) : Out := s.run (fun m =>
  match (mget m.rings q).fetched.find? (fun d => d.started && decide (1 ≤ d.opcode) && decide (d.opcode ≤ 3)) with
  | none => m
  | some d =>
    if burstHeld m d then m
    else
      let io := d.opcode ≠ 3 ∧ !busMaster m (qOwner m q)
      match (if io then none else moveBurst d data m) with
      | none => completeDesc d .failedFault Reason.hostIo m
      | some m => if d.bytes ≤ d.done + 4096 then completeDesc d .ok 0 m else m)

/-! ### NVMe (R567 to R569) -/

def nvmeReady (m : Mach) : Bool := rdb m Reg.HOST_STATUS_NVME_READY

/-- The engine issues up to `k` more commands of a descriptor, each of at most 128 KiB. -/
def nvmeIssue (lba : Nat) (d : Desc) : Nat → Mach → Mach
  | 0, m => m
  | k + 1, m =>
    let n := min 131072 (d.bytes - d.nvmeNext)
    if n = 0 ∧ d.opcode ≠ 8 ∨ d.nvmeBad then m
    else
      let d' := { d with started := true, nvmeNext := d.nvmeNext + n, nvmeOpen := d.nvmeOpen ++ [(d.nvmeNext, n)] }
      let m := m |> emit (.nvme d.opcode d.c (if d.opcode = 8 then 0 else d.a + d.nvmeNext / lba) (n / lba) (d.b + d.nvmeNext))
        |> modDesc d (fun _ => d')
      if d.opcode = 8 then m else nvmeIssue lba d' k m

/-- An NVMe descriptor starts; `lba` is the LBA size of its namespace, none where the engine refuses the namespace, and `k` counts the
commands that the engine issues at once behind the first. -/
def nvmeStart (lba : Option Nat) (k : Nat) (d : Desc) (m : Mach) : Mach :=
  if !nvmeReady m then completeDesc d .failedFault Reason.noStorage m
  else match lba.filter (fun n => n == 512 || n == 4096) with
    | none => completeDesc d .failedData Reason.nvmeError m
    | some n => if d.bytes % n ≠ 0 then completeDesc d .failedData Reason.badLength m else nvmeIssue n d (k + 1) m

def execDescNvmeRead (q : Nat) (lba : Option Nat) (k : Nat) (s : State) : Out := s.run (startDesc q 6 (nvmeStart lba k))
def execDescNvmeWrite (q : Nat) (lba : Option Nat) (k : Nat) (s : State) : Out := s.run (startDesc q 7 (nvmeStart lba k))
def execDescNvmeFlush (q : Nat) (lba : Option Nat) (s : State) : Out := s.run (startDesc q 8 (nvmeStart lba 0))

/-- A command of ring `q`'s descriptor completes: the one at byte offset `off`, with an NVMe status, the data of a read, and the
number of commands that the engine issues behind it. -/
def execNvmeCommandComplete (q off : Nat) (status : BitVec 15) (data : List Byte) (lba k : Nat) (s : State) : Out := s.run (fun m =>
  match (mget m.rings q).fetched.find? (fun d => d.started && decide (6 ≤ d.opcode)) with
  | none => m
  | some d =>
    match d.nvmeOpen.find? (fun x => x.1 == off) with
    | none => m
    | some (o, n) =>
      if d.opcode ≠ 8 ∧ inRefresh m (d.b + o) n then m
      else
        let d := { d with nvmeOpen := dropFirst (fun x => x.1 == off) d.nvmeOpen }
        let d := if status = 0 ∨ d.nvmeBad then d else { d with nvmeBad := true, nvmeStatus := status.toNat }
        let m := m |> whenB (d.opcode == 6 && status == 0) (hbmWrite (d.b + o) (padTo n data)) |> modDesc d (fun _ => d)
        let m := nvmeIssue (max 1 lba) d (if d.opcode = 8 then 0 else k) m
        match (mget m.rings q).fetched.find? (fun x => x.index == d.index) with
        | none => m
        | some d =>
          if !d.nvmeOpen.isEmpty then m
          else if d.nvmeBad then completeDesc d .failedData Reason.nvmeError m
          else if d.bytes ≤ d.nvmeNext then completeDesc d .ok 0 m
          else nvmeIssue (max 1 lba) d 1 m)

/-- The controller has failed: NVMe descriptors under way fail, and so does each that starts until the next full load. -/
def nvmeFail (m : Mach) : Mach :=
  let l := m.rings.flatMap (fun r => r.2.fetched.filter (fun d => d.started && decide (6 ≤ d.opcode)))
  m |> wrb Reg.HOST_STATUS_NVME_READY false |> forEach l (completeDesc · .failedFault Reason.noStorage)

/-! ### Function resets (R574 to R578) -/

/-- A WORK descriptor that is cancelled leaves its FIFO; an open context of it is discarded behind its issued instructions (R605). -/
def cancelWork (p q i : Nat) (m : Mach) : Mach :=
  let mine (d : Desc) : Bool := d.ring == q && d.index == i
  let m := modRecov p (fun r => { r with work := r.work.filter (fun d => !mine d) }) m
  match (mget m.recov p).be with
  | none => syncSched p m
  | some c =>
    if !c.desc.any mine then syncSched p m
    else
      let m := modRecov p (fun r => { r with be := some { c with desc := c.desc.map (fun d => { d with cancelled := true }) } }) m
      let r := mget m.recov p
      if r.killing.isSome || r.switch == .draining then m
      else if r.switch == .none && ((mget m.seqs p).run.map (·.kind)) == some 2 then beginPreempt p m
      else discardBe p Reason.reset m

/-- Steps 3 and 4: a fetched descriptor is cancelled, and recorded. -/
def cancelDesc (d : Desc) (m : Mach) : Mach :=
  m |> hostIf .resetVfDesc (qOwner m d.ring) d.ring d.index d.tag 8 0 |> inc Reg.HOST_CNT_RESET_VF |> unreserve (qCompletion m d.ring)
    |> whenB (d.opcode == 4 && d.started) (cancelWork (rd m (Reg.HOST_Q_CFG_PARTITION d.ring)) d.ring d.index)

/-- Step 6 for one ring: DISABLED, its reservations kept, the rest of its context at its reset values. -/
def resetRing (q : Nat) (m : Mach) : Mach :=
  let res := rd m (Reg.HOST_Q_STATUS_RESERVED q)
  let l := (mget m.rings q).spill
  let b := 0x7F41000000 + q * 0x40
  { m with rings := eraseKey m.rings q,
           decided := m.decided.map (fun r => if r.queue = q then { r with orphan := true } else r),
           items := m.items.map (fun x => if x.2.queue = q then (x.1, { x.2 with orphan := true }) else x) }
    |> forEach l (strandedRec .resetVf) |> clearRegs (b + 4) (b + 0x40) |> wr (Reg.HOST_Q_STATUS_RESERVED q) res

/-- The rings of a function. -/
def ringsOf (m : Mach) (v : Nat) : List Nat := (queueEntries m).filterMap (fun e => if le e 2 1 = v + 1 then some (le e 0 2) else none)

/-- A function's reset (R574): `bursts` names the rings whose copy is inside a burst, with what the owner's memory answers to it. -/
def resetFunc (v : Nat) (bursts : List (Nat × Option (List Byte))) (m : Mach) : Mach :=
  let mine := ringsOf m v
  let burst (b : Nat × Option (List Byte)) (m : Mach) : Mach :=
    match (mget m.rings b.1).fetched.find? (fun d => d.started && decide (1 ≤ d.opcode) && decide (d.opcode ≤ 3)) with
    | some d => if mine.contains b.1 then (moveBurst d b.2 m).getD m else m
    | none => m
  m |> modFunc v (fun f => { f with resetting := true })
    |> whenB (v != 0) (wr Reg.HOST_VF_RESETTING (rd m Reg.HOST_VF_RESETTING ||| 2 ^ v))
    |> forEach bursts burst
    |> forEach mine (fun q m =>
        let l := (mget m.rings q).fetched
        m |> modRing q (fun x => { x with fetched := [] }) |> forEach l cancelDesc)
    |> abandonLocks (v + 1) |> forEach mine resetRing
    |> modFunc v (fun _ => { resetting := true, resetAt := now m })
    |> (if v = 0 then id else fun m =>
        { m with latches := m.latches.filter (fun x => x.1 % 128 != v), holds := m.holds.filter (fun x => x.1 % 128 != v) })

/-- The VFs that exist. -/
def liveVfs (m : Mach) : List Nat := ((List.range 64).drop 1).filter (fnExists m)

/-- A reset of the PF and every enabled VF (R578). -/
def resetAll (bursts : List (Nat × Option (List Byte))) (m : Mach) : Mach :=
  m |> forEach (liveVfs m) (resetFunc · bursts) |> resetFunc 0 bursts |> wrb Reg.HOST_STATUS_VF_ENABLE false
    |> wr Reg.HOST_STATUS_NUMVFS 0

def execPfFlr (bursts : List (Nat × Option (List Byte))) (s : State) : Out :=
  s.run (fun m => if m.pe && m.endpoint then resetAll bursts m else m)

def execPcieHotReset (bursts : List (Nat × Option (List Byte))) (s : State) : Out := s.run (fun m => if m.pe then resetAll bursts m else m)

def execVfFlr (v : Fin 64) (bursts : List (Nat × Option (List Byte))) (s : State) : Out := s.run (fun m =>
  if v.val ≠ 0 ∧ m.pe ∧ fnExists m v ∧ !(mget m.funcs v).resetting then resetFunc v bursts m else m)

/-- VF Enable is written: setting it brings NumVFs functions into existence. -/
def execVfEnableSet (s : State) : Out := s.run (fun m => if m.pe && m.endpoint then wrb Reg.HOST_STATUS_VF_ENABLE true m else m)

def execVfEnableClear (bursts : List (Nat × Option (List Byte))) (s : State) : Out := s.run (fun m =>
  if m.pe && m.endpoint then m |> forEach (liveVfs m) (resetFunc · bursts) |> wrb Reg.HOST_STATUS_VF_ENABLE false else m)

/-- A function's reset completes, within 10 ms of its start. -/
def execVfResetComplete (v : Fin 64) (s : State) : Out := s.run (fun m =>
  if !(mget m.funcs v).resetting then m
  else m |> modFunc v (fun f => { f with resetting := false })
    |> wr Reg.HOST_VF_RESETTING (rd m Reg.HOST_VF_RESETTING - (if bitOf (rd m Reg.HOST_VF_RESETTING) v then 2 ^ v.val else 0)))

def execNumvfsWrite (n : Nat) (s : State) : Out := s.run (fun m =>
  if m.pe && m.endpoint then wr Reg.HOST_STATUS_NUMVFS (min n (vfTotal m)) m else m)

/-- A function that its configuration space can reach. -/
def fnReach (m : Mach) (v : Nat) : Bool := m.pe && m.endpoint && fnExists m v && !(mget m.funcs v).resetting

def execBusMasterEnableSet (v : Fin 64) (s : State) : Out := s.run (fun m =>
  if fnReach m v then modFunc v (fun f => { f with busMaster := true }) m else m)

def execBusMasterEnableClear (v : Fin 64) (s : State) : Out := s.run (fun m =>
  if fnReach m v then modFunc v (fun f => { f with busMaster := false }) m else m)

/-- Send what a function holds back, where it may go. -/
def flushMsix (v : Nat) (m : Mach) : Mach :=
  let l := (mget m.funcs v).msixPending
  m |> modFunc v (fun f => { f with msixPending := [] }) |> forEach l (sendMsix v)

/-- A function moves between D0 and D3hot. -/
def execPowerStateChange (v : Fin 64) (d3hot : Bool) (s : State) : Out := s.run (fun m =>
  if fnReach m v then m |> modFunc v (fun f => { f with d3hot := d3hot }) |> flushMsix v else m)

/-! ### The link and its clocks (R545, R547, R679, R685) -/

/-- The endpoint link goes down. -/
def linkDown (bursts : List (Nat × Option (List Byte))) (m : Mach) : Mach :=
  if !m.pe then m
  else { m with pe := false } |> wr Reg.HOST_STATUS_SPEED 0 |> wr Reg.HOST_STATUS_WIDTH 0 |> resetAll bursts

def execPcieLinkDown (bursts : List (Nat × Option (List Byte))) (s : State) : Out := s.run (linkDown bursts)
def execPeRefclkLoss (bursts : List (Nat × Option (List Byte))) (s : State) : Out := s.run (linkDown bursts)

/-- PERST_n goes low, or rises. -/
def execPciePerst (low : Bool) (bursts : List (Nat × Option (List Byte))) (s : State) : Out := s.run (fun m =>
  { m with perst := low } |> whenB low (linkDown bursts))

/-- The link trains to Gen1 to Gen5 and a width of 1, 2, 4, 8 or 16 lanes. -/
def execPcieLinkUp (gen : Nat) (width : Nat) (s : State) : Out := s.run (fun m =>
  if m.perst ∨ m.pe ∨ gen < 1 ∨ 5 < gen ∨ width ∉ [1, 2, 4, 8, 16] then m
  else { m with pe := true } |> wr Reg.HOST_STATUS_SPEED gen |> wr Reg.HOST_STATUS_WIDTH width)

/-- SERDES_REFCLK is lost or off frequency: running Sash links retrain, and NVMe fails. -/
def execSerdesRefclkLoss (s : State) : Out := s.run (fun m =>
  { m with serdes := false } |> forEach (List.range 4) retrain |> nvmeFail)

def execSerdesRefclkReturn (s : State) : Out := s.run (fun m => { m with serdes := true })

/-! ### The host cluster (R570) -/

def execHostClusterCoreReset (who : Requester) (v : Word) (s : State) : Out :=
  s.run (regWrite who Reg.HOST_HC_CTRL_RESET .any (forEach (List.range 16) (fun c m =>
    if v.getLsbD c then abandonLocks (0x70 + c) m else m)))

end Sys2Proof.Machine
end

