-- ==== Sys2Proof/Machine/Grid.lean ====
section
/-!
DEFINITION. The grid tick (R91 to R94, R62): what it hands to the partitions, and what every unit that works on the grid does at it;
a pop of a capture FIFO (R138).
-/

namespace Sys2Proof.Machine

/-- The first point of the time grid at or behind a time (R91). -/
def gridPoint (m : Mach) (t : Nat) : Nat :=
  let o := tickOffsetNs m % periodNs m
  o + ceilDiv (t + periodNs m - o) (periodNs m) * periodNs m - periodNs m

/-- Whether the next tick is the one behind a re-anchor (R94), and its time. -/
def nextTick (m : Mach) : Bool × Nat :=
  let old := m.time.lastTick + periodNs m
  match m.time.gridAnchor with
  | some r => if r ≤ old then (true, gridPoint m (old - shortenNs m)) else (false, old)
  | none => (false, old)

/-- The grid of a base pattern begins at the last point before now. -/
def startGrid (m : Mach) : Mach :=
  modTime (fun t => { t with lastTick := gridPoint m (now m + 1) - periodNs m, gridAnchor := none, gridShift := 0 }) m

/-- The WHEN 0 blobs (R60). -/
def whenZero (m : Mach) : List Nat := (List.range (preloadCount m)).filter (fun i => le (preload m i) 1 1 == 0)

/-- The next grid tick is the first turn tick (R62): every WHEN 0 blob is checked, the links are up, and every start-up test has
ended (R535). -/
def firstReady (m : Mach) : Bool :=
  rd m Reg.PAT_STATUS_STATE == 4 && m.ldr.trained && m.saf.testsDone && (whenZero m).all m.ldr.passed.contains && linksUp m

/-! ### What a tick does to the streams (R176, R177, R183) -/

def streamTick (i : Nat) (m : Mach) : Mach :=
  let st := mget m.streams i
  let quar := strState m i = 4
  let clean := if quar ∧ rd m (Reg.ING_STR_STATUS_VIOL_TURN i) = 0 ∧ st.startSeen then st.clean + 1 else 0
  let dest : Option Nat := match st.enable with
    | some true => if strState m i = 1 then some 2 else none
    | some false => if strState m i = 2 ∨ strState m i = 3 then some 1 else none
    | none => none
  let m := m |> modStream i (fun st => { st with clean := clean, startSeen := false, enable := none }) |> wr (Reg.ING_STR_STATUS_VIOL_TURN i) 0
  match dest with
  | some k => setStrState i k m
  | none => m

/-! ### Tests in every turn (R536, R537) -/

/-- A row of R537 fails: 1 Partner, 2 Caller, 3 a fault-collector copy, 4 the voter, 5 pipe `i`, 6 the decimator copies of port `i`; and
7: spare `i` fails a row of R536. The Partner's own row is judged where its routine starts. -/
def gridFail (f : Nat × Nat) (m : Mach) : Mach :=
  let rec' (path row : Nat) (m : Mach) : Mach :=
    m |> logErr { path := path, source := 0x4D, detail := leBytes 4 row } |> inc Reg.SAF_CNT_TEST_FAIL
  match f.1 with
  | 1 => if (secOf m 0xB 0).isSome ∧ rd m Reg.PTN_STATUS_STATE < 2 then withPe (fun path => rec' path 1) m else m
  | 2 => m |> rec' (pathGroup m 11) 2 |> fatal .caller { path := pathGroup m 11, source := 0x49 }
  | 3 => m |> rec' (pathGroup m 12) 3 |> fatalOnly .faultCollector (pathGroup m 12)
  | 4 => m |> rec' (pathIsland m 63) 4 |> fatalOnly .islandVote (pathIsland m 63)
  | 5 => if f.2 < 8 then m |> rec' (pathPipe m f.2) 5 |> modPipe f.2 (fun p => { p with out := true }) else m
  | 6 => m |> rec' (upath m 1 4 63 0 63 63) 6 |> whenB (rd m Reg.PTN_STATUS_STATE == 1) (withPe (partnerFault 6))
  | 7 =>
    let used := if f.2 = 0 then Reg.SAF_SPARE_MAP_S0_IN_USE else Reg.SAF_SPARE_MAP_S1_IN_USE
    if f.2 < 2 ∧ !rdb m used then
      m |> rec' (upath m 0 8 f.2 0 63 63) 1 |> wrb (if f.2 = 0 then Reg.SAF_SPARE_MAP_S0_FAILED else Reg.SAF_SPARE_MAP_S1_FAILED) true
    else m
  | _ => m

/-! ### The tick -/

/-- The alive frame of a tick describes the turn that it ends (R527); before the first turn its number is a free value. -/
def latchAlive (t : Nat) (m : Mach) : Mach :=
  let (n, m) := if rdb m Reg.TIME_TURN_STATUS_RUNNING then (gridTurn m, m) else draw 32 m
  modSaf (fun x => { x with
    aliveDue := some { turn := n, tick := t, accepted := x.accepted, rejected := x.rejected, missing := x.missing, first := x.firstRej },
    accepted := 0, rejected := 0, missing := 0, firstRej := none }) m

/-- The turn deadline of every item placed in turn `n` or before it has passed (R105). -/
def endTurn (n t : Nat) (m : Mach) : Mach :=
  { m with items := m.items.map (fun x =>
      if x.2.turnEnd.isNone && x.2.turnOf.any (fun k => decide ((n + 2 ^ 32 - k) % 2 ^ 32 < 2 ^ 31)) then
        (x.1, { x.2 with turnEnd := some t }) else x) }

/-- What every grid tick at `t` does; `turn` is the number of the turn that it begins, once turns run. -/
def tickAt (t : Nat) (turn : Option Nat) (failed : List (Nat × Nat)) (m : Mach) : Mach :=
  let ptn := failed.any (fun f => f.1 == 1)
  let m := m |> latchAlive t |> wr Reg.TIME_TURN_TICK t |> modTime (fun x => { x with lastTick := t })
  let m := { m with chans := m.chans.map (fun c => (c.1, { c.2 with ceTurn := 0 })) }
    |> forEach (List.range 8) (fun n => modPipe n (fun p => { p with done := [] })) |> forEach (streamNos m) streamTick |> takeCap
  match turn with
  | none => m
  | some n =>
    m |> wr Reg.TIME_TURN_NUMBER n
      |> whenB (cycleTurns m != 0) (forEach (List.range 8) (fun i => wr (Reg.ISP_PIPE_STATUS_CYCLE_POS i) (cyclePos m)))
      |> forEach (List.range 8) (fun p => modTurn p (fun x => { x with gticks := x.gticks ++ [(t, n)] }))
      |> forEach failed gridFail |> partnerTick ptn |> exitTick |> turnRows

/-- A grid tick; `failed` names the tests of the turn that fail. -/
def execGridTick (failed : List (Nat × Nat)) (s : State) : Out := s.run (fun m =>
  let (anchor, t) := nextTick m
  if !applied m ∨ periodNs m = 0 ∨ now m < t then m
  else
    let run := rdb m Reg.TIME_TURN_STATUS_RUNNING
    if !run ∧ firstReady m then m
    else
      let n := gridTurn m
      m |> whenB run (fun m => m |> callerDeadline n |> endTurn n t)
        |> whenB anchor (fun m => m |> wrb Reg.TIME_TURN_STATUS_REANCHOR_PENDING false |> wrb Reg.TIME_TURN_STATUS_REANCHORED true
          |> modTime (fun x => { x with gridAnchor := none, gridShift := 0 }))
        |> tickAt t (if run then some ((n + 1) % 2 ^ 32) else none) failed)

/-- A Partner engine held off by its start-up test: REACT_PARTNER at the first turn (R535). -/
def partnerHeldOff (m : Mach) : Mach :=
  if rd m Reg.PTN_STATUS_STATE ≠ 3 then m
  else
    let m := modSaf (fun x => { x with condPartner := true }) m
    if reactPartner m = 2 then enterSafe .partner m else refreshSafe m

/-- Whether the next grid tick is the first turn tick, and has come. -/
def firstDue (m : Mach) : Bool :=
  applied m && periodNs m != 0 && decide ((nextTick m).2 ≤ now m) && !rdb m Reg.TIME_TURN_STATUS_RUNNING && firstReady m

/-- What the first turn tick does: turn 0. -/
def firstTurn (failed : List (Nat × Nat)) (m : Mach) : Mach :=
  let t := (nextTick m).2
  { m with ing := { m.ing with firstTick := t, lastAdmit := t - 1000000 } }
    |> tickAt t (some 0) failed |> wrb Reg.TIME_TURN_STATUS_RUNNING true |> wr Reg.PAT_STATUS_STATE 5
    |> modSaf (fun x => { x with started := true }) |> startExit |> partnerHeldOff

/-- A read of TIME_EVT_FIFO_HI. -/
def execEvtFifoPop (who : Requester) (k : Fin 4) (s : State) : Out := s.run (fun m =>
  let f : Fld := Reg.TIME_EVT_FIFO k
  readAt who (presented who (f.addr + 4)) (regValue m who) (fun a m => m |> regReadAct who a |> evtPop k) m)

end Sys2Proof.Machine
end

