-- ==== Sys2Proof/Machine/Sha.lean ====
section
/-!
DEFINITION. SHA-384, which digests containers, sections, blobs and public keys (R51, R52, R60). Its constants are the leading 64
bits of the fractional parts of roots of primes, as its standard defines them.
-/

namespace Sys2Proof.Machine

/-- The first 80 primes. -/
def shaPrimes : List Nat := (List.range 410).filter (fun n => decide (2 ≤ n) && (List.range n).all (fun d => decide (d < 2) || n % d != 0))

/-- The first 64 bits behind the point of the k-th root of `n`. -/
def rootFrac (k n : Nat) : BitVec 64 :=
  BitVec.ofNat 64 ((List.range 70).foldr (fun i x => if (x + 2 ^ i) ^ k ≤ n * 2 ^ (64 * k) then x + 2 ^ i else x) 0)

def shaK : List (BitVec 64) := shaPrimes.map (rootFrac 3)

/-- The initial hash value of SHA-384: square roots of the ninth to sixteenth primes. -/
def shaInit : List (BitVec 64) := ((shaPrimes.drop 8).take 8).map (rootFrac 2)

/-- One more word of the message schedule, which is kept newest first. -/
def shaNext (w : List (BitVec 64)) : List (BitVec 64) :=
  let s0 (x : BitVec 64) := x.rotateRight 1 ^^^ x.rotateRight 8 ^^^ (x >>> 7)
  let s1 (x : BitVec 64) := x.rotateRight 19 ^^^ x.rotateRight 61 ^^^ (x >>> 6)
  (s1 (w.getD 1 0) + w.getD 6 0 + s0 (w.getD 14 0) + w.getD 15 0) :: w

/-- One round on the working variables a to h. -/
def shaRound (h : List (BitVec 64)) (kw : BitVec 64 × BitVec 64) : List (BitVec 64) :=
  match h with
  | [a, b, c, d, e, f, g, i] =>
    let t1 := i + (e.rotateRight 14 ^^^ e.rotateRight 18 ^^^ e.rotateRight 41) + ((e &&& f) ^^^ (~~~e &&& g)) + kw.1 + kw.2
    let t2 := (a.rotateRight 28 ^^^ a.rotateRight 34 ^^^ a.rotateRight 39) + ((a &&& b) ^^^ (a &&& c) ^^^ (b &&& c))
    [t1 + t2, a, b, c, d + t1, e, f, g]
  | h => h

/-- One block of 128 bytes. -/
def shaBlock (h : List (BitVec 64)) (blk : List Byte) : List (BitVec 64) :=
  let w0 := ((List.range 16).map (fun i => BitVec.ofNat 64 (beNat (slice blk (8 * i) 8)))).reverse
  let w := ((List.range 64).foldl (fun w _ => shaNext w) w0).reverse
  List.zipWith (· + ·) h ((shaK.zip w).foldl shaRound h)

/-- The `n` blocks of a padded message. -/
def shaBlocks : Nat → List (BitVec 64) → List Byte → List (BitVec 64)
  | 0, h, _ => h
  | n + 1, h, bs => shaBlocks n (shaBlock h (bs.take 128)) (bs.drop 128)

/-- SHA-384 of a byte string, as a big-endian number. -/
def sha384 (bs : List Byte) : Nat :=
  let n := bs.length
  let fill := (239 - n % 128) % 128
  let msg := bs ++ (0x80 :: zeros fill) ++ beBytes 16 (8 * n)
  ((shaBlocks (msg.length / 128) shaInit msg).take 6).foldl (fun a w => a * 2 ^ 64 + w.toNat) 0

end Sys2Proof.Machine
end

