-- ==== Sys2Proof/Machine/P384.lean ====
section
/-!
DEFINITION. ECDSA on curve P-384 with SHA-384 (R52, R78).
-/

namespace Sys2Proof.Machine

/-- The field prime of P-384. -/
def ecP : Nat := 2 ^ 384 - 2 ^ 128 - 2 ^ 96 + 2 ^ 32 - 1
/-- The order of its base point. -/
def ecN : Nat := 0xFFFFFFFFFFFFFFFFFFFFFFFFFFFFFFFFFFFFFFFFFFFFFFFFC7634D81F4372DDF581A0DB248B0A77AECEC196ACCC52973
def ecB : Nat := 0xB3312FA7E23EE7E4988E056BE3F82D19181D9C6EFE8141120314088F5013875AC656398D8A2ED19D2A85C8EDD3EC2AEF
def ecG : Nat × Nat :=
  (0xAA87CA22BE8B05378EB1C71EF320AD746E1D3B628BA79B9859F741E082542A385502F25DBF55296C3A545E3872760AB7,
   0x3617DE4A96262C6F5D9E98BF9292DC29F8F41DBD289A147CE9DA3113B5F0B8C00A60B1CE1D7E819D7A431D7C90EA0E5F)

/-- b to the e modulo n, for exponents of at most 384 bits. -/
def powMod (n b e : Nat) : Nat :=
  (List.range 384).foldr (fun i x => let y := x * x % n; if bitOf e i then y * b % n else y) 1

/-- The inverse modulo a prime. -/
def invMod (n a : Nat) : Nat := powMod n a (n - 2)

/-- A point of the curve: none is the point at infinity. -/
abbrev EcPoint := Option (Nat × Nat)

def ecSub (a b : Nat) : Nat := (a + ecP - b) % ecP

def ecAdd (a b : EcPoint) : EcPoint :=
  match a, b with
  | none, _ => b
  | _, none => a
  | some (x1, y1), some (x2, y2) =>
    if x1 = x2 ∧ (y1 + y2) % ecP = 0 then none
    else
      let l := if x1 = x2 then (3 * x1 * x1 + ecP - 3) % ecP * invMod ecP (2 * y1 % ecP) % ecP
               else ecSub y2 y1 * invMod ecP (ecSub x2 x1) % ecP
      let x3 := ecSub (ecSub (l * l % ecP) x1) x2
      some (x3, ecSub (l * ecSub x1 x3 % ecP) y1)

def ecMul (k : Nat) (a : EcPoint) : EcPoint :=
  (List.range 384).foldr (fun i x => let y := ecAdd x x; if bitOf k i then ecAdd y a else y) none

/-- The public key of an uncompressed point of 97 bytes, if it lies on the curve. -/
def ecKey (bs : List Byte) : Option (Nat × Nat) :=
  let x := beNat (slice bs 1 48)
  let y := beNat (slice bs 49 48)
  if le bs 0 1 = 4 ∧ x < ecP ∧ y < ecP ∧ y * y % ecP = (x * x * x + (ecP - 3) * x + ecB) % ecP then some (x, y) else none

/-- Whether (r, s) signs a message under a public key. -/
def ecVerify (key msg : List Byte) (r s : Nat) : Bool :=
  match ecKey key with
  | none => false
  | some q =>
    if r = 0 ∨ s = 0 ∨ ecN ≤ r ∨ ecN ≤ s then false
    else
      let w := invMod ecN s
      match ecAdd (ecMul (sha384 msg * w % ecN) (some ecG)) (ecMul (r * w % ecN) (some q)) with
      | none => false
      | some (x, _) => x % ecN == r

end Sys2Proof.Machine
end

