-- ==== Sys2Proof/Machine/Container.lean ====
section
/-!
DEFINITION. A container's header, directory and signature block (R50 to R52), and steps 1 to 12 of its verification (R53).
-/

namespace Sys2Proof.Machine

/-! ### Failure codes (R84) -/

def Ld.badMagic : Nat := 0x01
def Ld.badHeader : Nat := 0x02
def Ld.badLength : Nat := 0x03
def Ld.wrongPart : Nat := 0x04
def Ld.keyUnknown : Nat := 0x05
def Ld.keyRevoked : Nat := 0x06
def Ld.keyLifecycle : Nat := 0x07
def Ld.badSignature : Nat := 0x08
def Ld.rollback : Nat := 0x09
def Ld.lifecycleMask : Nat := 0x0A
def Ld.sectionDigest : Nat := 0x0B
def Ld.sectionType : Nat := 0x0C
def Ld.sectionFormat : Nat := 0x0D
def Ld.resource : Nat := 0x0E
def Ld.contract : Nat := 0x0F
def Ld.noWcet : Nat := 0x10
def Ld.ucieBudget : Nat := 0x11
def Ld.timing : Nat := 0x12
def Ld.flashIo : Nat := 0x13
def Ld.mbxIo : Nat := 0x14
def Ld.alterBase : Nat := 0x15
def Ld.alterSeq : Nat := 0x16
def Ld.alterScope : Nat := 0x17
def Ld.busy : Nat := 0x18
def Ld.preloadDigest : Nat := 0x19
def Ld.preloadIo : Nat := 0x1A
def Ld.badCommand : Nat := 0x1B

/-- A failed check (R53, R83): its code, the container offset of the failing field or section, and the directory index of the
section, 0xFF for none. -/
structure LoadFail where
  code : Nat
  off  : Nat := 0
  sect : Nat := 0xFF
deriving DecidableEq, Repr

/-- The outcome of checks: the first failure, or none. -/
abbrev Verdict := Option LoadFail

/-- Fails with a code unless the condition holds. -/
def need (ok : Bool) (code : Nat) (off : Nat := 0) (sect : Nat := 0xFF) : Verdict :=
  if ok then none else some ⟨code, off, sect⟩

/-- The first failure over a list. -/
def eachOf {α : Type} (l : List α) (f : α → Verdict) : Verdict := l.findSome? f

/-- Bytes `lo` to `hi - 1` are zero. -/
def zeroSpan (b : List Byte) (lo hi : Nat) : Bool := ((b.drop lo).take (hi - lo)).all (· == 0)

/-! ### The header (R50) -/

/-- Fields of the header by offset and size. -/
def hLength (c : List Byte) : Nat := le c 8 4
def hContract (c : List Byte) : Nat := le c 0x10 1
def hShape (c : List Byte) : Nat := le c 0x11 1
def hKind (c : List Byte) : Nat := le c 0x12 1
def hLifecycles (c : List Byte) : Nat := le c 0x13 1
def hSv (c : List Byte) : Nat := le c 0x14 4
def hAdvance (c : List Byte) : Bool := bitOf (le c 0x18 4) 0
def hCount (c : List Byte) : Nat := le c 0x1C 4
def hPatternId (c : List Byte) : Nat := le c 0x20 8
def hBaseId (c : List Byte) : Nat := le c 0x28 8
def hAlterSeq (c : List Byte) : Nat := le c 0x30 4

/-- The magic bytes "FK8P". -/
def patMagic : List Byte := [0x46, 0x4B, 0x38, 0x50]

/-- Step 2: every header field but those that steps 3 and 4 check; `kind` is the one the source or command takes. -/
def checkHeader (kind : Nat) (c : List Byte) : Verdict :=
  let bad := Ld.badHeader
  need (le c 4 2 == 1) bad 4 <|> need (le c 6 2 == 0x100) bad 6 <|> need (hKind c == kind) bad 0x12
  <|> need (le c 0x34 4 == 0x100) bad 0x34 <|> need (decide (hSv c ≤ 64)) bad 0x14
  <|> need (decide (1 ≤ le c 0xE 1) && decide (le c 0xE 1 < 8)) bad 0xE
  <|> need (decide (1 ≤ hContract c) && decide (hContract c ≤ 15)) bad 0x10
  <|> need (hShape c == 0x81 || hShape c == 0x82) bad 0x11
  <|> need (decide (1 ≤ hLifecycles c) && decide (hLifecycles c < 8)) bad 0x13
  <|> need (decide (le c 0x18 4 < 2)) bad 0x18
  <|> need (decide (1 ≤ hCount c) && decide (hCount c ≤ 64)) bad 0x1C
  <|> need (hPatternId c != 0) bad 0x20
  <|> need ((hBaseId c != 0) == (hKind c == 2)) bad 0x28
  <|> need ((hAlterSeq c != 0) == (hKind c == 2)) bad 0x30
  <|> need (zeroSpan c 0x60 0x100) bad 0x60

/-! ### The directory (R51) -/

/-- Entry `i` of the directory. -/
def dirEntry (c : List Byte) (i : Nat) : List Byte := slice c (0x100 + 64 * i) 64
def dType (e : List Byte) : Nat := le e 0 2
def dInst (e : List Byte) : Nat := le e 2 2
def dOffset (e : List Byte) : Nat := le e 8 4
def dLength (e : List Byte) : Nat := le e 0xC 4

/-- The directory of a container, with indices. -/
def directory (c : List Byte) : List (Nat × List Byte) := (List.range (hCount c)).map (fun i => (i, dirEntry c i))

/-- Where the directory ends, and where the signature block begins. -/
def dirEnd (c : List Byte) : Nat := 0x100 + 64 * hCount c
def sigAt (c : List Byte) : Nat := hLength c - 256

/-- What a source fixes of a container: its KIND, the PAT_MBX_LEN of a mailbox command, and half the density of the flash. -/
structure LoadSource where
  kind   : Nat
  mbxLen : Option Nat := none
  half   : Option Nat := none
deriving DecidableEq, Repr

/-- Step 3. The signature block ends the container, so the sections lie before it (DEDUCED, notes/assumptions/22.md). -/
def checkLength (x : LoadSource) (c : List Byte) : Verdict :=
  let bad := Ld.badLength
  let n := hLength c
  need (n % 64 == 0 && decide (0x400 ≤ n) && decide (n ≤ if hKind c = 2 then 0x1000000 else 0x4000000)) bad 8
  <|> need (x.mbxLen.all (· == n)) bad 8 <|> need (x.half.all (fun h => decide (n ≤ h))) bad 8
  <|> need (decide (dirEnd c + 256 ≤ n)) bad 0x1C
  <|> eachOf (directory c) (fun (i, e) => need (decide (dOffset e + dLength e + 256 ≤ n)) bad (0x100 + 64 * i + 8))

/-- Step 4 (R2, R3, R10): MIN_STEP is compared in the form of PAT_ID[15:8]. -/
def checkPart (m : Mach) (c : List Byte) : Verdict :=
  let stepping := rd m Reg.PAT_ID_STEP_LETTER * 16 + rd m Reg.PAT_ID_STEP_NUMBER
  need (le c 0xC 2 == 0x0F08) Ld.wrongPart 0xC <|> need (bitOf (le c 0xE 1) (grade m)) Ld.wrongPart 0xE
  <|> need (decide (le c 0xF 1 ≤ stepping)) Ld.wrongPart 0xF <|> need (hShape c == 0x80 + coresPer m) Ld.wrongPart 0x11

/-! ### Keys and signature (R52, R76, R77, R80) -/

def keySlot (c : List Byte) : Nat := le c (sigAt c) 1
def pubKey (c : List Byte) : List Byte := slice c (sigAt c + 8) 97

/-- The fused hash of a slot; 0xFF is the vendor analysis key. -/
def fusedHash (f : Fuses) (slot : Nat) : Option Nat :=
  if slot = 0xFF then f.vendorHash else if slot < 4 then lookup f.keyHash slot else none

/-- The current lifecycle state (R76). -/
def lifecycle (m : Mach) : Nat := rd m Reg.PAT_STATUS_LIFECYCLE

/-- Whether the table of R77 accepts a slot in a lifecycle state. -/
def slotAccepted (life slot : Nat) : Bool :=
  match life with
  | 0 => decide (slot < 4)
  | 1 => decide (1 ≤ slot) && decide (slot < 4)
  | _ => slot == 0xFF

/-- Steps 5 to 10. -/
def checkKey (f : Fuses) (m : Mach) (c : List Byte) : Verdict :=
  let s := sigAt c
  let k := keySlot c
  need (bitOf (hLifecycles c) (lifecycle m)) Ld.lifecycleMask 0x13
  <|> need (fusedHash f k).isSome Ld.keyUnknown s
  <|> need (fusedHash f k == some (sha384 (pubKey c))) Ld.keyUnknown (s + 8)
  <|> need (!f.revoked.contains k) Ld.keyRevoked s
  <|> need (slotAccepted (lifecycle m) k && (hKind c != 3 || (decide (1 ≤ k) && decide (k < 4)))) Ld.keyLifecycle s
  <|> need (ecVerify (pubKey c) (c.take (dirEnd c)) (beNat (slice c (s + 0x70) 48)) (beNat (slice c (s + 0xA0) 48))) Ld.badSignature (s + 0x70)
  <|> need (zeroSpan c (s + 1) (s + 8) && zeroSpan c (s + 0x69) (s + 0x70) && zeroSpan c (s + 0xD0) (s + 0x100)) Ld.badSignature s
  <|> need (decide (f.sv ≤ hSv c)) Ld.rollback 0x14

/-! ### Sections (R51, R56) -/

/-- The sections of a container, in directory order. -/
def sectionsOf (c : List Byte) : List Sec :=
  (directory c).map (fun (_, e) =>
    { type := dType e, instnc := dInst e, offset := dOffset e, bytes := slice c (dOffset e) (dLength e) })

/-- Whether a type is defined and allowed for a KIND. -/
def typeAllowed (kind t : Nat) : Bool :=
  match kind with
  | 1 => decide (1 ≤ t) && decide (t ≤ 0x13)
  | 2 => t == 4 || t == 6 || t == 7 || t == 0xF
  | _ => t == 0x14

/-- The sections that a KIND requires: PARTNER and CALLER with a safety-relevant stream. -/
def requiredSections (kind : Nat) (l : List Sec) : List (Nat × Nat) :=
  match kind with
  | 1 =>
    let safe := l.any (fun x => x.type == 4 &&
      (List.range (le x.bytes 0 2)).any (fun i => bitOf (le x.bytes (16 + 64 * i + 6) 1) 1))
    [(1, 0), (2, 0), (8, 0), (9, 0), (0xD, 0), (0xF, 0), (0x11, 0)] ++ (List.range 8).map (fun p => (6, p)) ++
      (if safe then [(0xB, 0), (0xC, 0)] else [])
  | 2 => []
  | _ => [(0x14, 0)]

/-- The directory entries in order: each begins at or behind the end of the one before it. -/
def checkEntries (kind : Nat) (stop : Nat) (seen : List (Nat × Nat)) : List (Nat × List Byte) → Verdict
  | [] => none
  | (i, e) :: r =>
    let t := dType e
    let ok := dOffset e % 64 == 0 && decide (1 ≤ dLength e) && decide (dInst e ≤ if t = 6 ∨ t = 7 then 7 else 0) &&
      zeroSpan e 4 8 && decide (stop ≤ dOffset e) && typeAllowed kind t && !seen.contains (t, dInst e)
    need ok Ld.sectionType (0x100 + 64 * i) <|> checkEntries kind (dOffset e + dLength e) ((t, dInst e) :: seen) r

/-- Step 11. -/
def checkDirectory (c : List Byte) : Verdict :=
  let l := sectionsOf c
  checkEntries (hKind c) (dirEnd c) [] (directory c)
  <|> need ((requiredSections (hKind c) l).all (fun r => l.any (fun x => x.type == r.1 && x.instnc == r.2))) Ld.sectionType 0x100
  <|> need (hKind c != 3 || l.length == 1) Ld.sectionType 0x100

/-- Step 12. -/
def checkDigests (c : List Byte) : Verdict :=
  eachOf (directory c) (fun (i, e) =>
    need (beNat (slice e 0x10 48) == sha384 (slice c (dOffset e) (dLength e))) Ld.sectionDigest (dOffset e) i)

/-- Steps 1 to 12 of R53, and the note on containers of fewer than 256 bytes. -/
def checkContainer (f : Fuses) (m : Mach) (x : LoadSource) (c : List Byte) : Verdict :=
  need (c.take 4 == patMagic) Ld.badMagic 0 <|> need (decide (256 ≤ c.length)) Ld.badLength 8
  <|> checkHeader x.kind c <|> checkLength x c <|> checkPart m c <|> checkKey f m c <|> checkDirectory c <|> checkDigests c

end Sys2Proof.Machine
end

