-- ==== Sys2Proof/Machine/Code.lean ====
section
/-!
DEFINITION. What the loader checks of a routine's words (R300, R337): reserved opcodes, bits and field values, direct branch
targets, and TLD offsets.
-/

namespace Sys2Proof.Machine

/-- The reserved bits of an opcode's form. -/
def opMask (op : Nat) : Nat :=
  if op = 0 ∨ op = 0x28 then bitMask 0 56
  else if op ≤ 0x0D then bitMask 0 41
  else if op ≤ 0x13 then bitMask 32 14
  else if op ≤ 0x16 then bitMask 32 14 + bitMask 6 26
  else match op with
    | 0x17 => bitMask 48 3
    | 0x26 => bitMask 32 19
    | 0x29 => bitMask 16 40
    | 0x2A => bitMask 32 19
    | 0x2B => bitMask 51 5 + bitMask 0 46
    | 0x30 => bitMask 32 20
    | 0x32 => bitMask 32 11
    | 0x33 => bitMask 32 11
    | 0x40 => bitMask 0 15
    | 0x48 => bitMask 0 39
    | 0x49 => bitMask 51 5 + bitMask 0 41
    | 0x4A => bitMask 51 5 + bitMask 0 41
    | 0x4B => bitMask 51 5 + bitMask 0 41
    | 0x50 => bitMask 0 27
    | 0x51 => bitMask 0 31
    | 0x52 => bitMask 32 13
    | 0x53 => bitMask 32 13
    | 0x54 => bitMask 0 27
    | 0x60 => bitMask 0 41
    | 0x68 => bitMask 0 13
    | 0x69 => bitMask 0 13
    | 0x6A => bitMask 0 38
    | 0x70 => bitMask 0 36
    | 0x71 => bitMask 0 36
    | 0x72 => bitMask 0 48
    | 0x73 => bitMask 0 46
    | 0x74 => bitMask 0 46
    | 0x75 => bitMask 0 46
    | 0x78 => bitMask 0 51
    | 0x79 => bitMask 0 51
    | 0x7A => bitMask 51 5 + bitMask 0 41
    | 0x7B => bitMask 0 51
    | 0x7C => bitMask 0 41
    | 0x7D => bitMask 0 47
    | 0x7E => bitMask 0 46
    | _ => bitMask 32 14

/-- A field holds a value that its form marks reserved (R307, R312 to R334, R337); `n` cores per partition. -/
def fieldBad (n : Nat) (partner : Bool) (op w : Nat) : Bool :=
  let noK (k : Nat) : Bool := !partner && decide (n ≤ k)
  match op with
  | 0x2A => decide (2 < w % 2 ^ 32)
  | 0x40 => noK (bitsAt w 19 1) || (bitsAt w 35 1 == 0 && bitsAt w 40 4 != 0) || (bitsAt w 34 1 == 0 && bitsAt w 36 4 != 0) ||
      (partner && bitsAt w 25 9 != 0)
  | 0x48 => decide (48 ≤ bitsAt w 49 6) || bitsAt w 43 6 == 0 || decide (48 < bitsAt w 49 6 + bitsAt w 43 6) ||
      decide (9 < bitsAt w 39 4) || noK (bitsAt w 55 1)
  | 0x50 => !vecFuncOk false (bitsAt w 49 6) || noK (bitsAt w 55 1) || ((bitsAt w 31 1 == 1) != (bitsAt w 49 6 == 9))
  | 0x51 => decide (3 ≤ bitsAt w 52 3) || noK (bitsAt w 55 1) || ((bitsAt w 35 1 == 1) != (bitsAt w 52 3 == 0))
  | 0x52 => noK (bitsAt w 55 1)
  | 0x53 => noK (bitsAt w 55 1)
  | 0x54 => !vecFuncOk true (bitsAt w 49 6) || noK (bitsAt w 55 1) || bitsAt w 49 6 == 9 ||
      (bitsAt w 49 6 == 0x22 && decide (4 ≤ bitsAt w 30 5))
  | 0x6A => decide (5 ≤ bitsAt w 43 3) || (bitsAt w 43 3 != 2 && bitsAt w 38 5 != 0)
  | 0x70 => bitsAt w 52 4 == 0 || bitsAt w 36 16 == 0
  | 0x71 => bitsAt w 52 4 == 0 || bitsAt w 36 16 == 0
  | 0x72 => bitsAt w 48 8 == 0 || decide (64 ≤ bitsAt w 48 8) || (partner && decide (16 ≤ bitsAt w 48 8))
  | 0x78 => wRd w == 0 || wRd w == 31
  | 0x79 => wRd w == 0 || wRd w == 31
  | 0x7B => wRd w == 0 || wRd w == 31
  | 0x7C => bitsAt w 41 1 == 1 && bitsAt w 47 4 != 0
  | _ => false

/-- A word at byte `pc` of a routine with `code` bytes of code and `const` of constants fails step 13 (R300). -/
def wordBad (n : Nat) (partner : Bool) (code const pc x : Nat) : Bool :=
  let op := x / 2 ^ 56
  let w := x % 2 ^ 56
  let target : Int := (pc : Int) + wImm w
  opReserved op || w &&& opMask op != 0 || fieldBad n partner op w ||
    ((decide (0x20 ≤ op) && decide (op ≤ 0x26)) && (decide (target < 0) || decide ((code : Int) ≤ target) || target % 8 != 0)) ||
    (op == 0x30 && (decide (const < w % 2 ^ 32 + 64) || w % 64 != 0))

/-- The words of a routine's code, with their byte offsets. -/
def codeWords (b : List Byte) (at0 : Nat) : Nat → Nat → List (Nat × Nat)
  | 0, _ => []
  | k + 1, pc => (pc, le (b.drop (at0 + pc)) 0 8) :: codeWords b at0 k (pc + 8)

end Sys2Proof.Machine
end

