-- ==== Sys2Proof/Machine/SectionForm.lean ====
section
/-!
DEFINITION. Step 13 of verification (R53): the fields of every section within their ranges, at the layouts of R57 to R65 and of the
chapters that R56 names. Each check answers the section offset of the first field that fails. The sections are read from the part as
it would stand with the container applied (R70).
-/

namespace Sys2Proof.Machine

/-! ### Layout tables -/

/-- A row of a layout: offset, size, and the values allowed. -/
structure FieldRow where
  off  : Nat
  size : Nat
  ok   : Nat → Bool

/-- A row that allows every value. -/
def anyOf (off size : Nat) : FieldRow := ⟨off, size, fun _ => true⟩
/-- A row that allows `lo` to `hi`. -/
def rangeOf' (off size lo hi : Nat) : FieldRow := ⟨off, size, fun v => decide (lo ≤ v) && decide (v ≤ hi)⟩
/-- A row that allows signed values of magnitude at most `n`. -/
def signedRow (off size n : Nat) : FieldRow := ⟨off, size, fun v => decide (signedOf (8 * size) v ≤ n) && decide (-(n : Int) ≤ signedOf (8 * size) v)⟩
/-- A row that allows multiples of `k`. -/
def multOf (off size k : Nat) : FieldRow := ⟨off, size, fun v => v % k == 0⟩

/-- The first byte of a record that no row covers and that is not zero. -/
def reservedBad (size : Nat) (rows : List FieldRow) (b : List Byte) : Option Nat :=
  (List.range size).find? (fun i => !rows.any (fun r => decide (r.off ≤ i) && decide (i < r.off + r.size)) && le b i 1 != 0)

/-- The first field of a record of `size` bytes outside its values; bytes that no row covers are reserved and zero. -/
def layoutBad (size : Nat) (rows : List FieldRow) (b : List Byte) : Option Nat :=
  (rows.findSome? (fun r => if r.ok (le b r.off r.size) then none else some r.off)) <|> reservedBad size rows b

/-- A failure at an offset unless the condition holds. -/
def want (ok : Bool) (off : Nat) : Option Nat := if ok then none else some off

/-- The first failure over `n` records of `size` bytes from `at0` on. -/
def eachRec (b : List Byte) (at0 size n : Nat) (f : Nat → List Byte → Option Nat) : Option Nat :=
  (List.range n).findSome? (fun i => (f i (slice b (at0 + size * i) size)).map (· + at0 + size * i))

/-- The first number of a list that does not exceed the one before it, by its place. -/
def climbBad : Nat → List Nat → Option Nat
  | i, a :: b :: r => if a < b then climbBad (i + 1) (b :: r) else some (i + 1)
  | _, _ => none

/-- Records of `size` bytes from `at0` on, whose keys `l` must rise strictly: the offset of the first that does not. -/
def climb (at0 size : Nat) (l : List Nat) : Option Nat := (climbBad 0 l).map (fun i => at0 + size * i)

/-- Two ranges, each a base and a length, share a byte. -/
def overlap (a b : Nat × Nat) : Bool := decide (a.1 < b.1 + b.2) && decide (b.1 < a.1 + a.2)

/-- The first element that overlaps an earlier one. -/
def firstClash : List (Nat × Nat) → List (Nat × Nat) → Nat → Option Nat
  | _, [], _ => none
  | seen, a :: r, i => if a.2 != 0 && seen.any (overlap a) then some i else firstClash (a :: seen) r (i + 1)

/-! ### Fixed sections (R57, R58, R64, R80, R118, R463, R510, R640) -/

def formDevice (m : Mach) (b : List Byte) : Option Nat :=
  let p := le b 4 4
  want (b.length == 64) 0 <|>
  layoutBad 64 [rangeOf' 0 1 0 7, rangeOf' 1 1 0 3, rangeOf' 4 4 2500 100000, rangeOf' 8 4 200 (p / 4), rangeOf' 0xC 4 p (8 * p),
    rangeOf' 0x10 4 0 (p - 1), ⟨0x18, 8, fun v => v % 0x200000 == 0 && decide (v + 0x1000000 ≤ hbmBytes m)⟩, multOf 0x20 8 0x200000] b

def formTime (b : List Byte) : Option Nat :=
  want (b.length == 32) 0 <|>
  layoutBad 32 [⟨0, 1, fun v => decide (v ≤ 17) || v == 0xFF⟩, rangeOf' 1 1 0 4, rangeOf' 2 1 0 127, rangeOf' 3 1 0 1,
    rangeOf' 4 4 10000 1000000000, signedRow 8 4 100000, rangeOf' 0xC 1 0 1, rangeOf' 0xD 1 0 2, anyOf 0xE 2,
    rangeOf' 0x10 4 100 500000000, rangeOf' 0x14 4 0 999999999,
    ⟨0x18, 1, fun v => decide (signedOf 8 v ≤ 0) && decide (-5 ≤ signedOf 8 v)⟩] b

def formPartition (m : Mach) (p : Nat) (b : List Byte) : Option Nat :=
  let base := le b 8 8
  let n := le b 0x10 4
  want (b.length == 32) 0 <|>
  layoutBad 32 [rangeOf' 0 1 0 4, rangeOf' 1 1 0 (if coresPer m = 2 then 3 else 1), rangeOf' 2 1 0 7, rangeOf' 3 1 (le b 2 1) 7,
    multOf 8 8 65536, anyOf 0x10 4, rangeOf' 0x14 4 0 n] b
  <|> want (n == 0 || (decide (p * hbmEighth m ≤ base) && decide (base < (p + 1) * hbmEighth m))) 8
  <|> want (decide (n = 0) || decide (base + n * 65536 ≤ (p + 1) * hbmEighth m)) 0x10

/-- R64, R65: FORENSIC_HOLD is refused to containers that PRODUCTION accepts, and in PRODUCTION. -/
def formDebug (m : Mach) (header b : List Byte) : Option Nat :=
  want (b.length == 16) 0 <|> layoutBad 16 [rangeOf' 0 1 0 1, rangeOf' 1 1 0 2] b
  <|> want (!(le b 0 1 == 1 && (bitOf (hLifecycles header) 1 || lifecycle m == 1))) 0

def formMemory (b : List Byte) : Option Nat :=
  want (b.length == 32) 0 <|>
  layoutBad 32 [rangeOf' 0 2 1 64, rangeOf' 2 2 10 1000, rangeOf' 4 4 60 86400, rangeOf' 8 1 0 2, rangeOf' 9 1 1 255] b

/-- The highest cap of the grade (R3). -/
def capTop (m : Mach) : Nat := if grade m = 2 then 150 else 250

def formPower (m : Mach) (b : List Byte) : Option Nat :=
  let part (p : Nat) : List FieldRow :=
    [rangeOf' (0x20 + 4 * p) 1 0 15, rangeOf' (0x21 + 4 * p) 1 0 1, ⟨0x22 + 4 * p, 1, fun v => decide (v ≤ 40) && v % 5 == 0⟩]
  want (b.length == 64) 0 <|>
  layoutBad 64 ([rangeOf' 0 2 75 (capTop m), rangeOf' 2 1 1 20, rangeOf' 3 1 0 15, rangeOf' 4 2 10 10000, rangeOf' 6 1 80 105,
    rangeOf' 7 1 80 105] ++ (List.range 8).flatMap part) b

def formSafetyPort (on : Bool) (b : List Byte) : Option Nat :=
  if !on then (List.range 48).find? (fun i => le b i 1 != 0)
  else
    layoutBad 48 [rangeOf' 0 1 0 1, rangeOf' 1 1 0 1, if bitOf (le b 1 1) 0 then rangeOf' 2 2 1 4094 else rangeOf' 2 2 0 0,
      ⟨4, 6, fun v => v % 2 == 0⟩, anyOf 0xA 6, anyOf 0x10 4, anyOf 0x14 4, rangeOf' 0x18 2 1 65535, anyOf 0x1A 2,
      ⟨0x1C, 2, fun v => v != le b 0x1A 2⟩] b

def formSafety (b : List Byte) : Option Nat :=
  want (b.length == 128) 0 <|>
  layoutBad 128 ([0, 1, 2, 3].map (fun i => rangeOf' i 1 0 2) ++
    [rangeOf' 4 1 1 255, rangeOf' 5 1 0 1, rangeOf' 6 1 1 255, rangeOf' 7 1 0 3, anyOf 0x10 48, anyOf 0x40 48]) b
  <|> eachRec b 0x10 48 2 (fun e r => formSafetyPort (bitOf (le b 7 1) e) r)

/-! ### PORTS (R147) -/

def formAphy (on : Bool) (b : List Byte) : Option Nat :=
  if !on then (List.range 16).find? (fun i => le b i 1 != 0)
  else layoutBad 16 ([rangeOf' 0 1 1 2, rangeOf' 1 1 1 (if le b 0 1 = 1 then 2 else 5), rangeOf' 2 1 0 1, rangeOf' 3 1 0 3,
    rangeOf' 4 1 0 31, rangeOf' 5 1 0 31, rangeOf' 6 1 0 7, rangeOf' 7 1 0 7]) b

def formEth (on : Bool) (b : List Byte) : Option Nat :=
  let mcast (o : Nat) : FieldRow := ⟨o, 6, fun v => v == 0 || v % 2 == 1⟩
  if !on then (List.range 64).find? (fun i => le b i 1 != 0)
  else layoutBad 64 [rangeOf' 0 1 0 2, rangeOf' 1 1 0 1, rangeOf' 2 2 1518 9216, ⟨4, 6, fun v => v % 2 == 0⟩, rangeOf' 0xA 1 0 3,
    ⟨0x10, 4, fun v => v == 0 || bitOf (le b 0xA 1) 0⟩, ⟨0x20, 16, fun v => v == 0 || bitOf (le b 0xA 1) 1⟩, mcast 0x30, mcast 0x36] b

def formPorts (b : List Byte) : Option Nat :=
  want (b.length == 1552) 0 <|> want (zeroSpan b 6 16) 6
  <|> eachRec b 0x10 16 32 (fun i r => formAphy (bitOf (le b 0 4) i) r)
  <|> eachRec b 0x210 64 16 (fun i r => formEth (bitOf (le b 4 2) i) r)

/-! ### STREAMS (R148 to R150, R155 to R158, R184) -/

def formStream (e : List Byte) : Option Nat :=
  let cam := strCamera e
  let fus := strFrameUs e
  let both (off size lo hi lo' hi' : Nat) : FieldRow := if cam then rangeOf' off size lo hi else rangeOf' off size lo' hi'
  layoutBad 64 [both 0 2 0 511 512 1023, rangeOf' 2 1 0 1, both 3 1 0 31 0 15, both 4 1 0 15 0 0,
    ⟨5, 1, fun v => if cam then dtBits v != 0 else v == 0⟩, rangeOf' 6 1 0 7, rangeOf' 7 1 0 7, both 8 2 1 8192 0 0, rangeOf' 0xA 2 1 8192,
    both 0xC 2 0 65535 0 0, anyOf 0xE 1, both 0xF 1 0 255 0 0, rangeOf' 0x10 4 1000 1000000, rangeOf' 0x16 1 2 64,
    rangeOf' 0x17 1 0 (if strSafety e then 3 else 0), signedRow 0x18 4 100000000,
    ⟨0x1C, 4, fun v => v % 4096 == 0 && decide (4096 ≤ v) && decide (v ≤ 0x4000000)⟩, multOf 0x20 8 4096, multOf 0x28 8 4096,
    ⟨0x30, 4, fun v => v % 4096 == 0 && decide (strSlots e * strSlotBytes e ≤ v)⟩, rangeOf' 0x34 1 0 3, anyOf 0x35 1, anyOf 0x36 1,
    rangeOf' 0x37 1 1 255, rangeOf' 0x38 2 0 16383, rangeOf' 0x3C 4 0 (min 250000 (fus / 4))] e
  <|> want (!cam || strWidth e * dtBits (strDt e) % 8 == 0) 8
  <|> want (!(cam && strSafety e) || strWidth e % decimD e == 0) 8 <|> want (!(cam && strSafety e) || strHeight e % decimD e == 0) 0xA
  <|> want (!cam || decide (linesOff e + strHeight e * linePitch e ≤ strSlotBytes e)) 0x1C
  <|> want (decide (strRegion e ≤ strRingBase e) &&
      decide (strRingBase e + strSlots e * strSlotBytes e ≤ strRegion e + strRegionBytes e)) 0x20

/-- A classifier entry of the range stream whose entry is `e`. -/
def formClassifier (e c : List Byte) : Option Nat :=
  let mt := le c 2 1
  let kind := le c 0xA 1
  let on (k : Bool) (off size lo hi : Nat) : FieldRow := if k then rangeOf' off size lo hi else rangeOf' off size 0 0
  layoutBad 64 [anyOf 0 2, rangeOf' 2 1 0 31, rangeOf' 3 1 0 (if bitOf mt 1 then 128 else 32), on (bitOf mt 0) 4 2 1 4094, rangeOf' 6 2 1 65535,
    on (bitOf mt 2) 8 2 1 65535, rangeOf' 0xA 1 0 3,
    ⟨0xB, 1, fun v => match kind with | 0 => v == 1 || v == 2 || v == 4 | 1 => v == 1 | _ => v == 0⟩,
    on (decide (kind < 2)) 0xC 2 0 9000, on (kind == 1) 0xE 1 1 255,
    ⟨0xF, 1, fun v => if bitOf mt 3 then v == 2 || v == 4 else v == 0⟩, anyOf 0x10 16, anyOf 0x20 2,
    on (kind == 3) 0x22 2 1 (strHeight e)] c
  <|> want (bitOf mt 1 || zeroSpan c 0x14 0x20) 0x14
  <|> want (kind != 2 || 1000000 % strFrameUs e == 0) 0xA

/-- One packet could match both entries (R156): the same VLAN and IP version, overlapping prefixes, and equal ports. -/
def clsClash (a b : List Byte) : Bool :=
  let ma := le a 2 1
  let mb := le b 2 1
  let w := if bitOf ma 1 then 128 else 32
  let k := min (le a 3 1) (le b 3 1)
  let ip (c : List Byte) : Nat := beNat (slice c 0x10 (w / 8))
  (bitOf ma 0 == bitOf mb 0) && le a 4 2 == le b 4 2 && (bitOf ma 1 == bitOf mb 1) && ip a / 2 ^ (w - k) == ip b / 2 ^ (w - k) &&
    le a 6 2 == le b 6 2 && (!bitOf ma 2 || !bitOf mb 2 || le a 8 2 == le b 8 2)

def formStreams (m : Mach) (b : List Byte) : Option Nat :=
  let n := le b 0 2
  let k := le b 2 2
  let es := streamEntries m
  let range := es.filter (fun e => !strCamera e)
  let cs := (List.range k).map (fun i => slice b (16 + 64 * n + 64 * i) 64)
  want (decide (1 ≤ n) && decide (n ≤ 1024)) 0 <|> want (b.length == 16 + 64 * (n + k)) 0 <|> want (zeroSpan b 4 16) 4
  <|> climb 16 64 (es.map (fun e => le e 0 2))
  <|> eachRec b 16 64 n (fun _ e => formStream e)
  <|> want (k == range.length) 2 <|> want (cs.map (fun c => le c 0 2) == range.map (fun e => le e 0 2)) (16 + 64 * n)
  <|> eachRec b (16 + 64 * n) 64 k (fun i c => formClassifier (range.getD i []) c)
  <|> eachRec b 16 64 n (fun i e =>
      want (!(strCamera e && (es.take i).any (fun d => strCamera d && strPort d == strPort e && strVc d == strVc e))) 4)
  <|> ((firstClash [] (es.map (fun e => (strRegion e, strRegionBytes e))) 0).map (fun i => 16 + 64 * i + 0x28))
  <|> eachRec b (16 + 64 * n) 64 k (fun i c =>
      want (!((List.range i).any (fun j => strPort (range.getD j []) == strPort (range.getD i []) && clsClash (cs.getD j []) c))) 6)

/-! ### ISP (R196 to R199, R208, R210, R219) -/

/-- The fields of a profile or parameter set (R210). -/
def profileRows : List FieldRow :=
  let u16 (n lo : Nat) : List FieldRow := (List.range n).map (fun i => anyOf (lo + 2 * i) 2)
  [rangeOf' 0 1 0 12, rangeOf' 1 1 0 63, rangeOf' 2 1 1 3, rangeOf' 3 1 1 8, rangeOf' 4 4 0 0xFFFFFF, anyOf 8 64] ++
    (List.range 4).map (fun i => rangeOf' (0x48 + 4 * i) 4 0 0xFFFFFF) ++ [anyOf 0x58 8, rangeOf' 0x60 2 0x100 65535,
    rangeOf' 0x62 2 0x100 65535, rangeOf' 0x64 4 0 0xFFFFFF, rangeOf' 0x68 4 0 0xFFFFFF, anyOf 0x70 18] ++
    (List.range 49).map (fun i => rangeOf' (0x88 + 2 * i) 2 0 4095) ++ [anyOf 0xEC 18] ++
    (List.range 3).map (fun i => signedRow (0x100 + 2 * i) 2 255) ++ u16 4 0x108 ++ [rangeOf' 0x110 4 0 0xFFFFFF, anyOf 0x120 504]

/-- A segment of the decompanding curve of a profile with `n` segments. -/
def segBad (n : Nat) (b : List Byte) (i : Nat) : Option Nat :=
  let s := slice b (8 + 8 * i) 8
  if n ≤ i then want (zeroSpan s 0 8) 0
  else want (if i = 0 then le s 0 4 == 0 else decide (le b (8 * i) 4 < le s 0 4)) 0 <|> want (decide (le s 7 1 ≤ 12)) 7

/-- A profile on its own; with a stream that takes it, the checks that a commit makes too (R225) follow. -/
def formProfile (b : List Byte) : Option Nat :=
  layoutBad 1024 profileRows b <|> (List.range 8).findSome? (fun i => (segBad (le b 3 1) b i).map (· + 8 + 8 * i))

/-- Bytes of an output slot (R205). -/
def outSlotBytes (x : List Byte) : Nat := 4096 + tensorBytes x + ispPlanes x * ispOutH x * 4

def formIspEntry (m : Mach) (x : List Byte) : Option Nat :=
  let ring := ispOutSlots x * ispSlotBytes x
  layoutBad 64 [anyOf 0 2, rangeOf' 2 1 0 1, ⟨3, 1, fun v => v == 1 || v == 3⟩, rangeOf' 4 1 0 1, rangeOf' 5 1 0 (coresPer m - 1),
    rangeOf' 6 2 1 8192, rangeOf' 8 2 1 8192, rangeOf' 0xA 1 2 64, rangeOf' 0xB 1 0 64, multOf 0xC 4 4096, multOf 0x10 8 4096,
    multOf 0x18 8 4096, ⟨0x20, 4, fun v => v % 4096 == 0 && decide (ring ≤ v)⟩,
    ⟨0x24, 4, fun v => v % 4096 == 0 && decide (outSlotBytes x ≤ v)⟩,
    ⟨0x28, 8, fun v => v % 4096 == 0 && (v == 0 || le x 0xB 1 != 0)⟩, ⟨0x30, 8, fun v => v % 4096 == 0 && (v == 0 || le x 0x38 4 != 0)⟩,
    multOf 0x38 4 4096] x
  <|> want (match streamEntry? m (le x 0 2) with | some e => strCamera e | none => false) 0
  <|> want (decide (ispRegion x ≤ ispOutBase x) && decide (ispOutBase x + ring ≤ ispRegion x + ispRegionBytes x)) 0x10

def formIsp (m : Mach) (b : List Byte) : Option Nat :=
  let np := le b 0 1
  let ct := le b 1 1
  let ne := le b 2 2
  let ns := le b 4 2
  let e0 := 64 + 1024 * np
  let s0 := e0 + 64 * ne
  let xs := ispEntries m
  let taps := xs.map (fun x => (ispTapBase x, ispTapBytes x))
  let raws := (streamEntries m).map (fun e => (strRegion e, strRegionBytes e))
  layoutBad 64 [rangeOf' 0 1 1 64, rangeOf' 1 1 1 64, rangeOf' 2 2 1 512, rangeOf' 4 2 1 4096] b
  <|> want (b.length == s0 + 16 * ns) 0
  <|> want (ct == 1 || 1000000 % (ct * (periodNs m / 1000)) == 0) 1
  <|> eachRec b 64 1024 np (fun _ r => formProfile r)
  <|> climb e0 64 (xs.map (fun x => le x 0 2))
  <|> eachRec b e0 64 ne (fun _ x => formIspEntry m x)
  <|> eachRec b e0 64 ne (fun i x =>
      let out := (ispRegion x, ispRegionBytes x)
      let tap := (ispTapBase x, ispTapBytes x)
      let others := (xs.take i).map (fun y => (ispRegion y, ispRegionBytes y)) ++ taps.take i ++ raws
      want (!others.any (overlap out)) 0x18 <|> want (tap.2 == 0 || !(out :: others).any (overlap tap)) 0x30)
  <|> eachRec b e0 64 ne (fun _ x =>
      let e := streamEntry m (le x 0 2)
      want (decide (strProfile e < np)) 0)
  <|> xs.findSome? (fun x =>
      let e := streamEntry m (le x 0 2)
      ((paramChecks (ispProfile m (strProfile e)) e x).find? (fun c => !c.1)).map (fun c => 64 + 1024 * strProfile e + c.2))
  <|> eachRec b s0 16 ns (fun _ r => layoutBad 16 [rangeOf' 0 1 0 7, ⟨2, 2, fun v => (ispEntry? m v).isSome⟩, rangeOf' 4 4 0 (periodNs m - 1),
      ⟨8, 8, fun v => v != 0 && decide (v < 2 ^ ct)⟩] r)

/-! ### Routine binaries (R298 to R301) -/

/-- A routine header and its code at a section offset. -/
def formBinary (m : Mach) (partner seqfw : Bool) (b : List Byte) (off : Nat) : Option Nat :=
  let h := slice b off 64
  let code := le h 0xC 4
  let const := le h 0x10 4
  (layoutBad 64 [⟨0, 4, fun v => v == 0x54524B46⟩, rangeOf' 4 1 1 (if seqfw then 1 else 15), anyOf 5 1, rangeOf' 6 1 0 (if seqfw then 0 else 1),
    ⟨7, 1, fun v => decide (v < 4) && (bitOf v 1 == partner)⟩, rangeOf' 8 4 1 0xFFFFFFFF, ⟨0xC, 4, fun v => v % 8 == 0 && decide (8 ≤ v)⟩,
    multOf 0x10 4 64, ⟨0x14, 4, fun v => v % 8 == 0 && decide (v < code)⟩, ⟨0x18, 4, fun v => v == 0 || le h 6 1 == 0⟩,
    ⟨0x1C, 4, fun v => v == 0 || !seqfw⟩, ⟨0x20, 4, fun v => v == 0 || !seqfw⟩] h).map (· + off)
  <|> want (decide (off + 64 + code + const ≤ b.length)) (off + 0xC)
  <|> (codeWords b (off + 64) (code / 8) 0).findSome? (fun (pc, x) =>
      if wordBad (coresPer m) partner code const pc x then some (off + 64 + pc) else none)

/-- The end of a binary at a section offset. -/
def binEnd (b : List Byte) (off : Nat) : Nat := off + 64 + le b (off + 0xC) 4 + le b (off + 0x10) 4

/-- The section ends where its last binary does, or at the next 64-byte boundary with zeros between (R298). -/
def endBad (b : List Byte) (stop : Nat) : Option Nat :=
  want ((b.length == stop || b.length == roundUp stop 64) && zeroSpan b stop b.length) stop

/-- The binaries of a section from an offset on, each at the next 64-byte boundary. -/
def formBinaries (m : Mach) (b : List Byte) : Nat → Nat → Option Nat
  | 0, off => endBad b off
  | n + 1, off =>
    let at' := roundUp off 64
    want (zeroSpan b off at') off <|> want (decide (at' + 64 ≤ b.length)) at'
    <|> formBinary m false false b at' <|> formBinaries m b n (binEnd b at')

/-- One half of a bank map (R344, R345) at an offset, for a core that the shape has. -/
def formMap (b : List Byte) : Option Nat :=
  let n := le b 6 1
  let regs := (List.range (min n 63)).map (fun r => slice b (8 + 8 * r) 8)
  let gf (r : List Byte) := le r 0 2
  let gc (r : List Byte) := le r 2 2
  let bf (r : List Byte) := le r 4 1
  let bn (r : List Byte) := le r 5 1
  let wf (r : List Byte) := le r 6 2
  let words (r : List Byte) := gc r * 64 / bn r
  let cover := sortBy (fun x y => decide (x.1 ≤ y.1)) (regs.map (fun r => (gf r, gc r)))
  want (decide (1 ≤ n) && decide (n ≤ 63)) 6 <|> want (zeroSpan b 7 8) 7 <|> want (zeroSpan b (8 + 8 * n) 512) (8 + 8 * n)
  <|> eachRec b 8 8 n (fun _ r => layoutBad 8 [rangeOf' 0 2 0 6143, rangeOf' 2 2 1 6144, rangeOf' 4 1 0 47, rangeOf' 5 1 1 48, rangeOf' 6 2 0 8191] r
      <|> want (decide (bf r + bn r ≤ 48)) 5 <|> want (gc r * 64 % bn r == 0) 2 <|> want (decide (wf r + words r ≤ 8192)) 6)
  <|> want (cover.foldl (fun a x => if a = some x.1 then some (x.1 + x.2) else none) (some 0) == some 6144) 8
  <|> (List.range n).findSome? (fun i =>
      let r := regs.getD i []
      want (!(regs.take i).any (fun s => overlap (bf r, bn r) (bf s, bn s) && overlap (wf r, words r) (wf s, words s))) (8 + 8 * i))

/-- The schedule block (R596). -/
def formSchedule (m : Mach) (b : List Byte) : Option Nat :=
  let mode := le b 0 1
  let be (k off : Nat) : List FieldRow :=
    if mode = 1 ∧ k < coresPer m then [rangeOf' off 2 0 6143, rangeOf' (off + 2) 2 1 (6144 - le b off 2)]
    else [rangeOf' off 2 0 0, rangeOf' (off + 2) 2 0 0]
  let full (off : Nat) : FieldRow := if mode = 2 then anyOf off 4 else rangeOf' off 4 0 0
  layoutBad 64 ([rangeOf' 0 1 0 2] ++ be 0 4 ++ be 1 8 ++ [rangeOf' 0xC 4 0 1000000, full 0x10, full 0x14,
    ⟨0x18, 8, fun v => v % 4096 == 0 && (v == 0 || mode != 0)⟩]) b

def formRoutines (m : Mach) (b : List Byte) : Option Nat :=
  let n := le b 0 2
  let c0 := le b (64 + 0x10) 4
  let e0 := binEnd b 64
  layoutBad 64 [rangeOf' 0 2 1 256, anyOf 4 4] b <|> formBinaries m b n 64
  <|> want (decide (1088 ≤ c0)) (64 + 0x10)
  <|> ((formMap (slice b (e0 - 1024) 512)).map (· + (e0 - 1024)))
  <|> (if coresPer m = 2 then (formMap (slice b (e0 - 512) 512)).map (· + (e0 - 512)) else want (zeroSpan b (e0 - 512) e0) (e0 - 512))
  <|> ((formSchedule m (slice b (e0 - 1088) 64)).map (· + (e0 - 1088)))

/-- R59, R301. -/
def formSeqfw (m : Mach) (b : List Byte) : Option Nat :=
  want (decide (b.length ≤ 131072)) 0 <|> want (decide (64 ≤ b.length)) 0 <|> formBinary m false true b 0 <|> endBad b (binEnd b 0)

def formIslandfw (b : List Byte) : Option Nat :=
  layoutBad 64 [⟨0, 4, fun v => v == 0x46494B46⟩, rangeOf' 4 4 4 1572864, ⟨8, 4, fun v => v % 4 == 0 && decide (v < le b 4 4)⟩] b
  <|> want (b.length == 64 + le b 4 4) 4

/-! ### PARTNER, CALLER (R515, R519) -/

/-- The largest chunk payload of a stream (R184, R185): one row of 16-bit samples, or one packet of at most MAX_FRAME less the
Ethernet, IPv4 and UDP headers and the FCS. -/
def chunkMax (m : Mach) (e : List Byte) : Nat :=
  if strCamera e then strWidth e / decimD e * 2 else le (sec m 3 0) (0x210 + 64 * strPort e + 2) 2 - 46

def formPartner (m : Mach) (b : List Byte) : Option Nat :=
  let n := le b 0 2
  let at' := roundUp (64 + 32 * n) 64
  let es := (List.range n).map (fun i => slice b (64 + 32 * i) 32)
  layoutBad 64 [rangeOf' 0 2 1 1024] b <|> climb 64 32 (es.map (fun e => le e 0 2))
  <|> eachRec b 64 32 n (fun _ r =>
      let e := streamEntry m (le r 0 2)
      layoutBad 32 [⟨0, 2, fun v => strSafety (streamEntry m v)⟩, rangeOf' 2 1 2 16, multOf 4 4 4096, multOf 8 4 4096,
        ⟨0xC, 4, fun v => v % 64 == 0 && decide (chunkMax m e ≤ v)⟩] r)
  <|> want (zeroSpan b (64 + 32 * n) at') (64 + 32 * n) <|> want (decide (at' + 64 ≤ b.length)) at'
  <|> formBinary m true false b at' <|> endBad b (binEnd b at')

def formCallerProfile (r : List Byte) : Option Nat :=
  let w := le r 0 2
  let h := le r 2 2
  layoutBad 128 [rangeOf' 0 2 1 256, ⟨2, 2, fun v => decide (1 ≤ v) && decide (v ≤ 256) && decide (w * v ≤ 16384)⟩, rangeOf' 4 1 0 254,
    rangeOf' 5 1 0 8, rangeOf' 6 2 0 (w * h), anyOf 8 64] r
  <|> eachRec r 8 8 8 (fun i g =>
      if le r 5 1 ≤ i then want (zeroSpan g 0 8) 0
      else want (decide (1 ≤ le g 4 2) && decide (1 ≤ le g 6 2) && decide (le g 0 2 + le g 4 2 ≤ w) && decide (le g 2 2 + le g 6 2 ≤ h)) 0)

def formCaller (b : List Byte) : Option Nat :=
  let np := le b 0 1
  let ne := le b 2 2
  let e0 := 32 + 128 * np
  layoutBad 32 [rangeOf' 0 1 1 16, rangeOf' 2 2 1 1024] b <|> want (b.length == e0 + 8 * ne) 0
  <|> eachRec b 32 128 np (fun _ r => formCallerProfile r)
  <|> climb e0 8 ((List.range ne).map (fun i => le b (e0 + 8 * i) 2))
  <|> eachRec b e0 8 ne (fun _ r => layoutBad 8 [anyOf 0 2, rangeOf' 2 1 0 (np - 1)] r)

/-! ### HOST, SASH, PRELOAD (R548, R549, R422, R60) -/

/-- An owner of a ring, region or lock: the PF, a VF up to VF_TOTAL, the host cluster; and where `parts` allows them a partition. -/
def ownerOk (vfs : Nat) (parts : Bool) (v : Nat) : Bool :=
  (decide (1 ≤ v) && decide (v ≤ vfs + 1)) || v == 0x41 || (parts && decide (0x58 ≤ v) && decide (v ≤ 0x5F))

def formQueue (m : Mach) (vfs : Nat) (r : List Byte) : Option Nat :=
  let kind := le r 3 1
  let fl := le r 5 1
  let own := le r 2 1
  layoutBad 32 [rangeOf' 0 2 0 16383, ⟨2, 1, ownerOk vfs false⟩, rangeOf' 3 1 1 5,
    ⟨4, 1, fun v => if kind = 2 ∧ bitOf fl 2 then decide (v < 8) else v == 0xFF⟩,
    ⟨5, 1, fun v => decide (v < 8) && (kind == 2 || decide (v < 2)) && (own != 0x41 || bitOf v 0)⟩,
    ⟨6, 2, fun v => if kind = 2 then (match queueEntry m v with | some c => le c 3 1 == 3 && le c 2 1 == own | none => false) else v == 0xFFFF⟩,
    ⟨8, 4, fun v => v == 0 || (kind == 1 && v % 64 == 0 && decide (v ≤ 16777216))⟩,
    ⟨0xC, 4, fun v => v == 0 || (kind == 1 && decide (v ≤ 65536))⟩, multOf 0x10 8 4096] r

/-- A ring that the header names has the owner and KIND it needs. -/
def headRing (m : Mach) (own kind v : Nat) : Bool :=
  v == 0xFFFF || (match queueEntry m v with | some c => le c 2 1 == own && le c 3 1 == kind | none => false)

def formHost (m : Mach) (b : List Byte) : Option Nat :=
  let vfs := le b 0 1
  let nq := le b 2 2
  let nr := le b 4 2
  let r0 := 64 + 32 * nq
  let l0 := r0 + 32 * nr
  layoutBad 64 [rangeOf' 0 1 0 63, rangeOf' 1 1 0 2, rangeOf' 2 2 1 16384, rangeOf' 4 2 0 256, ⟨6, 2, headRing m 1 4⟩, ⟨8, 2, headRing m 0x41 4⟩,
    ⟨0xA, 2, headRing m 1 5⟩, anyOf 0xC 4, rangeOf' 0x10 1 0 16] b
  <|> want (b.length == l0 + 1024) 2
  <|> climb 64 32 ((List.range nq).map (fun i => le b (64 + 32 * i) 2))
  <|> eachRec b 64 32 nq (fun _ r => formQueue m vfs r)
  <|> eachRec b r0 32 nr (fun _ r => layoutBad 32 [multOf 0 8 4096, ⟨8, 8, fun v => v % 4096 == 0 && decide (4096 ≤ v)⟩,
      ⟨0x10, 1, ownerOk vfs true⟩, rangeOf' 0x11 1 1 3] r)
  <|> eachRec b l0 1 1024 (fun _ r => want (le r 0 1 == 0 || ownerOk vfs true (le r 0 1) || le r 0 1 == 0x60) 0)

def formSash (m : Mach) (b : List Byte) : Option Nat :=
  let en := le b 0 1
  let n := le b 1 1
  layoutBad 32 [rangeOf' 0 1 0 15, rangeOf' 1 1 0 32, rangeOf' 2 2 1 1000, rangeOf' 4 4 100 1000000, ⟨8, 8, fun v => v != 0⟩] b
  <|> want (b.length == 0x60 + 32 * n) 1
  <|> eachRec b 0x20 16 4 (fun l r =>
      if bitOf en l then layoutBad 16 [⟨0, 1, fun v => decide (v < 8) && v != packageIndex m⟩, rangeOf' 1 1 0 3, anyOf 2 1, rangeOf' 3 1 0 10] r
      else want (zeroSpan r 0 16) 0)
  <|> eachRec b 0x60 32 n (fun _ r => layoutBad 32 [rangeOf' 0 1 0 1, ⟨1, 1, fun v => decide (v < 4) && bitOf en v⟩,
      ⟨2, 1, fun v => decide (v < 8) && partRole m v != 0⟩, rangeOf' 3 1 2 64,
      ⟨4, 4, fun v => v % 4096 == 0 && decide (4096 ≤ v) && decide (v ≤ 1048576)⟩, multOf 8 8 4096, rangeOf' 0x10 1 0 31] r)

/-- `blobs` is where the blob data of the container lies: behind its last section, before its signature block. -/
def formPreload (m : Mach) (blobs : Nat × Nat) (b : List Byte) : Option Nat :=
  let n := b.length / 128
  want (b.length % 128 == 0 && decide (1 ≤ n) && decide (n ≤ 256)) 0
  <|> eachRec b 0 128 n (fun _ r =>
      let src := le r 0 1
      let len := le r 0x18 8
      layoutBad 128 [rangeOf' 0 1 0 1, rangeOf' 1 1 0 1, anyOf 2 1, ⟨4, 4, fun v => v == 0 || src == 1⟩,
        ⟨8, 8, fun v => src == 1 || (v % 64 == 0 && decide (blobs.1 ≤ v) && decide (v + len ≤ blobs.2))⟩, multOf 0x10 8 256,
        ⟨0x18, 8, fun v => decide (1 ≤ v) && decide (v ≤ 0x1000000000) && decide (le r 0x10 8 + v ≤ hbmBytes m)⟩, anyOf 0x20 48] r)

/-! ### All of them -/

/-- Where the blob data of a container lies. -/
def blobSpan (c : List Byte) : Nat × Nat :=
  (((directory c).map (fun (_, e) => dOffset e + dLength e)).foldl max (dirEnd c), sigAt c)

/-- The form of one section. HOSTFW is a plain image. -/
def formSection (m : Mach) (c : List Byte) (x : Sec) : Option Nat :=
  let b := x.bytes
  match x.type with
  | 1 => formDevice m b
  | 2 => formTime b
  | 3 => formPorts b
  | 4 => formStreams m b
  | 5 => formIsp m b
  | 6 => formPartition m x.instnc b
  | 7 => formRoutines m b
  | 8 => formSeqfw m b
  | 9 => formIslandfw b
  | 0xB => formPartner m b
  | 0xC => formCaller b
  | 0xD => formHost m b
  | 0xE => formSash m b
  | 0xF => formPower m b
  | 0x10 => formPreload m (blobSpan c) b
  | 0x11 => formSafety b
  | 0x12 => formDebug m c b
  | 0x13 => formMemory b
  | 0x14 => layoutBad 16 [anyOf 0 8, rangeOf' 8 1 1 3, ⟨9, 1, fun v => if le b 8 1 = 3 then decide (v < 4) else v == 0⟩] b <|> want (b.length == 16) 0
  | _ => none

end Sys2Proof.Machine
end

