-- ==== Sys2Proof/Machine/SectionFit.lean ====
section
/-!
DEFINITION. Steps 13 to 18 of verification over several sections (R53): references between sections, resources, contract, worst-case
times, the turn's timing inequalities and the UCIe allotment. The part is read as it would stand with the container applied (R70).
-/

namespace Sys2Proof.Machine

/-! ### Rates -/

/-- A non-negative fraction. -/
structure Frac where
  num : Nat := 0
  den : Nat := 1
deriving DecidableEq, Repr

def Frac.add (a b : Frac) : Frac :=
  let n := a.num * b.den + b.num * a.den
  let d := a.den * b.den
  let g := Nat.gcd n d
  ⟨n / g, d / g⟩

def Frac.le (a : Frac) (n : Nat) : Bool := decide (a.num ≤ n * a.den)

/-- The sum of fractions. -/
def fracSum (l : List Frac) : Frac := l.foldl Frac.add {}

/-- FRAME_US − JITTER_US: the shortest interval between two accepted frame starts (R28). -/
def strGap (e : List Byte) : Nat := strFrameUs e - strJitterUs e

/-- TURN_PERIOD_US. -/
def periodUs (m : Mach) : Nat := periodNs m / 1000

/-! ### Areas of HBM (R63) -/

def rawAreas (m : Mach) : List (Nat × Nat) := (streamEntries m).map (fun e => (strRegion e, strRegionBytes e))
def ispOutAreas (m : Mach) : List (Nat × Nat) := (ispEntries m).map (fun x => (ispRegion x, ispRegionBytes x))
def ispAreas (m : Mach) : List (Nat × Nat) :=
  ispOutAreas m ++ (ispEntries m).map (fun x => (ispStatsBase x, 4096 * ispStats x)) ++ (ispEntries m).map (fun x => (ispTapBase x, ispTapBytes x))
def kvAreas (m : Mach) : List (Nat × Nat) := (List.range 8).map (fun p => (kvBase m p, 65536 * kvPages m p))
def boxAreas (m : Mach) : List (Nat × Nat) := (boxCfgs m).map (fun b => (b.base, b.slots * b.bytes))
/-- Bytes of a save area (R597). -/
def saveBytes (m : Mach) (p : Nat) : Nat :=
  match schedMode m p with
  | 0 => 0
  | 1 => 65536
  | _ => 65536 + 2 * 25165824 * coresPer m
def saveAreas (m : Mach) : List (Nat × Nat) := (List.range 8).map (fun p => (saveBase m p, saveBytes m p))
def spillAreas (m : Mach) : List (Nat × Nat) := (queueEntries m).map (fun e => (le e 0x10 8, le e 0xC 4 * (64 + le e 8 4)))
def regionAreas (m : Mach) : List (Nat × Nat) := (regions m).map (fun r => (r.base, r.bytes))
def hostfwArea (m : Mach) : Nat × Nat := (hostImageBase m, (sec m 0xA 0).length)
def destAreas (m : Mach) : List (Nat × Nat) := (List.range (preloadCount m)).map (fun i => (le (preload m i) 0x10 8, le (preload m i) 0x18 8))
def stagingArea (m : Mach) : Nat × Nat := (stagingBase m, 0x1000000)

/-- A range lies in populated HBM and meets none of the others. -/
def clearOf (m : Mach) (a : Nat × Nat) (l : List (Nat × Nat)) : Bool :=
  a.2 == 0 || (decide (a.1 + a.2 ≤ hbmBytes m) && !l.any (fun b => b.2 != 0 && overlap a b))

/-! ### Where a failure lies -/

/-- A failure in a section of the container, at an offset of it; in a section that the container does not carry, at none. -/
def failAt (c : List Byte) (code type inst off : Nat) : LoadFail :=
  match (directory c).find? (fun (_, e) => dType e == type && dInst e == inst) with
  | some (i, e) => ⟨code, dOffset e + off, i⟩
  | none => { code := code }

/-- Fails at a place of a section unless the condition holds. -/
def fit (c : List Byte) (ok : Bool) (code type inst off : Nat) : Verdict := if ok then none else some (failAt c code type inst off)

/-- Offset of the `i`-th stream entry, and of the `i`-th ISP entry, in its section. -/
def strOff (i : Nat) : Nat := 16 + 64 * i
def ispOff (m : Mach) (i : Nat) : Nat := 64 + 1024 * ispProfiles m + 64 * i

/-- Elements with their positions. -/
def indexed {α : Type} (l : List α) : List (Nat × α) := (List.range l.length).zip l

/-! ### Step 13 between sections (R152, R298, R299, R418) -/

/-- Every routine binary of the pattern: its section, its offset and itself; SEQFW and PARTNER hold one each. -/
def binaries (m : Mach) : List (Nat × Nat × Nat × Routine) :=
  (List.range 8).flatMap (fun p => (routines m p).map (fun r => (7, p, r.base - 64 - routinesAt m, r))) ++
    [(8, 0, 0, readRoutine (sec m 8 0) 0 0 0)] ++
    (if (secOf m 0xB 0).isSome then [(0xB, 0, ptnOff m, readRoutine (sec m 0xB 0) 0 (ptnOff m) 0)] else [])

/-- `on` says which streams are enabled. -/
def crossForm (c : List Byte) (on : Nat → Bool) (m : Mach) : Verdict :=
  let ids := binaries m
  eachOf (directory c) (fun (_, e) => fit c (!(dType e == 7 && partRole m (dInst e) == 0)) Ld.sectionFormat 7 (dInst e) 0)
  <|> eachOf ids (fun (t, p, off, r) => fit c (!(t == 7 && partRole m p == 4 && r.cls == 0)) Ld.sectionFormat t p (off + 6))
  <|> eachOf (indexed ids) (fun (i, t, p, off, r) => fit c (!(ids.take i).any (fun y => y.2.2.2.id == r.id)) Ld.sectionFormat t p (off + 8))
  <|> eachOf (indexed (streamEntries m)) (fun (i, e) =>
      if !on (le e 0 2) then none
      else fit c (match routineAt m (strPart e) (strRoutine e) with
        | some r => r.cls == (if strLc e then 0 else 1)
        | none => false) Ld.sectionFormat 4 0 (strOff i + 0xE))

/-! ### Step 14: RESOURCE -/

/-- Ports (R4, R118, R147). -/
def fitPorts (c : List Byte) (m : Mach) : Verdict :=
  let aphy := secLe m 3 0 0 4
  let eth := secLe m 3 0 4 2
  let tp := secLe m 2 0 0 1
  let mp := secLe m 2 0 0xE 2
  let saf := secLe m 0x11 0 7 1
  fit c (grade m != 2 || aphy < 2 ^ 16) Ld.resource 3 0 0 <|> fit c (grade m != 2 || eth < 2 ^ 8) Ld.resource 3 0 4
  <|> fit c (tp == 0xFF || (if tp < 16 then bitOf eth tp else bitOf saf (tp - 16))) Ld.resource 2 0 0
  <|> fit c ((tp ≥ 16 || !bitOf mp tp) && (List.range 16).all (fun n => !bitOf mp n || bitOf eth n)) Ld.resource 2 0 0xE

/-- The UCIe module nearer a partition's stop, and the one nearer an HBM address (R28). -/
def partModule (p : Nat) : Nat := if p % 4 < 2 then 0 else 1
def hbmModule (m : Mach) (a : Nat) : Nat := partModule (a / hbmEighth m)

/-- Gear rate in Mb/s (R143). -/
def gearMbps (g : Nat) : Nat := [0, 2000, 4000, 8000, 12000, 16000].getD g 0

def copyRate (e : List Byte) : Frac :=
  if strCamera e then ⟨strWidth e / decimD e * (strHeight e / decimD e) * 2, strGap e⟩ else ⟨strSlotBytes e, decimK e * strGap e⟩

/-- Streams (R4, R150, R161, R170, R185, R195, R418). -/
def fitStreams (c : List Byte) (on : Nat → Bool) (m : Mach) : Verdict :=
  let es := streamEntries m
  let guard := stagingArea m :: kvAreas m
  eachOf (indexed es) (fun (i, e) =>
    let n := le e 0 2
    let o := strOff i
    let port := if strCamera e then bitOf (secLe m 3 0 0 4) (strPort e) else bitOf (secLe m 3 0 4 2) (strPort e)
    let role := partRole m (strPart e)
    fit c (grade m != 2 || n < 256 || (512 ≤ n && n < 768)) Ld.resource 4 0 o
    <|> fit c port Ld.resource 4 0 (o + 3) <|> fit c (role == 1 || (role != 0 && !on n)) Ld.resource 4 0 (o + 7)
    <|> fit c (clearOf m (strRegion e, strRegionBytes e) guard) Ld.resource 4 0 (o + 0x28)
    <|> fit c (match queueEntry m (strQueue e) with | some q => le q 3 1 == 1 | none => false) Ld.resource 4 0 (o + 0x38)
    <|> fit c (2 + ceilDiv (2 * periodUs m) (strFrameUs e) ≤ strSlots e) Ld.resource 4 0 (o + 0x16)
    <|> fit c (!strCamera e || (ispEntry? m n).isSome) Ld.resource 4 0 (o + 0xF))
  <|> eachOf (List.range 32) (fun p =>
      let l := (es.filter (fun e => strCamera e && strPort e == p)).map (fun e => (⟨(strHeight e * lineBytes e + strEmb e) * 8, strGap e⟩ : Frac))
      fit c (l.isEmpty || (fracSum l).le (gearMbps (secLe m 3 0 (0x11 + 16 * p) 1))) Ld.resource 4 0 0)
  <|> eachOf [0, 1] (fun u =>
      fit c ((fracSum ((es.filter (fun e => hbmModule m (strRegion e) == u)).map (fun e => ⟨strSlotBytes e, strGap e⟩))).le 128000) Ld.resource 4 0 0)
  <|> fit c ((fracSum ((es.filter strSafety).map copyRate)).le 16000) Ld.resource 4 0 0

/-- Slots of the schedule that serve a stream, and the cycle positions at which one is active (R198). -/
def slotList (m : Mach) : List (List Byte) := (List.range (ispSlots m)).map (ispSlot m)
def activeAt (r : List Byte) (k : Nat) : Bool := bitOf (le r 8 8) k
def activePos (m : Mach) (n : Nat) : List Nat :=
  ((slotList m).filter (fun r => le r 2 2 == n)).flatMap (fun r => (List.range (cycleTurns m)).filter (activeAt r))

/-- The image pipeline (R199, R345). -/
def fitIsp (c : List Byte) (m : Mach) : Verdict :=
  eachOf (indexed (ispEntries m)) (fun (i, x) =>
    let n := le x 0 2
    let e := streamEntry m n
    let o := ispOff m i
    let scr := ispDest x = 0
    fit c (clearOf m (ispRegion x, ispRegionBytes x) []) Ld.resource 5 0 (o + 0x18)
    <|> fit c (clearOf m (ispStatsBase x, 4096 * ispStats x) []) Ld.resource 5 0 (o + 0x28)
    <|> fit c (clearOf m (ispTapBase x, ispTapBytes x) []) Ld.resource 5 0 (o + 0x30)
    <|> fit c (!scr || ispScrOffset x + tensorBytes x ≤ scrBytes) Ld.resource 5 0 (o + 0xC)
    <|> fit c (2 + ceilDiv (2 * periodUs m) (strGap e) ≤ ispOutSlots x) Ld.resource 5 0 (o + 0xA)
    <|> fit c (ceilDiv (cycleTurns m * periodUs m) (strGap e) ≤ (activePos m n).length) Ld.resource 5 0 o
    <|> fit c (!scr || !(banksOf m (strPart e) (ispCore x) (ispScrOffset x) (tensorBytes x)).any (weightBank m (strPart e) (ispCore x)))
        Ld.resource 5 0 (o + 0xC))
  <|> eachOf (List.range 8) (fun p =>
      let act := ((ispEntries m).filter (fun x => strPart (streamEntry m (le x 0 2)) == p)).flatMap (fun x => activePos m (le x 0 2))
      let at' (k : Nat) : Nat := (act.filter (· == k)).length
      fit c ((List.range (cycleTurns m)).all (fun k => at' k + at' ((k + 1) % cycleTurns m) ≤ 512)) Ld.resource 5 0 0)

/-- Pages of a pool's page descriptor table (R388). -/
def kvTablePages (n : Nat) : Nat := ceilDiv (n * 8) 65536

/-- Partitions (R58, R59, R330, R388, R597). -/
def fitParts (c : List Byte) (m : Mach) : Verdict :=
  let guard := rawAreas m ++ ispAreas m ++ kvAreas m ++ boxAreas m ++ regionAreas m ++ [stagingArea m]
  eachOf (List.range 8) (fun p =>
    let n := kvPages m p
    let mode := schedMode m p
    let mine := (streamEntries m).filter (fun e => strPart e == p)
    let save := (saveBase m p, saveBytes m p)
    let o := (match routineAt m p 0 with | some r => r.base - routinesAt m + r.code + r.const - 1088 | none => 0)
    fit c (partRole m p != 4 || grade m == 1) Ld.resource 6 p 0
    <|> fit c (n == 0 || 6 + kvTablePages n + kvTemporal m p ≤ n) Ld.resource 6 p 0x10
    <|> fit c ((secOf m 7 p).isNone || routinesAt m + (sec m 7 p).length ≤ 2 ^ 20) Ld.resource 7 p 0
    <|> fit c (mode != 0 || ((routines m p).all (fun r => r.cls == 0) && mine.all strLc)) Ld.resource 7 p o
    <|> fit c (mode == 0 || (p * hbmEighth m ≤ save.1 && save.1 + save.2 ≤ (p + 1) * hbmEighth m && clearOf m save guard)) Ld.resource 7 p (o + 0x18)
    <|> eachOf mine (fun e =>
        match ispEntry? m (le e 0 2) with
        | none => none
        | some x =>
          if ispDest x ≠ 0 ∨ mode = 0 then none
          else if mode = 2 then fit c false Ld.resource 7 p o
          else
            let g := (ispScrOffset x / 4096, ceilDiv (tensorBytes x) 4096)
            let be := (beFirst m p (ispCore x), beCount m p (ispCore x))
            fit c (if strLc e then !overlap g be else be.1 ≤ g.1 && g.1 + g.2 ≤ be.1 + be.2) Ld.resource 7 p o)
    <|> fit c (((mine.filter (fun e => !strCamera e)).map (fun e => ceilDiv (2 * periodUs m) (strGap e))).sum ≤ 512) Ld.resource 4 0 0)

/-- Boxes (R422). -/
def fitBoxes (c : List Byte) (m : Mach) : Verdict :=
  let l := boxAreas m
  let guard := rawAreas m ++ ispAreas m ++ kvAreas m ++ [stagingArea m]
  eachOf (indexed (boxCfgs m)) (fun (i, b) =>
    let a := (b.base, b.slots * b.bytes)
    fit c (b.part * hbmEighth m ≤ a.1 && a.1 + a.2 ≤ (b.part + 1) * hbmEighth m && clearOf m a (guard ++ l.take i)) Ld.resource 0xE 0 (0x60 + 32 * i + 8))

/-- The second channel (R515, R516, R519, R528). -/
def fitSafety (c : List Byte) (m : Mach) : Verdict :=
  let b := sec m 0xB 0
  let n := le b 0 2
  let ps := (List.range n).map (fun i => slice b (64 + 32 * i) 32)
  let areas := ps.map (fun x => (le x 4 4, le x 2 1 * le x 8 4))
  let safe := (streamEntries m).filter strSafety
  let callers (i : Nat) : Nat := ((List.range (secLe m 0xC 0 2 2)).filter (fun j => secLe m 0xC 0 (32 + 128 * secLe m 0xC 0 0 1 + 8 * j) 2 == i)).length
  let cells (e : List Byte) : Nat := gridBytes ((callerProfile m (le e 0 2)).getD [])
  eachOf safe (fun e => fit c (ps.any (fun x => le x 0 2 == le e 0 2)) Ld.resource 0xB 0 0 <|> fit c (callers (le e 0 2) == 1) Ld.resource 0xC 0 0)
  <|> eachOf (indexed ps) (fun (i, x) =>
      let e := streamEntry m (le x 0 2)
      fit c (0x40 + ptnMap e + ptnChunks e * le x 0xC 4 ≤ le x 8 4) Ld.resource 0xB 0 (64 + 32 * i + 8)
      <|> fit c (le x 4 4 + le x 2 1 * le x 8 4 ≤ 0x1000000 && !(areas.take i).any (overlap (areas.getD i (0, 0)))) Ld.resource 0xB 0 (64 + 32 * i + 4))
  <|> fit c ((safe.map (fun e => ceilDiv (2 * periodUs m) (strGap e) * 2 * cells e)).sum ≤ 2 ^ 21) Ld.resource 0xC 0 0
  <|> fit c (secLe m 0x11 0 7 1 == 0 ||
      (fracSum (safe.map (fun e => ⟨(cells e + 114 * ceilDiv (cells e) 1400) * 8, strGap e⟩))).le 800) Ld.resource 0x11 0 7

/-- Queues, the HOSTFW copy and the preload (R63, R549). -/
def fitHost (c : List Byte) (nvme : Bool) (m : Mach) : Verdict :=
  let hw := if (secOf m 0xA 0).isSome then [hostfwArea m] else []
  let guard := rawAreas m ++ ispAreas m ++ kvAreas m ++ boxAreas m ++ saveAreas m ++ [stagingArea m]
  let spills := spillAreas m
  let dests := destAreas m
  fit c (nvmePairs m == 0 || nvme) Ld.resource 0xD 0 0x10
  <|> eachOf (indexed spills) (fun (i, a) => fit c (clearOf m a (guard ++ regionAreas m ++ hw ++ dests ++ spills.take i)) Ld.resource 0xD 0 (64 + 32 * i + 0x10))
  <|> eachOf hw (fun a => fit c (clearOf m a (guard ++ spills)) Ld.resource 1 0 0x20)
  <|> eachOf (indexed dests) (fun (i, a) => fit c (clearOf m a (guard ++ spills ++ hw ++ dests.take i)) Ld.resource 0x10 0 (128 * i + 0x10))

/-! ### Steps 15 and 16: CONTRACT, NO_WCET -/

def fitContract (c : List Byte) (m : Mach) : Verdict :=
  eachOf (binaries m) (fun (t, p, off, r) =>
    let b := slice (sec m t p) off 64
    fit c (le b 4 1 ≤ rd m Reg.PAT_ID_CONTRACT && le b 5 1 == 0x80 + coresPer m) Ld.contract t p (off + 4)
    <|> eachOf (codeWords (sec m t p) (off + 64) (r.code / 8) 0) (fun (pc, x) =>
        fit c (!opForeign (if t = 0xB then 8 else 0) (x / 2 ^ 56)) Ld.contract t p (off + 64 + pc)))

def fitWcet (c : List Byte) (m : Mach) : Verdict :=
  eachOf (binaries m) (fun (t, p, off, r) => fit c (t == 8 || r.cls != 0 || r.cycles != 0 || r.fixed != 0) Ld.noWcet t p (off + 0x1C))

/-! ### Step 17: TIMING (R96, R101, R199, R349, R515, R597, R699) -/

/-- Worst-case time of a routine in units of 1/`mhz` ns (R299). -/
def wcetUnits (r : Routine) (mhz : Nat) : Nat := r.cycles * 1000 + r.fixed * mhz

/-- Finishes of a partition's latency-critical routines, in the order of R591 and in units of 1/`mhz` ns from the window's end. -/
def finishes (mhz : Nat) : Nat → List Routine → List (Routine × Nat)
  | _, [] => []
  | t, r :: l =>
    let f := max t (r.start * mhz) + wcetUnits r mhz
    (r, f) :: finishes mhz f l

/-- W_req in µs (R96). -/
def windowReq (mhz : Nat) : Nat := ceilDiv (68192 * 1000 + 32000 * mhz) (1000 * mhz)

/-- The largest distance, round the cycle, from one active position to the next. -/
def widestGap (ct : Nat) (l : List Nat) : Nat :=
  (l.map (fun a => ((List.range ct).map (· + 1)).find? (fun d => l.contains ((a + d) % ct)) |>.getD ct)).foldl max 0

/-- The rate in MB/s that R28 allots in a partition's HBM (R597). -/
def allotted (m : Mach) (p : Nat) : Frac :=
  let here (a : Nat) : Bool := a / hbmEighth m == p
  fracSum ((streamEntries m).flatMap (fun e =>
    let raw : List Frac := if here (strRegion e) then [⟨strSlotBytes e, strGap e⟩] else []
    match ispEntry? m (le e 0 2) with
    | none => raw
    | some x =>
      raw ++ raw ++ (if here (ispRegion x) then [⟨ispSlotBytes x, strGap e⟩] else []) ++
        (if ispStats x ≠ 0 ∧ here (ispStatsBase x) then [⟨4096, strGap e⟩] else []) ++
        (if ispTapBytes x ≠ 0 ∧ here (ispTapBase x) then [⟨6 * strWidth e * strHeight e, strGap e⟩] else [])))

/-- FULL's save and restore times, and its window (R597). -/
def fitFull (c : List Byte) (m : Mach) (p : Nat) : Verdict :=
  if schedMode m p ≠ 2 then none
  else
    let a := allotted m p
    let den := 196000 * a.den - 2 * a.num
    let least := 3000 + ceilDiv (25165824 * coresPer m * 1000 * a.den) den
    let w := windowReq (pointMhz (partSlowest m p))
    fit c (a.num * 2 + 100000 * a.den ≤ 196000 * a.den && least ≤ saveNs m p && least ≤ restoreNs m p) Ld.timing 7 p 0
    <|> fit c (w * 1000 + restoreNs m p ≤ windowNs m) Ld.timing 7 p 0

/-- The turn of one partition. -/
def fitTurn (c : List Byte) (m : Mach) (p : Nat) : Verdict :=
  let mhz := pointMhz (partSlowest m p)
  let pn := periodNs m
  let wn := windowNs m
  let b := budgetNs m p
  let fin := finishes mhz 0 (lcRoutines m p)
  let ptn := readRoutine (sec m 0xB 0) 0 (ptnOff m) 0
  fit c (windowReq mhz * 1000 ≤ wn) Ld.timing 1 0 8
  <|> fit c (wn + b + ceilDiv pn 10000 ≤ pn - shortenNs m) Ld.timing 7 p 4
  <|> fit c (fin.all (fun x => x.2 ≤ b * mhz)) Ld.timing 7 p 4
  <|> fitFull c m p
  <|> eachOf (indexed (streamEntries m)) (fun (i, e) =>
      match fin.find? (fun x => x.1.index == strRoutine e) with
      | none => none
      | some (r, f) =>
        if strPart e ≠ p ∨ !strLc e then none
        else
          let n := le e 0 2
          let feeds := (slotList m).filter (fun s => le s 2 2 == n)
          -- worst case behind the close of the frame, in units of 1/mhz ns
          let main := if strCamera e then (widestGap (cycleTurns m) (activePos m n) * pn + wn) * mhz + f else (pn - r.start) * mhz + f
          let second := (pn + 10000) * mhz + ceilDiv (wcetUnits ptn 900 * mhz) 900
          let all := if strSafety e then max main second + 10000 * mhz else main
          fit c (!strCamera e || feeds.all (fun s => le s 4 4 + jobNs e ≤ wn + r.start)) Ld.timing 7 p (r.base - 64 - routinesAt m + 0x18)
          <|> fit c (all ≤ 2 * pn * mhz) Ld.timing 4 0 (strOff i))

/-- The pipe schedule: no two jobs of one pipe overlap, all end in the turn (R199), and none fills more than half of a D lane (R349). -/
def fitSlots (c : List Byte) (m : Mach) : Verdict :=
  let at0 := ispOff m (ispCount m)
  eachOf (List.range (cycleTurns m)) (fun k =>
    let act := (indexed (slotList m)).filter (fun r => activeAt r.2 k)
    let job (r : List Byte) : Nat × Nat := (le r 4 4, jobNs (streamEntry m (le r 2 2)))
    eachOf (indexed act) (fun (j, i, r) =>
      fit c ((job r).1 + (job r).2 ≤ periodNs m) Ld.timing 5 0 (at0 + 16 * i + 4)
      <|> fit c (!(act.take j).any (fun s => le s.2 0 1 == le r 0 1 && overlap (job r) (job s.2))) Ld.timing 5 0 (at0 + 16 * i + 4)
      <|> (let x := ispEntry m (le r 2 2)
           let p := strPart (streamEntry m (le r 2 2))
           let load := ((act.filter (fun s =>
             let y := ispEntry m (le s.2 2 2)
             ispDest y == 0 && strPart (streamEntry m (le s.2 2 2)) == p && ispCore y == ispCore x &&
               (job s.2).1 ≤ (job r).1 && (job r).1 < (job s.2).1 + (job s.2).2)).map (fun s => 4 * ispPlanes (ispEntry m (le s.2 2 2)))).sum
           fit c (ispDest x != 0 || load * 1000 ≤ 32 * pointMhz (partSlowest m p)) Ld.timing 5 0 (at0 + 16 * i + 4))))

def fitTiming (c : List Byte) (m : Mach) : Verdict :=
  let ptn := readRoutine (sec m 0xB 0) 0 (ptnOff m) 0
  eachOf (List.range 8) (fitTurn c m) <|> fitSlots c m
  <|> fit c ((secOf m 0xB 0).isNone || 60000 * 900 + wcetUnits ptn 900 ≤ periodNs m * 900) Ld.timing 0xB 0 (ptnOff m + 0x1C)

/-! ### Step 18: UCIE_BUDGET (R28) -/

def fitUcie (c : List Byte) (m : Mach) : Verdict :=
  let xs := (streamEntries m).map (fun e => (e, ispEntry? m (le e 0 2)))
  -- rates by module, port die to compute die and back
  let down : List (Nat × Frac) := xs.flatMap (fun (e, x) =>
    (hbmModule m (strRegion e), (⟨strSlotBytes e, strGap e⟩ : Frac)) ::
    (match x with
     | none => []
     | some x =>
       let out := hbmModule m (ispRegion x)
       let dest := if ispDest x = 0 then partModule (strPart e) else out
       [(dest, ⟨ispSlotBytes x, strGap e⟩)] ++ (if dest ≠ out then [(out, ⟨ispSlotBytes x, strGap e⟩)] else []) ++
       (if ispStats x ≠ 0 then [(hbmModule m (ispStatsBase x), ⟨4096, strGap e⟩)] else []) ++
       (if ispTapBytes x ≠ 0 then [(hbmModule m (ispTapBase x), ⟨6 * strWidth e * strHeight e, strGap e⟩)] else [])))
  let up : List (Nat × Frac) := xs.flatMap (fun (e, x) => if x.isSome then [(hbmModule m (strRegion e), ⟨strSlotBytes e, strGap e⟩)] else [])
  eachOf [0, 1] (fun u =>
    let sum (l : List (Nat × Frac)) : Frac := fracSum ((l.filter (fun t => t.1 == u)).map (·.2))
    fit c ((sum down).le 128000 && (sum up).le 128000) Ld.ucieBudget 4 0 0)

/-! ### Steps 13 to 18 -/

/-- Step 13: the container's own sections, then what they refer to. -/
def checkForm (c : List Byte) (on : Nat → Bool) (m : Mach) : Verdict :=
  eachOf (indexed (sectionsOf c)) (fun (i, x) => (formSection m c x).map (fun o => ⟨Ld.sectionFormat, x.offset + o, i⟩))
  <|> crossForm c on m

/-- Steps 14 to 18. -/
def checkFit (c : List Byte) (on : Nat → Bool) (nvme : Bool) (m : Mach) : Verdict :=
  let m := forEach (List.range 8) loadMap m
  fitPorts c m <|> fitStreams c on m <|> fitIsp c m <|> fitParts c m <|> fitBoxes c m <|> fitSafety c m <|> fitHost c nvme m
  <|> fitContract c m <|> fitWcet c m <|> fitTiming c m <|> fitUcie c m

/-- The part as it would stand with a base pattern applied. -/
def asBase (c : List Byte) (m : Mach) : Mach := { m with ldr := { m.ldr with sections := sectionsOf c, header := c.take 256 } }

/-- Whether a stream of the pattern has FLAGS.ENABLE set. -/
def flagOn (m : Mach) (i : Nat) : Bool := bitOf (le (streamEntry m i) 6 1) 2

/-- Steps 1 to 18 for a base pattern; a STORE stops behind step 13 (R88). -/
def checkBase (f : Fuses) (x : LoadSource) (whole nvme : Bool) (c : List Byte) (m : Mach) : Verdict :=
  let n := asBase c m
  checkContainer f m x c <|> checkForm c (flagOn n) n <|> (if whole then checkFit c (flagOn n) nvme n else none)

end Sys2Proof.Machine
end

