-- ==== Sys2Proof/Machine/Apply.lean ====
section
/-!
DEFINITION. A full load: what it resets (R15, R66, R87) and what a base pattern sets when its sections take effect together (R55, R68).
-/

namespace Sys2Proof.Machine

def modLdr (f : Loader → Loader) (m : Mach) : Mach := { m with ldr := f m.ldr }

/-- A failure is reported (R83). -/
def loadErr (x : LoadFail) (m : Mach) : Mach :=
  m |> wr Reg.PAT_ERROR_CODE x.code |> wr Reg.PAT_ERROR_SECTION x.sect |> wr Reg.PAT_ERR_OFFSET x.off |> inc Reg.PAT_ERROR_COUNT

/-! ### What a full load resets -/

/-- Device addresses of the blocks that a full load resets ahead of the new pattern: the grid registers, ingress, the image pipeline,
the partitions, the memory, Sash and Partner blocks. -/
def loadBlocks : List (Nat × Nat) := [
  (0x7F00100800, 0x7F00100900), (0x7F01000000, 0x7F01400000), (0x7F02000000, 0x7F02100000), (0x7F10000000, 0x7F18000000),
  (0x7F20000000, 0x7F20200000), (0x7F30000000, 0x7F30400000), (0x7F70000000, 0x7F70100000)]

/-- The registers of the host interface, the queue contexts and the lock table. -/
def hostBlocks : List (Nat × Nat) := [(0x7F40000000, 0x7F40100000), (0x7F41000000, 0x7F41100000), (0x7F42000000, 0x7F42010000)]

/-- A block is reset: its registers, latches and holding values (R15, R17). -/
def resetBlock (b : Nat × Nat) (m : Mach) : Mach :=
  let m := clearRegs b.1 b.2 m
  { m with latches := clearRange m.latches (b.1 * 128) (b.2 * 128), holds := clearRange m.holds (b.1 * 128) (b.2 * 128) }

/-- Every outstanding item fails, and is decided without its verdict. -/
def failAll (m : Mach) : Mach :=
  let l := m.items.map (·.1)
  { m with items := m.items.map (fun x => (x.1, { x.2 with safety := false })) }
    |> forEach l (fun t => failItem t .failedReset Reason.reset) |> forEach l tryDecide

/-- The power manager's windows and changes under way are gone. -/
def resetPower (m : Mach) : Mach :=
  { m with pparts := (m.pparts.filter (·.2.aged)).map (fun c => (c.1, { aged := true })),
           power := { m.power with above := none, under := none, hcAt := none, hcDn := none, hcUp := none, hcChange := none, hcEp := false },
           margin := {} }
    |> forEach (List.range 8) (fun p m => m |> wrb (Reg.PWR_PART_STATUS_CHANGING p) false |> wrb (Reg.PWR_PART_STATUS_WINDOW p) false
      |> wrb (Reg.PWR_PART_STATUS_THROTTLED p) false |> wr (Reg.PWR_PART_STATUS_TRIM_MV p) 0 |> wrb (Reg.PWR_PART_STATUS_TRIM_HELD p) false)

/-- Steps 2 and 3 of R87: every partition, ingress and the image pipeline are reset, a pending alteration and the debug session end, and
NumVFs is zero. Time, its trigger outputs and captures, the log and the PF stay. -/
def loadReset (m : Mach) : Mach :=
  let m := m |> timePortDown (timePort m) |> forEach (List.range 8) powerOff |> failAll
    |> forEach (liveVfs m) (resetFunc · []) |> wr Reg.HOST_STATUS_NUMVFS 0
  let l := m.ldr
  let l' : Loader := {
    flashHalf := l.flashHalf, copy := l.copy, cmd := l.cmd, cmdLen := l.cmdLen, prev := l.prev, reload := true, releasedAt := l.releasedAt,
    testHold := l.testHold, challenge := l.challenge, hold := l.hold, extest := l.extest,
    sessionSlot := if l.cmd = 2 then 0 else l.sessionSlot }
  { m with
    mem := [], bad := [], soft := [], imem := [], ldr := l', turns := [], items := [], deadlined := [], ing := {}, aphy := [],
    streams := [], lane := [], isps := [], pipes := [], comps := [], rnotes := [], seqs := [], engines := [], cores := [],
    recov := [], grans := [], poisonq := [], ascrub := [], grids := [], chans := [], held := [], boxes := [], links := [], kvs := [] }
    |> modSaf (fun x => { x with
        exit := none, started := false, testsDone := false, accepted := 0, rejected := 0, missing := 0, firstRej := none, runs := [],
        raised := [], condDeadline := false, condQuar := [], condReject := [], condPartner := false, reasons := [], caller := [],
        aliveDue := none, halted := false, replay := [], ptnWipeAt := 0, ptnIn := [] })
    |> resetPower |> forEach loadBlocks resetBlock
    |> wr Reg.PAT_ALTER_SEQ 0 |> wr Reg.PAT_PATTERN_ID 0 |> wr Reg.PAT_STATUS_SOURCE 0 |> wr Reg.PAT_STATUS_KEY_SLOT 0
    |> wrb Reg.PAT_STATUS_VENDOR_KEY false |> wrb Reg.PAT_STATUS_ALTER_PENDING false |> whenB (l.cmd == 2) (wrb Reg.PAT_STATUS_DEBUG_SESSION false)
    |> wr Reg.PAT_SV_PATTERN 0 |> wrb Reg.HOST_STATUS_NVME_READY false |> wrb Reg.SAF_STATUS_STARTUP_DONE false
    |> wrb Reg.SAF_STATUS_EXIT_PENDING false |> refreshSafe

/-- Whether a field of the register file resets whenever a base pattern is applied. -/
def loadClears (key : Nat) : Bool :=
  match regTable.findSome? (fun r => (r.hit (key / 64)).map (fun _ => r.rst)) with
  | some ResetClass.base => true
  | some ResetClass.part => true
  | _ => false

/-- The host interface of a new pattern: the link and VF Enable stay. -/
def resetHost (m : Mach) : Mach :=
  let speed := rd m Reg.HOST_STATUS_SPEED
  let width := rd m Reg.HOST_STATUS_WIDTH
  let vfs := rd m Reg.HOST_STATUS_VF_ENABLE
  m |> forEach hostBlocks resetBlock |> wr Reg.HOST_STATUS_SPEED speed |> wr Reg.HOST_STATUS_WIDTH width |> wr Reg.HOST_STATUS_VF_ENABLE vfs

/-- Causes that the apply of a RELOAD_FULL leaves held (R538, R656): those that end at PORST_n only, and its own until the first turn. -/
def keptCause (m : Mach) : Cause → Bool
  | .notStarted | .islandVote | .islandWdog | .faultCollector | .caller | .extest | .reload | .lifecycle | .islandMemory => true
  | .power => rdb m Reg.PWR_STATUS_SHUTDOWN
  | _ => false

/-! ### What a base pattern sets -/

/-- Instruction memory of a partition: SEQFW, and its ROUTINES behind it (R59). -/
def loadCode (p : Nat) (m : Mach) : Mach :=
  let b := p * 2 ^ 20
  { m with imem := writeCells (writeCells (clearRange m.imem b (b + 2 ^ 20)) b (sec m 8 0)) (b + routinesAt m) (sec m 7 p) }

/-- The Partner engine's instruction memory (R514). -/
def loadPartner (m : Mach) : Mach := { m with imem := writeCells m.imem (8 * 2 ^ 20) ((sec m 0xB 0).drop (ptnOff m)) }

/-- The registers that show partition-class values. -/
def showPart (p : Nat) (m : Mach) : Mach :=
  m |> wr (Reg.TC_SCHED_STATUS_MODE p) (schedMode m p) |> wr (Reg.TC_TURN_BUDGET p) (budgetNs m p)
    |> wr (Reg.TC_TURN_WINDOW_REQ p) (windowReq (pointMhz (partSlowest m p)) * 1000)

/-- The grid registers (R109). -/
def showGrid (m : Mach) : Mach :=
  m |> wr Reg.TIME_TURN_PERIOD (secLe m 1 0 4 4) |> wr Reg.TIME_TURN_FRACTION (secLe m 1 0 1 1) |> wr Reg.TIME_TURN_WINDOW (secLe m 1 0 8 4)
    |> wr Reg.TIME_TURN_LAG_LIMIT (secLe m 1 0 0xC 4) |> wr Reg.TIME_TURN_OFFSET (secLe m 1 0 0x10 4) |> wr Reg.TIME_TURN_QSTEP (shortenNs m)

/-- HOST_Q_CFG of a queue entry (R584). -/
def showQueue (e : List Byte) (m : Mach) : Mach :=
  let q := le e 0 2
  let f := le e 5 1
  m |> wr (Reg.HOST_Q_CFG_OWNER q) (le e 2 1) |> wr (Reg.HOST_Q_CFG_KIND q) (le e 3 1)
    |> wr (Reg.HOST_Q_CFG_PARTITION q) (le e 4 1 % 8) |> wrb (Reg.HOST_Q_CFG_WORK q) (bitOf f 2)
    |> wrb (Reg.HOST_Q_CFG_LOCATION q) (bitOf f 0) |> wrb (Reg.HOST_Q_CFG_STORAGE q) (bitOf f 1)

/-- ING_STR_ENTRY and ING_CLS_ENTRY show the applied entries. -/
def showEntry (e : List Byte) (m : Mach) : Mach := forEach (List.range 16) (fun w => wr (Reg.ING_STR_ENTRY (le e 0 2) w) (le e (4 * w) 4)) m
def showClass (e : List Byte) (m : Mach) : Mach :=
  forEach (List.range 16) (fun w => wr (Reg.ING_CLS_ENTRY (le e 0 2 - 512) w) (le e (4 * w) 4)) m

/-- A stream begins: its ring, its enable and its state (R189, R190). -/
def startStream (e : List Byte) (m : Mach) : Mach :=
  let i := le e 0 2
  let on := bitOf (le e 6 1) 2
  m |> showEntry e |> modStream i (fun st => { st with ring := { base := strRingBase e } }) |> wr (Reg.ING_STR_ACT_BASE i) (strRingBase e)
    |> wrb (Reg.ING_STR_CTRL_ENABLE i) on |> setStrState i (if on then 2 else 1)

/-- The sensor ports leave their untrained state (R178 to R180). -/
def startPorts (m : Mach) : Mach :=
  let t := timePort m
  { m with ing := { m.ing with appliedAt := now m } }
    |> forEach (List.range 32) (fun n m => if aphyEnabled m n then wr (Reg.ING_APHY_STATUS_STATE n) 1 m else m)
    |> forEach (List.range 16) (fun n m =>
        if ethEnabled m n then m |> wr (Reg.ING_ETH_STATUS_STATE n) 1 |> wr (Reg.ING_ETH_STATUS_SPEED n) (ethSpeed m n)
          |> wrb (Reg.ING_ETH_STATUS_TIME_PORT n) (t == n) else m)
    |> startGroup 9 0 |> syncLinks

/-- The safety side of a new pattern: safety ports (R525, R77) and the island firmware's watchdog (R531). -/
def startSafety (m : Mach) : Mach :=
  let t := timePort m
  let up := lifecycle m != 2
  m |> forEach (List.range 2) (fun e m =>
      if safEthEnabled m e && up then m |> wr (Reg.SAF_ETH_STATUS_STATE e) 1 |> wrb (Reg.SAF_ETH_STATUS_TIME_PORT e) (t == 16 + e)
      else wr (Reg.SAF_ETH_STATUS_STATE e) 0 m)
    |> modSaf (fun x => { x with wdogLast := if x.islandUp then some (now m) else none, wdogFresh := true })

/-- Every section takes effect, in one step (R55): `source` is that of PAT_STATUS, `nvme` a device on the root port. -/
def applyBase (source : Nat) (c : List Byte) (nvme : Bool) (m : Mach) : Mach :=
  let first := rd m Reg.PAT_BOOT_APPLY_US == 0
  let m := { m with regs := m.regs.filter (fun e => !loadClears e.1), logCount := [], decided := [], rings := [] }
    |> whenB (!first) resetHost
    |> modLdr (fun l => { l with header := c.take 256, sections := sectionsOf c, reload := false, copy := 0 })
  let m := if m.ldr.cmd = 2 then modSaf (fun x => { x with causes := x.causes.filter (keptCause m) }) m else m
  m |> showGrid |> wrb Reg.TIME_STATUS_ENABLED true |> startGrid
    |> forEach (List.range 8) (fun p m => m |> loadMap p |> loadCode p |> showPart p
        |> modKv p (fun k => { k with building := decide (kvPages m p ≠ 0) }))
    |> whenB (secOf m 0xB 0).isSome loadPartner
    |> forEach (queueEntries m) showQueue |> forEach (List.range 1024) (fun n m => wr (Reg.LOCK_STATE_OWNER n) (lockOwner m n) m)
    |> forEach (streamEntries m) startStream |> forEach (clsEntries m) showClass
    |> forEach ((ispEntries m).map (fun e => le e 0 2)) loadIsp
    |> forEach (List.range 32) (fun ch => wr (Reg.MEM_STATUS_STATE ch) 1)
    |> applySash (lifecycle m == 2) |> applyPower |> startPorts |> startSafety
    |> modMargin (fun x => { x with last := (List.range 10).map (fun u => (u, now m)) })
    |> wrb Reg.HOST_STATUS_NVME_READY (nvmePairs m != 0 && nvme)
    |> wr Reg.PAT_STATUS_STATE 4 |> wr Reg.PAT_STATUS_SOURCE source |> wr Reg.PAT_STATUS_KEY_SLOT (if keySlot c = 0xFF then 0 else keySlot c)
    |> wrb Reg.PAT_STATUS_VENDOR_KEY (keySlot c == 0xFF) |> wr Reg.PAT_PATTERN_ID (hPatternId c) |> wr Reg.PAT_SV_PATTERN (hSv c)
    |> whenB first (wr Reg.PAT_BOOT_APPLY_US (min 0xFFFFFF ((now m - m.ldr.releasedAt) / 1000)))
    |> refreshSafe |> (fun m => { m with endpoint := true })

end Sys2Proof.Machine
end

