-- ==== Sys2Proof/Machine/Loader.lean ====
section
/-!
DEFINITION. The pattern loader's mailbox (R85 to R90), flash copies and stores (R46, R47, R88), alterations (R69 to R75) and fuse
requests (R80).
-/

namespace Sys2Proof.Machine

/-! ### The mailbox -/

/-- Every command that is accepted, is refused or ends signals the PF's MSI-X vector 0 (R86). -/
def mbxSignal (m : Mach) : Mach := sendMsix 0 0 m

def mbxState (m : Mach) : Nat := rd m Reg.PAT_MBX_STATUS_STATE
def mbxBusy (m : Mach) : Bool := decide (1 ≤ mbxState m) && decide (mbxState m ≤ 3)

/-- The command ends with a code. -/
def mbxEnd (code : Nat) (m : Mach) : Mach :=
  m |> wr Reg.PAT_MBX_STATUS_STATE (if code = 0 then 4 else 5) |> wr Reg.PAT_MBX_STATUS_RESULT code |> modLdr (fun l => { l with cmd := 0, store := [] })
    |> mbxSignal

def mbxFail (x : LoadFail) (m : Mach) : Mach := m |> loadErr x |> mbxEnd x.code

/-- The running command fails: what it has begun is undone. -/
def mbxStop (x : LoadFail) (m : Mach) : Mach :=
  m |> whenB (m.ldr.cmd == 1) (wr Reg.PAT_STATUS_STATE m.ldr.prev) |> whenB (m.ldr.cmd == 2 && m.ldr.reload) (wr Reg.PAT_STATUS_STATE 6)
    |> whenB (m.ldr.cmd == 3) (modLdr (fun l => { l with alter := .none })) |> modLdr (fun l => { l with reload := false }) |> mbxFail x

/-- A load is in progress (R74). -/
def loading (m : Mach) : Bool := decide (1 ≤ rd m Reg.PAT_STATUS_STATE) && decide (rd m Reg.PAT_STATUS_STATE ≤ 4)

/-- CANCEL_ALTER, which acts also while another command runs and leaves that one as it is (R74, R90). -/
def cancelAlter (m : Mach) : Mach :=
  let done (code : Nat) (m : Mach) : Mach := if mbxBusy m then mbxSignal m else mbxEnd code m
  if m.ldr.alter = .pending then
    m |> modLdr (fun l => { l with alter := .none, altSecs := [], altNamed := [] }) |> wrb Reg.PAT_STATUS_ALTER_PENDING false |> done 0
  else m |> loadErr ⟨Ld.badCommand, 0, 0xFF⟩ |> done Ld.badCommand

/-- The code with which a command is refused at once, if it is (R74, R85, R90). -/
def mbxRefusal (m : Mach) (n : Nat) : Option Nat :=
  let st := rd m Reg.PAT_STATUS_STATE
  match n with
  | 1 => if (st = 6 ∨ st = 7) ∧ rd m Reg.PAT_BOOT_BOOTSEL < 2 then none else some Ld.badCommand
  | 2 => if m.ldr.alter = .resetting then some Ld.busy else none
  | 3 => if m.ldr.alter ≠ .none ∨ loading m then some Ld.busy else none
  | _ => if 8 ≤ n then some Ld.badCommand else none

/-- A command is accepted, and the mailbox begins to read. -/
def mbxAccept (n : Nat) (m : Mach) : Mach :=
  let m := m |> wr Reg.PAT_MBX_STATUS_STATE 1
    |> modLdr (fun l => { l with cmd := n, cmdLen := rd m Reg.PAT_MBX_LEN, prev := rd m Reg.PAT_STATUS_STATE, 
                                 alter := if n = 3 then .staging else l.alter })
    |> whenB (n == 1) (wr Reg.PAT_STATUS_STATE 1) |> mbxSignal
  if m.ldr.cmdLen % 64 ≠ 0 ∨ !busMaster m 1 then mbxStop ⟨Ld.mbxIo, 0, 0xFF⟩ m else m

/-- A write of PAT_MBX_CMD. -/
def mbxCommand (n : Nat) (m : Mach) : Mach :=
  if n = 0 then m
  else if n = 4 then cancelAlter m
  else if mbxBusy m then m |> loadErr ⟨Ld.busy, 0, 0xFF⟩ |> mbxSignal
  else match mbxRefusal m n with
    | some code => mbxFail ⟨code, 0, 0xFF⟩ m
    | none => mbxAccept n m

/-- A write of the mailbox command register with command `n`. -/
def mbxWrite (who : Requester) (n : Nat) (s : State) : Out := s.run (regWrite who Reg.PAT_MBX_CMD_CMD .pfMi (mbxCommand n))

def execLoadFull (who : Requester) (s : State) : Out := mbxWrite who 1 s
def execReloadFull (who : Requester) (s : State) : Out := mbxWrite who 2 s
def execLoadAlter (who : Requester) (s : State) : Out := mbxWrite who 3 s
def execCancelAlter (who : Requester) (s : State) : Out := mbxWrite who 4 s
def execStorePrimary (who : Requester) (s : State) : Out := mbxWrite who 5 s
def execStoreSecondary (who : Requester) (s : State) : Out := mbxWrite who 6 s
def execFuseRequest (who : Requester) (s : State) : Out := mbxWrite who 7 s

/-- Command codes 8 to 15, of which the operand gives the low three bits. -/
def execMbxCmdUndefined (who : Requester) (cmd : Fin 8) (s : State) : Out := mbxWrite who (8 + cmd) s

/-! ### Alterations (R69 to R75) -/

/-- The applied sections with an alteration's in their places. -/
def overlay (old new : List Sec) : List Sec :=
  let same (a b : Sec) : Bool := a.type == b.type && a.instnc == b.instnc
  old.map (fun x => (new.find? (same x)).getD x) ++ new.filter (fun x => !old.any (same x))

/-- The part as it stands with sections in place of its own. -/
def withSections (l : List Sec) (m : Mach) : Mach := modLdr (fun x => { x with sections := l }) m

/-- A byte of a STREAMS section that holds a placement field: PARTITION or ROUTINE of a stream entry. -/
def placeByte (n i : Nat) : Bool :=
  decide (16 ≤ i) && decide (i < 16 + 64 * n) && ((i - 16) % 64 == 7 || (i - 16) % 64 == 0xE)

/-- The first byte in which two sections differ where `ok` does not allow it. -/
def firstDiff (ok : Nat → Bool) (a b : List Byte) : Option Nat :=
  (List.range (max a.length b.length)).find? (fun i => !ok i && a[i]? != b[i]?)

/-- ALTER_SCOPE (R69). -/
def checkScope (m : Mach) (c : List Byte) : Verdict :=
  eachOf (indexed (sectionsOf c)) (fun (i, x) =>
    let old := sec m x.type x.instnc
    let at' (o : Option Nat) : Verdict := o.map (fun o => ⟨Ld.alterScope, x.offset + o, i⟩)
    if x.type = 4 then at' (firstDiff (placeByte (le old 0 2)) old x.bytes)
    else if x.type = 0xF then at' (firstDiff (fun k => decide (0x20 ≤ k) && decide (k < 0x40)) old x.bytes)
    else none)

/-- Partitions that an alteration names (R69); `n` is the part with it. -/
def namedParts (m n : Mach) (l : List Sec) : List Nat :=
  let str := (streamNos m).flatMap (fun i =>
    let a := streamEntry m i
    let b := streamEntry n i
    if strPart a ≠ strPart b then [strPart a, strPart b] else if strRoutine a ≠ strRoutine b then [strPart a] else [])
  (List.range 8).filter (fun p =>
    l.any (fun x => (x.type == 6 || x.type == 7) && x.instnc == p) || str.contains p ||
      slice (sec m 0xF 0) (0x20 + 4 * p) 4 != slice (sec n 0xF 0) (0x20 + 4 * p) 4)

/-- The checks of an alteration: steps 1 to 13, scope, base and sequence, and steps 14 to 18 of the part as it will stand (R70). -/
def checkAlter (f : Fuses) (x : LoadSource) (c : List Byte) (m : Mach) : Verdict :=
  let n := withSections (overlay m.ldr.sections (sectionsOf c)) m
  let on (i : Nat) : Bool := rdb m (Reg.ING_STR_CTRL_ENABLE i)
  checkContainer f m x c <|> checkForm c on n <|> checkScope m c
  <|> need (hBaseId c == rd m Reg.PAT_PATTERN_ID) Ld.alterBase 0x28
  <|> need (hAlterSeq c == rd m Reg.PAT_ALTER_SEQ + 1) Ld.alterSeq 0x30
  <|> checkFit c on (rdb m Reg.HOST_STATUS_NVME_READY || nvmePairs m != 0) n

/-- A verified alteration stands in the staging area, and is pending. -/
def stageAlter (c : List Byte) (m : Mach) : Mach :=
  let l := sectionsOf c
  let n := withSections (overlay m.ldr.sections l) m
  m |> writeMem (stagingBase m) c |> modLdr (fun x => { x with alter := .pending, altSecs := l, altNamed := namedParts m n l })
    |> wrb Reg.PAT_STATUS_ALTER_PENDING true |> mbxEnd 0

/-- A partition that stands at a grid tick out of reset and with zero lag (R72). -/
def alterReady (m : Mach) (p : Nat) : Bool :=
  let t := mget m.turns p
  rd m (Reg.TC_RECOV_STATUS_STATE p) != 3 && t.begun && t.tick == t.grid && t.grid == rd m Reg.TIME_TURN_TICK &&
    decide (now m ≤ t.tick + 2) && t.gticks.isEmpty

/-- WORK that a partition's new values can no longer serve (R75). -/
def unserved (m : Mach) (p : Nat) (d : Desc) : Bool :=
  roleRefuses (partRole m p) (bitsAt d.c 8 2) || schedMode m p == 0 || !((routineAt m p (d.c % 256)).any (fun r => r.cls != 0))

/-- A named partition takes its new values (R73, R75, R389, R493): `old` is the part with the old ones. -/
def takeAlter (old : Mach) (p : Nat) (m : Mach) : Mach :=
  let pool := kvBase old p ≠ kvBase m p ∨ kvPages old p ≠ kvPages m p ∨ kvTemporal old p ≠ kvTemporal m p
  let m := m |> loadMap p |> loadCode p |> showPart p |> clampLevels p
    |> whenB (decide pool) (fun m => m
        |> wr (Reg.KV_STATUS_POOL_EPOCH p) (rd m (Reg.KV_STATUS_POOL_EPOCH p) + 1) |> wrb (Reg.KV_STATUS_ENABLED p) false
        |> wrb (Reg.KV_STATUS_ROLLFWD p) true |> wr (Reg.KV_POOL_FREE p) 0 |> wr (Reg.KV_POOL_TFREE p) 0
        |> modKv p (fun k => { k with building := true, journal := none, op := .idle, headG := none, headT := none, zeroing := [] }))
    |> whenB (partRole m p == 0) (wrb (Reg.SAF_SUSPECT_HALTED p) false)
  let gone := (mget m.recov p).work.filter (unserved m p)
  m |> modRecov p (fun r => { r with work := r.work.filter (fun d => !unserved m p d) })
    |> forEach gone (fun d => completeDesc d .failedReset Reason.alteration) |> syncSched p
    |> modTurn p (fun t => { t with phase := .idle, pendWin := true, ext := 0, lcTodo := lcDue m p, lcDone := (lcDue m p).isEmpty,
                                    beDue := beStreams m p false })

/-- The resets of the pending alteration begin together, where every named partition is ready (R72). -/
def execAlterationResetsBegin (s : State) : Out := s.run (fun m =>
  let l := m.ldr.altNamed
  if m.ldr.alter ≠ .pending ∨ !l.all (alterReady m) then m
  else
    let m := forEach l (startReset · 2) m
    let n := m |> withSections (overlay m.ldr.sections m.ldr.altSecs) |> modLdr (fun x => { x with alter := .resetting, altLeft := l })
    n |> forEach l (takeAlter m) |> forEach (streamEntries n) showEntry |> whenB l.isEmpty (alterDone 8))

/-! ### Fuse requests (R80) -/

/-- The checks of a fuse request. -/
def checkFuse (f : Fuses) (x : LoadSource) (c : List Byte) (m : Mach) : Verdict :=
  let b := ((sectionsOf c).head?.map (·.bytes)).getD []
  let o := ((sectionsOf c).head?.map (·.offset)).getD 0
  let ok (p : Bool) (k : Nat) : Verdict := need p Ld.sectionFormat (o + k) 0
  let act := le b 8 1
  let arg := le b 9 1
  checkContainer f m x c <|> ok (b.length == 16) 0 <|> ok (le b 0 8 == rd m Reg.PAT_UID) 0
  <|> ok (match act with
      | 1 => lifecycle m == 0
      | 2 => lifecycle m == 1
      | 3 => true
      | _ => false) 8
  <|> ok (if act = 3 then decide (arg < 4) && arg != keySlot c && [1, 2, 3].any (fun k => k != arg && !f.revoked.contains k) else arg == 0) 9
  <|> ok (zeroSpan b 10 16) 10

/-- What an accepted request blows. -/
def blowFuse (c : List Byte) (f : Fuses) : Fuses :=
  let b := ((sectionsOf c).head?.map (·.bytes)).getD []
  match le b 8 1 with
  | 1 => { f with lifecycle := max f.lifecycle 1 }
  | 2 => { f with lifecycle := max f.lifecycle 2 }
  | 3 => if f.revoked.contains (le b 9 1) ∨ 4 ≤ le b 9 1 then f else { f with revoked := le b 9 1 :: f.revoked }
  | _ => f

/-- PAT_KEYS.REVOKED: a revocation takes effect at once. -/
def showRevoked (f : Fuses) (m : Mach) : Mach := wr Reg.PAT_KEYS_REVOKED (((List.range 4).filter f.revoked.contains).map (2 ^ ·)).sum m

/-! ### A container has been read -/

/-- The bytes of a mailbox read that ends well. -/
def mbxBytes (m : Mach) (data : Option (List Byte)) : Option (List Byte) :=
  if busMaster m 1 then data.map (padTo m.ldr.cmdLen) else none

/-- The verdict on the container of the running command: a STORE checks the flash behind step 13 (R88). -/
def mbxVerdict (f : Fuses) (nvme : Bool) (c : List Byte) (m : Mach) : Verdict :=
  let x (k : Nat) : LoadSource := { kind := k, mbxLen := some m.ldr.cmdLen }
  match m.ldr.cmd with
  | 3 => checkAlter f (x 2) c m
  | 7 => checkFuse f (x 3) c m
  | 1 | 2 => checkBase f (x 1) true nvme c m
  | _ => checkBase f (x 1) false nvme c m <|> need (m.ldr.flashHalf.any (fun h => decide (hLength c ≤ h))) Ld.flashIo

/-- SOURCE 0 blobs that are still to be read. -/
def blobsToRead (m : Mach) : Bool :=
  (List.range (preloadCount m)).any (fun i => le (preload m i) 0 1 == 0 && !m.ldr.passed.contains i && !m.ldr.failed.contains i)

/-- A mailbox command that has applied a base pattern ends with its last SOURCE 0 blob (R61). -/
def endApply (m : Mach) : Mach := if blobsToRead m then wr Reg.PAT_MBX_STATUS_STATE 2 m else mbxEnd 0 m

/-- A flash copy is erased and programmed: its first operation starts. -/
def beginStore (c : List Byte) (m : Mach) : Mach :=
  m |> wr Reg.PAT_MBX_STATUS_STATE 3 |> wrb Reg.PAT_BOOT_SFDP_FOUND true |> modLdr (fun l => { l with store := c })
    |> emit (.flashOp (m.ldr.cmd - 4))

/-- What a container that has passed does. -/
def mbxPass (f : Fuses) (nvme : Bool) (c : List Byte) (m : Mach) : Mach :=
  match m.ldr.cmd with
  | 1 => m |> whenB (applied m) loadReset |> applyBase 3 c nvme |> endApply
  | 2 => m |> enterSafe .reload |> loadReset |> wr Reg.PAT_STATUS_STATE 1
  | 3 => stageAlter c m
  | 7 => m |> showRevoked f |> mbxEnd 0
  | _ => beginStore c m

/-- Whether the mailbox reads a container for the first time. -/
def mbxReads (m : Mach) : Bool := m.powered && mbxState m == 1 && !m.ldr.reload

/-- The fuses behind the read: those of an accepted request are blown at once. -/
def mbxFuses (data : Option (List Byte)) (nvme : Bool) (f : Fuses) (m : Mach) : Fuses :=
  match mbxBytes m data with
  | some c => if m.ldr.cmd = 7 ∧ mbxVerdict f nvme c m = none then blowFuse c f else f
  | none => f

/-- The mailbox's reads end: `data` is what they returned, none where one of them failed. -/
def execMbxReadComplete (data : Option (List Byte)) (env : LoadEnv) (s : State) : Out :=
  if !s.m.powered ∨ !mbxReads s.m then .next s
  else
    let f := mbxFuses data env.nvmePresent s.fuses s.m
    .next { s with
      fuses := f
      m := match mbxBytes s.m data with
        | none => mbxStop ⟨Ld.mbxIo, 0, 0xFF⟩ s.m
        | some c =>
          match mbxVerdict s.fuses env.nvmePresent c s.m with
          | some x => mbxStop x s.m
          | none => mbxPass f env.nvmePresent c s.m }

/-- The second read of a RELOAD_FULL ends. -/
def execReloadSecondReadComplete (data : Option (List Byte)) (env : LoadEnv) (s : State) : Out := s.run (fun m =>
  if mbxState m ≠ 1 ∨ !m.ldr.reload then m
  else match mbxBytes m data with
    | none => mbxStop ⟨Ld.mbxIo, 0, 0xFF⟩ m
    | some c =>
      match mbxVerdict s.fuses env.nvmePresent c m with
      | some x => mbxStop x m
      | none => m |> applyBase 3 c env.nvmePresent |> endApply)

/-! ### Flash (R46, R47, R88) -/

/-- The copy being read fails: the next copy is read, or the loader waits for the mailbox or stands still. -/
def copyFails (x : LoadFail) (m : Mach) : Mach :=
  let m := loadErr x m
  if m.ldr.copy = 1 then m |> wrb Reg.PAT_BOOT_PRIMARY_FAILED true |> modLdr (fun l => { l with copy := 2 }) |> wr Reg.PAT_STATUS_STATE 1
  else
    let m := m |> wrb Reg.PAT_BOOT_SECONDARY_FAILED true |> modLdr (fun l => { l with copy := 0 })
    if rd m Reg.PAT_BOOT_BOOTSEL = 0 then { wr Reg.PAT_STATUS_STATE 7 m with endpoint := true } else wr Reg.PAT_STATUS_STATE 6 m

/-- A flash copy is being read at start-up. -/
def flashReads (m : Mach) : Bool := rd m Reg.PAT_STATUS_STATE == 1 && (m.ldr.copy == 1 || m.ldr.copy == 2)

def execFlashReadTimeout (s : State) : Out := s.run (fun m => if flashReads m then copyFails ⟨Ld.flashIo, 0, 0xFF⟩ m else m)

/-- A copy has been read: its bytes. -/
def execContainerReadComplete (data : List Byte) (env : LoadEnv) (s : State) : Out := s.run (fun m =>
  if !flashReads m then m
  else match checkBase s.fuses { kind := 1, half := m.ldr.flashHalf } true env.nvmePresent data m with
    | some x => copyFails x m
    | none => applyBase m.ldr.copy data env.nvmePresent m)

/-- A flash operation of a STORE is no longer busy: none, the next one starts; some, the bytes that the read-back of the copy gave. -/
def execFlashOperationComplete (readback : Option (List Byte)) (s : State) : Out := s.run (fun m =>
  if mbxState m ≠ 3 then m
  else match readback with
    | none => emit (.flashOp (m.ldr.cmd - 4)) m
    | some b => if b = m.ldr.store then mbxEnd 0 m else mbxFail ⟨Ld.flashIo, 0, 0xFF⟩ m)

def execFlashOperationTimeout (s : State) : Out := s.run (fun m => if mbxState m = 3 then mbxFail ⟨Ld.flashIo, 0, 0xFF⟩ m else m)

end Sys2Proof.Machine
end

