-- ==== Sys2Proof/Machine/Startup.lean ====
section
/-!
DEFINITION. From PORST_n to the first turn (R46 to R48, R535, R677 to R683): straps and fuses, start-up tests, HBM training, the HOSTFW copy
and the preload (R60 to R63), and the first turn tick with its security-version fuses (R55).
-/

namespace Sys2Proof.Machine

/-! ### PORST_n (R677, R678) -/

/-- PORST_n is low: every unit is in reset. What the model counts with, and the levels of the outside, stay. -/
def execPorstAssert (s : State) : Out :=
  .next { s with m := { out := s.m.out, draws := s.m.draws, perst := s.m.perst, serdes := s.m.serdes } }

/-- The registers that show the fuses (R2, R76, R81). -/
def showFuses (f : Fuses) (m : Mach) : Mach :=
  let bits (p : Nat → Bool) : Nat := (((List.range 4).filter p).map (2 ^ ·)).sum
  m |> wr Reg.PAT_ID_GRADE f.grade |> wr Reg.PAT_STATUS_LIFECYCLE (min 2 f.lifecycle) |> wr Reg.PAT_SV_FUSED f.sv
    |> wr Reg.PAT_KEYS_HASH_FUSED (bits (fun k => (lookup f.keyHash k).isSome)) |> showRevoked f
    |> wrb Reg.PAT_KEYS_VENDOR_FUSED f.vendorHash.isSome |> wr Reg.PAT_UID f.uid

/-- The mailbox is the source: the endpoint completes its start-up (R48). -/
def awaitMailbox (m : Mach) : Mach := { wr Reg.PAT_STATUS_STATE 7 m with endpoint := true }

/-- The loader starts: SFDP discovery, and the primary copy (R46, R47). -/
def startLoader (flashHalf : Option Nat) (m : Mach) : Mach :=
  let m := modLdr (fun l => { l with flashHalf := flashHalf }) m
  if rd m Reg.PAT_BOOT_BOOTSEL = 1 then awaitMailbox m
  else if flashHalf.isSome then
    m |> wrb Reg.PAT_BOOT_SFDP_FOUND true |> modLdr (fun l => { l with copy := 1 }) |> wr Reg.PAT_STATUS_STATE 1
  else
    let m := m |> loadErr ⟨Ld.flashIo, 0, 0xFF⟩ |> wrb Reg.PAT_BOOT_PRIMARY_FAILED true |> wrb Reg.PAT_BOOT_SECONDARY_FAILED true
    if rd m Reg.PAT_BOOT_BOOTSEL = 0 then awaitMailbox m else wr Reg.PAT_STATUS_STATE 6 m

/-- The boot ROM begins on the island, whose voter test comes first (R535). -/
def bootRom (f : Fuses) (bootsel : Fin 4) (voterPass : Bool) (flashHalf : Option Nat) (m : Mach) : Mach :=
  let m := { m with powered := true } |> showFuses f |> wr Reg.PAT_BOOT_BOOTSEL bootsel |> modLdr (fun l => { l with releasedAt := now m })
    |> modSaf (fun x => { x with causes := [] }) |> enterSafe .notStarted
  let m := if rd m Reg.PAT_STATUS_LIFECYCLE = 2 then enterSafe .lifecycle m else m
  if voterPass then startLoader flashHalf m else modSaf (fun x => { x with voterBad := true, islandUp := false }) m

/-- PORST_n is released: `flashHalf` is half the density that SFDP discovery finds, none where it finds no flash. -/
def execPorstRelease (bootsel : Fin 4) (testEn voterPass : Bool) (flashHalf : Option Nat) (s : State) : Out :=
  if s.m.powered ∨ s.m.ldr.testHold then .next s
  else if testEn then .next { s with m := modLdr (fun l => { l with testHold := true }) s.m }
  else .next { s with m := bootRom s.fuses bootsel voterPass flashHalf s.m }

/-! ### The start-up tests (R535) -/

/-- A spare in the numbering of the tests: 16 and 17. -/
def isSpare (u : Nat) : Bool := u == 16 || u == 17

/-- A row of R535 fails: row 3, 4 or 5 on core `u`, partition × 2 + core, or a spare. -/
def startupFail (x : Nat × Nat) (m : Mach) : Mach :=
  let (r, u) := x
  let p := u / 2
  let k := u % 2
  let note (path : Nat) (m : Mach) : Mach :=
    m |> logErr { path := path, source := 0x4E, detail := leBytes 4 r } |> inc Reg.SAF_CNT_TEST_FAIL
  let there := p < 8 ∧ k < coresPer m
  match r with
  | 2 => m |> note (pathIsland m 63) |> fatalOnly .selftest (pathIsland m 63)
  | 3 => if isSpare u then m |> note (upath m 0 8 (u - 16) 1 63 63) |> wrb (spareFailed (u - 16)) true
         else if there then m |> inc Reg.SAF_CNT_TEST_FAIL |> selfTestBypass p k else m
  | 4 | 5 =>
    if isSpare u then m |> note (upath m 0 8 (u - 16) 0 63 63) |> wrb (spareFailed (u - 16)) true
    else if there then
      let m := note (pathCore m p k 0 63 63) m
      if spareFree m p then substitute p k m else noSpare p k m
    else m
  | 6 => m |> note (pathGroup m 11) |> fatalOnly .selftest (pathGroup m 11)
  | 7 => m |> note (pathGroup m 14) |> wr Reg.PTN_STATUS_STATE 3
  | 8 => m |> note (pathGroup m 20) |> fatalOnly .selftest (pathGroup m 20)
  | _ => m

/-- The start-up tests behind the apply of a base pattern end: `failed` holds row and unit of each failure, spares first. -/
def execStartupTestsComplete (failed : List (Nat × Nat)) (s : State) : Out := s.run (fun m =>
  if !applied m ∨ m.saf.testsDone then m
  else
    m |> forEach (failed.filter (fun x => isSpare x.2)) startupFail |> forEach (failed.filter (fun x => !isSpare x.2)) startupFail
      |> modSaf (fun x => { x with testsDone := true }) |> wrb Reg.SAF_STATUS_STARTUP_DONE failed.isEmpty)

/-! ### HBM training (R460) -/

/-- A channel starts its life behind training. -/
def startChan (ch : Nat) (m : Mach) : Mach :=
  m |> wr (Reg.MEM_STATUS_STATE ch) 2 |> modChan ch (fun c => { c with calAt := now m, passAt := now m })

/-- All 32 channels have trained; without a HOSTFW section there is no copy to wait for. -/
def execHbmTrainingComplete (s : State) : Out := s.run (fun m =>
  if !applied m ∨ m.ldr.trained ∨ (List.range 32).any (fun ch => rd m (Reg.MEM_STATUS_STATE ch) == 4) then m
  else m |> forEach (List.range 32) startChan |> modLdr (fun l => { l with trained := true, hostfwDone := (secOf m 0xA 0).isNone }))

/-- First address of a channel (R33). -/
def chanBase (m : Mach) (ch : Nat) : Nat := ch / 4 * hbmEighth m + ch % 4 * 256

/-- 290 ms have passed since the apply, and a channel has not trained. -/
def execHbmTrainingTimeout (ch : Fin 32) (s : State) : Out := s.run (fun m =>
  if !applied m ∨ m.ldr.trained ∨ rd m (Reg.MEM_STATUS_STATE ch) ≠ 1 ∨ now m < m.ing.appliedAt + 290000000 then m
  else
    let a := chanBase m ch
    m |> wr (Reg.MEM_STATUS_STATE ch) 4 |> fatal .hbmTrain { path := pathHbm m a, source := 0x51, detail := leBytes 8 a })

/-! ### HOSTFW and the preload (R60 to R63) -/

/-- The HOSTFW copy is checked: good, the host cluster leaves reset; else it stays there. -/
def execHostfwCopyChecked (good : Bool) (s : State) : Out := s.run (fun m =>
  if !m.ldr.trained ∨ m.ldr.hostfwDone then m
  else m |> whenB good (writeMem (hostImageBase m) (sec m 0xA 0)) |> modLdr (fun l => { l with hostfwDone := true, hcUp := good }))

/-- The entry whose blob is under way: entries go in order. -/
def nextBlob (m : Mach) : Option Nat :=
  (List.range (preloadCount m)).find? (fun i => !m.ldr.passed.contains i && !m.ldr.failed.contains i)

/-- The mailbox command that applied the pattern ends with its last SOURCE 0 blob. -/
def blobRead (m : Mach) : Mach := if mbxState m = 2 ∧ (m.ldr.cmd = 1 ∨ m.ldr.cmd = 2) then endApply m else m

/-- A blob fails: a WHEN 0 one fails the load; a WHEN 1 one is logged under a SOURCE that no table gives. -/
def blobFails (i code : Nat) (m : Mach) : Mach :=
  let m := m |> modLdr (fun l => { l with failed := i :: l.failed }) |> loadErr ⟨code, 0, 0xFF⟩
  if le (preload m i) 1 1 = 0 then
    m |> wr Reg.PAT_STATUS_STATE 6 |> (fun m => if mbxState m = 2 ∧ (m.ldr.cmd = 1 ∨ m.ldr.cmd = 2) then mbxEnd code m else m)
  else
    let (src, m) := draw 8 m
    m |> logErr { path := pathGroup m 24, source := src, detail := leBytes 4 i } |> blobRead

/-- Blob `i` has streamed in: its bytes, or none where a read failed. -/
def execPreloadBlobChecked (i : Nat) (data : Option (List Byte)) (s : State) : Out := s.run (fun m =>
  let st := rd m Reg.PAT_STATUS_STATE
  if !m.ldr.trained ∨ !m.ldr.hostfwDone ∨ (st ≠ 4 ∧ st ≠ 5) ∨ nextBlob m ≠ some i then m
  else
    let e := preload m i
    match data with
    | none => blobFails i Ld.preloadIo m
    | some b =>
      let b := padTo (le e 0x18 8) b
      if sha384 b = beNat (slice e 0x20 48) then
        m |> writeMem (le e 0x10 8) b |> modLdr (fun l => { l with passed := i :: l.passed }) |> blobRead
      else blobFails i Ld.preloadDigest m)

/-! ### The first turn tick (R55, R62) -/

/-- Security-version fuses behind the first turn tick of a pattern with ADVANCE_SV (R55). -/
def advanceSv (m : Mach) (f : Fuses) : Fuses :=
  if rd m Reg.PAT_STATUS_LIFECYCLE < 2 ∧ hAdvance m.ldr.header then { f with sv := max f.sv (min 64 (hSv m.ldr.header)) } else f

def execFirstTurnTick (failed : List (Nat × Nat)) (s : State) : Out :=
  if !s.m.powered ∨ !firstDue s.m then .next s
  else
    let f := advanceSv s.m s.fuses
    .next { s with fuses := f, m := s.m |> firstTurn failed |> wr Reg.PAT_SV_FUSED f.sv }

end Sys2Proof.Machine
end

