-- ==== Sys2Proof/Machine/Ports.lean ====
section
/-!
DEFINITION. The debug port and the boundary scan (R78, R79, R692), the SMBus port (R693), and the balls that follow the state (R680, R693).
-/

namespace Sys2Proof.Machine

/-! ### Debug sessions (R77, R78) -/

/-- A debugger reads a fresh challenge, which the island draws; none during the hold. -/
def execDebugChallengeRead (s : State) : Out := s.run (fun m =>
  if m.ldr.hold.isSome ∨ !m.saf.islandUp then m
  else
    let (c, m) := draw 384 m
    m |> modLdr (fun l => { l with challenge := some c }) |> emit (.jtag (beBytes 48 c)))

/-- The key belongs to the slot, the slot may open debug, and the signature over challenge and PAT_UID is good. -/
def authOk (f : Fuses) (m : Mach) (c slot : Nat) (key : List Byte) (r sig : Nat) : Bool :=
  slotAccepted (lifecycle m) slot && !f.revoked.contains slot && (fusedHash f slot).isSome && fusedHash f slot == some (sha384 key) &&
    ecVerify key (beBytes 48 c ++ leBytes 8 (rd m Reg.PAT_UID)) r sig

/-- The debugger answers the challenge: key slot, public key and signature. -/
def execDebugAuthResponse (slot : Nat) (key : List Byte) (r sig : Nat) (s : State) : Out := s.run (fun m =>
  match m.ldr.challenge with
  | none => m
  | some c =>
    let m := modLdr (fun l => { l with challenge := none }) m
    if authOk s.fuses m c slot key r sig then
      m |> wrb Reg.PAT_STATUS_DEBUG_SESSION true |> modLdr (fun l => { l with sessionSlot := slot })
    else m |> debugRec |> modLdr (fun l => { l with hold := some (now m) }))

/-- 1 s has passed since a failed attempt. -/
def execDebugRetryHoldExpiry (s : State) : Out := s.run (fun m =>
  if m.ldr.hold.any (fun t => decide (t + 1000000000 ≤ now m)) then modLdr (fun l => { l with hold := none }) m else m)

def execDebugSessionClose (s : State) : Out := s.run (fun m =>
  m |> wrb Reg.PAT_STATUS_DEBUG_SESSION false |> modLdr (fun l => { l with sessionSlot := 0 }))

/-! ### Boundary scan (R79, R692) -/

/-- EXTEST is selected: the safe state first, and until PORST_n. -/
def execJtagExtest (s : State) : Out := s.run (fun m => m |> enterSafe .extest |> modLdr (fun l => { l with extest := true }))

/-- IDCODE of stepping B1, bit 0 first. -/
def execJtagIdcode (s : State) : Out := s.run (emit (.jtag (leBytes 4 0x10F08573)))

/-- BYPASS puts one bit between TDI and TDO, and changes nothing. -/
def execJtagBypass (s : State) : Out := s.run id

/-- SAMPLE/PRELOAD samples the balls into a register whose cells no rule lists: a free value leaves the part. -/
def execJtagSamplePreload (s : State) : Out := s.run (fun m =>
  let (v, m) := draw 8 m
  emit (.jtag (leBytes 1 v)) m)

/-! ### SMBus (R693) -/

/-- The island answers its address from 1 ms after PORST_n release. -/
def smbusUp (m : Mach) : Bool := m.saf.islandUp && decide (m.ldr.releasedAt + 1000000 ≤ now m)

/-- A Block Read is answered, or its address is not acknowledged. -/
def smbusRead (f : Mach → List Byte) (s : State) : Out := s.run (fun m =>
  emit (if smbusUp m then .smbus (f m) else .smbusNack) m)

/-- The word at a register's device address. -/
def regWord (m : Mach) (a : Nat) : Nat :=
  match regFind m a with
  | some (r, b) => rowValue m r b
  | none => 0

def execSmbusReadPatId (s : State) : Out := smbusRead (fun m => leBytes 4 (regWord m Reg.PAT_ID_PART.addr)) s
def execSmbusReadUid (s : State) : Out := smbusRead (fun m => leBytes 8 (rd m Reg.PAT_UID)) s
def execSmbusReadPatStatus (s : State) : Out := smbusRead (fun m => leBytes 4 (regWord m Reg.PAT_STATUS_STATE.addr)) s
def execSmbusReadSafStatus (s : State) : Out := smbusRead (fun m => leBytes 4 (regWord m Reg.SAF_STATUS_STATE.addr)) s
def execSmbusReadPower (s : State) : Out := smbusRead (fun m => leBytes 4 (regWord m Reg.PWR_POWER.addr)) s

/-- The hottest stack: the hotter of the channels' readings. -/
def hottestStack (m : Mach) : Int := (List.range 32).foldl (fun t ch => max t (signedOf 8 (rd m (Reg.MEM_TEMP ch)))) (-128)

/-- Without a working die sensor its byte is a free value. -/
def execSmbusReadTemps (s : State) : Out := s.run (fun m =>
  if !smbusUp m then emit .smbusNack m
  else
    let (die, m) := match hottestOf m (List.range 64) with
      | some t => (fieldOf 8 t, m)
      | none => draw 8 m
    emit (.smbus (leBytes 1 die ++ leBytes 1 (fieldOf 8 (hottestStack m)))) m)

def execSmbusOtherNack (s : State) : Out := s.run (emit .smbusNack)

/-! ### Balls that follow the state -/

/-- SMB_ALERT_n is driven low in the safe state (R693). -/
def smbAlertLow (m : Mach) : Bool := !m.powered || inSafe m

/-- NV_PERST_n is high from the enumeration of an applied pattern with an NVMe engine on (R680). -/
def nvPerstHigh (m : Mach) : Bool := m.powered && applied m && nvmePairs m != 0

end Sys2Proof.Machine
end

