-- ==== Sys2Proof/Machine/Access.lean ====
section
/-!
DEFINITION. Accesses that have no row of their own (R12 to R17, R34 to R43): register reads and writes through the table, the halves of
64-bit pairs, MSI-X tables (R545, R566), BAR2, addresses that hold nothing, and UCIe retries (R29).
-/

namespace Sys2Proof.Machine

/-! ### Which register -/

/-- The repetition that an offset of a row names, one number for each dimension. -/
def rowIndex : List (Nat × Nat) → Nat → List Nat
  | [], _ => []
  | (n, s) :: r, off =>
    let i := min (off / s) (n - 1)
    i :: rowIndex r (off - i * s)

/-- The indices of register `b` of a row. -/
def RegRow.index (r : RegRow) (b : Nat) : List Nat := rowIndex r.dims (b - r.base)

/-- A queue context that the HOST section does not have follows R13 (R583). -/
def noQueue (m : Mach) (a : Nat) : Bool :=
  decide (0x7F41000000 ≤ a) && decide (a < 0x7F41100000) && !hasQueue m ((a - 0x7F41000000) / 64)

/-- A command's own row, run on the part. -/
def viaRow (e : State → Out) (m : Mach) : Mach :=
  match e { m := m } with
  | .next s => s.m
  | _ => m

/-! ### Writes -/

/-- A write of one field with the bits of its register (R14); a write-only field that starts an action has its row. -/
def writeField (b v : Nat) (f : FieldSpec) (m : Mach) : Mach :=
  match f.access with
  | .rw => wr (f.at b) (bitsAt v f.lo f.width) m
  | .w1c => wr (f.at b) (rd m (f.at b) - (rd m (f.at b) &&& bitsAt v f.lo f.width)) m
  | _ => m

/-- The fields of a register, written. -/
def writeFields (r : RegRow) (b v : Nat) (m : Mach) : Mach := forEach r.fields (writeField b v) m

/-- Number `i` of a list as an index below `n`. -/
def idx (n : Nat) [NeZero n] (l : List Nat) (i : Nat) : Fin n := Fin.ofNat n (l.getD i 0)

/-- A write of SASH_CTRL: HOLD, where it changes, then the actions. -/
def writeSash (who : Requester) (l : Fin 4) (v : Nat) (m : Mach) : Mach :=
  m |> whenB (rdb m (Reg.SASH_CTRL_HOLD l) != bitOf v 2) (viaRow (execSashHoldWrite who l (bitOf v 2)))
    |> whenB (bitOf v 0) (viaRow (execSashRetrain who l)) |> whenB (bitOf v 1) (viaRow (execSashUnfence who l))

/-- A write of ING_STR_CTRL: ENABLE, then the actions. -/
def writeStream (who : Requester) (i : Fin 1024) (v : Nat) (m : Mach) : Mach :=
  m |> viaRow (execStreamEnableWrite who i (bitOf v 0)) |> whenB (bitOf v 1) (viaRow (execRingCommit who i))
    |> whenB (bitOf v 2) (viaRow (execQuarRelease who i)) |> whenB (bitOf v 3) (viaRow (execQuarForce who i))

/-- A write of HOST_SAF_REQUEST. -/
def writeSafRequest (who : Requester) (v : Nat) (m : Mach) : Mach :=
  match v % 256 with
  | 1 => viaRow (execSafeExitRequest who (BitVec.ofNat 16 (v / 65536))) m
  | 2 => viaRow (execSafeEnterRequest who) m
  | a => viaRow (execSafRequestInvalid who (BitVec.ofNat 8 a)) m

/-- A write of LOCK_CMD. -/
def writeLock (who : Requester) (n : Fin 1024) (v : Nat) (m : Mach) : Mach :=
  match v % 4 with
  | 1 => viaRow (execLockAcquire who n) m
  | 2 => viaRow (execLockRelease who n) m
  | 3 => viaRow (execLockClearAbandoned who n) m
  | _ => m

/-- HOST_Q_IRQ takes a COUNT of 0 as 1 (R586). -/
def writeIrq (b v : Nat) (r : RegRow) (m : Mach) : Mach := writeFields r b (if bitsAt v 12 8 = 0 then v + 4096 else v) m

/-- A write of a register that acts: its fields' effects, by the row's first address. -/
def writeActs (who : Requester) (r : RegRow) (b : Nat) (w : Word) (m : Mach) : Mach :=
  let v := w.toNat
  let x := r.index b
  if r.base = (Reg.TIME_TRIG_CTRL_MODE 0).addr then m |> writeFields r b v |> whenB (bitOf v 3) (viaRow (execTrigCommit who (idx 32 x 0)))
  else if r.base = (Reg.ING_APHY_CTRL_HOLD 0).addr then
    m |> viaRow (execAphyHoldWrite who (idx 32 x 0) (bitOf v 1)) |> whenB (bitOf v 0) (viaRow (execAphyRetrainCmd who (idx 32 x 0)))
  else if r.base = (Reg.ING_APHY_CCI_CMD_REG 0).addr then viaRow (execCciCommand who (idx 32 x 0) w) m
  else if r.base = (Reg.ING_ETH_CTRL_HOLD 0).addr then
    whenB (rdb m (Reg.ING_ETH_CTRL_HOLD (x.getD 0 0)) != bitOf v 1) (viaRow (execEthHoldWrite who (idx 16 x 0) (bitOf v 1))) m
  else if r.base = (Reg.ING_STR_CTRL_ENABLE 0).addr then writeStream who (idx 1024 x 0) v m
  else if r.base = (Reg.ING_STR_RELEASE_SLOT 0).addr then viaRow (execStreamSlotRelease who (idx 1024 x 0) (v % 64) (bitsAt v 6 1)) m
  else if r.base = (Reg.ISP_STR_CTRL_COMMIT 0).addr then whenB (bitOf v 0) (viaRow (execIspParamCommit who (idx 1024 x 0))) m
  else if r.base = (Reg.ISP_STR_TAP_POINT 0).addr then viaRow (execIspTapArm who (idx 1024 x 0) w) m
  else if r.base = (Reg.TC_HB_WRITE 0).addr then viaRow (execHeartbeatWrite who (idx 8 x 0)) m
  else if r.base = (Reg.TC_RECOV_CTRL_RESET 0).addr then whenB (bitOf v 0) (viaRow (execRecovResetWrite who (idx 8 x 0))) m
  else if r.base = (Reg.TC_CORE_CHK_CTRL_TOL 0 0).addr then viaRow (execChkCtrlWrite who (idx 8 x 0) (idx 2 x 1) w) m
  else if r.base = (Reg.SCR_FORENSIC_RELEASE 0).addr then
    m |> writeFields r b v |> whenB (bitOf v 0) (viaRow (execForensicRelease who (idx 8 x 0)))
  else if r.base = (Reg.KV_CMD_CMD 0).addr then whenB (v % 16 != 0) (kvCommand who (idx 8 x 0) (v % 16)) m
  else if r.base = (Reg.SASH_CTRL_HOLD 0).addr then writeSash who (idx 4 x 0) v m
  else if r.base = Reg.HOST_SAF_REQUEST_ACTION.addr then writeSafRequest who v m
  else if r.base = Reg.HOST_HC_CTRL_RESET.addr then viaRow (execHostClusterCoreReset who w) m
  else if r.base = (Reg.HOST_Q_CTRL_ENABLE 0).addr then
    if bitOf v 0 then viaRow (execQueueEnable who (x.getD 0 0) w) m else viaRow (execQueueDisable who (x.getD 0 0) w) m
  else if r.base = (Reg.HOST_Q_PROD 0).addr then viaRow (execSubmitDoorbell who (x.getD 0 0) w) m
  else if r.base = (Reg.HOST_Q_CONS 0).addr then viaRow (execConsumerIndexWrite who (x.getD 0 0) w) m
  else if r.base = (Reg.HOST_Q_IRQ_COUNT 0).addr then writeIrq b v r m
  else if r.base = (Reg.LOCK_CMD_CMD 0).addr then writeLock who (idx 1024 x 0) v m
  else if r.base = Reg.PWR_CAP.addr then viaRow (execPwrCapWrite who w) m
  else if r.base = Reg.PAT_MBX_CMD_CMD.addr then mbxCommand (v % 16) m
  else if (r.base = (Reg.TC_SEQ_SEM 0 0).addr ∨ r.base = (Reg.TC_SEQ_SEM 8 0).addr) ∧ (x.getLastD 0) = 0 then m
  else writeFields r b v m

/-- Writing one half of a pair (R17): `hi` the upper one. A pair with nothing to write ignores it. -/
def writePair (who : Requester) (r : RegRow) (b : Nat) (hi : Bool) (v : Nat) (m : Mach) : Mach :=
  let k := latchKey who b
  if r.fields.all (fun f => f.access != .rw) then m
  else if !hi then { m with holds := insertKey (eraseKey m.holds k) k v }
  else
    let low := (lookup m.holds k).getD (rowValue m r b % 2 ^ 32)
    writeFields r b (v * 2 ^ 32 + low) { m with holds := eraseKey m.holds k }

/-- A write at a device address by a requester that may write there. -/
def writeReg (who : Requester) (w : Word) (a : Nat) (m : Mach) : Mach :=
  if noQueue m a then m
  else match regFind m a with
    | none => m
    | some (r, b) => if r.pair then writePair who r b (a != b) w.toNat m else writeActs who r b w m

/-- The writers of the register at an address; an address without one restricts none (R13). -/
def writersAt (m : Mach) (a : Nat) : Writers :=
  match regFind m a with
  | some (r, _) => r.wr
  | none => .any

/-! ### MSI-X tables -/

/-- Vectors of a function. -/
def msixVectors (v : Nat) : Nat := if v = 0 then 2048 else 64

/-- Where the pending bits of a function begin in its BAR4. -/
def pbaAt (v : Nat) : Nat := if v = 0 then 0x8000 else 0x800

/-- A word of BAR4: the table at 0, then the pending bits. -/
def bar4Word (m : Mach) (v off : Nat) : Nat :=
  let f := mget m.funcs v
  if off < 16 * msixVectors v then msixWord f (off / 4)
  else if pbaAt v ≤ off ∧ off < pbaAt v + msixVectors v / 8 then
    ((List.range 32).map (fun i => if f.msixPending.contains ((off - pbaAt v) * 8 + i) then 2 ^ i else 0)).sum
  else 0

/-- A write of BAR4: a table word; a vector whose mask is cleared sends what it holds back. -/
def bar4Write (v off w : Nat) (m : Mach) : Mach :=
  if off < 16 * msixVectors v then
    let i := off / 4
    let w := if i % 4 = 3 then w % 2 else w
    m |> modFunc v (fun f => { f with msixTab := setD (b2n (i % 4 == 3)) f.msixTab i w }) |> flushMsix v
  else m

/-- Bytes of BAR4 (R38). -/
def bar4Bytes (v : Nat) : Nat := if v = 0 then 0x10000 else 0x1000

/-- A BAR4 access of a function: what stops it, or its effect. -/
def bar4At (who : Requester) (addr : Nat) (act : Nat → Mach → Mach) (m : Mach) : Mach :=
  match fnOf who with
  | none => m
  | some v =>
    match pcieGate m v with
    | some .retry => emit (.retryStatus who) m
    | some .noLink => m
    | some _ => resettingAccess who m
    | none => if addr % 4 ≠ 0 ∨ bar4Bytes v ≤ addr then refuseAccess who 3 addr m else act v m

/-! ### The rows -/

/-- A write of a register that has no row of its own: a BAR0 offset over PCIe, or a BAR4 offset where `bar4` is set; else a device
address. -/
def execRegisterWrite (who : Requester) (bar4 : Bool) (addr : Nat) (v : Word) (s : State) : Out := s.run (fun m =>
  if bar4 then bar4At who addr (fun f => bar4Write f addr v.toNat) m
  else if addr % 4 ≠ 0 then m
  else writeAt who addr (writersAt m) (writeReg who v) m)

/-- What a read of a register changes beside R14 and R17: a capture FIFO's upper half pops it, and so does a camera's result. -/
def readActs (who : Requester) (a : Nat) (m : Mach) : Mach :=
  match regFind m a with
  | some (r, b) =>
    let i := (r.index b).getD 0 0
    if r.base = (Reg.TIME_EVT_FIFO 0).addr ∧ a ≠ b then m |> regReadAct who a |> evtPop i
    else if r.base = (Reg.ING_APHY_CCI_RESULT_RDATA 0).addr then cciRead i m
    else regReadAct who a m
  | none => m

/-- What a read of a register returns. -/
def readWord (m : Mach) (who : Requester) (a : Nat) : Nat :=
  if noQueue m a then 0
  else match regFind m a with
    | some (r, b) => if r.base = (Reg.ING_APHY_CCI_RESULT_RDATA 0).addr then cciWord m ((r.index b).getD 0 0) else regValue m who a
    | none => 0

/-- A read of a register. -/
def execRcRegisterRead (who : Requester) (bar4 : Bool) (addr : Nat) (s : State) : Out := s.run (fun m =>
  if bar4 then bar4At who addr (fun f m => emit (.readData who (bar4Word m f addr)) m) m
  else if addr % 4 ≠ 0 then m
  else readAt who addr (readWord m who) (readActs who) m)

/-- An access to a register address that is no aligned access of 32 bits. -/
def execRegisterAccessMisaligned (who : Requester) (addr : Nat) (bytes : Nat) (_isWrite : Bool) (s : State) : Out := s.run (fun m =>
  if bytes = 4 ∧ addr % 4 = 0 then m
  else match reach m who addr with
    | .resetting => resettingAccess who m
    | .retry => emit (.retryStatus who) m
    | .noLink => m
    | _ => refuseAccess who (regSpace who) addr m)

/-- Whether an address, as presented, is the lower or the upper half of a pair. -/
def halfOf (m : Mach) (a : Nat) : Option Bool :=
  match regFind m a with
  | some (r, b) => if r.pair then some (a != b) else none
  | none => none

/-- The device address that a requester presents. -/
def deviceOf (who : Requester) (addr : Nat) : Nat := if isPcie who then (barToDev addr).getD addr else addr

/-- A read of the `hi` half of a pair. -/
def readHalf (hi : Bool) (who : Requester) (addr : Nat) (m : Mach) : Mach :=
  if halfOf m (deviceOf who addr) = some hi then readAt who addr (readWord m who) (readActs who) m else m

/-- A write of the `hi` half of a pair. -/
def writeHalf (hi : Bool) (who : Requester) (addr : Nat) (v : Word) (m : Mach) : Mach :=
  if halfOf m (deviceOf who addr) = some hi then writeAt who addr (writersAt m) (writeReg who v) m else m

def execPairLoRead (who : Requester) (addr : Nat) (s : State) : Out := s.run (readHalf false who addr)
def execPairHiRead (who : Requester) (addr : Nat) (s : State) : Out := s.run (readHalf true who addr)
def execPairLoWrite (who : Requester) (addr : Nat) (v : Word) (s : State) : Out := s.run (writeHalf false who addr v)
def execPairHiWrite (who : Requester) (addr : Nat) (v : Word) (s : State) : Out := s.run (writeHalf true who addr v)

/-! ### Addresses that hold nothing (R34, R35) -/

/-- The partition whose scratch a master reaches, if it reaches only one. -/
def scratchOwner : Requester → Option Nat
  | .seq p => some p
  | .seqfw p => some p
  | .dma p => some p
  | .walker p => some p
  | _ => none

/-- Whether an internal master reaches the byte at a device address. -/
def masterMay (m : Mach) (who : Requester) (a : Nat) (write : Bool) : Bool :=
  (inHbm m a 1 && masterHbm m who a 1 write) ||
  (match scrOf m a 1 with
   | some (p, _) => isH who || who == .isp || scratchOwner who == some p
   | none => false) ||
  (inSram a 1 && (who == .partner || (isH who && (!write || !(match who with | .hc _ => true | _ => false))))) ||
  (inBlock a && masterReaches who a)

/-- An access to an unpopulated or forbidden address: SPACE 0 for internal masters, 1 for BAR0. -/
def execUnpopulatedAccess (who : Requester) (space addr : Nat) (isWrite : Bool) (s : State) : Out := s.run (fun m =>
  if isPcie who then
    if space = 1 ∧ reach m who addr = .unpopulated then refuseAccess who 1 addr m else m
  else if space = 0 ∧ awake m who ∧ !masterMay m who addr isWrite then refuseAccess who 0 addr m
  else m)

/-! ### BAR2 (R40 to R43, R71, R462) -/

/-- The entry of a function's window: its page where the entry is valid, and whether writes are allowed. -/
def bar2Entry (m : Mach) (v n : Nat) : Option (Nat × Bool) :=
  let (valid, write, page) := if v = 0 then
      (rdb m (Reg.HOST_BAR2_XLAT_PF_VALID n), rdb m (Reg.HOST_BAR2_XLAT_PF_WRITE n), rd m (Reg.HOST_BAR2_XLAT_PF_PAGE n))
    else
      (rdb m (Reg.HOST_BAR2_XLAT_VF_VALID (v - 1) n), rdb m (Reg.HOST_BAR2_XLAT_VF_WRITE (v - 1) n), rd m (Reg.HOST_BAR2_XLAT_VF_PAGE (v - 1) n))
  if valid && decide ((page + 1) * 0x200000 ≤ hbmBytes m) then some (page, write) else none

/-- The parts of a request, split at the window boundary: window offset and length. -/
def bar2Split (off len : Nat) : List (Nat × Nat) :=
  let k := 0x200000 - off % 0x200000
  if len ≤ k then [(off, len)] else [(off, k), (off + k, len - k)]

/-- The device addresses of the parts, where every one passes (R41). -/
def bar2Parts (m : Mach) (v off len : Nat) (write : Bool) : Option (List (Nat × Nat)) :=
  (bar2Split off len).mapM (fun p =>
    match bar2Entry m v (p.1 / 0x200000) with
    | some (page, w) => if w || !write then some (page * 0x200000 + p.1 % 0x200000, p.2) else none
    | none => none)

/-- Bytes of BAR2 (R38), and a request inside it. -/
def inBar2 (v off len : Nat) : Bool := decide (off + len ≤ if v = 0 then 0x1000000000 else 0x40000000) && decide (1 ≤ len) && decide (len ≤ 4096)

/-- The requester of a function. -/
def fnReq (v : Nat) : Requester := if v = 0 then .pf else .vf v

/-- A BAR2 request of a function: what stops it, or its effect. -/
def bar2At (v off len : Nat) (act : Mach → Mach) (m : Mach) : Mach :=
  match pcieGate m v with
  | some .retry => emit (.retryStatus (fnReq v)) m
  | some .noLink => m
  | some _ => resettingAccess (fnReq v) m
  | none => if inBar2 v off len then act m else m

/-- A part of a BAR2 request is performed, or held until its channel leaves self-refresh. -/
def bar2Do (w : Requester) (write : Bool) (a : Nat) (data : List Byte) (len : Nat) (m : Mach) : Mach :=
  let h : HeldAcc := { who := w, bar2 := true, write := write, addr := a, len := len, data := data }
  if inRefresh m a len then { m with held := m.held ++ [h] } else performHeld h m

def execBar2Read (fn : Fin 64) (off len : Nat) (s : State) : Out := s.run (bar2At fn off len (fun m =>
  let w := fnReq fn
  match bar2Parts m fn off len false with
  | none => refuseAccess w 2 off m
  | some l =>
    if l.any (fun p => inRefresh m p.1 p.2) then forEach l (fun p => bar2Do w false p.1 [] p.2) m
    else
      let m' := forEach l (fun p m => (hbmVerdict {} p.1 p.2 m).2) m
      emit (if l.all (fun p => (damaged m p.1 p.2).isEmpty) then .readBytes w (l.flatMap (fun p => readMem m p.1 p.2))
        else .readPoisoned w len) m'))

/-- A write that is not performed is discarded, and logged once. -/
def execBar2Write (fn : Fin 64) (off : Nat) (data : List Byte) (s : State) : Out := s.run (bar2At fn off data.length (fun m =>
  let w := fnReq fn
  match bar2Parts m fn off data.length true with
  | none => hostIfAddr .ur w 2 off m
  | some l =>
    if l.any (fun p => loaderOnly m p.1 p.2) then hostIfAddr .writeRefused w 2 off m
    else
      let n := ((l.head?).map (·.2)).getD 0
      forEach ((l.zip [0, n])) (fun p => bar2Do w true p.1.1 ((data.drop p.2).take p.1.2) p.1.2) m))

/-! ### UCIe (R29) -/

/-- Retries of a module in the last 1 µs. -/
def ucieRecent (m : Mach) (u : Nat) : List Nat := (mget m.ucie u).filter (fun t => decide (now m < t + 1000))

def execUcieFlitCrcFail (u : Fin 2) (s : State) : Out := s.run (fun m =>
  { m with ucie := mset m.ucie u (now m :: ucieRecent m u) })

/-- More than eight retries within 1 µs. -/
def execUcieRetryLimit (u : Fin 2) (s : State) : Out := s.run (fun m =>
  let l := ucieRecent m u
  if l.length ≤ 8 then m
  else { m with ucie := mset m.ucie u [] } |> fatal .ucie { path := upath m 0 22 u 0 63 63, source := 0x53, detail := leBytes 4 l.length })

end Sys2Proof.Machine
end

