-- ==== Sys2Proof/Machine/VectorUnit.lean ====
section
/-!
DEFINITION. The vector units: the functions of R317 to R320 with the arithmetic of R295, and the decode, issue and completion of
a vector instruction (R272 to R274, R316 to R321), on the cores and on the Partner engine (R337, R517).
-/

namespace Sys2Proof.Machine

/-! ### Values -/

/-- A code of the vector unit's result, with what it counts. -/
abbrev VecVal := Nat × FmtCounts

/-- An exact result in a lane format (R295, R317): floats narrow; integers clip where SAT is 1 and wrap where it is 0. -/
def laneOut (fmt : Nat) (sat : Bool) (x : Ex) : VecVal :=
  if isFlt fmt then let r := narrow ((fltOf fmt).getD fp32) x; (r.1, { clipVec := r.2 })
  else
    let v := rndEx x
    if sat then let r := clipFmt fmt v; (fieldOf (fmtBits fmt) r.1, { clipVec := r.2 })
    else (fieldOf (fmtBits fmt) (wrapFmt fmt v), {})

/-- The greater of two values; of two zeros of opposite signs the result's sign is free (notes/assumptions/18.md). -/
def exMax (z : Bool) (a b : Ex) : Ex :=
  if exLt a b then b else if exLt b a then a
  else if a.m = 0 ∧ b.m = 0 ∧ a.neg ≠ b.neg then { neg := z } else a

def exMin (z : Bool) (a b : Ex) : Ex := exNeg (exMax z (exNeg a) (exNeg b))

/-- The free sign of an instruction's zeros. -/
def freeSign (g : Bytes) : Bool := Config.freeValue g.fr 1 % 2 == 1

/-- An exact value divided by a number, kept far below the last bit that a narrowing looks at, with a mark of what is left. -/
def exDiv (x : Ex) (d : Nat) : Ex :=
  let n := x.m * 2 ^ 320
  { neg := x.neg, m := 2 * (n / d) + b2n (n % d != 0), e := x.e - 321 }

/-- An elementwise function of R317 on formats `fa` and `fd`. -/
def vecOp (f fa fd : Nat) (sat z : Bool) (a b : Ex) (p : Param) : VecVal :=
  match f with
  | 0x00 => let r := toFmt fd a; (r.1, { clipVec := r.2 })
  | 0x01 => laneOut fd sat (exAdd a b)
  | 0x02 => laneOut fd sat (exAdd a (exNeg b))
  | 0x03 => laneOut fd sat (exMul a b)
  | 0x04 => laneOut fd sat (exMax z a b)
  | 0x05 => laneOut fd sat (exMin z a b)
  | 0x06 => laneOut fd sat { a with neg := false }
  | 0x07 => laneOut fd sat (exNeg a)
  | 0x08 => laneOut fd sat (exMax z a {})
  | 0x09 =>
    let r := requant (if isFlt fa then .flt (narrow fp32 a).1 else .int (rndEx a)) p fd
    let o := toFmt fd r.val
    (o.1, { clipVec := r.clips + o.2, nonf := r.nonf })
  | 0x0E => laneOut fd sat (exMul a a)
  | _ => let r := special f (narrow fp32 a).1; (r.1, { clipVec := r.2 })

/-- The FP32 sum of values in order, with its clips (R288): it starts at +0, as the accumulators do (R249). -/
def sum32 (l : List Ex) : Ex × Nat :=
  let r := l.foldl (fun (acc : Nat × Nat) x => let s := add32 acc.1 (narrow fp32 x).1; (s.1, acc.2 + s.2)) (0, 0)
  (f32 r.1, r.2)

/-- Sum, maximum or sum of squares of a row (RSUM 0x10, RMAX 0x11, RSUMSQ 0x12). -/
def vecReduce (f fa fd : Nat) (sat z : Bool) (l : List Ex) : VecVal :=
  if f = 0x11 then laneOut fd sat (l.tail.foldl (exMax z) (l.headD {}))
  else
    let sq := l.map (fun x => if f = 0x12 then exMul x x else x)
    if isFlt fa then
      let ps := sq.map (narrow fp32)
      let s := sum32 (ps.map (fun p => f32 p.1))
      let r := narrow ((fltOf fd).getD fp32) s.1
      (r.1, { clipVec := (ps.map (·.2)).sum + s.2 + r.2 })
    else laneOut fd sat (exSum sq)

/-- Join codes with their counts. -/
def gather (l : List VecVal) : List Nat × FmtCounts := (l.map (·.1), l.foldl (fun c v => c.add v.2) {})

/-- What an instruction writes to scratch. -/
structure VecResult where
  rows   : List (Int × List Byte) := []
  counts : FmtCounts := {}
deriving DecidableEq, Repr, Inhabited

/-! ### VS (R316, R317) -/

def vsFunc (o : EngOp) : Nat := bitsAt o.word 49 6
def vsD (o : EngOp) : TDesc := o.descs.getD 0 0
def vsA (o : EngOp) : TDesc := o.descs.getD 1 0
def vsB (o : EngOp) : TDesc := o.descs.getD 2 0
def vsP (o : EngOp) : Option TDesc := o.descs[3]?

/-- Whether a function reduces rows, and whether it reads B. -/
def vecReduces (f : Nat) : Bool := decide (0x10 ≤ f) && decide (f ≤ 0x12)
def vecBinary (f : Nat) : Bool := decide (1 ≤ f) && decide (f ≤ 5)

/-- The element of B that goes with element (m, k) of A. -/
def bElem (g : Bytes) (b : TDesc) (m k : Nat) : Ex × Nat :=
  elemVal (dFmt b) (elemCode g b 0 (if dRows b = 1 then 0 else m) (if dK b = 1 then 0 else k))

/-- The result of a VS. -/
def vsRun (g : Bytes) (o : EngOp) : VecResult :=
  let f := vsFunc o
  let sat := bitOf o.word 32
  let d := vsD o
  let a := vsA o
  let fa := dFmt a
  let fd := dFmt d
  let z := freeSign g
  (List.range (dRows a)).foldl (fun (r : VecResult) m =>
    let xs := (List.range (dK a)).map (fun k => elemVal fa (elemCode g a 0 m k))
    let vs : List VecVal :=
      if vecReduces f then [vecReduce f fa fd sat z (xs.map (·.1))]
      else xs.zipIdx.map (fun x =>
        let b := if vecBinary f then bElem g (vsB o) m x.2 else ({}, 0)
        let v := vecOp f fa fd sat z x.1.1 b.1 (paramOf g (vsP o) x.2)
        (v.1, v.2.add { nonf := b.2 }))
    let (cs, k) := gather vs
    { rows := r.rows ++ [(rowAddr d 0 m, packCodes (fmtBits fd) cs)],
      counts := (r.counts.add k).add { nonf := (xs.map (·.2)).sum } }) {}

/-- The lane formats (R317), and those of the Partner engine (R337). -/
def laneFmt (ptn : Bool) (c : Nat) : Bool :=
  if ptn then c == 6 || c == 7 || c == 8 else c == 0 || c == 1 || c == 8 || c == 5 || c == 6 || c == 7

/-- Formats that CVT and the requantisations accept (R279). -/
def cvtFmt (ptn : Bool) (c : Nat) : Bool := if ptn then laneFmt true c || c == 0 || c == 1 else decide (c ≤ 8)

/-- Output formats of a requantisation (R295): an integer sum to an integer format, a float sum to any
(DEDUCED, notes/assumptions/19.md). -/
def requantFmt (ptn : Bool) (fa fd : Nat) : Bool := cvtFmt ptn fd && (isFlt fa || isIntFmt fd)

/-- Formats that a function of VS or VR accepts. -/
def vecFmtOk (ptn : Bool) (f fa fb fd : Nat) : Bool :=
  if f = 0 then cvtFmt ptn fa && cvtFmt ptn fd
  else if f = 9 then (fa == 8 || fa == 7) && requantFmt ptn fa fd
  else
    laneFmt ptn fa && (!vecBinary f || fb == fa) && (!(decide (0x0A ≤ f) && decide (f ≤ 0x0D)) || fa == 7) &&
      (if f = 0x10 ∨ f = 0x12 then (if isFlt fa then fd == fa else fd == 8) else fd == fa)

/-- A shape of counts and a row length within R310. -/
def shapeOk (d : TDesc) : Bool :=
  (List.range 3).all (fun i => decide (1 ≤ dN d i)) && decide (1 ≤ dK d) && decide (dK d ≤ 16777215)

/-- Parameter words of a vector instruction as a byte range. -/
def vsPRange (o : EngOp) (n : Nat) : List (Int × Nat) := ((vsP o).map (fun d => ((dBase d : Int), 8 * n))).toList

/-- Whether every bank of these bytes is leased to the V lane of CORE[k]. -/
def leasedV (m : Mach) (p k : Nat) (rs : List (Int × Nat)) : Bool :=
  rs.all (fun r => decide (r.1.toNat / 2 ^ 25 = k) && decide ((r.1.toNat + r.2 - 1) / 2 ^ 25 = k) && leasedTo m p r.1.toNat r.2 laneV)

def vsReads (o : EngOp) : List (Int × Nat) :=
  allRanges (vsA o) 0 ++ (if vecBinary (vsFunc o) then allRanges (vsB o) 0 else []) ++ vsPRange o (dK (vsA o))
def vsWrites (o : EngOp) : List (Int × Nat) := allRanges (vsD o) 0

/-- D equals A exactly (R316). -/
def inPlace (o : EngOp) : Bool := allRanges (vsD o) 0 == allRanges (vsA o) 0

/-- The exception of a VS at decode, the lowest code of those that apply. -/
def vsFault (m : Mach) (q k : Nat) (o : EngOp) : Option Nat :=
  let f := vsFunc o
  let a := vsA o
  let b := vsB o
  let d := vsD o
  let two := vecBinary f
  if dKind a ≠ 1 ∨ dKind d ≠ 1 ∨ (two ∧ dKind b ≠ 1) ∨ (vsP o).any (fun p => dKind p != 4) then some 7
  else if !vecFmtOk (q == 8) f (dFmt a) (dFmt b) (dFmt d) then some 0x10
  else
    let r := dRows a
    if !shapeOk a ∨ !shapeOk d ∨ dRows d ≠ r ∨ dK d ≠ (if vecReduces f then 1 else dK a) ∨
        (two ∧ (!shapeOk b ∨ !((dRows b = r ∧ dK b = dK a) ∨ (dRows b = 1 ∧ dK b = dK a) ∨ (dRows b = r ∧ dK b = 1)))) ∨
        (vsP o).any (fun p => decide (dBytes p % 2 ^ 24 < 8 * dK a)) then some 0x11
    else if !([a, d] ++ (if two then [b] else [])).all (fun x => let s := spanOf x 0; spanOk m q s.1 s.2) ∨
        !(vsPRange o (dK a)).all (fun x => spanOk m q x.1 (x.1 + x.2)) then some 0x12
    else if selfMeets (vsWrites o) ∨ (!inPlace o ∧ meetRanges (vsWrites o) (allRanges a 0)) ∨
        meetRanges (vsWrites o) ((if two then allRanges b 0 else []) ++ vsPRange o (dK a)) then some 0x13
    else if q ≠ 8 ∧ !leasedV m q k (vsReads o ++ vsWrites o) then some 0x14
    else none

/-! ### VWIN (R320) -/

def vwinFunc (o : EngOp) : Nat := bitsAt o.word 52 3

/-- One result of a window: channel `c` of output pixel `m`. -/
def vwinAt (g : Bytes) (o : EngOp) (z : Bool) (m c : Nat) : VecVal :=
  let d := vsD o
  let a := vsA o
  let w := vsB o
  let fa := dFmt a
  let fd := dFmt d
  let taps := dKH a * dKW a
  let xs := (List.range taps).map (fun t => elemVal fa (elemCode g a 0 m (t * dCin a + c)))
  let nonf := (xs.map (·.2)).sum
  let v : VecVal :=
    if vwinFunc o = 0 then
      let ps := xs.zipIdx.map (fun x =>
        let y := elemVal (dFmt w) (elemCode g w 0 0 (x.2 * dCin a + c))
        (exMul x.1.1 y.1, y.2))
      let k := (ps.map (·.2)).sum
      let s : Sum × Nat :=
        if isFlt fa then
          let ns := ps.map (fun p => narrow fp32 p.1)
          let s := sum32 (ns.map (fun p => f32 p.1))
          (.flt (narrow fp32 s.1).1, (ns.map (·.2)).sum + s.2)
        else (.int (rndEx (exSum (ps.map (·.1)))), 0)
      let r := requant s.1 (paramOf g (vsP o) c) fd
      let q := toFmt fd r.val
      (q.1, { clipVec := s.2 + r.clips + q.2, nonf := k + r.nonf })
    else if vwinFunc o = 1 then laneOut fd true ((xs.tail.map (·.1)).foldl (exMax z) ((xs.head?.map (·.1)).getD {}))
    else if isFlt fa then
      let s := sum32 (xs.map (·.1))
      let r := narrow ((fltOf fd).getD fp32) (exDiv s.1 taps)
      (r.1, { clipVec := s.2 + r.2 })
    else
      let s := rndEx (exSum (xs.map (·.1)))
      laneOut fd true (exInt (if s < 0 then -(divR s.natAbs taps : Nat) else (divR s.natAbs taps : Nat)))
  (v.1, v.2.add { nonf := nonf })

/-- The result of a VWIN. -/
def vwinRun (g : Bytes) (o : EngOp) : VecResult :=
  let d := vsD o
  let z := freeSign g
  (List.range (dRows (vsA o))).foldl (fun (r : VecResult) m =>
    let (cs, k) := gather ((List.range (dCin (vsA o))).map (vwinAt g o z m))
    { rows := r.rows ++ [(rowAddr d 0 m, packCodes (fmtBits (dFmt d)) cs)], counts := r.counts.add k }) {}

def vwinReads (o : EngOp) : List (Int × Nat) :=
  allRanges (vsA o) 0 ++ (if vwinFunc o = 0 then allRanges (vsB o) 0 else []) ++ vsPRange o (dCin (vsA o))

/-- The exception of a VWIN at decode. -/
def vwinFault (m : Mach) (q k : Nat) (o : EngOp) : Option Nat :=
  let a := vsA o
  let w := vsB o
  let d := vsD o
  let dw := vwinFunc o == 0
  let ok (c : Nat) : Bool := if q = 8 then c == 6 else c == 0 || c == 1 || c == 5 || c == 6
  if dKind a ≠ 2 ∨ dKind d ≠ 1 ∨ (dw ∧ dKind w ≠ 1) ∨ (vsP o).any (fun p => dKind p != 4) then some 7
  else if !ok (dFmt a) ∨ !ok (dFmt d) ∨ (dw ∧ (!ok (dFmt w) ∨ isFlt (dFmt w) ≠ isFlt (dFmt a) ∨ (isFlt (dFmt a) ∧ dFmt w ≠ dFmt a) ∨
      (!isFlt (dFmt a) ∧ isFlt (dFmt d)))) ∨ (!dw ∧ dFmt d ≠ dFmt a) then some 0x10
  else if !windowOk a ∨ dCin a = 0 ∨ dOH a = 0 ∨ !shapeOk d ∨ dRows d ≠ dRows a ∨ dK d ≠ dCin a ∨
      (dw ∧ (!shapeOk w ∨ dRows w ≠ 1 ∨ dK w ≠ dLen a)) ∨ (vsP o).any (fun p => decide (dBytes p % 2 ^ 24 < 8 * dCin a)) then some 0x11
  else if !([a, d] ++ (if dw then [w] else [])).all (fun x => let s := spanOf x 0; spanOk m q s.1 s.2) ∨
      !(vsPRange o (dCin a)).all (fun x => spanOk m q x.1 (x.1 + x.2)) then some 0x12
  else if selfMeets (vsWrites o) ∨ meetRanges (vsWrites o) (vwinReads o) then some 0x13
  else if q ≠ 8 ∧ !leasedV m q k (vwinReads o ++ vsWrites o) then some 0x14
  else none

/-! ### VLD, VST and VR (R319) -/

def vReg (m : Mach) (q k i : Nat) : Nat := (getD 0 (coreSt m q k).vregs i).toNat
def vAcc (m : Mach) (q k i : Nat) : Nat := (getD 0 (coreSt m q k).vaccs i).toNat

/-- Write a vector register (0 to 31) or an accumulator (32 to 35); `bad` writes it poisoned, as zero. -/
def setV (q k i v : Nat) (bad : Bool) (m : Mach) : Mach :=
  let v := if bad then 0 else v
  modCore q k (fun c =>
    let c := if i < 32 then { c with vregs := setD 0 c.vregs i (BitVec.ofNat 1024 v) }
      else { c with vaccs := setD 0 c.vaccs (i - 32) (BitVec.ofNat 4096 v) }
    { c with vbad := (c.vbad.filter (· != i)) ++ (if bad then [i] else []) }) m

def vrFunc (o : EngOp) : Nat := bitsAt o.word 49 6
def vrFmt (o : EngOp) : Nat := bitsAt o.word 45 4
def vrAcc (o : EngOp) : Nat := 32 + bitsAt o.word 28 2

/-- Registers that an instruction reads and writes. -/
def vecRegs (o : EngOp) : List Nat × List Nat :=
  let v := bitsAt o.word 50 5
  match o.opcode with
  | 0x52 => ([], [v])
  | 0x53 => ([v], [])
  | 0x54 =>
    let f := vrFunc o
    let d := bitsAt o.word 40 5
    let a := bitsAt o.word 35 5
    let b := bitsAt o.word 30 5
    if f = 0x20 then ([a, b, vrAcc o], [vrAcc o])
    else if f = 0x21 then ([], [vrAcc o])
    else if f = 0x22 then ([vrAcc o], [d])
    else if vecBinary f then ([a, b], [d]) else ([a], [d])
  | _ => ([], [])

/-- Codes of a register's lanes, and a number from them. -/
def lanesOf (w total v : Nat) : List Nat := (List.range (total / w)).map (fun i => bitsAt v (i * w) w)
def fromLanes (w : Nat) : List Nat → Nat
  | [] => 0
  | c :: r => c % 2 ^ w + 2 ^ w * fromLanes w r

/-- What VR computes from va, vb and vacc[ACC]. -/
def vrRun (z : Bool) (o : EngOp) (va vb acc : Nat) : Nat × FmtCounts :=
  let f := vrFunc o
  let fmt := vrFmt o
  let w := fmtBits fmt
  let sat := bitOf o.word 27
  let xs := (lanesOf w 1024 va).map (elemVal fmt)
  let ys := (lanesOf w 1024 vb).map (elemVal fmt)
  let nonf (l : List (Ex × Nat)) : FmtCounts := { nonf := (l.map (·.2)).sum }
  if f = 0x20 then
    let ps := xs.zip ys
    if isFlt fmt then
      let r := (ps.zip (lanesOf 32 2048 acc)).map (fun x =>
        let p := narrow fp32 (exMul x.1.1.1 x.1.2.1)
        let s := add32 x.2 p.1
        ((s.1, { clipVec := p.2 + s.2 }) : VecVal))
      let (cs, k) := gather r
      (fromLanes 32 cs + acc / 2 ^ 2048 * 2 ^ 2048, (k.add (nonf xs)).add (nonf ys))
    else (fromLanes 32 ((ps.zip (lanesOf 32 4096 acc)).map (fun x =>
      fieldOf 32 (signedOf 32 x.2 + rndEx (exMul x.1.1.1 x.1.2.1)))), {})
  else if f = 0x21 then (0, {})
  else if f = 0x22 then (fromLanes 32 ((lanesOf 32 4096 acc).drop (32 * bitsAt o.word 30 5) |>.take 32), {})
  else if f = 0x23 ∨ f = 0x24 then
    let fd := if f = 0x23 ∧ !isFlt fmt then 8 else fmt
    let v := vecReduce (if f = 0x23 then 0x10 else 0x11) fmt fd sat z (xs.map (·.1))
    (v.1, v.2.add (nonf xs))
  else
    let (cs, k) := gather ((xs.zip ys).map (fun x => vecOp f fmt fmt sat z x.1.1 x.2.1 {}))
    (fromLanes w cs, (k.add (nonf xs)).add (if vecBinary f then nonf ys else {}))

/-- The exception of VLD, VST and VR at decode. -/
def vregFault (m : Mach) (q k : Nat) (o : EngOp) : Option Nat :=
  if o.opcode = 0x54 then
    let f := vrFunc o
    let fmt := vrFmt o
    let mac := if q = 8 then fmt == 6 else fmt == 0 || fmt == 5 || fmt == 6
    let ok := if f = 0x21 ∨ f = 0x22 then true else if f = 0x20 then mac
      else if f = 0x23 ∨ f = 0x24 then laneFmt (q == 8) fmt
      else laneFmt (q == 8) fmt && (!(decide (0x0A ≤ f) && decide (f ≤ 0x0D)) || fmt == 7)
    if ok then none else some 0x10
  else
    let psa := o.vals.headD 0
    if psa % 128 ≠ 0 ∨ 2 ^ 26 ≤ psa ∨ !spanOk m q psa (psa + 128) then some 0x12
    else if q ≠ 8 ∧ !leasedV m q k [((psa : Int), 128)] then some 0x14
    else none

/-! ### Decode, issue and cycles (R272 to R274, R517) -/

def vecFault (m : Mach) (q k : Nat) (o : EngOp) : Option Nat :=
  match o.opcode with
  | 0x50 => vsFault m q k o
  | 0x51 => vwinFault m q k o
  | _ => vregFault m q k o

/-- Scratch that a vector instruction reads and writes. -/
def vecReads (o : EngOp) : List (Int × Nat) :=
  match o.opcode with
  | 0x50 => vsReads o
  | 0x51 => vwinReads o
  | 0x52 => [((o.vals.headD 0 : Nat), 128)]
  | _ => []
def vecWrites (o : EngOp) : List (Int × Nat) :=
  match o.opcode with
  | 0x50 => vsWrites o
  | 0x51 => vsWrites o
  | 0x53 => [((o.vals.headD 0 : Nat), 128)]
  | _ => []

/-- Whether the accesses of a tensor are aligned to `w` bytes (R274): rows that start aligned, or lie gap-free behind an
aligned base. -/
def alignedTo (w : Nat) (d : TDesc) : Bool :=
  let rb := rowBytesOf (dFmt d) (dK d)
  let n (i : Nat) := dN d i
  decide (dBase d % w = 0) &&
    ((List.range 3).all (fun i => n i == 1 || decide (dS d i % (w : Int) = 0)) ||
      ((n 0 == 1 || dS d 0 == (rb : Int)) && (n 1 == 1 || dS d 1 == ((rb * n 0 : Nat) : Int)) &&
        (n 2 == 1 || dS d 2 == ((rb * n 0 * n 1 : Nat) : Int))))

/-- Exact cycles of a vector instruction. An operand whose accesses are not aligned counts twice; B
counts the elements it has. -/
def vecCycles (ptn : Bool) (o : EngOp) : Nat :=
  let w := if ptn then 256 else 128
  let flt (l : List Nat) : Bool := l.any isFlt
  let lat (b : Bool) : Nat := if ptn then 12 else if b then 8 else 6
  let sfu (n : Nat) : Nat := if ptn then ceilDiv n 16 + 20 else ceilDiv n 8 + 16
  let special (f : Nat) : Bool := decide (0x0A ≤ f) && decide (f ≤ 0x0D)
  match o.opcode with
  | 0x50 =>
    let f := vsFunc o
    let a := vsA o
    let d := vsD o
    let n := dRows a * dK a
    let bits := fmtBits (dFmt a)
    let once (x : TDesc) : Nat := let k := dRows x * dK x * bits; if alignedTo w x then k else 2 * k
    if special f then sfu n
    else ceilDiv (once a + (if vecBinary f then once (vsB o) else 0)) (8 * w) + lat (flt [dFmt a, dFmt d]) +
      (if vecReduces f then 8 * dRows a else 0)
  | 0x51 =>
    let a := vsA o
    ceilDiv (dCin a * fmtBits (dFmt a)) (8 * w) * (if dBase a % w = 0 ∧ dCP a % w = 0 ∧ dRP a % w = 0 then 1 else 2) *
      dRows a * dKH a * dKW a + lat (flt [dFmt a])
  | 0x52 => 1 + (if ptn then 12 else 8)
  | 0x53 => 1
  | _ =>
    let f := vrFunc o
    if special f then sfu 32 else if f = 0x23 ∨ f = 0x24 then 1 + (if ptn then 12 else 8) else 1 + lat (isFlt (vrFmt o))

/-- Whether the head of a vector queue may issue (R273): its registers are written, the granules it reads are ready, and those it
writes are clear and free. A destination that equals A exactly is ready as A is (DEDUCED, notes/assumptions/21.md). -/
def vecReady (m : Mach) (q k : Nat) (o : EngOp) : Bool :=
  let (r, w) := vecRegs o
  let busy := (engine m q (2 + k)).flight.flatMap (fun x => (vecRegs x).2)
  let gw := granulesOf (vecWrites o)
  (r ++ w).all (fun i => !busy.contains i) && allReady m q (granulesOf (vecReads o)) &&
    (if o.opcode = 0x50 ∧ inPlace o then allFree m q gw else writable m q gw)

/-- The head of a vector queue is decoded, and issues where R273 allows. It takes its registers at issue. -/
def vecIssue (q k : Nat) (m : Mach) : Mach :=
  match (engine m q (2 + k)).queue with
  | [] => m
  | o :: rest =>
    match vecFault m q k o with
    | some c => decodeFault q (2 + k) o c 0 m
    | none =>
      if !vecReady m q k o then holdHead q (2 + k) o 1 m
      else
        let (r, _) := vecRegs o
        let val (i : Nat) : Nat := if i < 32 then vReg m q k i else vAcc m q k (i - 32)
        let poisoned := r.any (fun i => (coreSt m q k).vbad.contains i)
        let o' : EngOp := { o with vals := o.vals ++ (b2n poisoned :: r.map val) }
        let w := headWait m q o
        m |> forEach (granulesOf (vecWrites o)) (reserveGran q) |> forEach (granulesOf (vecReads o)) (pinGran q)
          |> whenB (q != 8) (addTo (Reg.TC_CORE_CNT_VECTOR_WAIT q k) w)
          |> modEngine q (2 + k) (fun x => { x with queue := o' :: rest })
          |> takeIssue q (2 + k) o' (vecCycles (q == 8) o)

def execVectorIssue (q : Fin 9) (k : Fin 2) (s : State) : Out := s.run (vecIssue q k)

/-! ### Completion (R273, R321) -/

/-- The semaphore a vector instruction names. -/
def vecSem (o : EngOp) : Nat :=
  match o.opcode with
  | 0x50 => bitsAt o.word 27 4
  | 0x51 => bitsAt o.word 31 4
  | _ => 0

/-- The effect of a vector instruction: `bad` writes its destination poisoned. -/
def vecEffect (q k : Nat) (o : EngOp) (bad : Bool) (m : Mach) : Mach :=
  let g := seqBytes m q
  let vals := o.vals.drop (if o.opcode = 0x54 then 1 else 2)
  let poison (m : Mach) : Mach := forEach (vecWrites o) (fun r => poisonRange q r.1.toNat r.2) m
  let rows (r : VecResult) (m : Mach) : Mach :=
    (if bad && q != 8 then poison m
      else forEach r.rows (fun x m => if q = 8 then writeMem (seqAddr m q x.1.toNat) x.2 m else scrWrite q x.1.toNat x.2 m) m)
      |> whenB (q != 8) (countFormats q k r.counts)
  let m := { m with draws := m.draws + 1 }
  match o.opcode with
  | 0x50 => rows (vsRun g o) m
  | 0x51 => rows (vwinRun g o) m
  | 0x52 => setV q k (bitsAt o.word 50 5) (g.le (o.vals.headD 0 : Nat) 128) bad m
  | 0x53 => rows { rows := [((o.vals.headD 0 : Nat), leBytes 128 (vals.headD 0))] } m
  | _ =>
    let acc := if vrFunc o = 0x22 then vals.getD 0 0 else vals.getD 2 0
    let r := vrRun (freeSign g) o (vals.getD 0 0) (vals.getD 1 0) acc
    m |> forEach (vecRegs o).2 (fun i => setV q k i r.1 bad) |> whenB (q != 8) (countFormats q k r.2)

/-- Take the first instruction in flight that is due. -/
def takeDue (t : Nat) : List EngOp → Option (EngOp × List EngOp)
  | [] => none
  | o :: r => if o.ends ≤ t then some (o, r) else (takeDue t r).map (fun x => (x.1, o :: x.2))

/-- A vector instruction completes; `bad` is the first element in which the two copies disagreed (R477). -/
def vecComplete (q k : Nat) (bad : Option Nat) (m : Mach) : Mach :=
  match takeDue (now m) (engine m q (2 + k)).flight with
  | none => m
  | some (o, rest) =>
    let reads := vecReads o
    let words := if q = 8 then [] else damagedOf m q reads
    let regBad := (o.vals.getD (if o.opcode = 0x54 then 0 else 1) 0) != 0 && (o.opcode == 0x53 || o.opcode == 0x54)
    let fail := bad.isSome || !words.isEmpty || regBad
    let gw := granulesOf (vecWrites o)
    let m1 := m |> modEngine q (2 + k) (fun x => { x with flight := rest }) |> vecEffect q k o fail
      |> forEach gw (unreserveGran q) |> forEach (granulesOf reads) (unpinGran q)
      |> (if fail then setReady q false gw else setReady q true gw) |> semAdd q (vecSem o) 1
    if q = 8 then
      if rangesBad m 8 reads then partnerFault 2 (pathGroup m 15) m1
      else if fail then raiseExc (o.site 8 (2 + k)) 0x15 0 [] m1 else m1
    else
      let base : LogRec := { routineId := o.rid, instrAddr := o.pc, opcode := o.opcode, tag := o.tag }
      let unit := pathCore m q k 4 63 63
      let recs : List LogRec :=
        match words with
        | w :: _ => [{ path := pathBank m q (w.1 * 32), source := 9, detail := tileForm 0 {} }]
        | [] => match bad with
          | some i => [{ path := unit, source := 8, detail := leBytes 4 i }]
          | none => [{ path := unit, source := 9, detail := tileForm 0 {} }]
      let m1 := m1 |> forEach words (meetDamage base q true) |> inc (Reg.TC_CORE_CNT_VECTOR q k)
      let m1 := if fail then m1 |> whenB bad.isSome (fun m => m |> inc (Reg.TC_CORE_CNT_VEC_FAIL q k))
            |> mismatch q k (2 + k) o 0x15 0 recs unit false
        else repeatPassed q k o m1
      killStep q m1

def execVectorComplete (q : Fin 9) (k : Fin 2) (bad : Option Nat) (s : State) : Out := s.run (vecComplete q k bad)

end Sys2Proof.Machine
end

