-- ==== Sys2Proof/Machine/Dispatch.lean ====
section
/-!
DEFINITION. One arm for each command: the meaning it has, or its rejection by name.
-/

namespace Sys2Proof.Machine

/-- The effect of one command on everything but the queue. -/
def exec (i : Instr) (s : State) : Host.Outcome State Fault Refusal :=
  match i with
  | .porstAssert => Sys2Proof.Machine.execPorstAssert s
  | .porstRelease bootsel testEn voterPass flashHalf => Sys2Proof.Machine.execPorstRelease bootsel testEn voterPass flashHalf s
  | .registerWrite who bar4 addr v => Sys2Proof.Machine.execRegisterWrite who bar4 addr v s
  | .rcRegisterRead who bar4 addr => Sys2Proof.Machine.execRcRegisterRead who bar4 addr s
  | .registerAccessMisaligned who addr bytes isWrite => Sys2Proof.Machine.execRegisterAccessMisaligned who addr bytes isWrite s
  | .pairLoRead who addr => Sys2Proof.Machine.execPairLoRead who addr s
  | .pairHiRead who addr => Sys2Proof.Machine.execPairHiRead who addr s
  | .pairLoWrite who addr v => Sys2Proof.Machine.execPairLoWrite who addr v s
  | .pairHiWrite who addr v => Sys2Proof.Machine.execPairHiWrite who addr v s
  | .unpopulatedAccess who space addr isWrite => Sys2Proof.Machine.execUnpopulatedAccess who space addr isWrite s
  | .bar2Read fn off len => Sys2Proof.Machine.execBar2Read fn off len s
  | .bar2Write fn off data => Sys2Proof.Machine.execBar2Write fn off data s
  | .ucieFlitCrcFail u => Sys2Proof.Machine.execUcieFlitCrcFail u s
  | .ucieRetryLimit u => Sys2Proof.Machine.execUcieRetryLimit u s
  | .flashReadTimeout => Sys2Proof.Machine.execFlashReadTimeout s
  | .containerReadComplete data env => Sys2Proof.Machine.execContainerReadComplete data env s
  | .startupTestsComplete failed => Sys2Proof.Machine.execStartupTestsComplete failed s
  | .hbmTrainingComplete => Sys2Proof.Machine.execHbmTrainingComplete s
  | .hbmTrainingTimeout ch => Sys2Proof.Machine.execHbmTrainingTimeout ch s
  | .hostfwCopyChecked good => Sys2Proof.Machine.execHostfwCopyChecked good s
  | .preloadBlobChecked n data => Sys2Proof.Machine.execPreloadBlobChecked n data s
  | .firstTurnTick failed => Sys2Proof.Machine.execFirstTurnTick failed s
  | .loadFull who => Sys2Proof.Machine.execLoadFull who s
  | .reloadFull who => Sys2Proof.Machine.execReloadFull who s
  | .reloadSecondReadComplete data env => Sys2Proof.Machine.execReloadSecondReadComplete data env s
  | .loadAlter who => Sys2Proof.Machine.execLoadAlter who s
  | .cancelAlter who => Sys2Proof.Machine.execCancelAlter who s
  | .storePrimary who => Sys2Proof.Machine.execStorePrimary who s
  | .storeSecondary who => Sys2Proof.Machine.execStoreSecondary who s
  | .fuseRequest who => Sys2Proof.Machine.execFuseRequest who s
  | .mbxCmdUndefined who cmd => Sys2Proof.Machine.execMbxCmdUndefined who cmd s
  | .mbxReadComplete data env => Sys2Proof.Machine.execMbxReadComplete data env s
  | .flashOperationComplete readback => Sys2Proof.Machine.execFlashOperationComplete readback s
  | .flashOperationTimeout => Sys2Proof.Machine.execFlashOperationTimeout s
  | .alterationResetsBegin => Sys2Proof.Machine.execAlterationResetsBegin s
  | .debugChallengeRead => Sys2Proof.Machine.execDebugChallengeRead s
  | .debugAuthResponse slot key r sig => Sys2Proof.Machine.execDebugAuthResponse slot key r sig s
  | .debugRetryHoldExpiry => Sys2Proof.Machine.execDebugRetryHoldExpiry s
  | .debugSessionClose => Sys2Proof.Machine.execDebugSessionClose s
  | .jtagExtest => Sys2Proof.Machine.execJtagExtest s
  | .jtagIdcode => Sys2Proof.Machine.execJtagIdcode s
  | .jtagBypass => Sys2Proof.Machine.execJtagBypass s
  | .jtagSamplePreload => Sys2Proof.Machine.execJtagSamplePreload s
  | .gridTick failed => Sys2Proof.Machine.execGridTick failed s
  | .partitionTick p => Sys2Proof.Machine.execPartitionTick p s
  | .serviceWindowEnd p failed deferred ce => Sys2Proof.Machine.execServiceWindowEnd p failed deferred ce s
  | .lcRoutineStart p => Sys2Proof.Machine.execLcRoutineStart p s
  | .backgroundSliceStart p activity failed => Sys2Proof.Machine.execBackgroundSliceStart p activity failed s
  | .periodicTestOverdue p row => Sys2Proof.Machine.execPeriodicTestOverdue p row s
  | .deadlineFault p => Sys2Proof.Machine.execDeadlineFault p s
  | .itemDeadline tag => Sys2Proof.Machine.execItemDeadline tag s
  | .xoTimeFault => Sys2Proof.Machine.execXoTimeFault s
  | .ptpSyncRx msg => Sys2Proof.Machine.execPtpSyncRx msg s
  | .ptpFollowUpRx msg => Sys2Proof.Machine.execPtpFollowUpRx msg s
  | .ptpAnnounceRx msg => Sys2Proof.Machine.execPtpAnnounceRx msg s
  | .ptpPdelayReqRx msg => Sys2Proof.Machine.execPtpPdelayReqRx msg s
  | .ptpPdelayRespRx msg => Sys2Proof.Machine.execPtpPdelayRespRx msg s
  | .ptpSyncTx port => Sys2Proof.Machine.execPtpSyncTx port s
  | .ptpPdelayReqTx => Sys2Proof.Machine.execPtpPdelayReqTx s
  | .ptpSourceLost => Sys2Proof.Machine.execPtpSourceLost s
  | .ptpMasterSearchTimeout => Sys2Proof.Machine.execPtpMasterSearchTimeout s
  | .ppsInEdge rising => Sys2Proof.Machine.execPpsInEdge rising s
  | .ppsInLost => Sys2Proof.Machine.execPpsInLost s
  | .slewComplete => Sys2Proof.Machine.execSlewComplete s
  | .timeStepJump => Sys2Proof.Machine.execTimeStepJump s
  | .outputReanchor => Sys2Proof.Machine.execOutputReanchor s
  | .trigPulse n => Sys2Proof.Machine.execTrigPulse n s
  | .trigOneshot n => Sys2Proof.Machine.execTrigOneshot n s
  | .trigCommit who n => Sys2Proof.Machine.execTrigCommit who n s
  | .trigTransfer n => Sys2Proof.Machine.execTrigTransfer n s
  | .ppsOutPulse => Sys2Proof.Machine.execPpsOutPulse s
  | .evtInEdge k rise => Sys2Proof.Machine.execEvtInEdge k rise s
  | .evtFifoPop who k => Sys2Proof.Machine.execEvtFifoPop who k s
  | .aphyGroupTimeout => Sys2Proof.Machine.execAphyGroupTimeout s
  | .aphyLinkUp port p1 p2 retx delay => Sys2Proof.Machine.execAphyLinkUp port p1 p2 retx delay s
  | .aphyLinkFail port => Sys2Proof.Machine.execAphyLinkFail port s
  | .ethLinkUp port => Sys2Proof.Machine.execEthLinkUp port s
  | .ethLinkDown port => Sys2Proof.Machine.execEthLinkDown port s
  | .ethLinkWaitTimeout => Sys2Proof.Machine.execEthLinkWaitTimeout s
  | .aphyRetrainCmd who port => Sys2Proof.Machine.execAphyRetrainCmd who port s
  | .aphyHoldWrite who port hold => Sys2Proof.Machine.execAphyHoldWrite who port hold s
  | .ethHoldWrite who port hold => Sys2Proof.Machine.execEthHoldWrite who port hold s
  | .csi2FrameStart port vc number hdr => Sys2Proof.Machine.execCsi2FrameStart port vc number hdr s
  | .csi2FrameEnd port vc hdr => Sys2Proof.Machine.execCsi2FrameEnd port vc hdr s
  | .csi2LongPacket port vc dt hdr data crcOk env => Sys2Proof.Machine.execCsi2LongPacket port vc dt hdr data crcOk env s
  | .csi2EmbeddedData port vc hdr data => Sys2Proof.Machine.execCsi2EmbeddedData port vc hdr data s
  | .csi2ShortPacket port vc dt hdr => Sys2Proof.Machine.execCsi2ShortPacket port vc dt hdr s
  | .ethFrameRx port frame env => Sys2Proof.Machine.execEthFrameRx port frame env s
  | .rangeTimeSlice n => Sys2Proof.Machine.execRangeTimeSlice n s
  | .frameCloseTimeout n => Sys2Proof.Machine.execFrameCloseTimeout n s
  | .missingFrameTimeout n => Sys2Proof.Machine.execMissingFrameTimeout n s
  | .itemHandoff tag => Sys2Proof.Machine.execItemHandoff tag s
  | .streamSlotRelease who n slot gen => Sys2Proof.Machine.execStreamSlotRelease who n slot gen s
  | .streamEnableWrite who n en => Sys2Proof.Machine.execStreamEnableWrite who n en s
  | .ringCommit who n => Sys2Proof.Machine.execRingCommit who n s
  | .quarForce who n => Sys2Proof.Machine.execQuarForce who n s
  | .quarRelease who n => Sys2Proof.Machine.execQuarRelease who n s
  | .quarantineEntry n => Sys2Proof.Machine.execQuarantineEntry n s
  | .quarantineAutoRelease n => Sys2Proof.Machine.execQuarantineAutoRelease n s
  | .admissionTick => Sys2Proof.Machine.execAdmissionTick s
  | .cciCommand who port v => Sys2Proof.Machine.execCciCommand who port v s
  | .cciTransferComplete port data ack => Sys2Proof.Machine.execCciTransferComplete port data ack s
  | .cciTimeout port => Sys2Proof.Machine.execCciTimeout port s
  | .cciResultRead who port => Sys2Proof.Machine.execCciResultRead who port s
  | .ispSlotStart slot => Sys2Proof.Machine.execIspSlotStart slot s
  | .ispJobStart pipe => Sys2Proof.Machine.execIspJobStart pipe s
  | .ispJobEnd pipe mismatch => Sys2Proof.Machine.execIspJobEnd pipe mismatch s
  | .ispJobTimeout pipe => Sys2Proof.Machine.execIspJobTimeout pipe s
  | .ispJobStopReset pipe => Sys2Proof.Machine.execIspJobStopReset pipe s
  | .ispParamCommit who n => Sys2Proof.Machine.execIspParamCommit who n s
  | .ispTapArm who n v => Sys2Proof.Machine.execIspTapArm who n v s
  | .arrayRampStep p k => Sys2Proof.Machine.execArrayRampStep p k s
  | .arrayIdleTimeout p k => Sys2Proof.Machine.execArrayIdleTimeout p k s
  | .mmaIssue q k => Sys2Proof.Machine.execMmaIssue q k s
  | .mmaComplete q k ups => Sys2Proof.Machine.execMmaComplete q k ups s
  | .vectorIssue q k => Sys2Proof.Machine.execVectorIssue q k s
  | .vectorComplete q k bad => Sys2Proof.Machine.execVectorComplete q k bad s
  | .residueLogicUp p k => Sys2Proof.Machine.execResidueLogicUp p k s
  | .chkCtrlWrite who p k v => Sys2Proof.Machine.execChkCtrlWrite who p k v s
  | .nop q w => Sys2Proof.Machine.execNop q w s
  | .illegalOpcode q op w upset => Sys2Proof.Machine.execIllegalOpcode q op w upset s
  | .add q w => Sys2Proof.Machine.execAdd q w s
  | .sub q w => Sys2Proof.Machine.execSub q w s
  | .and q w => Sys2Proof.Machine.execAnd q w s
  | .or q w => Sys2Proof.Machine.execOr q w s
  | .xor q w => Sys2Proof.Machine.execXor q w s
  | .sll q w => Sys2Proof.Machine.execSll q w s
  | .srl q w => Sys2Proof.Machine.execSrl q w s
  | .sra q w => Sys2Proof.Machine.execSra q w s
  | .mul q w => Sys2Proof.Machine.execMul q w s
  | .min q w => Sys2Proof.Machine.execMin q w s
  | .max q w => Sys2Proof.Machine.execMax q w s
  | .slt q w => Sys2Proof.Machine.execSlt q w s
  | .sltu q w => Sys2Proof.Machine.execSltu q w s
  | .addi q w => Sys2Proof.Machine.execAddi q w s
  | .andi q w => Sys2Proof.Machine.execAndi q w s
  | .ori q w => Sys2Proof.Machine.execOri q w s
  | .xori q w => Sys2Proof.Machine.execXori q w s
  | .slli q w => Sys2Proof.Machine.execSlli q w s
  | .srli q w => Sys2Proof.Machine.execSrli q w s
  | .srai q w => Sys2Proof.Machine.execSrai q w s
  | .li q w => Sys2Proof.Machine.execLi q w s
  | .lds q w => Sys2Proof.Machine.execLds q w s
  | .sts q w => Sys2Proof.Machine.execSts q w s
  | .mfr q w => Sys2Proof.Machine.execMfr q w s
  | .mtr q w => Sys2Proof.Machine.execMtr q w s
  | .beq q w => Sys2Proof.Machine.execBeq q w s
  | .bne q w => Sys2Proof.Machine.execBne q w s
  | .blt q w => Sys2Proof.Machine.execBlt q w s
  | .bge q w => Sys2Proof.Machine.execBge q w s
  | .bltu q w => Sys2Proof.Machine.execBltu q w s
  | .bgeu q w => Sys2Proof.Machine.execBgeu q w s
  | .jal q w => Sys2Proof.Machine.execJal q w s
  | .jalr q w => Sys2Proof.Machine.execJalr q w s
  | .endRoutine q w => Sys2Proof.Machine.execEndRoutine q w s
  | .routineEnd q => Sys2Proof.Machine.execRoutineEnd q s
  | .trap q w => Sys2Proof.Machine.execTrap q w s
  | .timeRead q w => Sys2Proof.Machine.execTimeRead q w s
  | .itag q w => Sys2Proof.Machine.execItag q w s
  | .tld q w upset => Sys2Proof.Machine.execTld q w upset s
  | .tsetw q w => Sys2Proof.Machine.execTsetw q w s
  | .taddw q w => Sys2Proof.Machine.execTaddw q w s
  | .mma q w => Sys2Proof.Machine.execMma q w s
  | .lease q w => Sys2Proof.Machine.execLease q w s
  | .rclr q w => Sys2Proof.Machine.execRclr q w s
  | .rset q w => Sys2Proof.Machine.execRset q w s
  | .rwait q w => Sys2Proof.Machine.execRwait q w s
  | .vs q w => Sys2Proof.Machine.execVs q w s
  | .vwin q w => Sys2Proof.Machine.execVwin q w s
  | .vld q w => Sys2Proof.Machine.execVld q w s
  | .vst q w => Sys2Proof.Machine.execVst q w s
  | .vr q w => Sys2Proof.Machine.execVr q w s
  | .copy p w => Sys2Proof.Machine.execCopy p w s
  | .copyIssue q => Sys2Proof.Machine.execCopyIssue q s
  | .copyComplete q => Sys2Proof.Machine.execCopyComplete q s
  | .kvld p w => Sys2Proof.Machine.execKvld p w s
  | .kvst p w => Sys2Proof.Machine.execKvst p w s
  | .kvrefInc p w => Sys2Proof.Machine.execKvrefInc p w s
  | .kvrefDec p w => Sys2Proof.Machine.execKvrefDec p w s
  | .kvrefFork p w => Sys2Proof.Machine.execKvrefFork p w s
  | .kvrefTrunc p w => Sys2Proof.Machine.execKvrefTrunc p w s
  | .kvrefDrop p w => Sys2Proof.Machine.execKvrefDrop p w s
  | .kvOpComplete p => Sys2Proof.Machine.execKvOpComplete p s
  | .sig q w => Sys2Proof.Machine.execSig q w s
  | .waits q w => Sys2Proof.Machine.execWaits q w s
  | .fence q w => Sys2Proof.Machine.execFence q w s
  | .seqWaitSatisfied q => Sys2Proof.Machine.execSeqWaitSatisfied q s
  | .locka p w => Sys2Proof.Machine.execLocka p w s
  | .lockr p w => Sys2Proof.Machine.execLockr p w s
  | .lockc p w => Sys2Proof.Machine.execLockc p w s
  | .pcomp p w => Sys2Proof.Machine.execPcomp p w s
  | .ritem p w => Sys2Proof.Machine.execRitem p w s
  | .rrel p w => Sys2Proof.Machine.execRrel p w s
  | .pin w => Sys2Proof.Machine.execPin w s
  | .result p w => Sys2Proof.Machine.execResult p w s
  | .resultCommit p => Sys2Proof.Machine.execResultCommit p s
  | .gridPost q w => Sys2Proof.Machine.execGridPost q w s
  | .hint q w => Sys2Proof.Machine.execHint q w s
  | .poisonWriteback p k bank => Sys2Proof.Machine.execPoisonWriteback p k bank s
  | .scratchHWrite who addr data => Sys2Proof.Machine.execScratchHWrite who addr data s
  | .scratchHRead who addr len ce ue => Sys2Proof.Machine.execScratchHRead who addr len ce ue s
  | .wipeComplete p => Sys2Proof.Machine.execWipeComplete p s
  | .forensicRelease who p => Sys2Proof.Machine.execForensicRelease who p s
  | .forensicHoldTimeout p => Sys2Proof.Machine.execForensicHoldTimeout p s
  | .kvCmdCreate who p => Sys2Proof.Machine.execKvCmdCreate who p s
  | .kvCmdInc who p => Sys2Proof.Machine.execKvCmdInc who p s
  | .kvCmdDec who p => Sys2Proof.Machine.execKvCmdDec who p s
  | .kvCmdFork who p => Sys2Proof.Machine.execKvCmdFork who p s
  | .kvCmdTrunc who p => Sys2Proof.Machine.execKvCmdTrunc who p s
  | .kvCmdDrop who p => Sys2Proof.Machine.execKvCmdDrop who p s
  | .kvQuery who p => Sys2Proof.Machine.execKvQuery who p s
  | .kvMapRemote who p => Sys2Proof.Machine.execKvMapRemote who p s
  | .kvFetch who p => Sys2Proof.Machine.execKvFetch who p s
  | .kvEvict who p => Sys2Proof.Machine.execKvEvict who p s
  | .kvCmdUndefined who p code => Sys2Proof.Machine.execKvCmdUndefined who p code s
  | .kvPageZeroComplete p => Sys2Proof.Machine.execKvPageZeroComplete p s
  | .kvPoolZeroed p => Sys2Proof.Machine.execKvPoolZeroed p s
  | .sashEqualisationDone l ok => Sys2Proof.Machine.execSashEqualisationDone l ok s
  | .sashBlockLock l lane => Sys2Proof.Machine.execSashBlockLock l lane s
  | .sashMarkerRx l lane block found bip => Sys2Proof.Machine.execSashMarkerRx l lane block found bip s
  | .sashLockLoss l lane block => Sys2Proof.Machine.execSashLockLoss l lane block s
  | .sashHelloRx l group package link period session boxes => Sys2Proof.Machine.execSashHelloRx l group package link period session boxes s
  | .sashIdleRx l => Sys2Proof.Machine.execSashIdleRx l s
  | .sashRowInvalid l frameDue => Sys2Proof.Machine.execSashRowInvalid l frameDue s
  | .sashAckRx l seq nak c0 c1 c2 => Sys2Proof.Machine.execSashAckRx l seq nak c0 c1 c2 s
  | .sashTurnRx l turn time arrival => Sys2Proof.Machine.execSashTurnRx l turn time arrival s
  | .sashDelayRx l answer t1 t2 t3 arrival => Sys2Proof.Machine.execSashDelayRx l answer t1 t2 t3 arrival s
  | .sashFrameBad l => Sys2Proof.Machine.execSashFrameBad l s
  | .sashFrameRefMsg l seq src dest add page epoch msgSeq => Sys2Proof.Machine.execSashFrameRefMsg l seq src dest add page epoch msgSeq s
  | .sashFrameRefAck l seq src dest msgSeq gone => Sys2Proof.Machine.execSashFrameRefAck l seq src dest msgSeq gone s
  | .sashFramePageReq l seq p page epoch req => Sys2Proof.Machine.execSashFramePageReq l seq p page epoch req s
  | .sashFramePageData l seq req index data => Sys2Proof.Machine.execSashFramePageData l seq req index data s
  | .sashFramePageGone l seq req => Sys2Proof.Machine.execSashFramePageGone l seq req s
  | .sashFramePageErr l seq req => Sys2Proof.Machine.execSashFramePageErr l seq req s
  | .sashFrameSlotData l seq box index data => Sys2Proof.Machine.execSashFrameSlotData l seq box index data s
  | .sashFrameSlotFree l seq box => Sys2Proof.Machine.execSashFrameSlotFree l seq box s
  | .sashSlotSend l box => Sys2Proof.Machine.execSashSlotSend l box s
  | .sashMarkerTx l => Sys2Proof.Machine.execSashMarkerTx l s
  | .sashAckTx l => Sys2Proof.Machine.execSashAckTx l s
  | .sashDelayTx l => Sys2Proof.Machine.execSashDelayTx l s
  | .sashReplayTimeout l => Sys2Proof.Machine.execSashReplayTimeout l s
  | .sashRetrainTimeout l => Sys2Proof.Machine.execSashRetrainTimeout l s
  | .sashRetrain who l => Sys2Proof.Machine.execSashRetrain who l s
  | .sashUnfence who l => Sys2Proof.Machine.execSashUnfence who l s
  | .sashHoldWrite who l v => Sys2Proof.Machine.execSashHoldWrite who l v s
  | .hbmRefresh ch => Sys2Proof.Machine.execHbmRefresh ch s
  | .hbmTempSample stack temp => Sys2Proof.Machine.execHbmTempSample stack temp s
  | .hbmRead who addr len ce ue => Sys2Proof.Machine.execHbmRead who addr len ce ue s
  | .hbmWrite who addr data ce ue => Sys2Proof.Machine.execHbmWrite who addr data ce ue s
  | .calOverdue ch => Sys2Proof.Machine.execCalOverdue ch s
  | .scrubPassTimeout ch => Sys2Proof.Machine.execScrubPassTimeout ch s
  | .marginTestDue => Sys2Proof.Machine.execMarginTestDue s
  | .marginCoolTimeout => Sys2Proof.Machine.execMarginCoolTimeout s
  | .marginTestComplete failed core loc sig age => Sys2Proof.Machine.execMarginTestComplete failed core loc sig age s
  | .fatalIndication kind addr => Sys2Proof.Machine.execFatalIndication kind addr s
  | .safeNReadback level => Sys2Proof.Machine.execSafeNReadback level s
  | .aliveFrameSend => Sys2Proof.Machine.execAliveFrameSend s
  | .callerGridArrival partner tag bad differ => Sys2Proof.Machine.execCallerGridArrival partner tag bad differ s
  | .rejectRunLimit n => Sys2Proof.Machine.execRejectRunLimit n s
  | .islandVoteMismatch odd => Sys2Proof.Machine.execIslandVoteMismatch odd s
  | .islandResyncComplete => Sys2Proof.Machine.execIslandResyncComplete s
  | .islandWatchdogWrite => Sys2Proof.Machine.execIslandWatchdogWrite s
  | .islandWatchdogTimeout => Sys2Proof.Machine.execIslandWatchdogTimeout s
  | .debugHalt => Sys2Proof.Machine.execDebugHalt s
  | .debugStep => Sys2Proof.Machine.execDebugStep s
  | .debugStateWrite reg value => Sys2Proof.Machine.execDebugStateWrite reg value s
  | .debugResume odd => Sys2Proof.Machine.execDebugResume odd s
  | .partnerClockCheck dev => Sys2Proof.Machine.execPartnerClockCheck dev s
  | .partnerFault cause => Sys2Proof.Machine.execPartnerFault cause s
  | .partnerWipeComplete => Sys2Proof.Machine.execPartnerWipeComplete s
  | .partnerChunkRx bad => Sys2Proof.Machine.execPartnerChunkRx bad s
  | .partnerItemClose => Sys2Proof.Machine.execPartnerItemClose s
  | .safeEnterRequest who => Sys2Proof.Machine.execSafeEnterRequest who s
  | .safeExitRequest who token => Sys2Proof.Machine.execSafeExitRequest who token s
  | .safRequestInvalid who action => Sys2Proof.Machine.execSafRequestInvalid who action s
  | .safeExitTestsComplete failed => Sys2Proof.Machine.execSafeExitTestsComplete failed s
  | .safeExitComplete => Sys2Proof.Machine.execSafeExitComplete s
  | .safetyEthRx e frame => Sys2Proof.Machine.execSafetyEthRx e frame s
  | .pcieLinkDown bursts => Sys2Proof.Machine.execPcieLinkDown bursts s
  | .pcieHotReset bursts => Sys2Proof.Machine.execPcieHotReset bursts s
  | .pciePerst low bursts => Sys2Proof.Machine.execPciePerst low bursts s
  | .pfFlr bursts => Sys2Proof.Machine.execPfFlr bursts s
  | .vfFlr v bursts => Sys2Proof.Machine.execVfFlr v bursts s
  | .vfEnableClear bursts => Sys2Proof.Machine.execVfEnableClear bursts s
  | .vfResetComplete v => Sys2Proof.Machine.execVfResetComplete v s
  | .numvfsWrite n => Sys2Proof.Machine.execNumvfsWrite n s
  | .busMasterEnableSet v => Sys2Proof.Machine.execBusMasterEnableSet v s
  | .queueEnable who q v => Sys2Proof.Machine.execQueueEnable who q v s
  | .queueDisable who q v => Sys2Proof.Machine.execQueueDisable who q v s
  | .submitDoorbell who q v => Sys2Proof.Machine.execSubmitDoorbell who q v s
  | .consumerIndexWrite who q v => Sys2Proof.Machine.execConsumerIndexWrite who q v s
  | .descriptorFetch q host => Sys2Proof.Machine.execDescriptorFetch q host s
  | .descriptorReadError q => Sys2Proof.Machine.execDescriptorReadError q s
  | .descCopyIn q => Sys2Proof.Machine.execDescCopyIn q s
  | .descCopyOut q => Sys2Proof.Machine.execDescCopyOut q s
  | .descCopyHbm q => Sys2Proof.Machine.execDescCopyHbm q s
  | .work q => Sys2Proof.Machine.execWork q s
  | .descNop q => Sys2Proof.Machine.execDescNop q s
  | .descNvmeRead q lba k => Sys2Proof.Machine.execDescNvmeRead q lba k s
  | .descNvmeWrite q lba k => Sys2Proof.Machine.execDescNvmeWrite q lba k s
  | .descNvmeFlush q lba => Sys2Proof.Machine.execDescNvmeFlush q lba s
  | .descReserved q => Sys2Proof.Machine.execDescReserved q s
  | .hostDmaBurstComplete q data => Sys2Proof.Machine.execHostDmaBurstComplete q data s
  | .nvmeCommandComplete q off status data lba k => Sys2Proof.Machine.execNvmeCommandComplete q off status data lba k s
  | .recordPlace q fails => Sys2Proof.Machine.execRecordPlace q fails s
  | .msixCoalesceTimeout q => Sys2Proof.Machine.execMsixCoalesceTimeout q s
  | .lockAcquire who n => Sys2Proof.Machine.execLockAcquire who n s
  | .lockRelease who n => Sys2Proof.Machine.execLockRelease who n s
  | .lockClearAbandoned who n => Sys2Proof.Machine.execLockClearAbandoned who n s
  | .hostClusterCoreReset who v => Sys2Proof.Machine.execHostClusterCoreReset who v s
  | .beWorkStart p => Sys2Proof.Machine.execBeWorkStart p s
  | .beRangeClearComplete p => Sys2Proof.Machine.execBeRangeClearComplete p s
  | .preemptRequest p => Sys2Proof.Machine.execPreemptRequest p s
  | .preemptDrainComplete p => Sys2Proof.Machine.execPreemptDrainComplete p s
  | .contextSaveComplete p => Sys2Proof.Machine.execContextSaveComplete p s
  | .contextRestoreComplete p bad => Sys2Proof.Machine.execContextRestoreComplete p bad s
  | .heartbeatExpiry p => Sys2Proof.Machine.execHeartbeatExpiry p s
  | .heartbeatWrite who p => Sys2Proof.Machine.execHeartbeatWrite who p s
  | .hangDetected p => Sys2Proof.Machine.execHangDetected p s
  | .killDrainTimeout p => Sys2Proof.Machine.execKillDrainTimeout p s
  | .rescueComplete p => Sys2Proof.Machine.execRescueComplete p s
  | .rescueTimeout p => Sys2Proof.Machine.execRescueTimeout p s
  | .recovResetWrite who p => Sys2Proof.Machine.execRecovResetWrite who p s
  | .partitionResetComplete p imemBad spareBad => Sys2Proof.Machine.execPartitionResetComplete p imemBad spareBad s
  | .powerSample pkg parts => Sys2Proof.Machine.execPowerSample pkg parts s
  | .capControlTick => Sys2Proof.Machine.execCapControlTick s
  | .pwrCapWrite who v => Sys2Proof.Machine.execPwrCapWrite who v s
  | .capHoldEntry => Sys2Proof.Machine.execCapHoldEntry s
  | .capUnmetExpiry => Sys2Proof.Machine.execCapUnmetExpiry s
  | .capHoldExit => Sys2Proof.Machine.execCapHoldExit s
  | .opChangeComplete u => Sys2Proof.Machine.execOpChangeComplete u s
  | .hintRailRise p => Sys2Proof.Machine.execHintRailRise p s
  | .hintWindowClose p => Sys2Proof.Machine.execHintWindowClose p s
  | .marginMonitorSample p slack => Sys2Proof.Machine.execMarginMonitorSample p slack s
  | .trimHoldExpiry p => Sys2Proof.Machine.execTrimHoldExpiry p s
  | .tempSample readings => Sys2Proof.Machine.execTempSample readings s
  | .overTemp sensor temp holds => Sys2Proof.Machine.execOverTemp sensor temp holds s
  | .stackOverTemp stack temp holds => Sys2Proof.Machine.execStackOverTemp stack temp holds s
  | .railUnder u mv holds => Sys2Proof.Machine.execRailUnder u mv holds s
  | .railOver u mv holds => Sys2Proof.Machine.execRailOver u mv holds s
  | .overcurrent p current holds => Sys2Proof.Machine.execOvercurrent p current holds s
  | .supply mv limit holds => Sys2Proof.Machine.execSupply mv limit holds s
  | .shutdown sensor temp => Sys2Proof.Machine.execShutdown sensor temp s
  | .forcedSlowRelease => Sys2Proof.Machine.execForcedSlowRelease s
  | .serdesRefclkLoss => Sys2Proof.Machine.execSerdesRefclkLoss s
  | .peRefclkLoss bursts => Sys2Proof.Machine.execPeRefclkLoss bursts s
  | .smbusReadPatId => Sys2Proof.Machine.execSmbusReadPatId s
  | .smbusReadUid => Sys2Proof.Machine.execSmbusReadUid s
  | .smbusReadPatStatus => Sys2Proof.Machine.execSmbusReadPatStatus s
  | .smbusReadSafStatus => Sys2Proof.Machine.execSmbusReadSafStatus s
  | .smbusReadPower => Sys2Proof.Machine.execSmbusReadPower s
  | .smbusReadTemps => Sys2Proof.Machine.execSmbusReadTemps s
  | .smbusOtherNack => Sys2Proof.Machine.execSmbusOtherNack s
  | .safetyPortLinkUp e => Sys2Proof.Machine.execSafetyPortLinkUp e s
  | .safetyPortLinkDown e => Sys2Proof.Machine.execSafetyPortLinkDown e s
  | .ptpAnnounceTx port => Sys2Proof.Machine.execPtpAnnounceTx port s
  | .kvRemoteTimeoutExpiry p => Sys2Proof.Machine.execKvRemoteTimeoutExpiry p s
  | .referenceMessageRx src p => Sys2Proof.Machine.execReferenceMessageRx src p s
  | .busMasterEnableClear v => Sys2Proof.Machine.execBusMasterEnableClear v s
  | .vfEnableSet => Sys2Proof.Machine.execVfEnableSet s
  | .pcieLinkUp gen width => Sys2Proof.Machine.execPcieLinkUp gen width s
  | .serdesRefclkReturn => Sys2Proof.Machine.execSerdesRefclkReturn s
  | .powerStateChange v d3hot => Sys2Proof.Machine.execPowerStateChange v d3hot s

end Sys2Proof.Machine
end

