-- ==== Sys2Proof/Machine/Step.lean ====
section
/-!
DEFINITION. One step: the command at the front of the queue, or 2 ns of the part's own time where none waits.
-/

namespace Sys2Proof.Machine

/-- What the part does where no command waits: its time counter advances once, by 2 ns and the rate correction (R113;
notes/assumptions/23.md). -/
def State.idle (s : State) : State := if s.m.powered then { s with m := advance s.m } else s

/-- Take the command at the front of the queue and answer what it does to the state with the queue's rest. -/
def step (s : State) : Host.Outcome State Fault Refusal :=
  match s.pending with
  | [] => .next s.idle
  | c :: rest => exec c { s with pending := rest }

/-- The state with the command that a word spells put at the front of the queue. -/
def State.withFetchWord (s : State) (nbits w : Nat) : State :=
  match decodeTableWord nbits w with
  | some c => { s with pending := c :: s.pending }
  | none => s

end Sys2Proof.Machine
end

