-- ==== Sys2Proof/Safety.lean ====
section
/-!
DEFINITION. What counts as a safe run of the part, and the words that statements about it use: that a command completes, what it
leaves alone, and what its fuses always satisfy.
-/

namespace Sys2Proof.Machine

/-! ### Completing -/

/-- The command is executed: `exec` answers a next state, with the queue and the fuses as they were, and the part is left as `P` says. -/
def Completes (c : Instr) (s : State) (P : Mach → Prop) : Prop :=
  ∃ t, exec c s = .next t ∧ t.pending = s.pending ∧ t.fuses = s.fuses ∧ P t.m

/-- A state that takes commands: PORST_n is high (R677). -/
abbrev Powered (s : State) : Prop := s.m.powered = true

/-- A run of `k` steps from `s` to `t` that meets no fault and no refusal: the safe runs. -/
def Runs : Nat → State → State → Prop
  | 0, s, t => t = s
  | k + 1, s, t => ∃ n, step s = .next n ∧ Runs k n t

/-! ### What a command leaves alone -/

/-- Every field of every register but those listed reads as before. -/
def RegsKept (fs : List Fld) (m t : Mach) : Prop := ∀ f : Fld, f.key ∉ fs.map Fld.key → rd t f = rd m f

/-- Nothing has changed but registers, and of those only fields listed. -/
def OnlyRegs (fs : List Fld) (m t : Mach) : Prop := t = { m with regs := t.regs } ∧ RegsKept fs m t

/-- Fields of registers hold the values listed, and every other field of a register reads as before. -/
def Sets (l : List (Fld × Nat)) (m t : Mach) : Prop := (∀ x ∈ l, rd t x.1 = x.2) ∧ RegsKept (l.map (fun x => x.1)) m t

/-- Every byte of memory reads as before. -/
def MemKept (m t : Mach) : Prop := ∀ a, rb t a = rb m a

/-- Nothing has changed but what left the part. -/
def OnlyOut (m t : Mach) : Prop := t = { m with out := t.out }

/-- A field that no error record writes: neither a sequence number of the log nor a register of the host interface. -/
abbrev Fld.unlogged (f : Fld) : Prop :=
  (f.key < 0x7F40000000 * 64 ∨ 0x7F42000000 * 64 ≤ f.key) ∧ f.key ≠ Reg.SAF_LOG_SEQ.key ∧ f.key ≠ Reg.SAF_LAST_FATAL_SEQ.key

/-- A field that neither an error record nor the safe state writes: outside the host interface, and outside the status, cause and count
registers with which the SAF block begins. -/
abbrev Fld.beyond (f : Fld) : Prop :=
  (f.key < 0x7F40000000 * 64 ∨ 0x7F42000000 * 64 ≤ f.key) ∧ (f.key < 0x7F50000000 * 64 ∨ 0x7F50000100 * 64 ≤ f.key)

/-- One error record of a source has joined the log in front, with the next sequence number and the time (R485, R533). -/
def Logged (source : Nat) (m t : Mach) : Prop :=
  ∃ r, t.log = (r :: m.log).take 4096 ∧ r.source = source ∧ r.time = now m ∧ r.seq = (rd m Reg.SAF_LOG_SEQ + 1) % 2 ^ 32

/-- Among the error records that have joined the log in front is one of a source, with the time. -/
def Noted (source : Nat) (m t : Mach) : Prop :=
  ∃ new, t.log = (new ++ m.log).take 4096 ∧ ∃ r ∈ new, r.source = source ∧ r.time = now m

/-- An access that was not performed (R34, R37, R39): one HOST_IF record tells of it, and no register that a record does not write,
no sequencer and no item has changed. -/
def OnlyLogged (m t : Mach) : Prop :=
  Logged 0x5E m t ∧ (∀ f : Fld, f.unlogged → rd t f = rd m f) ∧ t.seqs = m.seqs ∧ t.items = m.items ∧ t.saf = m.saf ∧ t.ldr = m.ldr

/-- The safe state has been entered for a cause (R506, R507): both latches are set, SAFE_n is low, SAF_STATUS shows SAFE, and the cause is
held behind those held before. -/
def Entered (c : Cause) (m t : Mach) : Prop :=
  inSafe t = true ∧ t.saf.latchA = true ∧ t.saf.latchB = true ∧ rd t Reg.SAF_STATUS_SAFE_N = 0 ∧
    t.saf.causes = if m.saf.causes.contains c then m.saf.causes else m.saf.causes ++ [c]

/-- No ECC word that a range of memory touches is uncorrectable, poisoned or correctable. -/
abbrev Clean (m : Mach) (a n : Nat) : Prop := damaged m a n = [] ∧ softWords m a n = []

/-- Exactly the bytes `bs` have been stored at `a`: they read back, and every other byte reads as before. -/
def Stored (a : Nat) (bs : List Byte) (m t : Mach) : Prop :=
  ∀ x, rb t x = if a ≤ x ∧ x < a + bs.length then bs.getD (x - a) 0 else rb m x

/-! ### Reaching registers -/

/-- The requester reaches the register of field `f` and may write it: by R35 to R39 at the register's block, by R37 in the SAF block,
and by the writers `k` that the register's own rule names. -/
abbrev MayWrite (m : Mach) (w : Requester) (f : Fld) (k : Writers) : Prop :=
  reach m w (presented w f.addr) = .ok f.addr ∧ (inSaf f.addr = true → mayWrite m w .mi f.addr = true) ∧ mayWrite m w k f.addr = true

/-- First addresses of the rows whose write does more than R14 says: they have commands or rules of their own. -/
def actRows : List Nat := [(Reg.TIME_TRIG_CTRL_MODE 0).addr, (Reg.ING_APHY_CTRL_HOLD 0).addr, (Reg.ING_APHY_CCI_CMD_REG 0).addr,
  (Reg.ING_ETH_CTRL_HOLD 0).addr, (Reg.ING_STR_CTRL_ENABLE 0).addr, (Reg.ING_STR_RELEASE_SLOT 0).addr, (Reg.ISP_STR_CTRL_COMMIT 0).addr,
  (Reg.ISP_STR_TAP_POINT 0).addr, (Reg.TC_HB_WRITE 0).addr, (Reg.TC_RECOV_CTRL_RESET 0).addr, (Reg.TC_CORE_CHK_CTRL_TOL 0 0).addr,
  (Reg.SCR_FORENSIC_RELEASE 0).addr, (Reg.KV_CMD_CMD 0).addr, (Reg.SASH_CTRL_HOLD 0).addr, Reg.HOST_SAF_REQUEST_ACTION.addr,
  Reg.HOST_HC_CTRL_RESET.addr, (Reg.HOST_Q_CTRL_ENABLE 0).addr, (Reg.HOST_Q_PROD 0).addr, (Reg.HOST_Q_CONS 0).addr,
  (Reg.HOST_Q_IRQ_COUNT 0).addr, (Reg.LOCK_CMD_CMD 0).addr, Reg.PWR_CAP.addr, Reg.PAT_MBX_CMD_CMD.addr, (Reg.TC_SEQ_SEM 0 0).addr,
  (Reg.TC_SEQ_SEM 8 0).addr]

/-- The sequencer may execute its next instruction, which is the one of opcode `op` and low bits `w` (R304, R306). -/
abbrev StandsAt (m : Mach) (q op w : Nat) : Prop := seqAt m q op w = true

/-! ### What a sequencer does (R303, R304, R308, R309) -/

/-- A sequencer has gone on to `pc` with one more instruction counted; of the other registers only the fields listed may have
changed, and beside registers only the sequencer itself. -/
def Executed (q pc : Nat) (fs : List Fld) (m t : Mach) : Prop :=
  t = { m with regs := t.regs, seqs := t.seqs } ∧ (∀ k, k ≠ q → mget t.seqs k = mget m.seqs k) ∧ rd t (Reg.TC_SEQ_PC q) = pc % 2 ^ 32 ∧
    rd t (Reg.TC_SEQ_CNT_INSTR q) = min (2 ^ 32 - 1) (rd m (Reg.TC_SEQ_CNT_INSTR q) + 1) ∧
    RegsKept (Reg.TC_SEQ_PC q :: Reg.TC_SEQ_CNT_INSTR q :: fs) m t

/-- Scalar register `i` holds `v` modulo 2^64 (s0 takes no write); the other scalar registers and every descriptor stay. -/
def SetsS (q i v : Nat) (m t : Mach) : Prop :=
  (∀ j, sReg t q j = if j = i ∧ i ≠ 0 then v % 2 ^ 64 else sReg m q j) ∧ ∀ j, tReg t q j = tReg m q j

/-- Descriptor register `i` holds `d`; the other descriptors and every scalar register stay. -/
def SetsT (q i : Nat) (d : TDesc) (m t : Mach) : Prop :=
  (∀ j, tReg t q j = if j = i then d else tReg m q j) ∧ ∀ j, sReg t q j = sReg m q j

/-- Scalar registers and descriptors stay. -/
def KeepsS (q : Nat) (m t : Mach) : Prop := (∀ j, sReg t q j = sReg m q j) ∧ ∀ j, tReg t q j = tReg m q j

/-- An address at which the running routine has an instruction (R308). -/
def InCode (m : Mach) (q a : Nat) : Prop :=
  ∃ r, (mget m.seqs q).run = some r ∧ r.base ≤ a ∧ a < r.base + r.code ∧ a % 8 = 0

/-- Fields of the event counts of R665 that an event of a cause writes. -/
def detFields (p cause : Nat) : List Fld :=
  [Reg.TC_DET_CNT p cause, Reg.TC_DET_RUN p, Reg.TC_DET_FIRST_CAUSE p, Reg.TC_DET_FIRST_REPLAY p, Reg.TC_DET_FIRST_PC p]

/-- Fields that follow an engine's queue and flight. -/
def engineFields (q : Nat) : List Fld :=
  [Reg.TC_CORE_STATUS_QUEUED q 0, Reg.TC_CORE_STATUS_IN_FLIGHT q 0, Reg.TC_CORE_STATUS_VEC_BUSY q 0,
   Reg.TC_CORE_STATUS_QUEUED q 1, Reg.TC_CORE_STATUS_IN_FLIGHT q 1, Reg.TC_CORE_STATUS_VEC_BUSY q 1]

/-- An engine's queue, without the note that an instruction has waited for the rail. -/
def queueOf (m : Mach) (q e : Nat) : List EngOp := (engine m q e).queue.map (fun o => { o with unhinted := false })

/-- An instruction has joined an engine's queue with copies of the descriptors and values it names (R304), and the sequencer has gone on.
Behind an engine that is no array, only the registers that follow the queues change beside those of the sequencer. -/
def Dispatched (q e op w : Nat) (descs : List TDesc) (vals : List Nat) (m t : Mach) : Prop :=
  queueOf t q e = queueOf m q e ++ [{ opcode := op, word := w, descs := descs, vals := vals, pc := seqPc m q, tag := rd m (Reg.TC_SEQ_ITAG q), rid := rd m (Reg.TC_SEQ_ROUTINE_ID q) }] ∧
    (∀ k < 6, k ≠ e → engine t q k = engine m q k) ∧ (engine t q e).flight = (engine m q e).flight ∧
    rd t (Reg.TC_SEQ_PC q) = (seqPc m q + 8) % 2 ^ 32 ∧
    rd t (Reg.TC_SEQ_CNT_INSTR q) = min (2 ^ 32 - 1) (rd m (Reg.TC_SEQ_CNT_INSTR q) + 1) ∧ KeepsS q m t ∧ MemKept m t ∧
    (2 ≤ e → RegsKept (Reg.TC_SEQ_PC q :: Reg.TC_SEQ_CNT_INSTR q :: engineFields q) m t)

/-- An item has a status with its reason: it waits with it for its decision, or its record is decided with it (R628). -/
def GotStatus (tag : Nat) (st : Status) (reason : Nat) (t : Mach) : Prop :=
  (∃ it f, lookup t.items tag = some it ∧ it.fixed = some f ∧ f.status = st ∧ f.reason = reason) ∨
    ∃ r ∈ t.decided, r.tag = tag ∧ r.fixed.status = st ∧ r.fixed.reason = reason

/-- The time counter with its fraction and the remainder of the rate correction, in units of 2^-32 × 10^-12 ns (R113). -/
def counterUnits (m : Mach) : Nat := (now m * 2 ^ 32 + m.time.frac) * 10 ^ 12 + m.time.resid

/-! ### Fuses (R2, R55, R76, R77, R80) -/

/-- Fuses that the part can hold: at most 64 security-version fuses, revocations of slots 0 to 3, and one of KEY[1] to KEY[3]
unrevoked. -/
abbrev Fuses.sound (f : Fuses) : Prop :=
  f.sv ≤ 64 ∧ (∀ k ∈ f.revoked, k < 4) ∧ ∃ k ∈ [1, 2, 3], k ∉ f.revoked

/-- Fuses as they can have become: a blown one stays blown, and what the part is made as stays. -/
def Fuses.grown (f g : Fuses) : Prop :=
  f.sv ≤ g.sv ∧ f.lifecycle ≤ g.lifecycle ∧ (∀ k ∈ f.revoked, k ∈ g.revoked) ∧
    g.uid = f.uid ∧ g.grade = f.grade ∧ g.keyHash = f.keyHash ∧ g.vendorHash = f.vendorHash

end Sys2Proof.Machine
end

