-- ==== Sys2Proof/WellFormed.lean ====
section
/-!
DEFINITION. Which commands the part's surroundings can send: the requesters that exist, the queues that exist, and the operand
ranges of the rows that name a range.
-/

namespace Sys2Proof

/-- A requester the part has: VF 1 to 63, host-cluster core 0 to 15 (R572), partition 0 to 7, Sash link 0 to 3. -/
def Requester.wf : Requester → Bool
  | .vf v => decide (1 ≤ v ∧ v < 64)
  | .hc c => decide (c < 16)
  | .seq p | .seqfw p | .dma p | .walker p => decide (p < 8)
  | .sash l => decide (l < 4)
  | .pf | .mi _ | .ingress | .isp | .partner => true

/-- The operands lie in the ranges that the command's rule gives: registers are aligned (R12), BAR2 requests have 1 to 4,096
bytes, queues are 0 to 16,383 (R550), a data type has 6 bits, a descriptor has 64 bytes and a page frame 4,096. -/
def Instr.wf : Instr → Bool
  | .registerWrite who _ addr _ | .rcRegisterRead who _ addr | .pairLoRead who addr | .pairHiRead who addr
  | .pairLoWrite who addr _ | .pairHiWrite who addr _ => who.wf && decide (addr % 4 = 0)
  | .registerAccessMisaligned who addr bytes _ => who.wf && decide (bytes ≠ 4 ∨ addr % 4 ≠ 0)
  | .unpopulatedAccess who space _ _ => who.wf && decide (space < 2)
  | .bar2Read _ _ len => decide (1 ≤ len ∧ len ≤ 4096)
  | .bar2Write _ _ data => decide (1 ≤ data.length ∧ data.length ≤ 4096)
  | .loadFull who | .reloadFull who | .loadAlter who | .cancelAlter who | .storePrimary who | .storeSecondary who
  | .fuseRequest who | .mbxCmdUndefined who _ | .trigCommit who _ | .evtFifoPop who _ | .aphyRetrainCmd who _
  | .aphyHoldWrite who _ _ | .ethHoldWrite who _ _ | .streamSlotRelease who _ _ _ | .streamEnableWrite who _ _
  | .ringCommit who _ | .quarForce who _ | .quarRelease who _ | .cciCommand who _ _ | .cciResultRead who _
  | .ispParamCommit who _ | .ispTapArm who _ _ | .chkCtrlWrite who _ _ _ | .scratchHWrite who _ _
  | .scratchHRead who _ _ _ _ | .forensicRelease who _ | .kvCmdCreate who _ | .kvCmdInc who _ | .kvCmdDec who _
  | .kvCmdFork who _ | .kvCmdTrunc who _ | .kvCmdDrop who _ | .kvQuery who _ | .kvMapRemote who _ | .kvFetch who _
  | .kvEvict who _ | .kvCmdUndefined who _ _ | .sashRetrain who _ | .sashUnfence who _ | .sashHoldWrite who _ _
  | .hbmRead who _ _ _ _ | .hbmWrite who _ _ _ _ | .safeEnterRequest who | .safeExitRequest who _
  | .safRequestInvalid who _ | .lockAcquire who _ | .lockRelease who _ | .lockClearAbandoned who _
  | .hostClusterCoreReset who _ | .heartbeatWrite who _ | .recovResetWrite who _ | .pwrCapWrite who _ => who.wf
  | .csi2LongPacket _ _ dt _ _ _ _ | .csi2ShortPacket _ _ dt _ => decide (dt < 64)
  | .sashFramePageData _ _ _ _ data => decide (data.length = 4096)
  | .queueEnable who q _ | .queueDisable who q _ | .submitDoorbell who q _ | .consumerIndexWrite who q _ => who.wf && decide (q < 16384)
  | .descriptorFetch q host => decide (q < 16384) && decide (host = [] ∨ host.length = 64)
  | .descriptorReadError q | .descCopyIn q | .descCopyOut q | .descCopyHbm q | .work q | .descNop q
  | .descNvmeRead q _ _ | .descNvmeWrite q _ _ | .descNvmeFlush q _ | .descReserved q | .hostDmaBurstComplete q _
  | .nvmeCommandComplete q _ _ _ _ _ | .recordPlace q _ | .msixCoalesceTimeout q => decide (q < 16384)
  | .porstAssert | .porstRelease .. | .ucieFlitCrcFail .. | .ucieRetryLimit .. | .flashReadTimeout
  | .containerReadComplete .. | .startupTestsComplete .. | .hbmTrainingComplete | .hbmTrainingTimeout ..
  | .hostfwCopyChecked .. | .preloadBlobChecked .. | .firstTurnTick .. | .reloadSecondReadComplete ..
  | .mbxReadComplete .. | .flashOperationComplete .. | .flashOperationTimeout | .alterationResetsBegin
  | .debugChallengeRead | .debugAuthResponse .. | .debugRetryHoldExpiry | .debugSessionClose | .jtagExtest
  | .jtagIdcode | .jtagBypass | .jtagSamplePreload | .gridTick .. | .partitionTick .. | .serviceWindowEnd ..
  | .lcRoutineStart .. | .backgroundSliceStart .. | .periodicTestOverdue .. | .deadlineFault .. | .itemDeadline ..
  | .xoTimeFault | .ptpSyncRx .. | .ptpFollowUpRx .. | .ptpAnnounceRx .. | .ptpPdelayReqRx .. | .ptpPdelayRespRx ..
  | .ptpSyncTx .. | .ptpPdelayReqTx | .ptpSourceLost | .ptpMasterSearchTimeout | .ppsInEdge .. | .ppsInLost
  | .slewComplete | .timeStepJump | .outputReanchor | .trigPulse .. | .trigOneshot .. | .trigTransfer ..
  | .ppsOutPulse | .evtInEdge .. | .aphyGroupTimeout | .aphyLinkUp .. | .aphyLinkFail .. | .ethLinkUp ..
  | .ethLinkDown .. | .ethLinkWaitTimeout | .csi2FrameStart .. | .csi2FrameEnd .. | .csi2EmbeddedData ..
  | .ethFrameRx .. | .rangeTimeSlice .. | .frameCloseTimeout .. | .missingFrameTimeout .. | .itemHandoff ..
  | .quarantineEntry .. | .quarantineAutoRelease .. | .admissionTick | .cciTransferComplete .. | .cciTimeout ..
  | .ispSlotStart .. | .ispJobStart .. | .ispJobEnd .. | .ispJobTimeout .. | .ispJobStopReset .. | .arrayRampStep ..
  | .arrayIdleTimeout .. | .mmaIssue .. | .mmaComplete .. | .vectorIssue .. | .vectorComplete .. | .residueLogicUp ..
  | .nop .. | .illegalOpcode .. | .add .. | .sub .. | .and .. | .or .. | .xor .. | .sll .. | .srl .. | .sra ..
  | .mul .. | .min .. | .max .. | .slt .. | .sltu .. | .addi .. | .andi .. | .ori .. | .xori .. | .slli .. | .srli ..
  | .srai .. | .li .. | .lds .. | .sts .. | .mfr .. | .mtr .. | .beq .. | .bne .. | .blt .. | .bge .. | .bltu ..
  | .bgeu .. | .jal .. | .jalr .. | .endRoutine .. | .routineEnd .. | .trap .. | .timeRead .. | .itag .. | .tld ..
  | .tsetw .. | .taddw .. | .mma .. | .lease .. | .rclr .. | .rset .. | .rwait .. | .vs .. | .vwin .. | .vld ..
  | .vst .. | .vr .. | .copy .. | .copyIssue .. | .copyComplete .. | .kvld .. | .kvst .. | .kvrefInc ..
  | .kvrefDec .. | .kvrefFork .. | .kvrefTrunc .. | .kvrefDrop .. | .kvOpComplete .. | .sig .. | .waits ..
  | .fence .. | .seqWaitSatisfied .. | .locka .. | .lockr .. | .lockc .. | .pcomp .. | .ritem .. | .rrel .. | .pin ..
  | .result .. | .resultCommit .. | .gridPost .. | .hint .. | .poisonWriteback .. | .wipeComplete ..
  | .forensicHoldTimeout .. | .kvPageZeroComplete .. | .kvPoolZeroed .. | .sashEqualisationDone ..
  | .sashBlockLock .. | .sashMarkerRx .. | .sashLockLoss .. | .sashHelloRx .. | .sashIdleRx .. | .sashRowInvalid ..
  | .sashAckRx .. | .sashTurnRx .. | .sashDelayRx .. | .sashFrameBad .. | .sashFrameRefMsg .. | .sashFrameRefAck ..
  | .sashFramePageReq .. | .sashFramePageGone .. | .sashFramePageErr .. | .sashFrameSlotData ..
  | .sashFrameSlotFree .. | .sashSlotSend .. | .sashMarkerTx .. | .sashAckTx .. | .sashDelayTx ..
  | .sashReplayTimeout .. | .sashRetrainTimeout .. | .hbmRefresh .. | .hbmTempSample .. | .calOverdue ..
  | .scrubPassTimeout .. | .marginTestDue | .marginCoolTimeout | .marginTestComplete .. | .fatalIndication ..
  | .safeNReadback .. | .aliveFrameSend | .callerGridArrival .. | .rejectRunLimit .. | .islandVoteMismatch ..
  | .islandResyncComplete | .islandWatchdogWrite | .islandWatchdogTimeout | .debugHalt | .debugStep
  | .debugStateWrite .. | .debugResume .. | .partnerClockCheck .. | .partnerFault .. | .partnerWipeComplete
  | .partnerChunkRx .. | .partnerItemClose | .safeExitTestsComplete .. | .safeExitComplete | .safetyEthRx ..
  | .pcieLinkDown .. | .pcieHotReset .. | .pciePerst .. | .pfFlr .. | .vfFlr .. | .vfEnableClear ..
  | .vfResetComplete .. | .numvfsWrite .. | .busMasterEnableSet .. | .beWorkStart .. | .beRangeClearComplete ..
  | .preemptRequest .. | .preemptDrainComplete .. | .contextSaveComplete .. | .contextRestoreComplete ..
  | .heartbeatExpiry .. | .hangDetected .. | .killDrainTimeout .. | .rescueComplete .. | .rescueTimeout ..
  | .partitionResetComplete .. | .powerSample .. | .capControlTick | .capHoldEntry | .capUnmetExpiry | .capHoldExit
  | .opChangeComplete .. | .hintRailRise .. | .hintWindowClose .. | .marginMonitorSample .. | .trimHoldExpiry ..
  | .tempSample .. | .overTemp .. | .stackOverTemp .. | .railUnder .. | .railOver .. | .overcurrent .. | .supply ..
  | .shutdown .. | .forcedSlowRelease | .serdesRefclkLoss | .peRefclkLoss .. | .smbusReadPatId | .smbusReadUid
  | .smbusReadPatStatus | .smbusReadSafStatus | .smbusReadPower | .smbusReadTemps | .smbusOtherNack
  | .safetyPortLinkUp .. | .safetyPortLinkDown .. | .ptpAnnounceTx .. | .kvRemoteTimeoutExpiry ..
  | .referenceMessageRx .. | .busMasterEnableClear .. | .vfEnableSet | .pcieLinkUp .. | .serdesRefclkReturn
  | .powerStateChange .. => true

end Sys2Proof
end

