-- ==== Sys2Proof/Certificates/Slice0/Obligations.lean ====
section
/-!
DEFINITION. The statements about the part, one definition each. Every clause that a command completes (`Completes`) says under which
conditions on the state and the operands its own effect happens, and what that effect is.
-/

open Sys2Proof Sys2Proof.Machine


/-- For every command c, every queue rest and every state, one step of the state whose queue is c followed by rest is exec of c on
the state whose queue is rest. (spec/opcode_table.json) -/
def Obligations.StepRunsTheFrontCommand : Prop :=
  ∀ (c : Instr) (rest : List Instr) (s : State), step { s with pending := c :: rest } = exec c { s with pending := rest }

/-- The model's choice (log entry 23) is that a step on an empty queue is one advance of R113's counter. On a part that PORST_n has
released, with the counter's fraction and remainder in range, the advance adds exactly 2 ns times (1 + rate in units of 10^-12)
to the counter with its fraction and remainder, modulo 2^64 ns, and changes no register but TIME_NOW, no memory, no queue and no
fuse. Before the release, the step changes nothing. (R113 (04_time.md); notes/assumptions/23.md (DESIGN CHOICE: the idle step is
one advance of the counter)) -/
def Obligations.EmptyQueueAdvancesTheCounter : Prop :=
  ∀ s : State, s.pending = [] → s.m.time.frac < 2 ^ 32 → s.m.time.resid < 10 ^ 12 →
    (s.m.powered = false → step s = .next s) ∧
    (s.m.powered = true → ∃ t, step s = .next t ∧ t.pending = [] ∧ t.fuses = s.fuses ∧ t.m.mem = s.m.mem ∧ t.m.out = s.m.out ∧
      RegsKept [Reg.TIME_NOW] s.m t.m ∧ t.m.time.frac < 2 ^ 32 ∧ t.m.time.resid < 10 ^ 12 ∧
      ∃ wraps : Int, (counterUnits t.m : Int) + wraps * ((2 ^ 96 * 10 ^ 12 : Nat) : Int) =
        (counterUnits s.m : Int) + ((2 * 2 ^ 32 : Nat) : Int) * (((10 ^ 12 : Nat) : Int) + signedOf 32 (rd s.m Reg.TIME_RATE_ADJ)))

/-- For every command and every state, exec answers a next state (never a fault, never a refusal) whose queue is the one it was
given. (spec/opcode_table.json) -/
def Obligations.EveryCommandAnswersAndKeepsTheQueue : Prop :=
  ∀ (c : Instr) (s : State), ∃ t, exec c s = .next t ∧ t.pending = s.pending

/-- From every state, a run of as many steps as its queue is long meets no fault and no refusal and ends with an empty queue, it
never stops, and behind the first k commands the queue holds the rest in its order. (R572
(18_queues_host_and_virtual_instances.md); notes/assumptions/23.md) -/
def Obligations.TheQueueDrainsInOrder : Prop :=
  ∀ (s : State), (∀ k, ∃ t, Runs k s t) ∧ (∀ k t, k ≤ s.pending.length → Runs k s t → t.pending = s.pending.drop k) ∧
    ∀ t, Runs s.pending.length s t → t.pending = []

/-- On a part that PORST_n holds in reset, every command except an assertion or a release of PORST_n answers the state it was given.
(R677 (23_startup_balls_and_package.md); R678 (23_startup_balls_and_package.md)) -/
def Obligations.ResetPartIgnoresCommands : Prop :=
  ∀ (c : Instr) (s : State), s.m.powered = false → c ≠ .porstAssert → (∀ b t v f, c ≠ .porstRelease b t v f) → exec c s = .next s

/-- From every state whose fuses are sound (at most 64 security-version fuses blown, revocations of slots 0 to 3 only, and at least
one of KEY[1] to KEY[3] unrevoked), a step that answers a next state leaves the fuses sound. (R55 (02_the_pattern.md); R77
(02_the_pattern.md); R80 (02_the_pattern.md)) -/
def Obligations.SoundFusesStaySound : Prop :=
  ∀ s t : State, s.fuses.sound → step s = .next t → t.fuses.sound

/-- For every state, a step that answers a next state leaves the security-version count and the lifecycle at least where they were,
every revocation in place, and the UID, the grade, the fused key hashes and the vendor key as they were. (R2 (00_scope.md); R55
(02_the_pattern.md); R76 (02_the_pattern.md); R80 (02_the_pattern.md)) -/
def Obligations.FusesOnlyGrow : Prop :=
  ∀ s t : State, step s = .next t → s.fuses.grown t.fuses

/-- A command that is neither FIRST_TURN_TICK nor MBX_READ_COMPLETE leaves every fuse as it was; FIRST_TURN_TICK changes at most the
security-version count; MBX_READ_COMPLETE changes at most the lifecycle and the revocations, and those only where the running
command is 7, FUSE_REQUEST. (R55 (02_the_pattern.md); R80 (02_the_pattern.md)) -/
def Obligations.OnlyTwoCommandsBlowFuses : Prop :=
  ∀ (c : Instr) (s t : State), exec c s = .next t →
    ((∀ l, c ≠ .firstTurnTick l) → (∀ d e, c ≠ .mbxReadComplete d e) → t.fuses = s.fuses) ∧
    ((∃ l, c = .firstTurnTick l) → t.fuses = { s.fuses with sv := t.fuses.sv }) ∧
    ((∃ d e, c = .mbxReadComplete d e) →
      t.fuses = { s.fuses with lifecycle := t.fuses.lifecycle, revoked := t.fuses.revoked } ∧ (s.m.ldr.cmd ≠ 7 → t.fuses = s.fuses))

/-- State.reset has an empty queue, sound fuses and a memory in canonical form that lists nothing, is not powered, and every field
of every register reads its reset value; among them SAF_STATUS.STATE reads 2, SAFE, SAFE_N 0 and SAF_CAUSE 1, NOT_STARTED. The
fuses' values and what an unlisted byte reads as are the model's choice (log entry 1 and the entry on fuses). (R15
(00_scope.md); R506 (17_safety_channels_and_safe_state.md); R535 (17_safety_channels_and_safe_state.md); R542
(17_safety_channels_and_safe_state.md); R543 (17_safety_channels_and_safe_state.md); notes/assumptions/1.md) -/
def Obligations.ResetStateAsTheSpecGives : Prop :=
  State.reset.pending = [] ∧ State.reset.fuses.sound ∧ Memory.wf State.reset.m.mem = true ∧ State.reset.m.mem = [] ∧
    State.reset.m.powered = false ∧ (∀ f : Fld, rd State.reset.m f = f.reset) ∧
    rd State.reset.m Reg.SAF_STATUS_STATE = 2 ∧ rd State.reset.m Reg.SAF_STATUS_SAFE_N = 0 ∧ rd State.reset.m Reg.SAF_CAUSE_SAFE_CAUSE = 1

/-- PORST_ASSERT always leaves a part with every register field at its reset value (so in the safe state, SAFE_N 0), no memory, no
items, no sections and no power, and the fuses and the queue as they were. PORST_RELEASE with TEST_EN low and the voter test
passed, on a part in reset, powers it, takes BOOTSEL, shows the lifecycle (a combination that encodes no state as RETURNED, code
2), the security-version count and the UID of the fuses, and enters the safe state with NOT_STARTED held first; with TEST_EN
high the part stays in reset until PORST_ASSERT. (R2 (00_scope.md); R15 (00_scope.md); R76 (02_the_pattern.md); R506
(17_safety_channels_and_safe_state.md); R535 (17_safety_channels_and_safe_state.md); R677 (23_startup_balls_and_package.md);
R678 (23_startup_balls_and_package.md)) -/
def Obligations.PowerOnResetAndRelease : Prop :=
  (∀ s, ∃ t, exec .porstAssert s = .next t ∧ t.pending = s.pending ∧ t.fuses = s.fuses ∧ t.m.powered = false ∧
    (∀ f, rd t.m f = f.reset) ∧ (∀ a, rb t.m a = 0) ∧ inSafe t.m = true ∧ t.m.items = [] ∧ t.m.ldr = {} ∧ t.m.seqs = [] ∧ t.m.log = []) ∧
  (∀ (b : Fin 4) (flash : Option Nat) (s : State), s.m.powered = false → s.m.ldr.testHold = false → s.fuses.sound → s.fuses.uid < 2 ^ 64 →
    Completes (.porstRelease b false true flash) s (fun t => t.powered = true ∧ rd t Reg.PAT_BOOT_BOOTSEL = b.val ∧
      rd t Reg.PAT_STATUS_LIFECYCLE = min 2 s.fuses.lifecycle ∧ rd t Reg.PAT_SV_FUSED = s.fuses.sv ∧ rd t Reg.PAT_UID = s.fuses.uid ∧
      inSafe t = true ∧ t.saf.causes.head? = some .notStarted ∧ (t.endpoint = true ↔ s.m.endpoint = true ∨ b = 1 ∨ (b = 0 ∧ flash = none)))) ∧
  (∀ (b : Fin 4) (v : Bool) (flash : Option Nat) (s : State), s.m.powered = false → s.m.ldr.testHold = false →
    Completes (.porstRelease b true v flash) s (fun t => t.powered = false ∧ t.ldr.testHold = true ∧ t.regs = s.m.regs))

/-- For every requester that reaches an aligned register address: a read of an address that holds no register returns 0 and changes
nothing else, and a write to one outside the SAF block changes nothing at all; a read of a single register that has no action of
its own returns the sum of its readable fields, wo fields and reserved bits as zero; a write to a register without an action of
its own sets each rw field to its bits of the value, clears the w1c bits that are written 1, and leaves every r and rc field,
every other register, memory and what left the part as they were. (R13 (00_scope.md); R14 (00_scope.md); R16 (00_scope.md); R17
(00_scope.md); R35 (01_levels_and_subsystems.md); R36 (01_levels_and_subsystems.md); R37 (01_levels_and_subsystems.md)) -/
def Obligations.RegisterReadsAndWrites : Prop :=
  (∀ (who : Requester) (addr a : Nat) (s : State), Powered s → addr % 4 = 0 → reach s.m who addr = .ok a → regFind s.m a = none →
    Completes (.rcRegisterRead who false addr) s (fun t => t = { s.m with out := .readData who 0 :: s.m.out }) ∧
    ∀ v, inSaf a = false → Completes (.registerWrite who false addr v) s (fun t => t = s.m)) ∧
  (∀ (who : Requester) (addr a b : Nat) (r : RegRow) (s : State), Powered s → addr % 4 = 0 → reach s.m who addr = .ok a →
    regFind s.m a = some (r, b) → noQueue s.m a = false → r.pair = false → r.base ≠ (Reg.ING_APHY_CCI_RESULT_RDATA 0).addr →
    r.base ≠ (Reg.TIME_EVT_FIFO 0).addr → Completes (.rcRegisterRead who false addr) s (fun t =>
      t.out = .readData who (r.fields.map (fun f => if f.access = .wo then 0 else rd (timed b s.m) (f.at b) * 2 ^ f.lo)).sum :: s.m.out ∧
      t.mem = s.m.mem ∧ ∀ g : Fld, (∀ f ∈ r.fields, f.access = .rc → g.key ≠ (f.at b).key) → rd t g = rd s.m g)) ∧
  (∀ (who : Requester) (addr a b : Nat) (r : RegRow) (v : Word) (s : State), Powered s → addr % 4 = 0 → reach s.m who addr = .ok a →
    regFind s.m a = some (r, b) → noQueue s.m a = false → r.pair = false → r.base ∉ actRows → mayWrite s.m who r.wr a = true →
    (inSaf a = true → mayWrite s.m who .mi a = true) → (r.fields.map (fun f => f.lo)).Nodup → (∀ f ∈ r.fields, f.lo < 64) →
    Completes (.registerWrite who false addr v) s (fun t =>
      (∀ f ∈ r.fields, f.access = .rw → rd t (f.at b) = bitsAt v.toNat f.lo f.width) ∧
      (∀ f ∈ r.fields, f.access = .w1c → rd s.m (f.at b) < 2 ^ f.width →
        rd t (f.at b) = rd s.m (f.at b) - (rd s.m (f.at b) &&& bitsAt v.toNat f.lo f.width)) ∧
      OnlyRegs ((r.fields.filter (fun f => f.access = .rw ∨ f.access = .w1c)).map (·.at b)) s.m t))

/-- For a 64-bit pair that a requester reaches: a read of the lower half returns the low 32 bits of the value and fills that
requester's latch with the high 32; a read of the upper half with the latch full returns the latch and empties it, and with the
latch empty returns the upper half as it stands; a write of the lower half fills the requester's holding value and changes no
register; a write of the upper half sets an rw pair to both halves together and empties the holding value, keeping the lower
half as it stands where nothing was held. Latches and holding values of other requesters stay. (R17 (00_scope.md); R548
(18_queues_host_and_virtual_instances.md)) -/
def Obligations.PairsLatchAndHold : Prop :=
  (∀ (who : Requester) (addr b : Nat) (r : RegRow) (s : State), Powered s → reach s.m who addr = .ok b → deviceOf who addr = b →
    regFind s.m b = some (r, b) → r.pair = true → noQueue s.m b = false → r.base ≠ (Reg.ING_APHY_CCI_RESULT_RDATA 0).addr →
    Completes (.pairLoRead who addr) s (fun t => t.out = .readData who (rowValue (timed b s.m) r b % 2 ^ 32) :: s.m.out ∧
      lookup t.latches (latchKey who b) = some (rowValue s.m r b / 2 ^ 32) ∧ t.regs = s.m.regs ∧ t.holds = s.m.holds ∧ t.mem = s.m.mem ∧
      ∀ k, k ≠ latchKey who b → lookup t.latches k = lookup s.m.latches k)) ∧
  (∀ (who : Requester) (addr b : Nat) (r : RegRow) (s : State), Powered s → reach s.m who addr = .ok (b + 4) → deviceOf who addr = b + 4 →
    regFind s.m (b + 4) = some (r, b) → r.pair = true → noQueue s.m (b + 4) = false → r.base ≠ (Reg.ING_APHY_CCI_RESULT_RDATA 0).addr →
    r.base ≠ (Reg.TIME_EVT_FIFO 0).addr →
    Completes (.pairHiRead who addr) s (fun t =>
      t.out = .readData who ((lookup s.m.latches (latchKey who b)).getD (rowValue (timed b s.m) r b / 2 ^ 32)) :: s.m.out ∧
      lookup t.latches (latchKey who b) = none ∧ t.regs = s.m.regs ∧ t.holds = s.m.holds ∧ t.mem = s.m.mem ∧
      ∀ k, k ≠ latchKey who b → lookup t.latches k = lookup s.m.latches k)) ∧
  (∀ (who : Requester) (addr b : Nat) (r : RegRow) (v : Word) (s : State), Powered s → reach s.m who addr = .ok b → deviceOf who addr = b →
    regFind s.m b = some (r, b) → r.pair = true → noQueue s.m b = false → mayWrite s.m who r.wr b = true →
    (inSaf b = true → mayWrite s.m who .mi b = true) → (∃ f ∈ r.fields, f.access = .rw) →
    Completes (.pairLoWrite who addr v) s (fun t => t = { s.m with holds := t.holds } ∧ lookup t.holds (latchKey who b) = some v.toNat ∧
      ∀ k, k ≠ latchKey who b → lookup t.holds k = lookup s.m.holds k)) ∧
  (∀ (who : Requester) (addr b : Nat) (r : RegRow) (f : FieldSpec) (v : Word) (s : State), Powered s → reach s.m who addr = .ok (b + 4) →
    deviceOf who addr = b + 4 → regFind s.m (b + 4) = some (r, b) → r.pair = true → noQueue s.m (b + 4) = false →
    mayWrite s.m who r.wr (b + 4) = true → (inSaf (b + 4) = true → mayWrite s.m who .mi (b + 4) = true) → r.fields = [f] → f.access = .rw →
    Completes (.pairHiWrite who addr v) s (fun t =>
      rd t (f.at b) = bitsAt (v.toNat * 2 ^ 32 + (lookup s.m.holds (latchKey who b)).getD (rowValue s.m r b % 2 ^ 32)) f.lo f.width ∧
      lookup t.holds (latchKey who b) = none ∧ RegsKept [f.at b] s.m t ∧ t.mem = s.m.mem))

/-- A register access that is not aligned 32 bits, and an access to an unpopulated or forbidden address, is not performed: an
internal master gets a bus error, a PCIe function Unsupported Request and one count of HOST_CNT_UR, and one HOST_IF record joins
the log. A register write by a requester that its rule does not allow, and by any requester but the island in the SAF block, is
not performed and logged. None of these changes a register beyond the log's and the host interface's. (R12 (00_scope.md); R34
(01_levels_and_subsystems.md); R35 (01_levels_and_subsystems.md); R37 (01_levels_and_subsystems.md); R39
(01_levels_and_subsystems.md); R579 (18_queues_host_and_virtual_instances.md); R582 (18_queues_host_and_virtual_instances.md)) -/
def Obligations.RefusedAccessesAreLogged : Prop :=
  (∀ (who : Requester) (addr bytes a : Nat) (w : Bool) (s : State), Powered s → bytes ≠ 4 ∨ addr % 4 ≠ 0 → reach s.m who addr = .ok a →
    Completes (.registerAccessMisaligned who addr bytes w) s (fun t => OnlyLogged s.m t ∧
      (isPcie who = false → Output.busError who ∈ t.out) ∧ (isPcie who = true → Output.unsupported who ∈ t.out))) ∧
  (∀ (who : Requester) (addr : Nat) (w : Bool) (s : State), Powered s → isPcie who = false → awake s.m who = true → masterMay s.m who addr w = false →
    Completes (.unpopulatedAccess who 0 addr w) s (fun t => OnlyLogged s.m t ∧ Output.busError who ∈ t.out)) ∧
  (∀ (who : Requester) (addr : Nat) (w : Bool) (s : State), Powered s → isPcie who = true → reach s.m who addr = .unpopulated →
    Completes (.unpopulatedAccess who 1 addr w) s (fun t => OnlyLogged s.m t ∧ Output.unsupported who ∈ t.out)) ∧
  (∀ (who : Requester) (addr a : Nat) (v : Word) (s : State), Powered s → addr % 4 = 0 → reach s.m who addr = .ok a →
    (mayWrite s.m who (writersAt s.m a) a = false ∨ (inSaf a = true ∧ mayWrite s.m who .mi a = false)) →
    Completes (.registerWrite who false addr v) s (fun t => OnlyLogged s.m t))

/-- A BAR2 request of a function that answers, inside its BAR and one 2 MiB window, through an entry that passes, in a range without
damaged words whose channels run: a read returns exactly the bytes at page × 2 MiB + offset and changes no byte; a write outside
the ranges only the loader writes stores exactly its bytes there and changes no other byte. A write whose channel is in
self-refresh is held and stores nothing yet. (R38 (01_levels_and_subsystems.md); R40 (01_levels_and_subsystems.md); R42
(01_levels_and_subsystems.md); R43 (01_levels_and_subsystems.md); R452 (15_hbm_memory.md); R454 (15_hbm_memory.md)) -/
def Obligations.Bar2MovesBytesThroughItsEntry : Prop :=
  (∀ (fn : Fin 64) (off len page : Nat) (wr : Bool) (s : State), Powered s → pcieGate s.m fn = none → inBar2 fn off len = true →
    len ≤ 0x200000 - off % 0x200000 → bar2Entry s.m fn (off / 0x200000) = some (page, wr) →
    inRefresh s.m (page * 0x200000 + off % 0x200000) len = false → Clean s.m (page * 0x200000 + off % 0x200000) len →
    Completes (.bar2Read fn off len) s (fun t => MemKept s.m t ∧ t.regs = s.m.regs ∧
      t.out = .readBytes (fnReq fn) (readMem s.m (page * 0x200000 + off % 0x200000) len) :: s.m.out)) ∧
  (∀ (fn : Fin 64) (off page : Nat) (data : List Byte) (s : State), Powered s → pcieGate s.m fn = none → inBar2 fn off data.length = true →
    data.length ≤ 0x200000 - off % 0x200000 → bar2Entry s.m fn (off / 0x200000) = some (page, true) →
    loaderOnly s.m (page * 0x200000 + off % 0x200000) data.length = false → Clean s.m (page * 0x200000 + off % 0x200000) data.length →
    (inRefresh s.m (page * 0x200000 + off % 0x200000) data.length = false →
      Completes (.bar2Write fn off data) s (fun t => Stored (page * 0x200000 + off % 0x200000) data s.m t ∧ t.regs = s.m.regs ∧ t.out = s.m.out)) ∧
    (inRefresh s.m (page * 0x200000 + off % 0x200000) data.length = true →
      Completes (.bar2Write fn off data) s (fun t => MemKept s.m t ∧ t.regs = s.m.regs ∧ t.held.length = s.m.held.length + 1)))

/-- For every function whose requests are answered and every request inside its BAR: where the entry of one of the windows it
touches does not pass (VALID 0, or for a write WRITE 0), a read completes with Unsupported Request status and a write is
discarded; no register beyond the log's and the host interface's changes, no item, no sequencer; and one HOST_IF record joins
the log. The entry passes exactly where VALID is 1, its page is populated, and for a write WRITE is 1. (R41) -/
def Obligations.Bar2EntriesGuardHbm : Prop :=
  ∀ (fn : Fin 64) (off len n : Nat) (data : List Byte) (s : State), Powered s → pcieGate s.m fn = none →
    inBar2 fn off len = true → n ∈ (bar2Split off len).map (fun p => p.1 / 0x200000) →
    let valid := if fn.val = 0 then rdb s.m (Reg.HOST_BAR2_XLAT_PF_VALID n) else rdb s.m (Reg.HOST_BAR2_XLAT_VF_VALID (fn - 1) n)
    let write := if fn.val = 0 then rdb s.m (Reg.HOST_BAR2_XLAT_PF_WRITE n) else rdb s.m (Reg.HOST_BAR2_XLAT_VF_WRITE (fn - 1) n)
    (valid = false → Completes (.bar2Read fn off len) s (fun t => OnlyLogged s.m t ∧ Output.unsupported (fnReq fn) ∈ t.out)) ∧
    (len = data.length → valid = false ∨ write = false → Completes (.bar2Write fn off data) s (fun t => OnlyLogged s.m t))

/-- UCIE_FLIT_CRC_FAIL notes the time of the retry beside those of the last microsecond and changes no register; UCIE_RETRY_LIMIT
with more than eight noted retries of the last microsecond enters the safe state for cause UCIE, and changes no register but
those of the safe state, the log and the host interface. (R29 (01_levels_and_subsystems.md); R506
(17_safety_channels_and_safe_state.md); R538 (17_safety_channels_and_safe_state.md)) -/
def Obligations.UcieRetriesAreWatched : Prop :=
  (∀ (u : Fin 2) (s : State), Powered s → Completes (.ucieFlitCrcFail u) s (fun t =>
    t = { s.m with ucie := t.ucie } ∧ mget t.ucie u = now s.m :: (mget s.m.ucie u).filter (fun x => now s.m < x + 1000))) ∧
  (∀ (u : Fin 2) (s : State), Powered s → 8 < ((mget s.m.ucie u).filter (fun x => now s.m < x + 1000)).length →
    Completes (.ucieRetryLimit u) s (fun t => Entered .ucie s.m t ∧ ∀ f : Fld, f.beyond → rd t f = rd s.m f))

/-- The PF or the island writes PAT_MBX_CMD while no command runs, with PAT_MBX_LEN a multiple of 64 and the PF's Bus Master Enable
1: LOAD_FULL (with PAT_STATUS.STATE 6 or 7 and BOOTSEL 00 or 01), RELOAD_FULL (no alteration resetting), LOAD_ALTER (none staged
or pending, no load in progress), STORE_PRIMARY, STORE_SECONDARY and FUSE_REQUEST set PAT_MBX_STATUS.STATE to 1 and hold the
length to read; LOAD_FULL sets PAT_STATUS.STATE to 1 as well; every other register and all memory stay. CANCEL_ALTER with an
alteration pending discards it and ends with RESULT 0. A command of 8 to 15 ends with BAD_COMMAND. (R69 (02_the_pattern.md); R74
(02_the_pattern.md); R80 (02_the_pattern.md); R85 (02_the_pattern.md); R86 (02_the_pattern.md); R87 (02_the_pattern.md); R88
(02_the_pattern.md); R90 (02_the_pattern.md)) -/
def Obligations.MailboxCommandsBegin : Prop :=
  (∀ (who : Requester) (n : Nat) (c : Instr) (s : State), Powered s → MayWrite s.m who Reg.PAT_MBX_CMD_CMD .pfMi →
    (c, n) ∈ [(Instr.loadFull who, 1), (.reloadFull who, 2), (.loadAlter who, 3), (.storePrimary who, 5), (.storeSecondary who, 6), (.fuseRequest who, 7)] →
    rd s.m Reg.PAT_MBX_STATUS_STATE ∉ [1, 2, 3] → rd s.m Reg.PAT_MBX_LEN % 64 = 0 → busMaster s.m 1 = true →
    (n = 1 → rd s.m Reg.PAT_STATUS_STATE ∈ [6, 7] ∧ rd s.m Reg.PAT_BOOT_BOOTSEL < 2) → (n = 2 → s.m.ldr.alter ≠ .resetting) →
    (n = 3 → s.m.ldr.alter = .none ∧ rd s.m Reg.PAT_STATUS_STATE ∉ [1, 2, 3, 4]) →
    Completes c s (fun t => rd t Reg.PAT_MBX_STATUS_STATE = 1 ∧ t.ldr.cmd = n ∧ t.ldr.cmdLen = rd s.m Reg.PAT_MBX_LEN ∧
      t.ldr.alter = (if n = 3 then .staging else s.m.ldr.alter) ∧ rd t Reg.PAT_STATUS_STATE = (if n = 1 then 1 else rd s.m Reg.PAT_STATUS_STATE) ∧
      RegsKept [Reg.PAT_MBX_STATUS_STATE, Reg.PAT_STATUS_STATE] s.m t ∧ MemKept s.m t)) ∧
  (∀ (who : Requester) (s : State), Powered s → MayWrite s.m who Reg.PAT_MBX_CMD_CMD .pfMi → rd s.m Reg.PAT_MBX_STATUS_STATE ∉ [1, 2, 3] →
    s.m.ldr.alter = .pending → Completes (.cancelAlter who) s (fun t => t.ldr.alter = .none ∧ rd t Reg.PAT_STATUS_ALTER_PENDING = 0 ∧
      rd t Reg.PAT_MBX_STATUS_STATE = 4 ∧ rd t Reg.PAT_MBX_STATUS_RESULT = 0 ∧
      RegsKept [Reg.PAT_STATUS_ALTER_PENDING, Reg.PAT_MBX_STATUS_STATE, Reg.PAT_MBX_STATUS_RESULT] s.m t ∧ MemKept s.m t)) ∧
  (∀ (who : Requester) (cmd : Fin 8) (s : State), Powered s → MayWrite s.m who Reg.PAT_MBX_CMD_CMD .pfMi →
    rd s.m Reg.PAT_MBX_STATUS_STATE ∉ [1, 2, 3] → Completes (.mbxCmdUndefined who cmd) s (fun t => rd t Reg.PAT_MBX_STATUS_STATE = 5 ∧
      rd t Reg.PAT_MBX_STATUS_RESULT = 0x1B ∧ rd t Reg.PAT_ERROR_CODE = 0x1B ∧ t.ldr.alter = s.m.ldr.alter ∧ MemKept s.m t ∧
      RegsKept [Reg.PAT_MBX_STATUS_STATE, Reg.PAT_MBX_STATUS_RESULT, Reg.PAT_ERROR_CODE, Reg.PAT_ERROR_SECTION, Reg.PAT_ERR_OFFSET,
        Reg.PAT_ERROR_COUNT] s.m t))

/-- While the mailbox reads a container: a read that failed ends the command with STATE 5 and MBX_IO in RESULT and PAT_ERROR. A
container that passes its checks: of LOAD_ALTER, is stored in the staging area (no other byte changes), its alteration is
pending and the command ends with RESULT 0; of a STORE, starts the first flash operation of its copy, with STATE 3; of
FUSE_REQUEST, changes the fuses as it asks. Flash operations of a STORE follow one another; the read-back that equals what was
written ends the command with RESULT 0, a busy bit that does not clear with FLASH_IO. The second read of a RELOAD_FULL that
passes applies the pattern: PAT_STATUS.STATE 4, SOURCE 3, the pattern's identifier. (R70 (02_the_pattern.md); R71
(02_the_pattern.md); R80 (02_the_pattern.md); R86 (02_the_pattern.md); R87 (02_the_pattern.md); R88 (02_the_pattern.md)) -/
def Obligations.MailboxContainersTakeEffect : Prop :=
  (∀ (env : LoadEnv) (s : State), Powered s → rd s.m Reg.PAT_MBX_STATUS_STATE = 1 → s.m.ldr.reload = false →
    Completes (.mbxReadComplete none env) s (fun t => rd t Reg.PAT_MBX_STATUS_STATE = 5 ∧ rd t Reg.PAT_MBX_STATUS_RESULT = 0x14 ∧
      rd t Reg.PAT_ERROR_CODE = 0x14 ∧ MemKept s.m t)) ∧
  (∀ (c : List Byte) (env : LoadEnv) (s : State), Powered s → rd s.m Reg.PAT_MBX_STATUS_STATE = 1 → s.m.ldr.reload = false → busMaster s.m 1 = true →
    c.length = s.m.ldr.cmdLen → mbxVerdict s.fuses env.nvmePresent c s.m = none →
    (s.m.ldr.cmd = 3 → Clean s.m (stagingBase s.m) c.length → Completes (.mbxReadComplete (some c) env) s (fun t =>
      Stored (stagingBase s.m) c s.m t ∧ t.ldr.alter = .pending ∧ t.ldr.altSecs = sectionsOf c ∧ rd t Reg.PAT_STATUS_ALTER_PENDING = 1 ∧
      rd t Reg.PAT_MBX_STATUS_STATE = 4 ∧ RegsKept [Reg.PAT_STATUS_ALTER_PENDING, Reg.PAT_MBX_STATUS_STATE, Reg.PAT_MBX_STATUS_RESULT] s.m t)) ∧
    (s.m.ldr.cmd = 5 ∨ s.m.ldr.cmd = 6 → Completes (.mbxReadComplete (some c) env) s (fun t => rd t Reg.PAT_MBX_STATUS_STATE = 3 ∧
      t.ldr.store = c ∧ t.out = .flashOp (s.m.ldr.cmd - 4) :: s.m.out ∧ MemKept s.m t)) ∧
    (s.m.ldr.cmd = 7 → ∃ t, exec (.mbxReadComplete (some c) env) s = .next t ∧ t.pending = s.pending ∧ t.fuses = blowFuse c s.fuses ∧
      rd t.m Reg.PAT_MBX_STATUS_STATE = 4 ∧ MemKept s.m t.m)) ∧
  (∀ s : State, Powered s → rd s.m Reg.PAT_MBX_STATUS_STATE = 3 →
    Completes (.flashOperationComplete none) s (fun t => t = { s.m with out := .flashOp (s.m.ldr.cmd - 4) :: s.m.out }) ∧
    Completes (.flashOperationComplete (some s.m.ldr.store)) s (fun t => rd t Reg.PAT_MBX_STATUS_STATE = 4 ∧ rd t Reg.PAT_MBX_STATUS_RESULT = 0 ∧
      RegsKept [Reg.PAT_MBX_STATUS_STATE, Reg.PAT_MBX_STATUS_RESULT] s.m t) ∧
    Completes .flashOperationTimeout s (fun t => rd t Reg.PAT_MBX_STATUS_STATE = 5 ∧ rd t Reg.PAT_MBX_STATUS_RESULT = 0x13)) ∧
  (∀ (c : List Byte) (env : LoadEnv) (s : State), Powered s → rd s.m Reg.PAT_MBX_STATUS_STATE = 1 → s.m.ldr.reload = true → busMaster s.m 1 = true →
    c.length = s.m.ldr.cmdLen → mbxVerdict s.fuses env.nvmePresent c s.m = none →
    Completes (.reloadSecondReadComplete (some c) env) s (fun t => rd t Reg.PAT_STATUS_STATE = 4 ∧ rd t Reg.PAT_STATUS_SOURCE = 3 ∧
      rd t Reg.PAT_PATTERN_ID = hPatternId c ∧ t.endpoint = true))

/-- While the loader reads a flash copy: a copy that passes every check is applied (PAT_STATUS.STATE 4, SOURCE its copy, its
PATTERN_ID, the PCIe endpoint up). A read that does not end sets FLASH_IO; behind the primary copy it sets PRIMARY_FAILED and
reads the secondary one, behind the secondary copy it sets SECONDARY_FAILED, and PAT_STATUS.STATE becomes 7 where BOOTSEL is 00
and 6 elsewhere. A copy that fails a check does the same with its own code. (R46 (02_the_pattern.md); R47 (02_the_pattern.md);
R52 (02_the_pattern.md); R53 (02_the_pattern.md); R55 (02_the_pattern.md); R83 (02_the_pattern.md)) -/
def Obligations.FlashCopiesAreReadInOrder : Prop :=
  (∀ (c : List Byte) (env : LoadEnv) (s : State), Powered s → rd s.m Reg.PAT_STATUS_STATE = 1 → s.m.ldr.copy = 1 ∨ s.m.ldr.copy = 2 →
    checkBase s.fuses { kind := 1, half := s.m.ldr.flashHalf } true env.nvmePresent c s.m = none →
    Completes (.containerReadComplete c env) s (fun t => rd t Reg.PAT_STATUS_STATE = 4 ∧ rd t Reg.PAT_STATUS_SOURCE = s.m.ldr.copy ∧
      rd t Reg.PAT_PATTERN_ID = hPatternId c ∧ t.endpoint = true)) ∧
  (∀ (c : Instr) (code : Nat) (s : State), Powered s → rd s.m Reg.PAT_STATUS_STATE = 1 →
    (c = .flashReadTimeout ∧ code = 0x13 ∨ ∃ bytes env x, c = .containerReadComplete bytes env ∧ code = x.code ∧ code < 256 ∧
      checkBase s.fuses { kind := 1, half := s.m.ldr.flashHalf } true env.nvmePresent bytes s.m = some x) →
    (s.m.ldr.copy = 1 → Completes c s (fun t => rd t Reg.PAT_ERROR_CODE = code ∧ rd t Reg.PAT_BOOT_PRIMARY_FAILED = 1 ∧ t.ldr.copy = 2 ∧
      rd t Reg.PAT_STATUS_STATE = 1 ∧ MemKept s.m t)) ∧
    (s.m.ldr.copy = 2 → Completes c s (fun t => rd t Reg.PAT_ERROR_CODE = code ∧ rd t Reg.PAT_BOOT_SECONDARY_FAILED = 1 ∧ t.ldr.copy = 0 ∧
      rd t Reg.PAT_STATUS_STATE = (if rd s.m Reg.PAT_BOOT_BOOTSEL = 0 then 7 else 6) ∧ MemKept s.m t)))

/-- Behind an apply: start-up tests without a failure set SAF_STATUS.STARTUP_DONE and change no other register; HBM training brings
all 32 channels to state 2; a channel that has not trained after 290 ms goes to state 4, and the safe state is entered for
HBM_TRAIN; a good HOSTFW copy stands in its image and the host cluster leaves reset; a blob with the right digest stands at its
address, padded to its length, and changes no other byte; and the first turn tick, when due, sets RUNNING and PAT_STATUS.STATE
5, blows the security-version fuses that ADVANCE_SV asks for, and shows them. (R55 (02_the_pattern.md); R60 (02_the_pattern.md);
R61 (02_the_pattern.md); R62 (02_the_pattern.md); R63 (02_the_pattern.md); R460 (15_hbm_memory.md); R535
(17_safety_channels_and_safe_state.md)) -/
def Obligations.StartupReachesTheFirstTurn : Prop :=
  (∀ s : State, Powered s → applied s.m = true → s.m.saf.testsDone = false → Completes (.startupTestsComplete []) s (fun t =>
    t.saf = { s.m.saf with testsDone := true } ∧ rd t Reg.SAF_STATUS_STARTUP_DONE = 1 ∧ RegsKept [Reg.SAF_STATUS_STARTUP_DONE] s.m t ∧ t.log = s.m.log)) ∧
  (∀ s : State, Powered s → applied s.m = true → s.m.ldr.trained = false → (∀ ch < 32, rd s.m (Reg.MEM_STATUS_STATE ch) ≠ 4) →
    Completes .hbmTrainingComplete s (fun t => t.ldr.trained = true ∧ (∀ ch < 32, rd t (Reg.MEM_STATUS_STATE ch) = 2) ∧
      RegsKept ((List.range 32).map (fun ch => Reg.MEM_STATUS_STATE ch)) s.m t ∧ MemKept s.m t)) ∧
  (∀ (ch : Fin 32) (s : State), Powered s → applied s.m = true → s.m.ldr.trained = false → rd s.m (Reg.MEM_STATUS_STATE ch) = 1 →
    s.m.ing.appliedAt + 290000000 ≤ now s.m → Completes (.hbmTrainingTimeout ch) s (fun t => Entered .hbmTrain s.m t ∧ rd t (Reg.MEM_STATUS_STATE ch) = 4)) ∧
  (∀ (good : Bool) (s : State), Powered s → s.m.ldr.trained = true → s.m.ldr.hostfwDone = false → Clean s.m (hostImageBase s.m) (sec s.m 0xA 0).length →
    Completes (.hostfwCopyChecked good) s (fun t => t.ldr.hcUp = good ∧ t.ldr.hostfwDone = true ∧ t.regs = s.m.regs ∧
      (good = true → Stored (hostImageBase s.m) (sec s.m 0xA 0) s.m t) ∧ (good = false → MemKept s.m t))) ∧
  (∀ (i : Nat) (b : List Byte) (s : State), Powered s → s.m.ldr.trained = true → s.m.ldr.hostfwDone = true → rd s.m Reg.PAT_STATUS_STATE ∈ [4, 5] →
    nextBlob s.m = some i → b.length = le (preload s.m i) 0x18 8 → sha384 b = beNat (slice (preload s.m i) 0x20 48) →
    Clean s.m (le (preload s.m i) 0x10 8) b.length → Completes (.preloadBlobChecked i (some b)) s (fun t =>
      Stored (le (preload s.m i) 0x10 8) b s.m t ∧ i ∈ t.ldr.passed)) ∧
  (∀ (failed : List (Nat × Nat)) (s : State), Powered s → firstDue s.m = true → ∃ t, exec (.firstTurnTick failed) s = .next t ∧
    t.pending = s.pending ∧ rd t.m Reg.PAT_STATUS_STATE = 5 ∧ rdb t.m Reg.TIME_TURN_STATUS_RUNNING = true ∧
    t.fuses = (if rd s.m Reg.PAT_STATUS_LIFECYCLE < 2 ∧ hAdvance s.m.ldr.header then
      { s.fuses with sv := max s.fuses.sv (min 64 (hSv s.m.ldr.header)) } else s.fuses) ∧
    rd t.m Reg.PAT_SV_FUSED = t.fuses.sv % 128)

/-- Outside the hold, a read of the challenge draws 384 fresh bits, holds them, and sends them. A response that passes (an accepted,
fused, unrevoked slot whose hash is the key's, and a signature over challenge and UID) uses the challenge up and sets
PAT_STATUS.DEBUG_SESSION; one that does not uses it up too, opens nothing, and starts a hold, which ends behind 1 s. Closing
clears DEBUG_SESSION. EXTEST enters the safe state for its cause and holds it; IDCODE sends 0x10F08573, least significant byte
first; BYPASS changes nothing; SAMPLE/PRELOAD sends one byte, which the model leaves free, and changes no register. No command
but EXTEST and the failed response changes another register. (R78 (02_the_pattern.md); R79 (02_the_pattern.md); R542
(17_safety_channels_and_safe_state.md); R543 (17_safety_channels_and_safe_state.md); R692 (23_startup_balls_and_package.md)) -/
def Obligations.DebugPortAuthenticates : Prop :=
  (∀ s : State, Powered s → s.m.ldr.hold = none → s.m.saf.islandUp = true → Completes .debugChallengeRead s (fun t =>
    t.regs = s.m.regs ∧ t.mem = s.m.mem ∧ ∃ c < 2 ^ 384, t.ldr = { s.m.ldr with challenge := some c } ∧ t.out = .jtag (beBytes 48 c) :: s.m.out)) ∧
  (∀ (slot : Nat) (key : List Byte) (r sig c : Nat) (s : State), Powered s → s.m.ldr.challenge = some c →
    (authOk s.fuses s.m c slot key r sig = true → Completes (.debugAuthResponse slot key r sig) s (fun t => rd t Reg.PAT_STATUS_DEBUG_SESSION = 1 ∧
      t.ldr = { s.m.ldr with challenge := none, sessionSlot := slot } ∧ RegsKept [Reg.PAT_STATUS_DEBUG_SESSION] s.m t ∧ MemKept s.m t)) ∧
    (authOk s.fuses s.m c slot key r sig = false → Completes (.debugAuthResponse slot key r sig) s (fun t =>
      t.ldr = { s.m.ldr with challenge := none, hold := some (now s.m) } ∧ Logged 0x5C s.m t ∧
      ∀ f : Fld, f.unlogged → rd t f = rd s.m f))) ∧
  (∀ (t0 : Nat) (s : State), Powered s → s.m.ldr.hold = some t0 → t0 + 1000000000 ≤ now s.m →
    Completes .debugRetryHoldExpiry s (fun t => t = { s.m with ldr := { s.m.ldr with hold := none } })) ∧
  (∀ s : State, Powered s → Completes .debugSessionClose s (fun t => rd t Reg.PAT_STATUS_DEBUG_SESSION = 0 ∧
    RegsKept [Reg.PAT_STATUS_DEBUG_SESSION] s.m t ∧ MemKept s.m t)) ∧
  (∀ s : State, Powered s → Completes .jtagExtest s (fun t => Entered .extest s.m t ∧ t.ldr.extest = true ∧ ∀ f : Fld, f.beyond → rd t f = rd s.m f)) ∧
  (∀ s : State, Powered s → Completes .jtagIdcode s (fun t => t = { s.m with out := .jtag [0x73, 0x85, 0xF0, 0x10] :: s.m.out }) ∧
    Completes .jtagBypass s (fun t => t = s.m) ∧
    Completes .jtagSamplePreload s (fun t => t.regs = s.m.regs ∧ t.mem = s.m.mem ∧ ∃ b, t.out = .jtag [b] :: s.m.out))

/-- From 1 ms behind PORST_n, with the island running, a Block Read is answered, least significant byte first, with the register
word of PAT_ID, PAT_UID, PAT_STATUS, SAF_STATUS or PWR_POWER, or with the hottest working die sensor (a free byte where there is
none) and the hottest stack; any other access is not acknowledged, and while the part does not answer every access is not.
Nothing else changes but the count of free values drawn. (R693 (23_startup_balls_and_package.md)) -/
def Obligations.SmbusAnswersBlockReads : Prop :=
  (∀ s : State, Powered s → s.m.saf.islandUp = true → s.m.ldr.releasedAt + 1000000 ≤ now s.m →
    Completes .smbusReadPatId s (fun t => t = { s.m with out := .smbus (leBytes 4 (regWord s.m 0x7F00000000)) :: s.m.out }) ∧
    Completes .smbusReadUid s (fun t => t = { s.m with out := .smbus (leBytes 8 (rd s.m Reg.PAT_UID)) :: s.m.out }) ∧
    Completes .smbusReadPatStatus s (fun t => t = { s.m with out := .smbus (leBytes 4 (regWord s.m 0x7F00000004)) :: s.m.out }) ∧
    Completes .smbusReadSafStatus s (fun t => t = { s.m with out := .smbus (leBytes 4 (regWord s.m Reg.SAF_STATUS_STATE.addr)) :: s.m.out }) ∧
    Completes .smbusReadPower s (fun t => t = { s.m with out := .smbus (leBytes 4 (regWord s.m Reg.PWR_POWER.addr)) :: s.m.out }) ∧
    Completes .smbusReadTemps s (fun t => t.regs = s.m.regs ∧ t.mem = s.m.mem ∧ ∃ die : Byte,
      t.out = .smbus [die, BitVec.ofInt 8 (hottestStack s.m)] :: s.m.out ∧
      ∀ x, hottestOf s.m (List.range 64) = some x → die = BitVec.ofInt 8 x)) ∧
  (∀ (c : Instr) (s : State), Powered s → c ∈ [Instr.smbusReadPatId, .smbusReadUid, .smbusReadPatStatus, .smbusReadSafStatus, .smbusReadPower,
    .smbusReadTemps, .smbusOtherNack] → c = .smbusOtherNack ∨ s.m.saf.islandUp = false ∨ now s.m < s.m.ldr.releasedAt + 1000000 →
    Completes c s (fun t => t = { s.m with out := .smbusNack :: s.m.out }))

/-- With a pattern applied and the next grid tick due at t: before the first turn (and where the tick is not the first turn tick)
TIME_TURN_TICK becomes t and the turn number stays; once turns run, with no failed test, no Partner engine loaded and no
undecided SAFETY item of the turn, TIME_TURN_NUMBER becomes the next number modulo 2^32, TIME_TURN_TICK becomes t, and each of
the eight partitions has (t, that number) behind the grid ticks it has still to take. Memory and items' statuses stay. (R91
(03_turns_and_quickstep.md); R92 (03_turns_and_quickstep.md); R93 (03_turns_and_quickstep.md); R94 (03_turns_and_quickstep.md);
R105 (03_turns_and_quickstep.md); R109 (03_turns_and_quickstep.md)) -/
def Obligations.GridTicksCarryTheTurns : Prop :=
  (∀ (failed : List (Nat × Nat)) (s : State), Powered s → applied s.m = true → periodNs s.m ≠ 0 → (nextTick s.m).2 ≤ now s.m →
    rdb s.m Reg.TIME_TURN_STATUS_RUNNING = false → firstReady s.m = false → Completes (.gridTick failed) s (fun t =>
      rd t Reg.TIME_TURN_TICK = (nextTick s.m).2 % 2 ^ 64 ∧ t.time.lastTick = (nextTick s.m).2 ∧
      rd t Reg.TIME_TURN_NUMBER = rd s.m Reg.TIME_TURN_NUMBER ∧ MemKept s.m t ∧ t.items = s.m.items)) ∧
  (∀ s : State, Powered s → applied s.m = true → periodNs s.m ≠ 0 → (nextTick s.m).2 ≤ now s.m →
    rdb s.m Reg.TIME_TURN_STATUS_RUNNING = true → secOf s.m 0xB 0 = none →
    (∀ x ∈ s.m.items, x.2.safety = true → x.2.verdict.isSome = true ∨ x.2.turnOf = none) → Completes (.gridTick []) s (fun t =>
      rd t Reg.TIME_TURN_TICK = (nextTick s.m).2 % 2 ^ 64 ∧ rd t Reg.TIME_TURN_NUMBER = (gridTurn s.m + 1) % 2 ^ 32 ∧
      (∀ p < 8, (mget t.turns p).gticks = (mget s.m.turns p).gticks ++ [((nextTick s.m).2, (gridTurn s.m + 1) % 2 ^ 32)]) ∧ MemKept s.m t ∧
      t.items.map (fun x => (x.1, x.2.fixed)) = s.m.items.map (fun x => (x.1, x.2.fixed))))

/-- A running partition whose next grid tick (g, n) is there, whose planned tick has come, whose last turn's latency-critical work
and window are over, and which has no best-effort context, retirement, event, waiting item or halt in hand: PARTITION_TICK takes
the tick at its planned time (now, where the turn overran), TC_TURN_NUMBER becomes n, TC_TURN_LAG the lag behind g up to
0x3FFFFFFF, the turn is a quickstep turn exactly where the lag is not zero, the grid tick is taken off, and the service window
is open. (R93 (03_turns_and_quickstep.md); R95 (03_turns_and_quickstep.md); R102 (03_turns_and_quickstep.md); R103
(03_turns_and_quickstep.md); R104 (03_turns_and_quickstep.md); R112 (03_turns_and_quickstep.md)) -/
def Obligations.PartitionTurnsOpen : Prop :=
  ∀ (p : Fin 8) (g n : Nat) (rest : List (Nat × Nat)) (s : State), Powered s → (mget s.m.turns p).gticks = (g, n) :: rest → n < 2 ^ 32 →
    rdb s.m Reg.PWR_STATUS_SHUTDOWN = false → plannedTick s.m p ≤ now s.m → rd s.m (Reg.TC_RECOV_STATUS_STATE p) = 0 →
    ((mget s.m.turns p).begun = true → (mget s.m.turns p).lcDone = true ∧ (mget s.m.turns p).phase = .open) →
    halted s.m p = false → mget s.m.comps p = [] → mget s.m.rnotes p = [] →
    (let r := mget s.m.recov p
     r.killing = none ∧ r.restart = none ∧ r.replayRun = none ∧ r.be = none ∧ r.switch = .none ∧ r.events = [] ∧ r.toRetire = [] ∧
       4 ∉ r.nextCauses ∧ r.first = [] ∧ r.lcImage = none) →
    let at0 := if (mget s.m.turns p).begun = true ∧ plannedTick s.m p < (mget s.m.turns p).lcEnd then now s.m else atTick s.m (plannedTick s.m p)
    Completes (.partitionTick p) s (fun t => rd t (Reg.TC_TURN_NUMBER p) = n ∧ rd t (Reg.TC_TURN_LAG p) = min 0x3FFFFFFF (at0 - g) ∧
      (mget t.turns p).begun = true ∧ (mget t.turns p).tick = at0 ∧ (mget t.turns p).grid = g ∧ (mget t.turns p).gticks = rest ∧
      (mget t.turns p).quick = decide (g < at0) ∧ (mget t.turns p).phase = .window)

/-- A service window whose end has passed, with no switch and no margin test under way, closes: the turn is open, no row is overdue,
WSCRUB, ASCRUB and CALIBRATING read 0, and WINDOW_USED is set. In an open turn of a partition that is free and past the start
offset of its next due routine, that routine starts: the sequencer runs it from its entry, S1 holds the turn number and S2 the
tick, and it leaves the due list. A deferred row that an idle gap of 25 µs takes runs and is deferred no longer. A row deferred
since before the last turn becomes overdue. (R95 (03_turns_and_quickstep.md); R97 (03_turns_and_quickstep.md); R99
(03_turns_and_quickstep.md); R100 (03_turns_and_quickstep.md); R536 (17_safety_channels_and_safe_state.md); R591
(19_scheduling_and_preemption.md); R340 (10_tensor_instructions.md)) -/
def Obligations.TurnWorkFollowsItsOrder : Prop :=
  (∀ (p : Fin 8) (failed deferred ce : List Nat) (s : State), Powered s → (mget s.m.turns p).phase = .window →
    (mget s.m.turns p).windowEnd ≤ now s.m → (mget s.m.recov p).switch = .none → marginRuns s.m p = false →
    Completes (.serviceWindowEnd p failed deferred ce) s (fun t => (mget t.turns p).phase = .open ∧
      rd t (Reg.SCR_STATUS_WSCRUB p) = 0 ∧ rd t (Reg.SCR_STATUS_ASCRUB p) = 0 ∧ ∀ j < 4, rd t (Reg.MEM_STATUS_CALIBRATING (4 * p + j)) = 0)) ∧
  (∀ (p : Fin 8) (i : Nat) (rest : List Nat) (x : Routine) (s : State), Powered s → (mget s.m.turns p).lcTodo = i :: rest →
    routineAt s.m p i = some x → (mget s.m.turns p).phase = .open → (mget s.m.turns p).windowEnd + x.start ≤ now s.m →
    (mget s.m.seqs p).run = none → rd s.m (Reg.TC_RECOV_STATUS_STATE p) = 0 → rdb s.m (Reg.SCR_STATUS_WIPING p) = false →
    rdb s.m (Reg.SCR_STATUS_HELD p) = false → (mget s.m.kvs p).building = false →
    (let r := mget s.m.recov p
     r.killing = none ∧ r.restart = none ∧ r.replayRun = none ∧ r.switch = .none ∧ r.lcImage = none) →
    Completes (.lcRoutineStart p) s (fun t => (mget t.seqs p).run = some (runOf x 0) ∧ (mget t.turns p).lcTodo = rest ∧
      (mget t.seqs p).waiting = none ∧ getD 0 (mget t.seqs p).s 1 = BitVec.ofNat 64 (rd s.m (Reg.TC_TURN_NUMBER p)) ∧
      getD 0 (mget t.seqs p).s 2 = BitVec.ofNat 64 (mget s.m.turns p).tick ∧ rd t (Reg.TC_SEQ_PC p) = (x.base + x.entry) % 2 ^ 32 ∧
      rd t (Reg.TC_SEQ_STATUS_STATE p) = 1 ∧ MemKept s.m t)) ∧
  (∀ (p : Fin 8) (a : Nat) (s : State), Powered s → 1 ≤ a → a ≤ 7 → cyclesNs s.m p (testCycles.getD a 0) ≤ 25000 →
    idleGap s.m p (cyclesNs s.m p (testCycles.getD a 0)) = true → (∃ d ∈ (mget s.m.turns p).deferred, d.1 = a) →
    Completes (.backgroundSliceStart p a []) s (fun t => (mget t.turns p).deferred = (mget s.m.turns p).deferred.filter (fun d => d.1 != a) ∧
      RegsKept [Reg.TC_TURN_STATUS_TEST_DEFERRED p, Reg.KV_STATUS_LAB_VALID p] s.m t ∧ MemKept s.m t)) ∧
  (∀ (p : Fin 8) (row k : Nat) (s : State), Powered s → (row, k) ∈ (mget s.m.turns p).deferred → k ≠ rd s.m (Reg.TC_TURN_NUMBER p) →
    k ≠ (rd s.m (Reg.TC_TURN_NUMBER p) + 2 ^ 32 - 1) % 2 ^ 32 → Completes (.periodicTestOverdue p row) s (fun t =>
      (mget t.turns p).overdue = (mget s.m.turns p).overdue ++ [row] ∧ (mget t.turns p).deferred = (mget s.m.turns p).deferred.filter (fun d => d.1 != row) ∧
      RegsKept [Reg.TC_TURN_STATUS_TEST_DEFERRED p] s.m t ∧ MemKept s.m t))

/-- A running partition whose next grid tick g lies more than LAG_LIMIT behind now, and that has not raised its fault in this
episode, raises it: TC_TURN_STATUS.DEADLINE is 1, TC_CNT_DEADLINE counts one (saturating), the condition holds, and with
reaction SAFE the safe state is entered for DEADLINE. A latency-critical item with no status at its deadline gets
FAILED_DEADLINE with reason 0x8E: it waits with that status, or its record is decided with it; its memory stays. (R105
(03_turns_and_quickstep.md); R106 (03_turns_and_quickstep.md); R513 (17_safety_channels_and_safe_state.md); R628
(20_hang_reset_and_recovery.md); R630 (20_hang_reset_and_recovery.md); R631 (20_hang_reset_and_recovery.md)) -/
def Obligations.DeadlinesAreKept : Prop :=
  (∀ (p : Fin 8) (g n : Nat) (rest : List (Nat × Nat)) (s : State), Powered s → (mget s.m.turns p).gticks = (g, n) :: rest →
    (mget s.m.turns p).begun = true → (mget s.m.turns p).deadlined = false → g + lagLimitNs s.m < now s.m →
    Completes (.deadlineFault p) s (fun t => (mget t.turns p).deadlined = true ∧ rd t (Reg.TC_TURN_STATUS_DEADLINE p) = 1 ∧
      rd t (Reg.TC_CNT_DEADLINE p) = min (2 ^ 32 - 1) (rd s.m (Reg.TC_CNT_DEADLINE p) + 1) ∧ t.saf.condDeadline = true ∧
      (reactDeadline s.m = 2 → Entered .deadline s.m t) ∧
      ∀ f : Fld, f.beyond → f.key ∉ [(Reg.TC_TURN_STATUS_DEADLINE p).key, (Reg.TC_CNT_DEADLINE p).key] → rd t f = rd s.m f)) ∧
  (∀ (tag : Nat) (it : Item) (s : State), Powered s → lookup s.m.items tag = some it → it.lc = true → it.fixed = none → it.deadline ≤ now s.m →
    Completes (.itemDeadline tag) s (fun t => MemKept s.m t ∧
      GotStatus tag .failedDeadline 0x8E t))

/-- Where a sequencer stands at an R-form word whose bits [40:0] are zero, ADD, SUB, AND, OR, XOR, SLL, SRL, SRA, MUL, MIN, MAX, SLT
and SLTU write the operation's value modulo 2^64 to s[rd] (a write of s0 is ignored), with shift amounts from bits [5:0], signed
MIN, MAX and SLT and unsigned SLTU. The pc goes on by 8 and one instruction is counted; every other scalar register, every
descriptor, every other register and all memory stay. (R303 (10_tensor_instructions.md); R304 (10_tensor_instructions.md); R306
(10_tensor_instructions.md); R307 (10_tensor_instructions.md)) -/
def Obligations.RegisterArithmetic : Prop :=
  ∀ (c : Fin 9 → BitVec 56 → Instr) (op : Nat) (f : BitVec 64 → BitVec 64 → BitVec 64) (q : Fin 9) (w : BitVec 56) (s : State),
    (c, op, f) ∈ ([(Instr.add, 0x01, fun a b => a + b), (Instr.sub, 0x02, fun a b => a - b), (Instr.and, 0x03, fun a b => a &&& b),
      (Instr.or, 0x04, fun a b => a ||| b), (Instr.xor, 0x05, fun a b => a ^^^ b), (Instr.sll, 0x06, fun a b => a <<< (b.toNat % 64)),
      (Instr.srl, 0x07, fun a b => a >>> (b.toNat % 64)), (Instr.sra, 0x08, fun a b => a.sshiftRight (b.toNat % 64)),
      (Instr.mul, 0x09, fun a b => a * b), (Instr.min, 0x0A, fun a b => if a.toInt < b.toInt then a else b),
      (Instr.max, 0x0B, fun a b => if a.toInt < b.toInt then b else a), (Instr.slt, 0x0C, fun a b => if a.toInt < b.toInt then 1 else 0),
      (Instr.sltu, 0x0D, fun a b => if a.toNat < b.toNat then 1 else 0)] :
      List ((Fin 9 → BitVec 56 → Instr) × Nat × (BitVec 64 → BitVec 64 → BitVec 64))) →
    Powered s → StandsAt s.m q op w.toNat → w.toNat % 2 ^ 41 = 0 →
    Completes (c q w) s (fun t => Executed q (seqPc s.m q + 8) [] s.m t ∧ SetsS q (bitsAt w.toNat 51 5)
      (f (BitVec.ofNat 64 (sReg s.m q (bitsAt w.toNat 46 5))) (BitVec.ofNat 64 (sReg s.m q (bitsAt w.toNat 41 5)))).toNat s.m t)

/-- Where a sequencer stands at an I-form word whose bits [45:32] are zero, ADDI, ANDI, ORI and XORI write the operation's value
over s[rs1] and the immediate, signed and extended to 64 bits, to s[rd]; SLLI, SRLI and SRAI shift by imm[5:0], with imm[31:6]
zero; LI, with bits [50:48] zero, writes its 48-bit immediate, signed and extended. The pc goes on by 8 and one instruction is
counted; every other scalar register, every descriptor, every other register and all memory stay. (R303
(10_tensor_instructions.md); R304 (10_tensor_instructions.md); R306 (10_tensor_instructions.md); R307
(10_tensor_instructions.md)) -/
def Obligations.ImmediateArithmetic : Prop :=
  (∀ (c : Fin 9 → BitVec 56 → Instr) (op : Nat) (f : BitVec 64 → BitVec 64 → BitVec 64) (q : Fin 9) (w : BitVec 56) (s : State),
    (c, op, f) ∈ ([(Instr.addi, 0x10, fun a b => a + b), (Instr.andi, 0x11, fun a b => a &&& b), (Instr.ori, 0x12, fun a b => a ||| b),
      (Instr.xori, 0x13, fun a b => a ^^^ b), (Instr.slli, 0x14, fun a b => a <<< (b.toNat % 64)),
      (Instr.srli, 0x15, fun a b => a >>> (b.toNat % 64)), (Instr.srai, 0x16, fun a b => a.sshiftRight (b.toNat % 64))] :
      List ((Fin 9 → BitVec 56 → Instr) × Nat × (BitVec 64 → BitVec 64 → BitVec 64))) →
    Powered s → StandsAt s.m q op w.toNat → bitsAt w.toNat 32 14 = 0 → (0x14 ≤ op → bitsAt w.toNat 6 26 = 0) →
    Completes (c q w) s (fun t => Executed q (seqPc s.m q + 8) [] s.m t ∧ SetsS q (bitsAt w.toNat 51 5)
      (f (BitVec.ofNat 64 (sReg s.m q (bitsAt w.toNat 46 5))) (BitVec.ofInt 64 (signedOf 32 w.toNat))).toNat s.m t)) ∧
  (∀ (q : Fin 9) (w : BitVec 56) (s : State), Powered s → StandsAt s.m q 0x17 w.toNat → bitsAt w.toNat 48 3 = 0 →
    Completes (.li q w) s (fun t => Executed q (seqPc s.m q + 8) [] s.m t ∧
      SetsS q (bitsAt w.toNat 51 5) (BitVec.ofInt 64 (signedOf 48 w.toNat)).toNat s.m t))

/-- Where a sequencer stands at the word, with its reserved bits zero: NOP only goes on. A branch whose comparison of s[rs1] and
s[rs2] holds goes to pc + offset where that lies in the routine's code, one whose comparison fails goes on. JAL and JALR write
pc + 8 to s[rd] and go to pc + imm and s[rs1] + imm. TIME gives the PTP time, the turn number of the current turn, or the time
of its tick; ITAG sets the current item tag. END marks the routine as ended; once its queues have drained, the routine of the
Partner engine is gone and its status is 0, and a latency-critical one of a partition leaves its sequencer idle in its firmware.
Nothing else changes but what an event count of R665 takes of a TIME 0. (R303 (10_tensor_instructions.md); R304
(10_tensor_instructions.md); R307 (10_tensor_instructions.md); R308 (10_tensor_instructions.md); R340
(10_tensor_instructions.md)) -/
def Obligations.ControlFlow : Prop :=
  (∀ (q : Fin 9) (s : State), Powered s → StandsAt s.m q 0 0 → Completes (.nop q 0) s (fun t => Executed q (seqPc s.m q + 8) [] s.m t ∧ KeepsS q s.m t)) ∧
  (∀ (c : Fin 9 → BitVec 56 → Instr) (op : Nat) (f : BitVec 64 → BitVec 64 → Bool) (q : Fin 9) (w : BitVec 56) (s : State),
    (c, op, f) ∈ [(Instr.beq, 0x20, fun a b => decide (a = b)), (Instr.bne, 0x21, fun a b => decide (a ≠ b)),
      (Instr.blt, 0x22, fun a b => decide (a.toInt < b.toInt)), (Instr.bge, 0x23, fun a b => decide (b.toInt ≤ a.toInt)),
      (Instr.bltu, 0x24, fun a b => decide (a.toNat < b.toNat)), (Instr.bgeu, 0x25, fun a b => decide (b.toNat ≤ a.toNat))] →
    Powered s → StandsAt s.m q op w.toNat → bitsAt w.toNat 32 14 = 0 →
    let taken := f (BitVec.ofNat 64 (sReg s.m q (bitsAt w.toNat 51 5))) (BitVec.ofNat 64 (sReg s.m q (bitsAt w.toNat 46 5)))
    let target := fieldOf 64 ((seqPc s.m q : Int) + signedOf 32 w.toNat)
    (taken = true → InCode s.m q target) →
    Completes (c q w) s (fun t => Executed q (if taken then target else seqPc s.m q + 8) [] s.m t ∧ KeepsS q s.m t)) ∧
  (∀ (q : Fin 9) (w : BitVec 56) (s : State), Powered s →
    (StandsAt s.m q 0x26 w.toNat → bitsAt w.toNat 32 19 = 0 → InCode s.m q (fieldOf 64 ((seqPc s.m q : Int) + signedOf 32 w.toNat)) →
      Completes (.jal q w) s (fun t => Executed q (fieldOf 64 ((seqPc s.m q : Int) + signedOf 32 w.toNat)) [] s.m t ∧
        SetsS q (bitsAt w.toNat 51 5) (seqPc s.m q + 8) s.m t)) ∧
    (StandsAt s.m q 0x27 w.toNat → bitsAt w.toNat 32 14 = 0 →
      InCode s.m q (fieldOf 64 ((sReg s.m q (bitsAt w.toNat 46 5) : Int) + signedOf 32 w.toNat)) →
      Completes (.jalr q w) s (fun t => Executed q (fieldOf 64 ((sReg s.m q (bitsAt w.toNat 46 5) : Int) + signedOf 32 w.toNat)) [] s.m t ∧
        SetsS q (bitsAt w.toNat 51 5) (seqPc s.m q + 8) s.m t)) ∧
    (StandsAt s.m q 0x2A w.toNat → bitsAt w.toNat 32 19 = 0 → bitsAt w.toNat 0 32 ≤ 2 →
      Completes (.timeRead q w) s (fun t => Executed q (seqPc s.m q + 8) (if bitsAt w.toNat 0 32 = 0 ∧ q ≠ 8 then detFields q 1 else []) s.m t ∧
        SetsS q (bitsAt w.toNat 51 5) (if bitsAt w.toNat 0 32 = 0 then now s.m
          else if bitsAt w.toNat 0 32 = 1 then (if q = 8 then gridTurn s.m else rd s.m (Reg.TC_TURN_NUMBER q))
          else if q = 8 then rd s.m Reg.TIME_TURN_TICK else (mget s.m.turns q).tick) s.m t)) ∧
    (StandsAt s.m q 0x2B w.toNat → bitsAt w.toNat 51 5 = 0 → bitsAt w.toNat 0 46 = 0 →
      Completes (.itag q w) s (fun t => Executed q (seqPc s.m q + 8) [Reg.TC_SEQ_ITAG q] s.m t ∧ KeepsS q s.m t ∧
        rd t (Reg.TC_SEQ_ITAG q) = sReg s.m q (bitsAt w.toNat 46 5) % 2 ^ 32)) ∧
    (StandsAt s.m q 0x28 0 → Completes (.endRoutine q 0) s (fun t => Executed q (seqPc s.m q + 8) [] s.m t ∧ KeepsS q s.m t ∧
      (mget t.seqs q).ended = true))) ∧
  (∀ (s : State) (r : Run), Powered s → (mget s.m.seqs 8).run = some r → (mget s.m.seqs 8).ended = true → drained s.m 8 = true →
    Completes (.routineEnd 8) s (fun t => (mget t.seqs 8).run = none ∧ rd t (Reg.TC_SEQ_STATUS_STATE 8) = 0 ∧
      rd t Reg.PTN_STATUS_ROUTINE_RUNNING = 0 ∧ RegsKept [Reg.TC_SEQ_STATUS_STATE 8, Reg.PTN_STATUS_ROUTINE_RUNNING] s.m t ∧ MemKept s.m t)) ∧
  (∀ (p : Fin 8) (s : State) (r : Run), Powered s → (mget s.m.seqs p).run = some r → r.kind = 0 → r.replayOf = none →
    (mget s.m.seqs p).ended = true → drained s.m p = true → (mget s.m.recov p).killing = none →
    Completes (.routineEnd (p.castLE (by decide))) s (fun t => (mget t.seqs p).run = none ∧ rd t (Reg.TC_SEQ_STATUS_STATE p) = 3))

/-- Where a sequencer of a partition stands at the word with work of its engines in flight: TRAP with bits [55:16] zero raises TRAP
with its code as the detail, a reserved opcode ILLEGAL_OPCODE, and an R-form instruction with a reserved bit set RESERVED_FIELD.
TC_SEQ_EXC holds the code, the sequencer as its engine and class D, TC_SEQ_EXC_PC the instruction's address and TC_SEQ_EXC_TAG
the current item tag; NEW is set, one exception is counted, the EXCEPTION record is logged, the sequencer's state becomes 2 and
the routine's kill begins; its scalar registers and its engines' work in flight stay. (R306 (10_tensor_instructions.md); R308
(10_tensor_instructions.md); R335 (10_tensor_instructions.md); R336 (10_tensor_instructions.md)) -/
def Obligations.InstructionExceptions : Prop :=
  ∀ (p : Fin 8) (q : Fin 9) (w : BitVec 56) (op : BitVec 8) (s : State), q.val = p.val → Powered s → StandsAt s.m q op.toNat w.toNat → flightEmpty s.m q = false →
    (mget s.m.seqs q).excAt ≠ some (now s.m) →
    let raised (code detail : Nat) (t : Mach) : Prop :=
      rd t (Reg.TC_SEQ_EXC_CODE p) = code ∧ rd t (Reg.TC_SEQ_EXC_ENGINE p) = 0 ∧ rd t (Reg.TC_SEQ_EXC_CLASS p) = 0 ∧
      rd t (Reg.TC_SEQ_EXC_DETAIL p) = detail ∧ rd t (Reg.TC_SEQ_EXC_PC p) = seqPc s.m q ∧ rd t (Reg.TC_SEQ_EXC_TAG p) = rd s.m (Reg.TC_SEQ_ITAG p) ∧
      rd t (Reg.TC_SEQ_EXC_NEW p) = 1 ∧ rd t (Reg.TC_SEQ_CNT_EXC p) = min (2 ^ 32 - 1) (rd s.m (Reg.TC_SEQ_CNT_EXC p) + 1) ∧ Logged 0x4F s.m t ∧
      rd t (Reg.TC_SEQ_STATUS_STATE p) = 2 ∧ (mget t.recov p).killing = some (.exception 0) ∧ KeepsS q s.m t ∧
      ∀ e < 6, (engine t p e).flight = (engine s.m p e).flight ∧ (engine t p e).queue = []
    (op.toNat = 0x29 → bitsAt w.toNat 16 40 = 0 → Completes (.trap q w) s (raised 0x1E (bitsAt w.toNat 0 16))) ∧
    (opReserved op.toNat = true → Completes (.illegalOpcode q op w false) s (raised 1 0)) ∧
    (op.toNat = 1 → w.toNat % 2 ^ 41 ≠ 0 → Completes (.add q w) s (raised 2 0))

/-- Where a sequencer stands at the word, with its reserved bits zero: LDS of a whole, ready word at an aligned, populated PSA loads
it into s[rd]. STS stores the eight bytes of s[rd] there and changes no other byte. MFR loads the register of PART[p] (of PTN
for the Partner engine) at offset imm. MTR writes s[rd] to semaphore n above 0, and to TC_CORE_CTRL of a core. TLD loads 64
bytes of the constant pool at an offset that is a multiple of 64 below CONST_BYTES; TSETW sets word w of a descriptor to s[rs1]
+ imm modulo 2^32, TADDW adds it. The pc goes on by 8, and nothing else changes. (R308 (10_tensor_instructions.md); R309
(10_tensor_instructions.md); R337 (10_tensor_instructions.md); R356 (11_scratchpad.md)) -/
def Obligations.ScratchRegistersAndDescriptors : Prop :=
  ∀ (q : Fin 9) (w : BitVec 56) (s : State), Powered s →
    let d := bitsAt w.toNat 51 5
    let imm := signedOf 32 w.toNat
    let a := fieldOf 64 ((sReg s.m q (bitsAt w.toNat 46 5) : Int) + imm)
    (StandsAt s.m q 0x18 w.toNat → bitsAt w.toNat 32 14 = 0 → scalarOk s.m q a = true → ready s.m q (a / 4096) = true →
      (q ≠ 8 → scrDamaged s.m q a 8 = []) → (q = 8 → damage s.m (ptnAddr a) 8 = 0) →
      Completes (.lds q w) s (fun t => Executed q (seqPc s.m q + 8) [] s.m t ∧
        SetsS q d (if q = 8 then memLe s.m (ptnAddr a) 8 else memLe s.m (psaAddr s.m q a) 8) s.m t)) ∧
    (StandsAt s.m q 0x19 w.toNat → bitsAt w.toNat 32 14 = 0 → scalarOk s.m q a = true → granFree s.m q (a / 4096) = true →
      Clean s.m (if q = 8 then ptnAddr a else psaAddr s.m q a) 8 → (q ≠ 8 → scrDamaged s.m q a 8 = []) →
      Completes (.sts q w) s (fun t => Stored (if q = 8 then ptnAddr a else psaAddr s.m q a) (leBytes 8 (sReg s.m q d)) s.m t ∧ t.seqs = s.m.seqs ∧
        rd t (Reg.TC_SEQ_PC q) = (seqPc s.m q + 8) % 2 ^ 32 ∧ RegsKept [Reg.TC_SEQ_PC q, Reg.TC_SEQ_CNT_INSTR q] s.m t)) ∧
    (∀ b, StandsAt s.m q 0x1A w.toNat → bitsAt w.toNat 32 14 = 0 → seqRegAddr q imm = some b →
      Completes (.mfr q w) s (fun t => SetsS q d (regValue s.m (.seq q) b) s.m t ∧ rd t (Reg.TC_SEQ_PC q) = (seqPc s.m q + 8) % 2 ^ 32 ∧ MemKept s.m t ∧
        t.items = s.m.items ∧ t.out = s.m.out)) ∧
    (∀ n < 16, StandsAt s.m q 0x1B w.toNat → bitsAt w.toNat 32 14 = 0 → imm = ((0x620 + 4 * n : Nat) : Int) →
      Completes (.mtr q w) s (fun t => Executed q (seqPc s.m q + 8) (if n = 0 then [] else [Reg.TC_SEQ_SEM q n]) s.m t ∧ KeepsS q s.m t ∧
        (n ≠ 0 → rd t (Reg.TC_SEQ_SEM q n) = sReg s.m q d % 2 ^ 32))) ∧
    (∀ k < coresPer s.m, q ≠ 8 → StandsAt s.m q 0x1B w.toNat → bitsAt w.toNat 32 14 = 0 → imm = ((0x40004 + 0x20000 * k : Nat) : Int) → k < 2 →
      Completes (.mtr q w) s (fun t => Executed q (seqPc s.m q + 8) [Reg.TC_CORE_CTRL_IDLE_HOLD q k, Reg.TC_CORE_CTRL_HOLD_WARM q k] s.m t ∧ KeepsS q s.m t ∧
        rd t (Reg.TC_CORE_CTRL_IDLE_HOLD q k) = sReg s.m q d % 2 ^ 16 ∧ rd t (Reg.TC_CORE_CTRL_HOLD_WARM q k) = bitsAt (sReg s.m q d) 16 1)) ∧
    (∀ r, StandsAt s.m q 0x30 w.toNat → bitsAt w.toNat 32 20 = 0 → (mget s.m.seqs q).run = some r → bitsAt w.toNat 0 32 % 64 = 0 → bitsAt w.toNat 0 32 < r.const →
      Completes (.tld q w false) s (fun t => Executed q (seqPc s.m q + 8) [] s.m t ∧
        SetsT q (bitsAt w.toNat 52 4) (constDesc s.m q (bitsAt w.toNat 0 32)) s.m t)) ∧
    (∀ keep : Bool, StandsAt s.m q (if keep then 0x33 else 0x32) w.toNat → bitsAt w.toNat 32 11 = 0 →
      Completes (if keep then .taddw q w else .tsetw q w) s (fun t => Executed q (seqPc s.m q + 8) [] s.m t ∧
        let d := tReg s.m q (bitsAt w.toNat 52 4)
        let i := bitsAt w.toNat 48 4
        SetsT q (bitsAt w.toNat 52 4) (setDWord d i (fieldOf 32 ((sReg s.m q (bitsAt w.toNat 43 5) : Int) + imm +
          (if keep then (bitsAt d.toNat (32 * i) 32 : Int) else 0)))) s.m t))

/-- Where a sequencer stands at the word, its reserved fields and codes are as their rules ask, and the queue of its engine has
room: MMA joins its core's array queue, VS, VWIN, VLD, VST and VR its core's vector queue, COPY and GRID the DMA queue, KVLD,
KVST and KVREF the walker's, as the last entry, with the descriptors and scalar values that its form names, its address, the
current item tag and the routine's identifier. The other engines' queues, what is in flight, every scalar register and
descriptor, and all memory stay; behind an engine that is no array no other register changes but those that follow the queues.
(R304 (10_tensor_instructions.md); R306 (10_tensor_instructions.md); R312 (10_tensor_instructions.md); R316
(10_tensor_instructions.md); R319 (10_tensor_instructions.md); R320 (10_tensor_instructions.md); R322
(10_tensor_instructions.md); R326 (10_tensor_instructions.md); R333 (10_tensor_instructions.md)) -/
def Obligations.DispatchToEngines : Prop :=
  (∀ (q : Fin 9) (w : BitVec 56) (s : State), Powered s →
    let k := bitsAt w.toNat 19 1
    let p := bitsAt w.toNat 35 1
    let x := bitsAt w.toNat 34 1
    let al := bitsAt w.toNat 25 9
    StandsAt s.m q 0x40 w.toNat → bitsAt w.toNat 0 15 = 0 → (q = 8 ∨ k < coresPer s.m) → (p = 0 → bitsAt w.toNat 40 4 = 0) → (x = 0 → bitsAt w.toNat 36 4 = 0) →
    (al = 0 ∨ al = 0x0FF ∨ q ≠ 8 ∧ mmaBx s.m q w.toNat = true) → (engine s.m q k).queue.length < 4 →
    Completes (.mma q w) s (Dispatched q k 0x40 w.toNat
      ([tField s.m q w.toNat 52, tField s.m q w.toNat 48, tField s.m q w.toNat 44] ++ (if p = 1 then [tField s.m q w.toNat 40] else []) ++
        (if x = 1 then [tField s.m q w.toNat 36] else []))
      [if bitsAt w.toNat 20 5 = 0 then 1 else sReg s.m q (bitsAt w.toNat 20 5)] s.m)) ∧
  (∀ (q : Fin 9) (w : BitVec 56) (s : State), Powered s →
    let k := bitsAt w.toNat 55 1
    (q = 8 ∨ k < coresPer s.m) → (engine s.m q (2 + k)).queue.length < 8 →
    (StandsAt s.m q 0x50 w.toNat → bitsAt w.toNat 0 27 = 0 → vecFuncOk false (bitsAt w.toNat 49 6) = true → (bitsAt w.toNat 31 1 = 1 ↔ bitsAt w.toNat 49 6 = 9) →
      Completes (.vs q w) s (Dispatched q (2 + k) 0x50 w.toNat ([tField s.m q w.toNat 45, tField s.m q w.toNat 41, tField s.m q w.toNat 37] ++
        (if bitsAt w.toNat 31 1 = 1 then [tField s.m q w.toNat 33] else [])) [] s.m)) ∧
    (StandsAt s.m q 0x51 w.toNat → bitsAt w.toNat 0 31 = 0 → bitsAt w.toNat 52 3 < 3 → (bitsAt w.toNat 35 1 = 1 ↔ bitsAt w.toNat 52 3 = 0) →
      Completes (.vwin q w) s (Dispatched q (2 + k) 0x51 w.toNat ([tField s.m q w.toNat 48, tField s.m q w.toNat 44, tField s.m q w.toNat 40] ++
        (if bitsAt w.toNat 35 1 = 1 then [tField s.m q w.toNat 36] else [])) [] s.m)) ∧
    (∀ c op, (c, op) ∈ [(Instr.vld q w, 0x52), (Instr.vst q w, 0x53)] → StandsAt s.m q op w.toNat → bitsAt w.toNat 32 13 = 0 →
      Completes c s (Dispatched q (2 + k) op w.toNat [] [fieldOf 64 ((sReg s.m q (bitsAt w.toNat 45 5) : Int) + signedOf 32 w.toNat)] s.m)) ∧
    (StandsAt s.m q 0x54 w.toNat → bitsAt w.toNat 0 27 = 0 → vecFuncOk true (bitsAt w.toNat 49 6) = true → bitsAt w.toNat 49 6 ≠ 9 →
      (bitsAt w.toNat 49 6 = 0x22 → bitsAt w.toNat 30 5 < 4) → Completes (.vr q w) s (Dispatched q (2 + k) 0x54 w.toNat [] [] s.m))) ∧
  (∀ (p : Fin 8) (q : Fin 9) (w : BitVec 56) (s : State), q.val = p.val → Powered s → (engine s.m p 4).queue.length < 16 → (engine s.m p 5).queue.length < 8 →
    (StandsAt s.m p 0x60 w.toNat → bitsAt w.toNat 0 41 = 0 →
      Completes (.copy p w) s (Dispatched p 4 0x60 w.toNat [tField s.m p w.toNat 52, tField s.m p w.toNat 48] [] s.m)) ∧
    (∀ c op, (c, op) ∈ [(Instr.kvld p w, 0x68), (Instr.kvst p w, 0x69)] → StandsAt s.m p op w.toNat → bitsAt w.toNat 0 13 = 0 →
      Completes c s (Dispatched p 5 op w.toNat [tField s.m p w.toNat 52]
        [sReg s.m p (bitsAt w.toNat 47 5), sReg s.m p (bitsAt w.toNat 42 5), sReg s.m p (bitsAt w.toNat 37 5)] s.m)) ∧
    (∀ c op, (c, op) ∈ [(Instr.kvrefInc p w, 0), (Instr.kvrefDec p w, 1), (Instr.kvrefFork p w, 2), (Instr.kvrefTrunc p w, 3), (Instr.kvrefDrop p w, 4)] →
      StandsAt s.m p 0x6A w.toNat → bitsAt w.toNat 0 38 = 0 → bitsAt w.toNat 43 3 = op → (op ≠ 2 → bitsAt w.toNat 38 5 = 0) →
      Completes c s (Dispatched p 5 0x6A w.toNat [] [sReg s.m p (bitsAt w.toNat 51 5), sReg s.m p (bitsAt w.toNat 46 5)] s.m))) ∧
  (∀ (q : Fin 9) (w : BitVec 56) (s : State), Powered s → StandsAt s.m q 0x7D w.toNat → bitsAt w.toNat 0 47 = 0 → (engine s.m q 4).queue.length < 16 →
    let n := sReg s.m q (bitsAt w.toNat 51 5) % 2 ^ 32
    let d := tField s.m q w.toNat 47
    strSafety (streamEntry s.m (tagStream n)) = true → (dKind d = 4 → some (dBytes d % 2 ^ 24) = (callerProfile s.m (tagStream n)).map gridBytes) →
    gridPosted s.m q n = false → Completes (.gridPost q w) s (fun t => Dispatched q 4 0x7D w.toNat [d] [n] s.m t ∧ (mget t.seqs q).grids = n :: (mget s.m.seqs q).grids))

/-- Where a sequencer stands at the word, with its reserved fields zero: SIG adds its count to a semaphore above 0, saturating;
WAITS subtracts its count where the semaphore holds it, and an instruction that waits for it goes on at SEQ_WAIT_SATISFIED, its
wait counted; FENCE goes on where the engines of its mask are empty. LEASE sets the leases of its banks to its lane where
nothing uses them, and does nothing on the Partner engine; RCLR and RSET write the ready bits of free granules; RWAIT goes on
where all are ready. LOCKA of a free lock takes it and returns 0, LOCKR frees a held lock, LOCKC clears its abandoned mark.
Nothing else changes; that LOCKR and LOCKC leave zero in rd is the model's reading (assumption 16). (R304
(10_tensor_instructions.md); R305 (10_tensor_instructions.md); R314 (10_tensor_instructions.md); R315
(10_tensor_instructions.md); R327 (10_tensor_instructions.md); R328 (10_tensor_instructions.md); R329
(10_tensor_instructions.md); R351 (11_scratchpad.md); R352 (11_scratchpad.md)) -/
def Obligations.SynchronisationAndLocks : Prop :=
  (∀ (q : Fin 9) (w : BitVec 56) (s : State), Powered s →
    let n := bitsAt w.toNat 52 4
    let c := bitsAt w.toNat 36 16
    (StandsAt s.m q 0x70 w.toNat → bitsAt w.toNat 0 36 = 0 → n ≠ 0 → c ≠ 0 →
      Completes (.sig q w) s (fun t => Executed q (seqPc s.m q + 8) [Reg.TC_SEQ_SEM q n] s.m t ∧ KeepsS q s.m t ∧
        rd t (Reg.TC_SEQ_SEM q n) = min (2 ^ 32 - 1) (rd s.m (Reg.TC_SEQ_SEM q n) + c))) ∧
    (StandsAt s.m q 0x71 w.toNat → bitsAt w.toNat 0 36 = 0 → n ≠ 0 → c ≠ 0 → c ≤ rd s.m (Reg.TC_SEQ_SEM q n) →
      Completes (.waits q w) s (fun t => Executed q (seqPc s.m q + 8) [Reg.TC_SEQ_SEM q n] s.m t ∧ KeepsS q s.m t ∧
        rd t (Reg.TC_SEQ_SEM q n) = (rd s.m (Reg.TC_SEQ_SEM q n) - c) % 2 ^ 32)) ∧
    ((mget s.m.seqs q).waiting = some (0x71, w.toNat) → bitsAt w.toNat 0 36 = 0 → n ≠ 0 → c ≠ 0 → c ≤ rd s.m (Reg.TC_SEQ_SEM q n) →
      (q ≠ 8 → (mget s.m.recov q).killing = none ∧ (mget s.m.recov q).switch = .none) → (mget s.m.recov q).hbDue = false →
      Completes (.seqWaitSatisfied q) s (fun t => Executed q (seqPc s.m q + 8) [Reg.TC_SEQ_SEM q n, Reg.TC_SEQ_CNT_WAIT_CYC q] s.m t ∧ KeepsS q s.m t ∧
        (mget t.seqs q).waiting = none ∧ rd t (Reg.TC_SEQ_SEM q n) = (rd s.m (Reg.TC_SEQ_SEM q n) - c) % 2 ^ 32)) ∧
    (StandsAt s.m q 0x72 w.toNat → bitsAt w.toNat 0 48 = 0 → 0 < bitsAt w.toNat 48 8 → bitsAt w.toNat 48 8 < (if q = 8 then 16 else 64) →
      (∀ e < 6, bitOf (bitsAt w.toNat 48 8) e = true → (engine s.m q e).queue = [] ∧ (engine s.m q e).flight = []) →
      Completes (.fence q w) s (fun t => Executed q (seqPc s.m q + 8) [] s.m t ∧ KeepsS q s.m t))) ∧
  (∀ (q : Fin 9) (w : BitVec 56) (s : State), Powered s →
    let k := bitsAt w.toNat 55 1
    let bs := (List.range (bitsAt w.toNat 43 6)).map (fun b => b + bitsAt w.toNat 49 6)
    (StandsAt s.m q 0x48 w.toNat → bitsAt w.toNat 0 39 = 0 → bitsAt w.toNat 43 6 ≠ 0 → bitsAt w.toNat 49 6 + bitsAt w.toNat 43 6 ≤ 48 →
      bitsAt w.toNat 39 4 ≤ 9 → (q ≠ 8 → k < coresPer s.m ∧ banksBusy s.m q k bs = false) →
      Completes (.lease q w) s (fun t => Executed q (seqPc s.m q + 8) (if q = 8 then [] else bs.map (fun b => Reg.SCR_LEASE q k b)) s.m t ∧ KeepsS q s.m t ∧
        (q ≠ 8 → ∀ b ∈ bs, rd t (Reg.SCR_LEASE q k b) = bitsAt w.toNat 39 4))) ∧
    (∀ gs, rangeOf s.m q w.toNat = some gs → bitsAt w.toNat 51 5 = 0 → bitsAt w.toNat 0 41 = 0 →
      (∀ c op v, (c, op, v) ∈ [(Instr.rclr q w, 0x49, false), (Instr.rset q w, 0x4A, true)] → StandsAt s.m q op w.toNat → allFree s.m q gs = true →
        Completes c s (fun t => Executed q (seqPc s.m q + 8) (gs.map (fun g => readyBit q g)) s.m t ∧ KeepsS q s.m t ∧ ∀ g ∈ gs, ready t q g = v)) ∧
      (StandsAt s.m q 0x4B w.toNat → allReady s.m q gs = true → Completes (.rwait q w) s (fun t => Executed q (seqPc s.m q + 8) [] s.m t ∧ KeepsS q s.m t)))) ∧
  (∀ (p : Fin 8) (w : BitVec 56) (s : State), Powered s → bitsAt w.toNat 0 46 = 0 →
    let n := sReg s.m p (bitsAt w.toNat 46 5)
    let d := bitsAt w.toNat 51 5
    n < 1024 → lockOwner s.m n = 0x58 + p →
    (StandsAt s.m p 0x73 w.toNat → rd s.m (Reg.LOCK_STATE_HOLDER n) = 0 → rd s.m (Reg.LOCK_STATE_ABANDONED n) = 0 →
      Completes (.locka p w) s (fun t => Executed p (seqPc s.m p + 8) [Reg.LOCK_STATE_HOLDER n] s.m t ∧ SetsS p d 0 s.m t ∧ rd t (Reg.LOCK_STATE_HOLDER n) = 0x58 + p)) ∧
    (StandsAt s.m p 0x74 w.toNat → rd s.m (Reg.LOCK_STATE_HOLDER n) = 0x58 + p →
      Completes (.lockr p w) s (fun t => Executed p (seqPc s.m p + 8) [Reg.LOCK_STATE_HOLDER n] s.m t ∧ SetsS p d 0 s.m t ∧ rd t (Reg.LOCK_STATE_HOLDER n) = 0)) ∧
    (StandsAt s.m p 0x75 w.toNat → rd s.m (Reg.LOCK_STATE_HOLDER n) = 0x58 + p →
      Completes (.lockc p w) s (fun t => Executed p (seqPc s.m p + 8) [Reg.LOCK_STATE_ABANDONED n] s.m t ∧ SetsS p d 0 s.m t ∧ rd t (Reg.LOCK_STATE_ABANDONED n) = 0)))

/-- Where a sequencer stands at the word, with its reserved fields zero: PCOMP and RITEM of a routine that is no replay, with
nothing presented again, take the oldest entry of their FIFO where it is of the routine's class, into s[rd] and s[rd+1]; PIN
takes the Partner's oldest chunk notice. RREL of a held range slot frees it. RESULT without payload for an item of the partition
commits, and one with payload joins the DMA queue; it commits when its payload has been read whole: an item without status is
OK, or LATE behind its turn deadline, or FAILED_DATA with reason 0 where the RESULT says so. A HINT with a wrong lead or no core
is dropped and counted; a good one is counted, and opens a window on a HINTED partition; on the Partner engine it does nothing.
(R328 (10_tensor_instructions.md); R330 (10_tensor_instructions.md); R331 (10_tensor_instructions.md); R332
(10_tensor_instructions.md); R334 (10_tensor_instructions.md); R338 (10_tensor_instructions.md); R614
(20_hang_reset_and_recovery.md); R646 (21_power_and_thermal.md)) -/
def Obligations.EntriesRecordsAndHints : Prop :=
  (∀ (p : Fin 8) (w : BitVec 56) (n : Notice) (rest : List Notice) (r : Run) (s : State), Powered s → (mget s.m.seqs p).run = some r → r.replayOf = none →
    (mget s.m.recov p).first = [] → bitsAt w.toNat 0 51 = 0 → 0 < bitsAt w.toNat 51 5 → bitsAt w.toNat 51 5 < 31 → tagLc s.m n.tag = (r.kind == 0) →
    let got (t : Mach) : Prop := sReg t p (bitsAt w.toNat 51 5) = n.lo % 2 ^ 64 ∧ sReg t p (bitsAt w.toNat 51 5 + 1) = n.hi % 2 ^ 64 ∧
      (mget t.seqs p).taken = (mget s.m.seqs p).taken ++ [n] ∧ rd t (Reg.TC_SEQ_PC p) = (seqPc s.m p + 8) % 2 ^ 32 ∧
      RegsKept [Reg.TC_SEQ_PC p, Reg.TC_SEQ_CNT_INSTR p, Reg.TC_SEQ_FIFO_LEVEL_PCOMP p, Reg.TC_SEQ_FIFO_LEVEL_RITEM p] s.m t ∧ MemKept s.m t
    (StandsAt s.m p 0x78 w.toNat → mget s.m.comps p = n :: rest → tagCamera s.m n.tag = true →
      Completes (.pcomp p w) s (fun t => got t ∧ mget t.comps p = rest ∧ t.rnotes = s.m.rnotes)) ∧
    (StandsAt s.m p 0x79 w.toNat → mget s.m.rnotes p = n :: rest → tagCamera s.m n.tag = false →
      Completes (.ritem p w) s (fun t => got t ∧ mget t.rnotes p = rest ∧ t.comps = s.m.comps))) ∧
  (∀ (w : BitVec 56) (n : Notice) (rest : List Notice) (s : State), Powered s → StandsAt s.m 8 0x7B w.toNat → bitsAt w.toNat 0 51 = 0 → 0 < bitsAt w.toNat 51 5 →
    bitsAt w.toNat 51 5 < 31 → mget s.m.rnotes 8 = n :: rest → Completes (.pin w) s (fun t => mget t.rnotes 8 = rest ∧
      sReg t 8 (bitsAt w.toNat 51 5) = n.lo % 2 ^ 64 ∧ sReg t 8 (bitsAt w.toNat 51 5 + 1) = n.hi % 2 ^ 64 ∧
      RegsKept [Reg.TC_SEQ_PC 8, Reg.TC_SEQ_CNT_INSTR 8] s.m t ∧ MemKept s.m t)) ∧
  (∀ (p : Fin 8) (w : BitVec 56) (e : List Byte) (s : State), Powered s → StandsAt s.m p 0x7A w.toNat → bitsAt w.toNat 51 5 = 0 → bitsAt w.toNat 0 41 = 0 →
    let i := sReg s.m p (bitsAt w.toNat 46 5)
    let v := sReg s.m p (bitsAt w.toNat 41 5)
    streamEntry? s.m i = some e → strCamera e = false → strPart e = p → v < 128 → slotHeld s.m i (v % 64) (v / 64) = true →
    Completes (.rrel p w) s (fun t => slotHeld t i (v % 64) (v / 64) = false ∧ rd t (Reg.TC_SEQ_PC p) = (seqPc s.m p + 8) % 2 ^ 32 ∧
      t.seqs = s.m.seqs ∧ MemKept s.m t)) ∧
  (∀ (p : Fin 8) (w : BitVec 56) (it : Item) (s : State), Powered s → StandsAt s.m p 0x7C w.toNat → bitsAt w.toNat 0 41 = 0 →
    let n := sReg s.m p (bitsAt w.toNat 51 5) % 2 ^ 32
    let x := sReg s.m p (bitsAt w.toNat 42 5)
    let st : Status := if x % 16 = 3 then .failedData else if it.lc = true ∧ it.turnEnd.isSome = true then .late else .ok
    lookup s.m.items n = some it → it.part = p → it.fixed = none → it.verdict ≠ some false → pastDeadline s.m n = false → (x % 16 = 0 ∨ x % 16 = 3) →
    bitsAt x 4 12 = 0 → n ∉ (mget s.m.seqs p).results → n ∉ (mget s.m.seqs p).commits → (engine s.m p 4).queue.length < 16 →
    (bitsAt w.toNat 41 1 = 1 → bitsAt w.toNat 47 4 = 0 → Completes (.result p w) s (fun t => GotStatus n st 0 t ∧ MemKept s.m t)) ∧
    (bitsAt w.toNat 41 1 = 0 → Completes (.result p w) s (fun t => Dispatched p 4 0x7C w.toNat [tField s.m p w.toNat 47] [n, x] s.m t ∧
      (mget t.seqs p).results = (mget s.m.seqs p).results ++ [n]))) ∧
  (∀ (p : Fin 8) (o : EngOp) (rest : List EngOp) (it : Item) (bs : List Byte) (s : State), Powered s → (engine s.m p 4).flight = o :: rest → o.opcode = 0x7C →
    payRead p o s.m = (bs, 0, s.m) → (mget s.m.recov p).killing = none →
    lookup s.m.items (o.vals.headD 0) = some it → it.fixed = none → it.verdict ≠ some false → pastDeadline s.m (o.vals.headD 0) = false →
    bs.length ≤ qPaySlot s.m it.queue → Completes (.resultCommit p) s (fun t => (engine t p 4).flight = rest ∧ MemKept s.m t ∧
      GotStatus (o.vals.headD 0) (if o.vals.getD 1 0 % 16 = 3 then .failedData else if it.lc = true ∧ it.turnEnd.isSome = true then .late else .ok) 0 t)) ∧
  (∀ (w : BitVec 56) (s : State), Powered s → StandsAt s.m 8 0x7E w.toNat → bitsAt w.toNat 0 46 = 0 →
    Completes (.hint 8 w) s (fun t => Executed 8 (seqPc s.m 8 + 8) [] s.m t ∧ KeepsS 8 s.m t)) ∧
  (∀ (p : Fin 8) (q : Fin 9) (w : BitVec 56) (s : State), q.val = p.val → Powered s → StandsAt s.m p 0x7E w.toNat → bitsAt w.toNat 0 46 = 0 →
    let bad := bitsAt w.toNat 48 8 < 10 ∨ 200 < bitsAt w.toNat 48 8 ∨ bitsAt w.toNat 46 2 = 0
    Completes (.hint q w) s (fun t => KeepsS p s.m t ∧ MemKept s.m t ∧ rd t (Reg.TC_SEQ_PC p) = (seqPc s.m p + 8) % 2 ^ 32 ∧
      (bad → rd t (Reg.TC_SEQ_CNT_HINT_DROP p) = min (2 ^ 32 - 1) (rd s.m (Reg.TC_SEQ_CNT_HINT_DROP p) + 1) ∧ (mget t.pparts p).wins = (mget s.m.pparts p).wins) ∧
      (¬ bad → rd t (Reg.TC_PWR_CNT_HINT p) = min (2 ^ 32 - 1) (rd s.m (Reg.TC_PWR_CNT_HINT p) + 1) ∧
        (hinted s.m p = true → ((mget t.pparts p).wins).length = ((mget s.m.pparts p).wins).length + 1))))

/-- A step that the spacing allows ungates one more column group of an array that ramps up, which is WARM at the eighth, and gates
one more of an array that ramps down with an empty queue, which is COLD behind the last. A WARM array that has had no work for
IDLE_HOLD cycles, with HOLD_WARM 0, begins to ramp down. The head of an array queue that raises no exception and that no
condition of R269 holds leaves the queue and is in flight for its exact cycle count; memory stays. Residue logic that is due
comes up at an allowed step. A write of TC_CORE_CHK_CTRL sets TOL and LOCALISE. (R265 (08_tensor_core_array.md); R266
(08_tensor_core_array.md); R267 (08_tensor_core_array.md); R269 (08_tensor_core_array.md); R271 (08_tensor_core_array.md); R482
(16_arithmetic_fault_detection.md); R483 (16_arithmetic_fault_detection.md); R498 (16_arithmetic_fault_detection.md)) -/
def Obligations.ArraysRampAndIssue : Prop :=
  (∀ (p : Fin 8) (k : Fin 2) (s : State), Powered s → k < coresPer s.m → stepAllowed s.m p k = true →
    let n := rd s.m (Reg.TC_CORE_STATUS_RAMP_STEP p k)
    (rd s.m (Reg.TC_CORE_STATUS_RAMP_STATE p k) = 1 → n < 8 → Completes (.arrayRampStep p k) s (fun t =>
      rd t (Reg.TC_CORE_STATUS_RAMP_STEP p k) = n + 1 ∧ rd t (Reg.TC_CORE_STATUS_RAMP_STATE p k) = (if n = 7 then 2 else 1) ∧
      RegsKept [Reg.TC_CORE_STATUS_RAMP_STEP p k, Reg.TC_CORE_STATUS_RAMP_STATE p k] s.m t ∧ MemKept s.m t ∧ t.engines = s.m.engines)) ∧
    (rd s.m (Reg.TC_CORE_STATUS_RAMP_STATE p k) = 3 → (engine s.m p k).queue = [] → Completes (.arrayRampStep p k) s (fun t =>
      rd t (Reg.TC_CORE_STATUS_RAMP_STEP p k) = n - 1 ∧ rd t (Reg.TC_CORE_STATUS_RAMP_STATE p k) = (if n ≤ 1 then 0 else 3) ∧
      MemKept s.m t ∧ t.engines = s.m.engines))) ∧
  (∀ (p : Fin 8) (k : Fin 2) (at0 : Nat) (s : State), Powered s → rd s.m (Reg.TC_CORE_STATUS_RAMP_STATE p k) = 2 → (engine s.m p k).queue = [] →
    (engine s.m p k).flight = [] → rd s.m (Reg.TC_CORE_CTRL_HOLD_WARM p k) = 0 → (coreSt s.m p k).idleAt = some at0 →
    at0 + cyclesNs s.m p (rd s.m (Reg.TC_CORE_CTRL_IDLE_HOLD p k)) ≤ now s.m →
    Completes (.arrayIdleTimeout p k) s (fun t => rd t (Reg.TC_CORE_STATUS_RAMP_STATE p k) = 3 ∧ OnlyRegs [Reg.TC_CORE_STATUS_RAMP_STATE p k] s.m t)) ∧
  (∀ (q : Fin 9) (k : Fin 2) (o : EngOp) (rest : List EngOp) (s : State), Powered s → (engine s.m q k).queue = o :: rest →
    mmaFault s.m q k o = none → mmaHeld s.m q k (mmaArgs o) = 0 → Completes (.mmaIssue q k) s (fun t =>
      (engine t q k).queue = rest ∧ (∃ j, (engine t q k).flight = [j] ∧ j.descs = o.descs ∧ j.vals = o.vals ∧ j.word = o.word ∧ j.pc = o.pc ∧
        j.issued = now s.m ∧ j.cycles = mmaCost s.m q k (mmaArgs o) ∧ j.ends = now s.m + cyclesNs s.m q (mmaCost s.m q k (mmaArgs o))) ∧
      MemKept s.m t ∧ t.seqs = s.m.seqs)) ∧
  (∀ (p : Fin 8) (k : Fin 2) (s : State), Powered s → residueDue s.m p k = true → rd s.m (Reg.TC_CORE_CHK_STATUS_RESIDUE_ON p k) = 0 →
    stepAllowed s.m p k = true → Completes (.residueLogicUp p k) s (fun t => rd t (Reg.TC_CORE_CHK_STATUS_RESIDUE_ON p k) = 1 ∧
      (coreSt t p k).lastStep = some (now s.m) ∧ RegsKept [Reg.TC_CORE_CHK_STATUS_RESIDUE_ON p k] s.m t ∧ MemKept s.m t)) ∧
  (∀ (who : Requester) (p : Fin 8) (k : Fin 2) (v : Word) (s : State), Powered s → MayWrite s.m who (Reg.TC_CORE_CHK_CTRL_TOL p k) .seqfwHcMi →
    Completes (.chkCtrlWrite who p k v) s (fun t => rd t (Reg.TC_CORE_CHK_CTRL_TOL p k) = bitsAt v.toNat 0 12 ∧
      rd t (Reg.TC_CORE_CHK_CTRL_LOCALISE p k) = bitsAt v.toNat 12 1 ∧ MemKept s.m t ∧
      RegsKept [Reg.TC_CORE_CHK_CTRL_TOL p k, Reg.TC_CORE_CHK_CTRL_LOCALISE p k, Reg.TC_CORE_CHK_STATUS_RESIDUE_CAUSE p k,
        Reg.TC_CORE_CHK_STATUS_RESIDUE_ON p k, Reg.TC_CORE_CNT_RES_CYC p k] s.m t))

/-- In a part without a damaged word: an array instruction that is due and whose tiles all pass their checks leaves flight; its rows
and statistics stand in whole words of scratch, the granules it wrote are ready, its semaphore has gone up, and a core counts it
with its cycles. A vector instruction that nothing holds issues; one that is due and agrees with its copy completes with its
effect, its granules ready. A copy whose granules allow issues; one that has moved every row completes, its destination's
granules ready; a GRID leaves for the Caller. An ECC word that waits in a bank's queue takes the poison code. (R239
(07_seams.md); R252 (08_tensor_core_array.md); R253 (08_tensor_core_array.md); R259 (08_tensor_core_array.md); R273
(08_tensor_core_array.md); R277 (08_tensor_core_array.md); R325 (10_tensor_instructions.md); R327 (10_tensor_instructions.md);
R333 (10_tensor_instructions.md); R337 (10_tensor_instructions.md); R367 (11_scratchpad.md)) -/
def Obligations.EngineInstructionsComplete : Prop :=
  (∀ (q : Fin 9) (k : Fin 2) (o : EngOp) (rest : List EngOp) (s : State), Powered s → s.m.bad = [] → (engine s.m q k).flight = o :: rest → o.ends ≤ now s.m →
    (q ≠ 8 → (mget s.m.recov q).detect = none ∧ (mget s.m.recov q).killing = none) →
    let a := mmaArgs o
    (∀ gn ∈ granulesOf a.writes, gn < 2 ^ 14) →
    let ts := mmaTiles a (mmaWs s.m q k)
    let tiles := ts.zipIdx.map (fun t => (t.1, upsetAt [] t.2))
    let g := seqBytes s.m q
    (q = 8 → failingTiles { g := g, a := a, tiles := tiles } {} = []) →
    (q ≠ 8 → failingTiles { g := g, a := a, tiles := tiles, tol := rd s.m (Reg.TC_CORE_CHK_CTRL_TOL q k) }
      { ws := mmaWs s.m q k, bypass := rdb s.m (Reg.TC_CORE_CHK_STATUS_CHECK_BYPASSED q k),
        residue := rdb s.m (Reg.TC_CORE_CHK_STATUS_RESIDUE_ON q k), operand := fun j => (ts[j]?).bind (tileDamage s.m q a) } = []) →
    Completes (.mmaComplete q k []) s (fun t => (engine t q k).flight = rest ∧
      (∀ x, rb t x = rb (writeWords q ((mmaRun g a (injects tiles)).rows ++
        (a.s.map (fun d => ((dBase d : Int), (mmaRun g a (injects tiles)).stats.flatMap (leBytes 4)))).toList) s.m) x) ∧
      (∀ gn ∈ granulesOf a.writes, ready t q gn = true) ∧
      (bitsAt o.word 15 4 ≠ 0 → rd t (Reg.TC_SEQ_SEM q (bitsAt o.word 15 4)) = min (2 ^ 32 - 1) (rd s.m (Reg.TC_SEQ_SEM q (bitsAt o.word 15 4)) + 1)) ∧
      (q ≠ 8 → rd t (Reg.TC_CORE_CNT_ARRAY q k) = min (2 ^ 32 - 1) (rd s.m (Reg.TC_CORE_CNT_ARRAY q k) + 1) ∧
        rd t (Reg.TC_CORE_LAST_CYCLES q k) = o.cycles % 2 ^ 32))) ∧
  (∀ (q : Fin 9) (k : Fin 2) (o : EngOp) (rest : List EngOp) (s : State), Powered s → (engine s.m q (2 + k)).queue = o :: rest →
    vecFault s.m q k o = none → vecReady s.m q k o = true → Completes (.vectorIssue q k) s (fun t => (engine t q (2 + k)).queue = rest ∧
      (∃ j, (engine t q (2 + k)).flight = (engine s.m q (2 + k)).flight ++ [j] ∧ j.descs = o.descs ∧ j.word = o.word ∧ j.issued = now s.m ∧
        j.cycles = vecCycles (q.val == 8) o) ∧ MemKept s.m t ∧ t.seqs = s.m.seqs)) ∧
  (∀ (q : Fin 9) (k : Fin 2) (o : EngOp) (rest : List EngOp) (s : State), Powered s → s.m.bad = [] → takeDue (now s.m) (engine s.m q (2 + k)).flight = some (o, rest) →
    (q ≠ 8 → (mget s.m.recov q).detect = none ∧ (mget s.m.recov q).killing = none) →
    (∀ gn ∈ granulesOf (vecWrites o), gn < 2 ^ 14) → (o.vals.getD (if o.opcode = 0x54 then 0 else 1) 0 = 0 ∨ o.opcode ≠ 0x53 ∧ o.opcode ≠ 0x54) →
    Completes (.vectorComplete q k none) s (fun t => (engine t q (2 + k)).flight = rest ∧ (∀ x, rb t x = rb (vecEffect q k o false s.m) x) ∧
      (∀ gn ∈ granulesOf (vecWrites o), ready t q gn = true) ∧
      (q ≠ 8 → rd t (Reg.TC_CORE_CNT_VECTOR q k) = min (2 ^ 32 - 1) (rd s.m (Reg.TC_CORE_CNT_VECTOR q k) + 1)))) ∧
  (∀ (q : Fin 9) (o : EngOp) (rest : List EngOp) (s : State), Powered s → (engine s.m q 4).queue = o :: rest →
    (if o.opcode = 0x60 then copyFault s.m q o else payFault s.m q o) = none → allReady s.m q (granulesOf (dmaReads o)) = true →
    writable s.m q (granulesOf (dmaWrites o)) = true → Completes (.copyIssue q) s (fun t => (engine t q 4).queue = rest ∧
      (∃ j, (engine t q 4).flight = (engine s.m q 4).flight ++ [j] ∧ j.descs = o.descs ∧ j.word = o.word) ∧ MemKept s.m t ∧ t.seqs = s.m.seqs)) ∧
  (∀ (p : Fin 8) (q : Fin 9) (o : EngOp) (rest : List EngOp) (n : Mach) (s : State), q.val = p.val → Powered s → (engine s.m p 4).flight = o :: rest → o.opcode = 0x60 →
    (mget s.m.recov p).killing = none → copyHeld s.m o.src = false → copyHeld s.m o.dst = false → wholeSlot s.m o.src = none → (∀ gn ∈ granulesOf (copyRanges o.dst), gn < 2 ^ 14) →
    (copyOrder o.src o.order).foldl (fun r i => copyOne p o (if dKind o.src = 3 then 7 else 11) i r) (false, s.m) = (false, n) → n = { s.m with mem := n.mem } →
    Completes (.copyComplete q) s (fun t => (engine t p 4).flight = rest ∧ MemKept n t ∧
      (dKind o.dst = 1 → ∀ gn ∈ granulesOf (copyRanges o.dst), ready t p gn = true) ∧
      (bitsAt o.word 41 4 ≠ 0 → rd t (Reg.TC_SEQ_SEM p (bitsAt o.word 41 4)) = min (2 ^ 32 - 1) (rd s.m (Reg.TC_SEQ_SEM p (bitsAt o.word 41 4)) + 1)) ∧
      (∀ b i, wholeSlot s.m o.dst = some (b, i) → linkState s.m b.link ≠ 1 → i ∈ (mget t.boxes b.index).used))) ∧
  (∀ (q : Fin 9) (o : EngOp) (rest : List EngOp) (bs : List Byte) (s : State), Powered s → (engine s.m q 4).flight = o :: rest → o.opcode = 0x7D →
    payRead q o s.m = (bs, 0, s.m) → (mget s.m.recov q).killing = none → Completes (.copyComplete q) s (fun t => (engine t q 4).flight = rest ∧
      t.grids = s.m.grids ++ [{ partner := q.val == 8, tag := o.vals.headD 0, data := bs }] ∧ MemKept s.m t)) ∧
  (∀ (p : Fin 8) (k : Fin 2) (bank : Fin 48) (w : Nat) (rest : List Nat) (s : State), Powered s →
    mget s.m.poisonq ((p.val * 2 + k) * 64 + bank) = w :: rest → Completes (.poisonWriteback p k bank) s (fun t =>
      mget t.poisonq ((p.val * 2 + k) * 64 + bank) = rest ∧ OnlyRegs [] s.m { t with mem := s.m.mem, bad := s.m.bad, soft := s.m.soft, poisonq := s.m.poisonq } ∧
      ∀ x, rb t x = if psaAddr s.m p (w * 32) ≤ x ∧ x < psaAddr s.m p (w * 32) + 32 then 0 else rb s.m x))

/-- Who may write KV_CMD does so while no command is busy and the walker is idle, with nothing waiting: CREATE, INC, DEC, FORK,
TRUNC, DROP, QUERY and EVICT run their operation on the arguments in KV_ARG (of FORK and TRUNC where no page must first be read
from another package): where it succeeds, KV_CMD_STATUS.STATE is 2, REASON is 0 and memory is as the operation leaves it; where
it fails, STATE is 3 with the reason. MAP_REMOTE that succeeds waits for its owner's answer with STATE 1. FETCH ends at once
where nothing is to be read, and else waits with STATE 1. Codes 11 to 15 end with STATE 3 and REASON 0x100. INC, DEC above 1 and
QUERY change a handle's count and read it as R398 and R402 say. (R398 (13_attention_and_kv_pages.md); R399
(13_attention_and_kv_pages.md); R400 (13_attention_and_kv_pages.md); R401 (13_attention_and_kv_pages.md); R402
(13_attention_and_kv_pages.md); R404 (13_attention_and_kv_pages.md); R405 (13_attention_and_kv_pages.md); R410
(13_attention_and_kv_pages.md); R416 (13_attention_and_kv_pages.md); R417 (13_attention_and_kv_pages.md)) -/
def Obligations.KvCommandsRun : Prop :=
  (∀ (who : Requester) (p : Fin 8) (s : State), Powered s → MayWrite s.m who (Reg.KV_CMD_CMD p) .seqfwPfHcMi →
    rd s.m (Reg.KV_CMD_STATUS_STATE p) ≠ 1 → kvIdle s.m p = true → (mget s.m.kvs p).inbox = [] →
    let v := rd s.m (Reg.KV_ARG p 0)
    let arg := rd s.m (Reg.KV_ARG p 1)
    let begun (code : Nat) (m0 : Mach) : Prop := m0 = { s.m with regs := m0.regs, kvs := m0.kvs } ∧
      RegsKept [Reg.KV_CMD_STATUS_STATE p, Reg.KV_CMD_STATUS_REASON p] s.m m0 ∧
      mget m0.kvs p = { mget s.m.kvs p with inbox := [], pending := none, op := .cmd code } ∧ ∀ k, k ≠ p → mget m0.kvs k = mget s.m.kvs k
    (∀ c code op, (c, code, op) ∈ ([(Instr.kvCmdCreate who p, 1, kvCreate p), (Instr.kvCmdInc who p, 2, kvRefOp p 0 v arg (fun _ => walkOk)),
        (Instr.kvCmdDec who p, 3, kvRefOp p 1 v arg (fun _ => walkOk)),
        (Instr.kvCmdFork who p, 4, kvRefOp p 2 v arg (fun n m => walkOk (wr (Reg.KV_RES p 0) n m))),
        (Instr.kvCmdTrunc who p, 5, kvRefOp p 3 v arg (fun _ => walkOk)), (Instr.kvCmdDrop who p, 6, kvRefOp p 4 v arg (fun _ => walkOk)),
        (Instr.kvQuery who p, 7, kvQuery p), (Instr.kvEvict who p, 10, kvEvict p)] : List (Instr × Nat × (Mach → Walk))) →
      (code = 4 ∨ code = 5 → (∀ n, begun code n → withHandle p v (fun _ m => (some 0, m)) n = (some 0, n)) ∧
        anyAbsent s.m p (readHandle s.m p (v % 4096)) (splitPtes (readHandle s.m p (v % 4096)) arg) = false) →
      Completes c s (fun t => ∃ m0, begun code m0 ∧
        ((op m0).1 = none → rd t (Reg.KV_CMD_STATUS_STATE p) = 2 ∧ rd t (Reg.KV_CMD_STATUS_REASON p) = 0 ∧ MemKept (op m0).2 t ∧
          ∀ i < 4, rd t (Reg.KV_RES p i) = rd (op m0).2 (Reg.KV_RES p i)) ∧
        (∀ r, (op m0).1 = some r → r < 0x100 → rd t (Reg.KV_CMD_STATUS_STATE p) = 3 ∧ rd t (Reg.KV_CMD_STATUS_REASON p) = r))) ∧
    Completes (.kvMapRemote who p) s (fun t => ∃ m0, begun 8 m0 ∧ ((kvMap p m0).1 = none → t = (kvMap p m0).2) ∧
      (∀ r, (kvMap p m0).1 = some r → r < 0x100 → rd t (Reg.KV_CMD_STATUS_STATE p) = 3 ∧ rd t (Reg.KV_CMD_STATUS_REASON p) = r)) ∧
    Completes (.kvFetch who p) s (fun t => ∃ m0, begun 9 m0 ∧
      let r := pteRange p (fun h js => startReads p h js) m0
      (r.1 = none → (mget r.2.kvs p).reads = [] → rd t (Reg.KV_CMD_STATUS_STATE p) = 2 ∧ rd t (Reg.KV_RES p 0) = 0) ∧
      (r.1 = none → (mget r.2.kvs p).reads ≠ [] → (mget t.kvs p).op = .fetchCmd 9 ∧ (mget t.kvs p).reads = (mget r.2.kvs p).reads) ∧
      (∀ c, r.1 = some c → c < 0x100 → rd t (Reg.KV_CMD_STATUS_STATE p) = 3 ∧ rd t (Reg.KV_CMD_STATUS_REASON p) = c)) ∧
    ∀ code : Fin 5, Completes (.kvCmdUndefined who p code) s (fun t => rd t (Reg.KV_CMD_STATUS_STATE p) = 3 ∧
      rd t (Reg.KV_CMD_STATUS_REASON p) = 0x100 ∧ RegsKept [Reg.KV_CMD_STATUS_STATE p, Reg.KV_CMD_STATUS_REASON p] s.m t ∧ MemKept s.m t)) ∧
  (∀ (p : Nat) (h : Handle) (m : Mach), h.ref < 65535 → kvInc p h m = (none, putHandle p { h with ref := h.ref + 1 } m)) ∧
  (∀ (p : Nat) (h : Handle) (m : Mach), 1 < h.ref → kvDec p h m = (none, putHandle p { h with ref := h.ref - 1 } m))

/-- At an idle walker with nothing waiting, the head of its queue that raises no exception and whose granules allow is in flight. An
instruction in flight whose work succeeds leaves flight, its destination granules are ready and its semaphore has gone up. The
oldest page that waits to be zeroed is zeroed and joins its sub-pool's free list, which counts one more. When the pool has been
built, KV_STATUS.ENABLED is 1, or 0 for a partition without a pool. A reference message of another walker for a busy one joins
what waits at its boundary. A page read whose link has been down for KV_REMOTE_TIMEOUT is given up: its mirror is let go, and
the operation keeps UNREACHABLE. (R388 (13_attention_and_kv_pages.md); R389 (13_attention_and_kv_pages.md); R393
(13_attention_and_kv_pages.md); R395 (13_attention_and_kv_pages.md); R404 (13_attention_and_kv_pages.md); R406
(13_attention_and_kv_pages.md); R410 (13_attention_and_kv_pages.md); R413 (13_attention_and_kv_pages.md); R437
(14_phase_roles_and_sash_links.md)) -/
def Obligations.KvWalkerGoesOn : Prop :=
  (∀ (p : Fin 8) (o : EngOp) (rest : List EngOp) (s : State), Powered s → kvIdle s.m p = true → (mget s.m.kvs p).inbox = [] → (mget s.m.kvs p).pending = none →
    (engine s.m p 5).queue = o :: rest → kvDecode s.m p o = none → kvPends s.m p o = false → allReady s.m p (granulesOf (kvReads o)) = true →
    writable s.m p (granulesOf (kvWrites o)) = true → Completes (.kvOpComplete p) s (fun t => (mget t.kvs p).op = .instr ∧ (engine t p 5).queue = rest ∧
      (∃ j, (engine t p 5).flight = (engine s.m p 5).flight ++ [j] ∧ j.descs = o.descs ∧ j.vals = o.vals ∧ j.word = o.word) ∧ MemKept s.m t)) ∧
  (∀ (p : Fin 8) (o : EngOp) (rest : List EngOp) (n : Mach) (s : State), Powered s → rd s.m (Reg.TC_RECOV_STATUS_STATE p) ≠ 3 → (mget s.m.kvs p).journal = none →
    (mget s.m.kvs p).op = .instr → (engine s.m p 5).flight = o :: rest → instrWork p o s.m = some (none, n) → engine n p 5 = { flight := o :: rest } →
    (mget n.kvs p).inbox = [] → (mget n.kvs p).pending = none → (mget n.recov p).killing = none → (∀ g ∈ granulesOf (kvWrites o), g < 2 ^ 14) →
    Completes (.kvOpComplete p) s (fun t => (engine t p 5).flight = rest ∧ (mget t.kvs p).op = .idle ∧ MemKept n t ∧
      (∀ g ∈ granulesOf (kvWrites o), ready t p g = true) ∧
      (o.kvSem ≠ 0 → rd t (Reg.TC_SEQ_SEM p o.kvSem) = min (2 ^ 32 - 1) (rd n (Reg.TC_SEQ_SEM p o.kvSem) + 1)))) ∧
  (∀ (p : Fin 8) (i : Nat) (rest : List Nat) (s : State), Powered s → s.m.bad = [] → (mget s.m.kvs p).zeroing = i :: rest → Completes (.kvPageZeroComplete p) s (fun t =>
      (mget t.kvs p).zeroing = rest ∧ (let free := if kvIsTemporal s.m p i then Reg.KV_POOL_TFREE p else Reg.KV_POOL_FREE p
        rd t free = min (2 ^ 24 - 1) (rd s.m free + 1) ∧ RegsKept [free, Reg.KV_CNT_FREED p] s.m t) ∧
      ∀ x, ¬ (kvDesc s.m p i ≤ x ∧ x < kvDesc s.m p i + 8) → rb t x = if kvPage s.m p i ≤ x ∧ x < kvPage s.m p i + 65536 then 0 else rb s.m x)) ∧
  (∀ (p : Fin 8) (s : State), Powered s → (mget s.m.kvs p).building = true → s.m.ldr.trained = true → rd s.m (Reg.TC_RECOV_STATUS_STATE p) ≠ 3 →
    (mget s.m.kvs p).journal = none → (mget s.m.kvs p).inbox = [] → (mget s.m.kvs p).pending = none → (mget s.m.kvs p).op = .idle → (engine s.m p 5).queue = [] →
    Completes (.kvPoolZeroed p) s (fun t => (mget t.kvs p).building = false ∧ rd t (Reg.KV_STATUS_ENABLED p) = b2n (kvPages s.m p != 0) ∧ rd t (Reg.KV_STATUS_ROLLFWD p) = 0 ∧
      (kvPages s.m p = 0 → MemKept s.m t))) ∧
  (∀ (src p : Fin 8) (g : KvMsg) (rest : List KvMsg) (s : State), Powered s → (mget s.m.kvs src).msgs = g :: rest → g.link = 4 → g.part = p.val →
    (mget s.m.kvs p).inbox = [] → rd s.m (Reg.TC_RECOV_STATUS_STATE p) ≠ 3 → (mget s.m.kvs p).building = false → kvIdle s.m p = false →
    Completes (.referenceMessageRx src p) s (fun t => (mget t.kvs p).inbox = [.ref src g] ∧ t.regs = s.m.regs ∧ MemKept s.m t ∧
      ∀ k, k ≠ p.val → mget t.kvs k = mget s.m.kvs k)) ∧
  (∀ (p : Fin 8) (x y : KvRead) (rest : List KvRead) (at0 : Nat) (s : State), Powered s → (mget s.m.kvs p).reads = x :: y :: rest → x.downAt = some at0 →
    at0 ≤ now s.m → 1000 * rd s.m (Reg.KV_REMOTE_TIMEOUT p) ≤ now s.m - at0 → (∀ z ∈ y :: rest, z.downAt = none ∧ z.req ≠ x.req) →
    Completes (.kvRemoteTimeoutExpiry p) s (fun t => (mget t.kvs p).reads = y :: rest ∧ (mget t.kvs p).zeroing = (mget s.m.kvs p).zeroing ++ [x.mirror] ∧
      ((mget s.m.kvs p).fail = none → (mget t.kvs p).fail = some 0x000C) ∧ t.regs = s.m.regs))

/-- In a part without a damaged word: the host cluster's or the island's write to scratch that is up stores its bytes there, or is
refused, counted and logged while a granule is reserved or pinned; the island's to the Partner SRAM stores there. Their read
returns the bytes and counts what was corrected. A wipe that has had its time ends and is counted; in a partition reset nothing
else changes. A forensic hold ends when the lead island core releases it, or after 1 s, which is noted: HELD and HOLD read 0 and
its length is in HOLD_MS. (R35 (01_levels_and_subsystems.md); R347 (11_scratchpad.md); R350 (11_scratchpad.md); R356
(11_scratchpad.md); R364 (11_scratchpad.md); R367 (11_scratchpad.md); R368 (11_scratchpad.md); R369 (11_scratchpad.md); R372
(11_scratchpad.md)) -/
def Obligations.ScratchAccessesAndWipes : Prop :=
  (∀ (who : Requester) (addr : Nat) (data : List Byte) (s : State), Powered s → awake s.m who = true → s.m.bad = [] → data ≠ [] →
    (∀ p psa, scrOf s.m addr data.length = some (p, psa) → isH who = true → scrDown s.m p = false →
      (allFree s.m p (granules psa data.length) = true → Completes (.scratchHWrite who addr data) s (fun t => Stored addr data s.m t ∧ t.regs = s.m.regs)) ∧
      (allFree s.m p (granules psa data.length) = false → Completes (.scratchHWrite who addr data) s (fun t => Output.busError who ∈ t.out ∧
        Logged 0x5E s.m t ∧ rd t (Reg.SCR_CNT_H_REFUSED p) = min (2 ^ 32 - 1) (rd s.m (Reg.SCR_CNT_H_REFUSED p) + 1) ∧ t.seqs = s.m.seqs))) ∧
    (inSram addr data.length = true → (∃ b, who = .mi b) → Completes (.scratchHWrite who addr data) s (fun t => Stored addr data s.m t ∧ t.regs = s.m.regs))) ∧
  (∀ (who : Requester) (addr len ce : Nat) (s : State), Powered s → awake s.m who = true → isH who = true → s.m.bad = [] → len ≠ 0 →
    (∀ p psa, scrOf s.m addr len = some (p, psa) → scrDown s.m p = false → Completes (.scratchHRead who addr len ce []) s (fun t =>
      t.out = .readBytes who (readMem s.m addr len) :: s.m.out ∧ rd t (Reg.SCR_CNT_CE p) = min (2 ^ 32 - 1) (rd s.m (Reg.SCR_CNT_CE p) + ce) ∧
      RegsKept [Reg.SCR_CNT_CE p] s.m t ∧ MemKept s.m t)) ∧
    (inSram addr len = true → Completes (.scratchHRead who addr len ce []) s (fun t => t = { s.m with out := .readBytes who (readMem s.m addr len) :: s.m.out }))) ∧
  (∀ (p : Fin 8) (s : State), Powered s → rd s.m (Reg.SCR_STATUS_WIPING p) = 1 → (mget s.m.recov p).wipeAt + cyclesNs s.m p 8800 ≤ now s.m →
    (rd s.m (Reg.TC_RECOV_STATUS_STATE p) = 3 → Completes (.wipeComplete p) s (fun t => rd t (Reg.SCR_STATUS_WIPING p) = 0 ∧
      rd t (Reg.SCR_CNT_WIPES p) = min (2 ^ 32 - 1) (rd s.m (Reg.SCR_CNT_WIPES p) + 1) ∧ OnlyRegs [Reg.SCR_STATUS_WIPING p, Reg.SCR_CNT_WIPES p] s.m t)) ∧
    (rd s.m (Reg.TC_RECOV_STATUS_STATE p) ≠ 3 → (mget s.m.recov p).switch = .none → (mget s.m.recov p).restart = none →
      Completes (.wipeComplete p) s (fun t => rd t (Reg.SCR_STATUS_WIPING p) = 0 ∧ rd t (Reg.SCR_CNT_WIPES p) = min (2 ^ 32 - 1) (rd s.m (Reg.SCR_CNT_WIPES p) + 1) ∧
        RegsKept [Reg.SCR_STATUS_WIPING p, Reg.SCR_CNT_WIPES p, Reg.TC_TURN_STATUS_LATE p] s.m t ∧ MemKept s.m t))) ∧
  (∀ (p : Fin 8) (at0 : Nat) (s : State), Powered s → (mget s.m.recov p).forensic = some at0 →
    let ended (t : Mach) : Prop := (mget t.recov p).forensic = none ∧ rd t (Reg.SCR_STATUS_HELD p) = 0 ∧ rd t (Reg.TC_RECOV_STATUS_HOLD p) = 0 ∧
      rd t (Reg.SCR_FORENSIC_HOLD_MS p) = min 65535 ((now s.m - at0) / 1000000)
    (∀ who, MayWrite s.m who (Reg.SCR_FORENSIC_RELEASE p) .leadMi → Completes (.forensicRelease who p) s ended) ∧
    (at0 + 1000000000 ≤ now s.m → Completes (.forensicHoldTimeout p) s (fun t => ended t ∧ rd t (Reg.SCR_FORENSIC_TIMED_OUT p) = 1)))

/-- A master that reaches a whole range of HBM reads its bytes, and writes them where the range is not the loader's: nothing else in
memory changes. While a channel of it is in self-refresh, an access of the host cluster, the island, a DMA engine or Sash waits
and changes nothing else. Refresh changes nothing. A stack's temperature sample shows in its 16 channels, with refresh doubled
above 85 °C and normal below 82 °C. A calibration that has been deferred as long as its limits allow sets CAL_OVERDUE. A patrol
pass past its limit sets SCRUB_STARVED, once, and is logged. (R35 (01_levels_and_subsystems.md); R450 (15_hbm_memory.md); R453
(15_hbm_memory.md); R457 (15_hbm_memory.md); R458 (15_hbm_memory.md); R459 (15_hbm_memory.md); R462 (15_hbm_memory.md); R71
(02_the_pattern.md)) -/
def Obligations.HbmAccessesAndUpkeep : Prop :=
  (∀ (who : Requester) (a : Nat) (s : State), Powered s → awake s.m who = true →
    (∀ n, n ≠ 0 → inHbm s.m a n = true → masterHbm s.m who a n false = true →
      (inRefresh s.m a n = false → Clean s.m a n → Completes (.hbmRead who a n [] []) s (fun t => t = { s.m with out := .readBytes who (readMem s.m a n) :: s.m.out })) ∧
      (inRefresh s.m a n = true → heldMaster who = true → ∀ ce ue, Completes (.hbmRead who a n ce ue) s (fun t =>
        t = { s.m with held := s.m.held ++ [{ who := who, addr := a, len := n, ce := ce, ue := ue }] }))) ∧
    (∀ bs : List Byte, bs ≠ [] → inHbm s.m a bs.length = true → masterHbm s.m who a bs.length true = true → loaderOnly s.m a bs.length = false →
      (inRefresh s.m a bs.length = false → Clean s.m a bs.length → Completes (.hbmWrite who a bs [] []) s (fun t => Stored a bs s.m t ∧ t.regs = s.m.regs ∧ t.out = s.m.out)) ∧
      (inRefresh s.m a bs.length = true → heldMaster who = true → ∀ ce ue, Completes (.hbmWrite who a bs ce ue) s (fun t =>
        t = { s.m with held := s.m.held ++ [{ who := who, write := true, addr := a, len := bs.length, data := bs, ce := ce, ue := ue }] })))) ∧
  (∀ (ch : Fin 32) (s : State), Powered s → Completes (.hbmRefresh ch) s (fun t => t = s.m)) ∧
  (∀ (stack : Fin 2) (temp : Int) (s : State), Powered s → Completes (.hbmTempSample stack temp) s (fun t =>
    (∀ j < 16, rd t (Reg.MEM_TEMP (16 * stack.val + j)) = fieldOf 8 temp ∧
      rd t (Reg.MEM_STATUS_REFRESH_2X (16 * stack.val + j)) =
        if 85 < temp then 1 else if temp < 82 then 0 else rd s.m (Reg.MEM_STATUS_REFRESH_2X (16 * stack.val + j))) ∧
    OnlyRegs ((List.range 16).flatMap (fun j => [Reg.MEM_TEMP (16 * stack.val + j), Reg.MEM_STATUS_REFRESH_2X (16 * stack.val + j)])) s.m t)) ∧
  (∀ (ch : Fin 32) (s : State), Powered s → (mget s.m.chans ch).calDefer ≠ 0 →
    (calDeferTurns s.m ≤ (mget s.m.chans ch).calDefer ∨ 1000000 * calDeferMs s.m ≤ now s.m - (mget s.m.chans ch).deferAt) →
    Completes (.calOverdue ch) s (fun t => rd t (Reg.MEM_STATUS_CAL_OVERDUE ch) = 1 ∧ OnlyRegs [Reg.MEM_STATUS_CAL_OVERDUE ch] s.m t)) ∧
  (∀ (ch : Fin 32) (s : State), Powered s → rd s.m (Reg.MEM_STATUS_STATE ch) = 2 → 1000000000 * scrubLimitS s.m ≤ now s.m - (mget s.m.chans ch).passAt →
    rd s.m (Reg.MEM_STATUS_SCRUB_STARVED ch) = 0 → Completes (.scrubPassTimeout ch) s (fun t => rd t (Reg.MEM_STATUS_SCRUB_STARVED ch) = 1 ∧ Logged 0x51 s.m t ∧
      ∀ f : Fld, f.unlogged → f.key ≠ (Reg.MEM_STATUS_SCRUB_STARVED ch).key → rd t f = rd s.m f))

/-- With a pattern applied and margin tests enabled, when PERIOD_S has passed since the next unit's test last fell due: a
partition's waits for its window, with WAITING_TEMP where its band does not hold; that of a spare that serves no partition runs
at once, and that of a serving spare is skipped. A test that has waited for its band for the limit runs without it. A
partition's test that ends with no failed run sets its last temperature, pass and COOL flags and the ageing that the monitors
show, and the next unit is next; a failed run at −30 mV or +5 % is a failed test, counted and logged. A spare's hard failure
marks it failed. (R494 (16_arithmetic_fault_detection.md); R495 (16_arithmetic_fault_detection.md); R496
(16_arithmetic_fault_detection.md); R650 (21_power_and_thermal.md); R651 (21_power_and_thermal.md)) -/
def Obligations.MarginTestsRun : Prop :=
  (∀ s : State, Powered s → applied s.m = true → rd s.m Reg.SAF_MARGIN_CTRL_ENABLE = 1 → s.m.margin.dueAt = none →
    let u := rd s.m Reg.SAF_MARGIN_STATUS_NEXT
    getD 0 s.m.margin.last u + marginPeriodNs s.m ≤ now s.m →
    (u < 8 → Completes .marginTestDue s (fun t => t.margin.dueAt = some (now s.m) ∧ getD 0 t.margin.last u = now s.m ∧
      rd t Reg.SAF_MARGIN_STATUS_WAITING_TEMP = b2n (!marginBand s.m u) ∧ RegsKept [Reg.SAF_MARGIN_STATUS_WAITING_TEMP] s.m t ∧ MemKept s.m t)) ∧
    (8 ≤ u → spareServes s.m (u - 8) = false → Completes .marginTestDue s (fun t => rd t Reg.SAF_MARGIN_STATUS_RUNNING = 1 ∧ t.margin.dueAt = some (now s.m) ∧
      RegsKept [Reg.SAF_MARGIN_STATUS_RUNNING] s.m t ∧ MemKept s.m t)) ∧
    (8 ≤ u → spareServes s.m (u - 8) = true → Completes .marginTestDue s (fun t => t.margin.dueAt = none ∧ rd t Reg.SAF_MARGIN_STATUS_NEXT = (u + 1) % 10 ∧
      rd t Reg.SAF_MARGIN_STATUS_RUNNING = 0 ∧ MemKept s.m t))) ∧
  (∀ (at0 : Nat) (s : State), Powered s → rd s.m Reg.SAF_MARGIN_STATUS_RUNNING = 0 → s.m.margin.cool = false → s.m.margin.dueAt = some at0 →
    at0 + min 600000000000 (marginPeriodNs s.m) ≤ now s.m → Completes .marginCoolTimeout s (fun t => t.margin = { s.m.margin with cool := true } ∧
      rd t Reg.SAF_MARGIN_STATUS_WAITING_TEMP = 0 ∧ RegsKept [Reg.SAF_MARGIN_STATUS_WAITING_TEMP] s.m t ∧ MemKept s.m t)) ∧
  (∀ (failed : List (Fin 3)) (core : Fin 2) (loc : Option Nat) (sig : Word) (age : Int) (s : State), Powered s → rd s.m Reg.SAF_MARGIN_STATUS_RUNNING = 1 →
    s.m.margin.endAt ≤ now s.m →
    let u := rd s.m Reg.SAF_MARGIN_STATUS_NEXT
    (u < 8 → failed = [] → age ≤ 25 → Completes (.marginTestComplete failed core loc sig age) s (fun t => rd t Reg.SAF_MARGIN_STATUS_RUNNING = 0 ∧
      rd t Reg.SAF_MARGIN_STATUS_NEXT = (u + 1) % 10 ∧ t.margin.dueAt = none ∧ rd t (Reg.SAF_HOT_REC_LAST_PASS u) = 1 ∧
      rd t (Reg.SAF_HOT_REC_LAST_COOL u) = b2n s.m.margin.cool ∧ rd t (Reg.PWR_PART_AGE u) = fieldOf 8 age ∧ t.log = s.m.log ∧ MemKept s.m t)) ∧
    (8 ≤ u → u < 10 → (∃ x ∈ failed, x.val ≠ 1) → Completes (.marginTestComplete failed core loc sig age) s (fun t => Logged 0x10 s.m t ∧
      rd t (spareFailed (u - 8)) = 1 ∧ rd t Reg.SAF_MARGIN_STATUS_NEXT = (u + 1) % 10 ∧
      rd t Reg.SAF_CNT_TEST_FAIL = min (2 ^ 32 - 1) (rd s.m Reg.SAF_CNT_TEST_FAIL + 1))))

/-- A fault of XO_TIME enters the safe state. The loss of the one source in use and present is counted and leaves no source:
HOLDOVER where the time was disciplined, else FREE_RUN, at the last disciplined rate. An edge of PPS_IN of the chosen polarity,
where PPS_IN is named and present: within 1 ms of a whole second its offset is shown (and, where PPS_IN is in use, LOCKED and
the offset is at most 10 µs, the quality stays LOCKED), else it is an outlier, counted; while PPS_IN is absent, an edge that
does not complete four in a row changes no register. A search for a master without a result goes on. A slew below 1 µs ends
LOCKED. A step that is due moves TIME_NOW by minus its amount and every item's deadline with it, and is counted. Trains
re-anchor at the first whole second of new time. (R113 (04_time.md); R114 (04_time.md); R119 (04_time.md); R120 (04_time.md);
R122 (04_time.md); R128 (04_time.md); R129 (04_time.md); R130 (04_time.md); R136 (04_time.md)) -/
def Obligations.TimeSourcesComeAndGo : Prop :=
  (∀ s : State, Powered s → Completes .xoTimeFault s (fun t => Entered .xoTime s.m t ∧ ∀ f : Fld, f.beyond → rd t f = rd s.m f)) ∧
  (∀ (c : Instr) (x : Nat) (s : State), Powered s → (c = .ptpSourceLost ∧ x = 1 ∨ c = .ppsInLost ∧ x = 2 ∧ ∀ a, s.m.time.lastPps = some a → a + 1500000000 ≤ now s.m) →
    sourcePresent s.m x = true → rd s.m Reg.TIME_STATUS_IN_USE = x → (∀ y ∈ namedSources s.m, y ≠ x → sourcePresent s.m y = false) →
    Completes c s (fun t => sourcePresent t x = false ∧ rd t Reg.TIME_STATUS_IN_USE = 0 ∧ rd t Reg.TIME_STATUS_SLEWING = 0 ∧
      rd t Reg.TIME_CNT_SRC_LOSS = min (2 ^ 32 - 1) (rd s.m Reg.TIME_CNT_SRC_LOSS + 1) ∧ tq t = (if s.m.time.disciplined then 1 else 2) ∧
      rd t Reg.TIME_RATE_ADJ = fieldOf 32 s.m.time.rate % 2 ^ 32 ∧ (x = 1 → rd t Reg.TIME_GM_ID = 0) ∧
      ∀ f : Fld, f.unlogged → f.key ∉ [Reg.TIME_STATUS_PTP_PRESENT.key, Reg.TIME_STATUS_PPS_PRESENT.key, Reg.TIME_STATUS_IN_USE.key,
        Reg.TIME_STATUS_SLEWING.key, Reg.TIME_STATUS_TQ.key, Reg.TIME_CNT_SRC_LOSS.key, Reg.TIME_RATE_ADJ.key, Reg.TIME_GM_ID.key] → rd t f = rd s.m f)) ∧
  (∀ (rising : Bool) (s : State), Powered s → rdb s.m Reg.TIME_STATUS_ENABLED = true → rising ≠ ppsInFalling s.m → 2 ∈ namedSources s.m →
    let off := fromSecond ((now s.m : Int) - ppsInDelay s.m)
    (rdb s.m Reg.TIME_STATUS_PPS_PRESENT = true → off.natAbs ≤ 1000000 →
      (rd s.m Reg.TIME_STATUS_IN_USE ≠ 2 → Completes (.ppsInEdge rising) s (fun t => Sets [(Reg.TIME_PPS_IN_OFFSET, fieldOf 32 off % 2 ^ 32)] s.m t ∧
        t.time = { s.m.time with lastPps := some (now s.m), outliers := [] } ∧ MemKept s.m t)) ∧
      (rd s.m Reg.TIME_STATUS_IN_USE = 2 → tq s.m = 0 → off.natAbs ≤ 10000 → s.m.time.step = none → Completes (.ppsInEdge rising) s (fun t => tq t = 0 ∧
        rd t Reg.TIME_PPS_IN_OFFSET = fieldOf 32 off % 2 ^ 32 ∧ t.time.lastPps = some (now s.m) ∧
        RegsKept [Reg.TIME_PPS_IN_OFFSET, Reg.TIME_OFFSET, Reg.TIME_RATE_ADJ] s.m t))) ∧
    (rdb s.m Reg.TIME_STATUS_PPS_PRESENT = true → 1000000 < off.natAbs → s.m.time.outliers.length < 3 → Completes (.ppsInEdge rising) s (fun t =>
      Sets [(Reg.TIME_CNT_PPS_OUTLIER, min (2 ^ 32 - 1) (rd s.m Reg.TIME_CNT_PPS_OUTLIER + 1))] s.m t ∧ t.time.lastPps = s.m.time.lastPps ∧
      t.time.outliers = ((now s.m : Int) - ppsInDelay s.m).toNat :: s.m.time.outliers)) ∧
    (rdb s.m Reg.TIME_STATUS_PPS_PRESENT = false → s.m.time.ppsRun < 3 → Completes (.ppsInEdge rising) s (fun t => t.regs = s.m.regs ∧
      t.time.lastEdge = some (now s.m) ∧ t.time.ppsRun ≤ s.m.time.ppsRun + 1))) ∧
  (∀ s : State, Powered s → Completes .ptpMasterSearchTimeout s (fun t => t = s.m)) ∧
  (∀ s : State, Powered s → rdb s.m Reg.TIME_STATUS_SLEWING = true → s.m.time.offset.natAbs < 10000000 → Completes .slewComplete s (fun t =>
    Sets [(Reg.TIME_STATUS_TQ, 0), (Reg.TIME_STATUS_SLEWING, 0), (Reg.TIME_RATE_ADJ, fieldOf 32 s.m.time.rate % 2 ^ 32)] s.m t ∧ MemKept s.m t)) ∧
  (∀ (x : StepPending) (s : State), Powered s → s.m.time.step = some x → x.atTime ≤ now s.m → Completes .timeStepJump s (fun t =>
    now t = shiftBy (-x.amount) (now s.m) % 2 ^ 64 ∧ rd t Reg.TIME_STATUS_STEP_PENDING = 0 ∧ rd t Reg.TIME_STATUS_STEPPED = 1 ∧
    rd t Reg.TIME_CNT_STEPS = min (2 ^ 32 - 1) (rd s.m Reg.TIME_CNT_STEPS + 1) ∧ t.time.step = none ∧ (rd s.m Reg.TIME_STATUS_IN_USE = x.source → tq t = 0) ∧
    (∀ tag it, lookup s.m.items tag = some it → ∃ n, lookup t.items tag = some n ∧ n.deadline = shiftBy (-x.amount) it.deadline ∧ n.fixed = it.fixed) ∧
    MemKept s.m t)) ∧
  (∀ (r : Nat) (s : State), Powered s → s.m.time.reanchorAt = some r → r ≤ now s.m → Completes .outputReanchor s (fun t =>
    t.time = { s.m.time with reanchorAt := none, oldShift := 0 } ∧ (∀ n < 32, (mget s.m.trigs n).active.mode = 1 → rd t (Reg.TIME_TRIG_STATUS_REANCHOR n) = 1) ∧
    RegsKept (((List.range 32).filter (fun n => (mget s.m.trigs n).active.mode == 1)).map (fun n => Reg.TIME_TRIG_STATUS_REANCHOR n)) s.m t))

/-- With the time unit enabled, a message of layer 2, of the pattern's domain, on the time port: the first Announce, or one of the
best master or of a lower priority vector, sets the best master and TIME_GM_ID; a one-step Sync of the best master while PTP is
in use, LOCKED and within 10 µs shows its offset (arrival stamp less corrected origin and peer delay) and stays LOCKED; a
two-step Sync waits, and its Follow_Up does the same; a Pdelay_Req is answered with its receipt time; a Pdelay response sets the
peer delay. A message of another domain, layer or port is counted in TIME_CNT_PTP_DISCARD and does nothing else. A master port
sends a Sync with its Follow_Up and an Announce with the clockClass of the quality, the time port a Pdelay_Req, each with the
next sequence number. (R119 (04_time.md); R120 (04_time.md); R121 (04_time.md); R123 (04_time.md); R124 (04_time.md)) -/
def Obligations.PtpMessagesAreTaken : Prop :=
  (∀ (msg : PtpMsg) (s : State), Powered s → rdb s.m Reg.TIME_STATUS_ENABLED = true →
    (msg.layer2 = false ∨ msg.domain ≠ timeDomain s.m ∨ (msg.port ≠ timePort s.m ∧ (16 ≤ msg.port ∨ masterPort s.m msg.port = false))) →
    ∀ c ∈ [Instr.ptpSyncRx msg, .ptpFollowUpRx msg, .ptpAnnounceRx msg, .ptpPdelayReqRx msg, .ptpPdelayRespRx msg], Completes c s (fun t =>
      Sets [(Reg.TIME_CNT_PTP_DISCARD, min (2 ^ 32 - 1) (rd s.m Reg.TIME_CNT_PTP_DISCARD + 1))] s.m t ∧ t = { s.m with regs := t.regs })) ∧
  (∀ (msg : PtpMsg) (s : State), Powered s → rdb s.m Reg.TIME_STATUS_ENABLED = true → msg.layer2 = true → msg.domain = timeDomain s.m → msg.port = timePort s.m →
    (s.m.time.master = none ∨ s.m.time.master = some msg.clock ∨ msg.rank < s.m.time.masterRank → Completes (.ptpAnnounceRx msg) s (fun t =>
      t.time.master = some msg.clock ∧ t.time.masterRank = msg.rank ∧ t.time.search = false ∧ rd t Reg.TIME_GM_ID = msg.gm % 2 ^ 64 ∧
      tq t = (if rd s.m Reg.TIME_GM_ID ≠ msg.gm ∧ rd s.m Reg.TIME_STATUS_IN_USE = 1 ∧ tq s.m = 0 then 1 else tq s.m) ∧
      RegsKept [Reg.TIME_GM_ID, Reg.TIME_STATUS_TQ] s.m t ∧ MemKept s.m t)) ∧
    Completes (.ptpPdelayReqRx msg) s (fun t => t = { s.m with out := .ptp msg.port 4 msg.seq (rxStamp s.m msg.port) 0 :: s.m.out }) ∧
    (∀ t1, s.m.time.pdelayT1 = some t1 → msg.ours = true → Completes (.ptpPdelayRespRx msg) s (fun t =>
      t = { s.m with time := { s.m.time with pdelay := (rxStamp s.m msg.port - t1 - msg.corr) / 2, pdelayDone := true, pdelayT1 := none } })) ∧
    (s.m.time.master = some msg.clock → (s.m.time.pdelayDone = true → s.m.time.pdelay ≤ 800) →
      (msg.twoStep = true → Completes (.ptpSyncRx msg) s (fun t =>
        t = { s.m with time := { s.m.time with pendingSync := some (msg.seq, rxStamp s.m msg.port, msg.corr) } })) ∧
      (sourcePresent s.m 1 = true → rd s.m Reg.TIME_STATUS_IN_USE = 1 → tq s.m = 0 → s.m.time.step = none →
        let taken (off : Int) (c : Instr) : Prop := off.natAbs ≤ 10000 → Completes c s (fun t => rd t Reg.TIME_OFFSET = fieldOf 32 (clampSym 32 off) % 2 ^ 32 ∧
          tq t = 0 ∧ t.time.syncs = s.m.time.syncs + 1 ∧ RegsKept [Reg.TIME_OFFSET, Reg.TIME_RATE_ADJ] s.m t ∧ MemKept s.m t)
        (msg.twoStep = false → taken (rxStamp s.m msg.port - (msg.time + msg.corr + s.m.time.pdelay)) (.ptpSyncRx msg)) ∧
        (∀ arr k, s.m.time.pendingSync = some (msg.seq, arr, k) → taken (arr - (msg.time + k + msg.corr + s.m.time.pdelay)) (.ptpFollowUpRx msg))))) ∧
  (∀ (port : Fin 16) (s : State), Powered s → rdb s.m Reg.TIME_STATUS_ENABLED = true → masterPort s.m port = true →
    let sent (m : Mach) : Mach := { m with time := { m.time with txSeq := (m.time.txSeq + 1) % 65536 } }
    Completes (.ptpSyncTx port) s (fun t =>
      t = sent { s.m with out := .ptp port 2 s.m.time.txSeq (txStamp s.m port) 0 :: .ptp port 1 s.m.time.txSeq 0 0 :: s.m.out }) ∧
    Completes (.ptpAnnounceTx port) s (fun t => t = sent { s.m with out := .ptp port 6 s.m.time.txSeq 250 (clockClass s.m) :: s.m.out })) ∧
  (∀ s : State, Powered s → rdb s.m Reg.TIME_STATUS_ENABLED = true → timePort s.m ≤ 17 → Completes .ptpPdelayReqTx s (fun t =>
    t = { s.m with out := .ptp (timePort s.m) 3 s.m.time.txSeq 0 0 :: s.m.out, time := { s.m.time with
      pdelayT1 := some (txStamp s.m (timePort s.m)).toNat, txSeq := (s.m.time.txSeq + 1) % 65536 } }))

/-- A periodic TRIG output with a pulse due that it has not given, and an armed one-shot whose time has come, pulse at that time for
their width, once. COMMIT of settings that break a limit sets ERROR and changes nothing else; valid settings wait for the next
whole second where a periodic mode is concerned (PENDING, APPLY_SEC), and else are active at once, a one-shot less than 1 µs
away being missed and not armed; waiting settings whose time has come become active. PPS_OUT pulses once a second under mode 1,
under mode 2 while LOCKED. A selected edge of EVT_IN is captured with its time behind the earlier ones; within 20 ns of the
last, or with 16 waiting (which sets OVERFLOW), it is dropped and counted; an edge not selected does nothing; reading the upper
word takes the oldest off. (R131 (04_time.md); R132 (04_time.md); R133 (04_time.md); R134 (04_time.md); R137 (04_time.md); R138
(04_time.md); R140 (04_time.md)) -/
def Obligations.OutputsPulseAndEdgesAreCaptured : Prop :=
  (∀ (n : Fin 32) (s : State), Powered s →
    let g := mget s.m.trigs n
    let given (at0 : Nat) (c : Instr) : Prop := Completes c s (fun t => Output.pulse n at0 g.active.width ∈ t.out ∧ (mget t.trigs n).lastPulse = some at0 ∧
      (mget t.trigs n).active = g.active ∧ (mget t.trigs n).armed = (g.armed && g.active.mode == 1) ∧ (∀ k, k ≠ n.val → mget t.trigs k = mget s.m.trigs k) ∧
      RegsKept ((List.range 32).map (fun j => Reg.ING_APHY_CNT_TRIG_LOST j)) s.m t ∧ MemKept s.m t)
    (g.active.mode = 1 → g.notBefore ≤ trigDue s.m g.active → (∀ l, g.lastPulse = some l → l < trigDue s.m g.active) → given (trigDue s.m g.active) (.trigPulse n)) ∧
    (g.active.mode = 2 → g.armed = true → g.active.start ≤ now s.m → given g.active.start (.trigOneshot n)) ∧
    (∀ x, g.pending = some x → g.applyAt ≤ now s.m → Completes (.trigTransfer n) s (fun t => (mget t.trigs n).active = x ∧ (mget t.trigs n).pending = none ∧
      rd t (Reg.TIME_TRIG_STATUS_ACTIVE_MODE n) = x.mode % 4 ∧ rd t (Reg.TIME_TRIG_STATUS_PENDING n) = 0 ∧
      RegsKept [Reg.TIME_TRIG_STATUS_ACTIVE_MODE n, Reg.TIME_TRIG_STATUS_PENDING n, Reg.TIME_TRIG_STATUS_MISSED n] s.m t)) ∧
    (∀ who, MayWrite s.m who (Reg.TIME_TRIG_CTRL_COMMIT n) .any →
      let x := trigShadow s.m n
      (trigValid x = false → Completes (.trigCommit who n) s (fun t => Sets [(Reg.TIME_TRIG_STATUS_ERROR n, 1)] s.m t ∧ t = { s.m with regs := t.regs })) ∧
      (trigValid x = true → g.active.mode = 1 ∨ x.mode = 1 → Completes (.trigCommit who n) s (fun t =>
        mget t.trigs n = { g with pending := some x, applyAt := (now s.m / second + 1) * second } ∧
        Sets [(Reg.TIME_TRIG_STATUS_PENDING n, 1), (Reg.TIME_TRIG_STATUS_APPLY_SEC n, (now s.m / second + 1) % 2 ^ 16)] s.m t)) ∧
      (trigValid x = true → g.active.mode ≠ 1 → x.mode ≠ 1 → Completes (.trigCommit who n) s (fun t => (mget t.trigs n).active = x ∧ (mget t.trigs n).pending = none ∧
        ((mget t.trigs n).armed = true ↔ x.mode = 2 ∧ now s.m + 1000 ≤ x.start) ∧ rd t (Reg.TIME_TRIG_STATUS_APPLY_SEC n) = now s.m / second % 2 ^ 16 ∧
        (x.mode = 2 → x.start < now s.m + 1000 → rd t (Reg.TIME_TRIG_STATUS_MISSED n) = 1) ∧ rd t (Reg.TIME_TRIG_STATUS_ACTIVE_MODE n) = x.mode % 4)))) ∧
  (∀ s : State, Powered s → s.m.time.oldShift = 0 → ppsOutMode s.m = 1 ∨ (ppsOutMode s.m = 2 ∧ tq s.m = 0) → ppsOutOffset s.m ≤ now s.m % second →
    let at0 := now s.m / second * second + ppsOutOffset s.m
    (∀ l, s.m.lastPpsOut = some l → l + second / 2 ≤ at0) →
    Completes .ppsOutPulse s (fun t => t = { s.m with lastPpsOut := some at0, out := .pulse 32 at0 (ppsOutWidth s.m) :: s.m.out })) ∧
  (∀ (k : Fin 4) (rise : Bool) (s : State), Powered s →
    let sel := rd s.m (Reg.TIME_EVT_CTRL_EDGE k)
    let e := mget s.m.evts k
    let chosen := sel = 3 ∨ sel = 1 ∧ rise = true ∨ sel = 2 ∧ rise = false
    (¬ chosen → Completes (.evtInEdge k rise) s (fun t => t = s.m)) ∧
    (chosen → (∃ l, e.last = some l ∧ now s.m < l + 20) → Completes (.evtInEdge k rise) s (fun t => t = { s.m with regs := t.regs } ∧
      Sets [(Reg.TIME_EVT_STATUS_DROPPED k, min (2 ^ 16 - 1) (rd s.m (Reg.TIME_EVT_STATUS_DROPPED k) + 1))] s.m t)) ∧
    (chosen → (∀ l, e.last = some l → l + 20 ≤ now s.m) →
      (16 ≤ e.fifo.length → Completes (.evtInEdge k rise) s (fun t => t = { s.m with regs := t.regs } ∧
        Sets [(Reg.TIME_EVT_STATUS_OVERFLOW k, 1), (Reg.TIME_EVT_STATUS_DROPPED k, min (2 ^ 16 - 1) (rd s.m (Reg.TIME_EVT_STATUS_DROPPED k) + 1))] s.m t)) ∧
      (e.fifo.length < 16 → Completes (.evtInEdge k rise) s (fun t =>
        mget t.evts k = { fifo := e.fifo ++ [{ time := now s.m, tq := tq s.m, rise := rise }], last := some (now s.m) } ∧
        rd t (Reg.TIME_EVT_STATUS_COUNT k) = e.fifo.length + 1 ∧
        RegsKept [Reg.TIME_EVT_FIFO k, Reg.TIME_EVT_STATUS_COUNT k, Reg.TIME_EVT_STATUS_HEAD_TQ k, Reg.TIME_EVT_STATUS_HEAD_RISE k] s.m t)))) ∧
  (∀ (who : Requester) (k : Fin 4) (s : State), Powered s → reach s.m who (presented who ((Reg.TIME_EVT_FIFO k).addr + 4)) = .ok ((Reg.TIME_EVT_FIFO k).addr + 4) →
    Completes (.evtFifoPop who k) s (fun t => (mget t.evts k).fifo = (mget s.m.evts k).fifo.drop 1 ∧
      rd t (Reg.TIME_EVT_STATUS_COUNT k) = ((mget s.m.evts k).fifo.length - 1) % 32 ∧
      rd t (Reg.TIME_EVT_FIFO k) = (((mget s.m.evts k).fifo.drop 1).head?.getD {}).time % 2 ^ 64 ∧
      t.out = .readData who (regValue s.m who ((Reg.TIME_EVT_FIFO k).addr + 4)) :: s.m.out))

/-- A group of A-PHY ports that has trained for 60 ms ends: its ports are marked, ports that are up stay up, a later group or none
is under way. A port in training whose partner shares a gear is UP with that profile and gear, its retransmission and its delay.
A port that is up and fails, or is retrained, has its frames closed, is counted and waits or trains again (at once where nothing
else waits); HOLD takes a port to state 0, and clearing it trains it again. An Ethernet port goes up and down, losing PTP where
it is the time port, waits at most 600 ms for LINKS_UP, and is held at state 0; a safety port likewise goes up and down. An I2C
command joins its port's queue, starting where it is the first, or is dropped with OVERFLOW; a transfer that ends or times out
leaves its result word and starts the next; reading the result takes the oldest off. (R143 (05_sensor_ingress.md); R178
(05_sensor_ingress.md); R179 (05_sensor_ingress.md); R180 (05_sensor_ingress.md); R187 (05_sensor_ingress.md); R188
(05_sensor_ingress.md); R194 (05_sensor_ingress.md); R119 (04_time.md); R525 (17_safety_channels_and_safe_state.md)) -/
def Obligations.PortsTrainFailAndAreHeld : Prop :=
  (∀ s : State, Powered s → s.m.ing.group < 8 → s.m.ing.groupAt + 60000000 ≤ now s.m → Completes .aphyGroupTimeout s (fun t => s.m.ing.group < t.ing.group ∧ t.ing.group ≤ 8 ∧
    (∀ j < 4, (mget t.aphy (j + 4 * s.m.ing.group)).ended = true) ∧ (∀ n < 32, aphyState s.m n = 3 → aphyState t n = 3) ∧
    RegsKept (Reg.ING_ADMIT_STATUS_LINKS_UP :: (List.range 32).map (fun n => Reg.ING_APHY_STATUS_STATE n)) s.m t ∧ MemKept s.m t)) ∧
  (∀ (port : Fin 32) (s : State), Powered s →
    let states := Reg.ING_ADMIT_STATUS_LINKS_UP :: (List.range 32).map (fun n => Reg.ING_APHY_STATUS_STATE n)
    let again (n t : Mach) : Prop := (∀ i ∈ streamNos s.m, strCamera (streamEntry s.m i) = true → strPort (streamEntry s.m i) = port.val →
        (mget t.streams i).frame = none) ∧
      rd t (Reg.ING_APHY_STATUS_GEAR port) = 0 ∧ rd t (Reg.ING_APHY_STATUS_RETX port) = 0 ∧ (aphyState t port = 1 ∨ aphyState t port = 4) ∧
      (aphyEnabled s.m port = true → training s.m < 4 → (∀ k < 32, k ≠ port.val → aphyState s.m k ≠ 1) → aphyState t port = 4) ∧
      rd t (Reg.ING_APHY_CNT_RETRAIN port) = min (2 ^ 32 - 1) (rd n (Reg.ING_APHY_CNT_RETRAIN port) + 1) ∧ MemKept n t ∧
      RegsKept (Reg.ING_APHY_STATUS_GEAR port :: Reg.ING_APHY_STATUS_RETX port :: Reg.ING_APHY_CNT_RETRAIN port :: states) n t
    (∀ p1 p2 retx delay prof gear, aphyState s.m port = 2 ∨ aphyState s.m port = 4 → negotiate s.m port p1 p2 = some (prof, gear) →
      Completes (.aphyLinkUp port p1 p2 retx delay) s (fun t => aphyState t port = 3 ∧ rd t (Reg.ING_APHY_STATUS_PROFILE port) = prof % 2 ∧
        rd t (Reg.ING_APHY_STATUS_GEAR port) = gear % 8 ∧ rd t (Reg.ING_APHY_DELAY port) = delay % 2 ^ 16 ∧
        rd t (Reg.ING_APHY_STATUS_RETX port) = b2n (retx && secLe s.m 3 0 (0x12 + 16 * port) 1 == 1) ∧ MemKept s.m t ∧
        RegsKept (Reg.ING_APHY_STATUS_PROFILE port :: Reg.ING_APHY_STATUS_GEAR port :: Reg.ING_APHY_STATUS_RETX port :: Reg.ING_APHY_DELAY port :: states) s.m t)) ∧
    (aphyState s.m port = 3 → aphyHold s.m port = false → Completes (.aphyLinkFail port) s (again (closePort true port s.m)) ∧
      ∀ who, MayWrite s.m who (Reg.ING_APHY_CTRL_RETRAIN port) .any → Completes (.aphyRetrainCmd who port) s (again (closePort true port s.m))) ∧
    (∀ who, MayWrite s.m who (Reg.ING_APHY_CTRL_HOLD port) .any →
      (∀ h, aphyEnabled s.m port = false ∨ aphyHold s.m port = h → Completes (.aphyHoldWrite who port h) s (fun t =>
        Sets [(Reg.ING_APHY_CTRL_HOLD port, b2n h)] s.m t ∧ t = { s.m with regs := t.regs })) ∧
      (aphyEnabled s.m port = true → aphyHold s.m port = false → Completes (.aphyHoldWrite who port true) s (fun t =>
        aphyHold t port = true ∧ aphyState t port = 0 ∧ (aphyState s.m port ≠ 3 → RegsKept (Reg.ING_APHY_CTRL_HOLD port :: states) s.m t))) ∧
      (aphyEnabled s.m port = true → aphyHold s.m port = true → Completes (.aphyHoldWrite who port false) s (fun t =>
        aphyHold t port = false ∧ (aphyState t port = 1 ∨ aphyState t port = 4) ∧ RegsKept (Reg.ING_APHY_CTRL_HOLD port :: states) s.m t))) ∧
    (∀ who v, MayWrite s.m who (Reg.ING_APHY_CCI_CMD_REG port) .any →
      let a := mget s.m.aphy port
      Completes (.cciCommand who port v) s (fun t => t.regs = s.m.regs ∧ MemKept s.m t ∧
        (a.cmds.length < 32 → mget t.aphy port = { a with cmds := a.cmds ++ [v.toNat] }) ∧ (32 ≤ a.cmds.length → mget t.aphy port = { a with lostCmd := true }) ∧
        t.out = if a.cmds = [] then .cciStart port v.toNat :: s.m.out else s.m.out)) ∧
    (∀ c rest, (mget s.m.aphy port).cmds = c :: rest → (mget s.m.aphy port).results.length < 32 →
      let done (r : Nat) (t : Mach) : Prop := mget t.aphy port = { mget s.m.aphy port with cmds := rest, results := (mget s.m.aphy port).results ++ [r] } ∧
        t.regs = s.m.regs ∧ t.out = match rest with | [] => s.m.out | d :: _ => .cciStart port d :: s.m.out
      (∀ data ack, Completes (.cciTransferComplete port data ack) s (done ((if bitOf c 23 && ack then data % 256 else 0) + 256 + (if ack then 0 else 512)))) ∧
      Completes (.cciTimeout port) s (done 1280)) ∧
    (∀ who, reach s.m who (presented who (Reg.ING_APHY_CCI_RESULT_RDATA port).addr) = .ok (Reg.ING_APHY_CCI_RESULT_RDATA port).addr →
      Completes (.cciResultRead who port) s (fun t => t.out = .readData who (cciWord s.m port) :: s.m.out ∧ t.regs = s.m.regs ∧
        mget t.aphy port = { mget s.m.aphy port with results := (mget s.m.aphy port).results.drop 1, lostCmd := false }))) ∧
  (∀ (port : Fin 16) (s : State), Powered s →
    (rd s.m (Reg.ING_ETH_STATUS_STATE port) = 1 → Completes (.ethLinkUp port) s (fun t =>
      Sets [(Reg.ING_ETH_STATUS_STATE port, 2), (Reg.ING_ADMIT_STATUS_LINKS_UP, b2n (applied s.m && linksUp t))] s.m t ∧ MemKept s.m t)) ∧
    (rd s.m (Reg.ING_ETH_STATUS_STATE port) = 2 → Completes (.ethLinkDown port) s (fun t => rd t (Reg.ING_ETH_STATUS_STATE port) = 1 ∧
      (timePort s.m = port.val → sourcePresent t 1 = false) ∧ (timePort s.m ≠ port.val → MemKept (closePort false port s.m) t ∧
        RegsKept [Reg.ING_ETH_STATUS_STATE port, Reg.ING_ADMIT_STATUS_LINKS_UP] (closePort false port s.m) t))) ∧
    (∀ who, MayWrite s.m who (Reg.ING_ETH_CTRL_HOLD port) .any → ethEnabled s.m port = true →
      Completes (.ethHoldWrite who port true) s (fun t => rd t (Reg.ING_ETH_CTRL_HOLD port) = 1 ∧ rd t (Reg.ING_ETH_STATUS_STATE port) = 0) ∧
      Completes (.ethHoldWrite who port false) s (fun t => rd t (Reg.ING_ETH_CTRL_HOLD port) = 0 ∧
        rd t (Reg.ING_ETH_STATUS_STATE port) = (if rd s.m (Reg.ING_ETH_STATUS_STATE port) = 0 then 1 else rd s.m (Reg.ING_ETH_STATUS_STATE port)) ∧
        RegsKept [Reg.ING_ETH_CTRL_HOLD port, Reg.ING_ETH_STATUS_STATE port, Reg.ING_ADMIT_STATUS_LINKS_UP] s.m t))) ∧
  (∀ s : State, Powered s → applied s.m = true → s.m.ing.appliedAt + 600000000 ≤ now s.m → Completes .ethLinkWaitTimeout s (fun t =>
    t.ing = { s.m.ing with ethDone := true } ∧ Sets [(Reg.ING_ADMIT_STATUS_LINKS_UP, b2n (linksUp t))] s.m t ∧ MemKept s.m t)) ∧
  (∀ (e : Fin 2) (s : State), Powered s →
    (rd s.m (Reg.SAF_ETH_STATUS_STATE e) = 1 → Completes (.safetyPortLinkUp e) s (fun t => Sets [(Reg.SAF_ETH_STATUS_STATE e, 2)] s.m t ∧ MemKept s.m t)) ∧
    (rd s.m (Reg.SAF_ETH_STATUS_STATE e) = 2 → Completes (.safetyPortLinkDown e) s (fun t => rd t (Reg.SAF_ETH_STATUS_STATE e) = 1 ∧
      (timePort s.m = 16 + e.val → sourcePresent t 1 = false) ∧ (timePort s.m ≠ 16 + e.val → Sets [(Reg.SAF_ETH_STATUS_STATE e, 1)] s.m t ∧ MemKept s.m t))))

/-- On a port that is up, for the admitted stream of the virtual channel: a frame start that is not early, with a reservation to
take, opens an item with the next sequence, the corrected stamp and the next free slot; one that is early is counted and opens
nothing. A whole good line is stored behind the lines before it with its check entry; embedded data goes behind what the slot
holds; a short packet that is no generic one does nothing. A frame end, or the close time, closes a frame that is complete and
good: its header is stored, its slot is held and its item closed. A packet with an uncorrectable header is counted only. An
Ethernet frame with a bad check is counted only; a datagram within an open range frame is stored as its record. A time slice
ends its frame; a frame that never came leaves an item that failed with INGRESS; a closed item goes to its image pipe or its
partition. (R125 (04_time.md); R144 (05_sensor_ingress.md); R145 (05_sensor_ingress.md); R153 (05_sensor_ingress.md); R157
(05_sensor_ingress.md); R158 (05_sensor_ingress.md); R160 (05_sensor_ingress.md); R161 (05_sensor_ingress.md); R167
(05_sensor_ingress.md); R168 (05_sensor_ingress.md); R169 (05_sensor_ingress.md); R173 (05_sensor_ingress.md)) -/
def Obligations.FramesFillTheirSlots : Prop :=
  (∀ (port : Fin 32) (vc : Fin 16) (s : State), Powered s → aphyState s.m port = 3 →
    (∀ number dt data ok env, ∀ c ∈ [Instr.csi2FrameStart port vc number 2, .csi2FrameEnd port vc 2, .csi2LongPacket port vc dt 2 data ok env,
      .csi2EmbeddedData port vc 2 data, .csi2ShortPacket port vc dt 2], Completes c s (fun t => t = { s.m with regs := t.regs } ∧
        Sets [(Reg.ING_APHY_CNT_HDR_ERR port, min (2 ^ 32 - 1) (rd s.m (Reg.ING_APHY_CNT_HDR_ERR port) + 1))] s.m t)) ∧
    (∀ dt, (dt < 4 ∨ 7 < dt → Completes (.csi2ShortPacket port vc dt 0) s (fun t => t = s.m)) ∧
      (4 ≤ dt → dt ≤ 7 → camStream s.m port vc = none → Completes (.csi2ShortPacket port vc dt 0) s (fun t => t = { s.m with regs := t.regs } ∧
        Sets [(Reg.ING_APHY_CNT_UNSUP_DT port, min (2 ^ 32 - 1) (rd s.m (Reg.ING_APHY_CNT_UNSUP_DT port) + 1))] s.m t))) ∧
    (∀ i number, camStream s.m port vc = some i → strState s.m i = 3 → (mget s.m.streams i).frame = none → number < 65536 →
      let stamp := camStamp s.m port (streamEntry s.m i)
      (isEarly s.m i stamp = false → canReserve s.m (strQueue (streamEntry s.m i)) = true → (mget s.m.streams i).pending = none → (mget s.m.isps i).pending = none →
        Completes (.csi2FrameStart port vc number 0) s (fun t => ∃ it f, lookup t.items (tagOf i (mget s.m.streams i).seq) = some it ∧ it.stamp = stamp ∧
          it.closed = false ∧ it.fixed = none ∧ it.hasSlot = (nextSlot s.m i).isSome ∧ (mget t.streams i).frame = some f ∧
          f.tag = tagOf i (mget s.m.streams i).seq ∧ f.slot = nextSlot s.m i ∧ f.lines = 0 ∧ f.frameNo = number ∧
          (mget t.streams i).seq = ((mget s.m.streams i).seq + 1) % 2 ^ 22 ∧ MemKept s.m t ∧
          rd t (Reg.ING_STR_CNT_ITEMS i) = min (2 ^ 32 - 1) (rd s.m (Reg.ING_STR_CNT_ITEMS i) + 1))) ∧
      (isEarly s.m i stamp = true → strViolLimit (streamEntry s.m i) = 0 → Completes (.csi2FrameStart port vc number 0) s (fun t =>
        t.items = s.m.items ∧ (mget t.streams i).frame = none ∧ (mget t.streams i).discard = 1 ∧ MemKept s.m t ∧
        rd t (Reg.ING_STR_CNT_EARLY i) = min (2 ^ 32 - 1) (rd s.m (Reg.ING_STR_CNT_EARLY i) + 1)))) ∧
    (∀ i f data, camStream s.m port vc = some i → strState s.m i = 3 → (mget s.m.streams i).frame = some f → f.slot.isSome = true →
      let e := streamEntry s.m i
      let a := f.addr + linesOff e + f.lines * linePitch e
      let tab := f.addr + 128 + 8 * f.lines
      (lineType (strDt e) = true → data.length = lineBytes e → f.lines < strHeight e → inSelfRefresh s.m a = false → inSelfRefresh s.m tab = false →
        Completes (.csi2LongPacket port vc (strDt e) 0 data true {}) s (fun t =>
          MemKept (writeMem tab (lineEntry (crc32c data) data.length 0) (writeMem a data s.m)) t ∧ t.items = s.m.items ∧
          (∃ g, (mget t.streams i).frame = some g ∧ g.lines = f.lines + 1 ∧ g.stored = f.stored + 1 ∧ g.bad = f.bad ∧ g.missing = f.missing) ∧
          RegsKept [Reg.ING_STR_STATUS_HELD i, Reg.ING_STR_STATUS_RETIRING i, Reg.ING_STR_STATUS_FRAME_OPEN i] s.m t)) ∧
      (f.emb + data.length ≤ strEmb e → inSelfRefresh s.m (f.addr + embOff e + f.emb) = false →
        Completes (.csi2EmbeddedData port vc 0 data) s (fun t => MemKept (writeMem (f.addr + embOff e + f.emb) data s.m) t ∧ t.items = s.m.items ∧
          (mget t.streams i).frame = some { f with emb := f.emb + data.length } ∧
          RegsKept [Reg.ING_STR_STATUS_HELD i, Reg.ING_STR_STATUS_RETIRING i, Reg.ING_STR_STATUS_FRAME_OPEN i] s.m t)))) ∧
  (∀ (c : Instr) (i : Fin 1024) (extra n : Nat) (f : Frame) (it : Item) (s : State), Powered s →
    ((∃ port vc, c = .csi2FrameEnd port vc 0 ∧ aphyState s.m port.val = 3 ∧ camStream s.m port.val vc.val = some i.val ∧ strState s.m i ∈ [3, 4] ∧ extra = 0) ∨
      c = .frameCloseTimeout i ∧ f.stamp + 1000 * strFrameUs (streamEntry s.m i) ≤ now s.m ∧ extra = 2 ^ 20) →
    (mget s.m.streams i).frame = some f → f.slot = some n → f.gen = (mget s.m.streams i).ring.gen → lookup s.m.items f.tag = some it →
    strCamera (streamEntry s.m i) = true → strHeight (streamEntry s.m i) ≤ f.lines → f.bad + f.missing ≤ strBadLimit (streamEntry s.m i) → f.bufBad = false →
    (∀ b ∈ [5, 14, 16, 18], bitOf f.flags b = false) → inSelfRefresh s.m f.addr = false →
    Completes c s (fun t => (mget t.streams i).frame = none ∧ lookup (mget t.streams i).ring.slots n = some true ∧
      lookup t.items f.tag = some { it with itemFlags := it.itemFlags ||| (f.flags ||| extra), closed := true } ∧
      MemKept (writeMem f.addr (slotHeader s.m (streamEntry s.m i) f { it with itemFlags := it.itemFlags ||| (f.flags ||| extra), closed := true }) s.m) t ∧
      RegsKept [Reg.ING_STR_STATUS_HELD i, Reg.ING_STR_STATUS_RETIRING i, Reg.ING_STR_STATUS_FRAME_OPEN i, Reg.ING_STR_CNT_BAD i] s.m t)) ∧
  (∀ (port : Fin 16) (fr : List Byte) (env : LineEnv) (s : State), Powered s → rd s.m (Reg.ING_ETH_STATUS_STATE port) = 2 →
    (fr.length < 64 ∨ crc32 (fr.take (fr.length - 4)) ≠ leNat (fr.drop (fr.length - 4)) → Completes (.ethFrameRx port fr env) s (fun t =>
      t = { s.m with regs := t.regs } ∧ Sets [(Reg.ING_ETH_CNT_FCS_ERR port, min (2 ^ 32 - 1) (rd s.m (Reg.ING_ETH_CNT_FCS_ERR port) + 1))] s.m t)) ∧
    (∀ vlan p u i f, 64 ≤ fr.length → crc32 (fr.take (fr.length - 4)) = leNat (fr.drop (fr.length - 4)) → fr.length ≤ le (ethEntry s.m port) 2 2 →
      slice fr 0 6 = slice (ethEntry s.m port) 4 6 → ethHeader fr = (false, vlan, 0x0800, p) → readIp4 vlan p = .udp u → classify s.m port u = some i →
      strState s.m i = 3 → (mget s.m.streams i).frame = some f → f.slot.isSome = true →
      let e := streamEntry s.m i
      let k := clsEntry s.m i
      let a := f.addr + 128 + f.bytes
      let body := padTo (roundUp u.data.length 16) u.data
      le k 0xA 1 = 1 → bitOf (le k 2 1) 3 = false → le k 0xC 2 + le k 0xB 1 ≤ u.data.length → (le u.data (le k 0xC 2) 1) &&& (le k 0xE 1) = 0 →
      128 + f.bytes + (16 + body.length) ≤ strSlotBytes e → f.stored + 1 < strHeight e → inSelfRefresh s.m a = false →
      Completes (.ethFrameRx port fr {}) s (fun t => t.items = s.m.items ∧
        MemKept (writeMem a (leBytes 4 (rxStamp s.m port).toNat ++ leBytes 2 u.data.length ++ [0, 0] ++ leBytes 4 0 ++ leBytes 4 (crc32c u.data) ++ body) s.m) t ∧
        ∃ g, (mget t.streams i).frame = some g ∧ g.bytes = f.bytes + (16 + body.length) ∧ g.stored = f.stored + 1 ∧ g.missing = f.missing))) ∧
  (∀ (i : Fin 1024) (s : State), Powered s →
    let e := streamEntry s.m i
    let sl := now s.m / second * second + now s.m % second / (1000 * strFrameUs e) * (1000 * strFrameUs e)
    (strCamera e = false → le (clsEntry s.m i) 0xA 1 = 2 → strState s.m i ∈ [3, 4] → (mget s.m.streams i).slice < sl → (mget s.m.streams i).sliceHad = true →
      Completes (.rangeTimeSlice i) s (fun t => (mget t.streams i).frame = none ∧ (mget t.streams i).slice = sl ∧ (mget t.streams i).sliceHad = false ∧
        MemKept (closeFrame i 0 s.m) t)) ∧
    (∀ t0, (mget s.m.streams i).lastStart = some t0 → strState s.m i ∈ [3, 4] → canReserve s.m (strQueue e) = true →
      t0 + 1000 * strFrameUs e + 500 * strFrameUs e + 1000 * strJitterUs e ≤ now s.m → Completes (.missingFrameTimeout i) s (fun t =>
        GotStatus (tagOf i (mget s.m.streams i).seq) .failedData 0x80 t ∧ MemKept s.m t ∧
        rd t (Reg.ING_STR_CNT_MISSING i) = min (2 ^ 32 - 1) (rd s.m (Reg.ING_STR_CNT_MISSING i) + 1)))) ∧
  (∀ (tag : Nat) (it : Item) (s : State), Powered s → lookup s.m.items tag = some it → it.closed = true → it.handed = false → it.fixed = none →
    (it.range = false → Completes (.itemHandoff tag) s (fun t => (mget t.isps it.stream).waiting = (mget s.m.isps it.stream).waiting ++ [(tag, now s.m)] ∧
      lookup t.items tag = some { it with handed := true } ∧ MemKept s.m t)) ∧
    (it.range = true → (mget s.m.rnotes it.part).length < 512 → Completes (.itemHandoff tag) s (fun t =>
      mget t.rnotes it.part = mget s.m.rnotes it.part ++ [rangeNotice s.m tag it] ∧ MemKept s.m t ∧
      (∃ n, lookup t.items tag = some n ∧ n.handed = true ∧ n.fixed = none ∧ n.turnOf.isSome = true) ∧
      RegsKept [Reg.TC_SEQ_FIFO_LEVEL_PCOMP it.part, Reg.TC_SEQ_FIFO_LEVEL_RITEM it.part] s.m t)))

/-- A quarantine, forced or at the limit of violations, takes the stream to state 4 with no frame open: of a stream without SAFETY
it is logged, of one with it, where the reaction says so, the safe state is entered. A release, by command or behind enough
clean turns, takes it to pending, or to disabled where ENABLE is 0. A COMMIT of a ring base that is not aligned, not inside the
region, or behind a retiring ring sets COMMIT_ERROR only; another waits, with APPLY_PENDING. A write of ENABLE that its
partition or routine refuses sets ENABLE_ERROR only, one that changes nothing does nothing, and another is taken up at the next
grid tick. RELEASE of a held slot of a range stream frees it; any other does nothing. Each millisecond every pending stream, up
to 64, whose port is up and whose partition has started is admitted. (R161 (05_sensor_ingress.md); R163 (05_sensor_ingress.md);
R166 (05_sensor_ingress.md); R176 (05_sensor_ingress.md); R177 (05_sensor_ingress.md); R181 (05_sensor_ingress.md); R183
(05_sensor_ingress.md); R190 (05_sensor_ingress.md); R512 (17_safety_channels_and_safe_state.md)) -/
def Obligations.StreamsAreControlled : Prop :=
  (∀ (i : Fin 1024) (s : State), Powered s →
    let e := streamEntry s.m i
    let quar (c : Instr) : Prop := Completes c s (fun t => strState t i = 4 ∧ (mget t.streams i).frame = none ∧ (strSafety e = false → Logged 0x4C s.m t) ∧
      (strSafety e = true → reactQuarantine s.m = 2 → Entered .quarantine s.m t))
    (strViolLimit e ≠ 0 → strViolLimit e ≤ rd s.m (Reg.ING_STR_STATUS_VIOL_TURN i) → strState s.m i = 3 → quar (.quarantineEntry i)) ∧
    (∀ who, MayWrite s.m who (Reg.ING_STR_CTRL_QUAR_FORCE i) .any → (streamEntry? s.m i).isSome = true → strState s.m i ≠ 4 → quar (.quarForce who i)) ∧
    (strState s.m i = 4 →
      let freed (t : Mach) : Prop := strState t i = (if rdb s.m (Reg.ING_STR_CTRL_ENABLE i) then 2 else 1) ∧ (mget t.streams i).discard = 0 ∧
        t.saf.condQuar = s.m.saf.condQuar.filter (· != i.val) ∧ MemKept s.m t ∧ ∀ f : Fld, f.beyond → f.key ∉ [(Reg.ING_STR_STATUS_STATE i).key,
          Reg.ING_ADMIT_STATUS_ADMITTED.key, Reg.ING_ADMIT_STATUS_PENDING.key, (Reg.ING_STR_STATUS_HELD i).key, (Reg.ING_STR_STATUS_RETIRING i).key,
          (Reg.ING_STR_STATUS_FRAME_OPEN i).key] → rd t f = rd s.m f
      (∀ who, MayWrite s.m who (Reg.ING_STR_CTRL_QUAR_RELEASE i) .any → (streamEntry? s.m i).isSome = true → Completes (.quarRelease who i) s freed) ∧
      (strSoftRelease e = false → strQuarTurns e ≤ (mget s.m.streams i).clean → Completes (.quarantineAutoRelease i) s freed)) ∧
    (∀ who, MayWrite s.m who (Reg.ING_STR_CTRL_COMMIT i) .any →
      let b := rd s.m (Reg.ING_STR_SH_BASE i)
      let good := (streamEntry? s.m i).isSome = true ∧ b % 4096 = 0 ∧ strRegion e ≤ b ∧ b + strSlots e * strSlotBytes e ≤ strRegion e + strRegionBytes e ∧
        (mget s.m.streams i).retire = none
      (good → Completes (.ringCommit who i) s (fun t => (mget t.streams i).pending = some b ∧ (mget t.streams i).ring = (mget s.m.streams i).ring ∧
        rd t (Reg.ING_STR_APPLY_PENDING i) = 1 ∧ MemKept s.m t ∧ RegsKept [Reg.ING_STR_APPLY_PENDING i, Reg.ING_STR_APPLY_APPLY_SEQ i, Reg.ISP_STR_APPLY_APPLY_SEQ i,
          Reg.ING_STR_STATUS_HELD i, Reg.ING_STR_STATUS_RETIRING i, Reg.ING_STR_STATUS_FRAME_OPEN i] s.m t)) ∧
      (¬ good → Completes (.ringCommit who i) s (fun t => Sets [(Reg.ING_STR_STATUS_COMMIT_ERROR i, 1)] s.m t ∧ t = { s.m with regs := t.regs }))) ∧
    (∀ who en, MayWrite s.m who (Reg.ING_STR_CTRL_ENABLE i) .any →
      (en = true → enableRefused s.m i = true → Completes (.streamEnableWrite who i en) s (fun t =>
        Sets [(Reg.ING_STR_STATUS_ENABLE_ERROR i, 1)] s.m t ∧ t = { s.m with regs := t.regs })) ∧
      (en = true → enableRefused s.m i = false → rdb s.m (Reg.ING_STR_CTRL_ENABLE i) = en → Completes (.streamEnableWrite who i en) s (fun t => t = s.m)) ∧
      (enableRefused s.m i = false ∨ en = false ∧ (streamEntry? s.m i).isSome = true → rdb s.m (Reg.ING_STR_CTRL_ENABLE i) ≠ en →
        Completes (.streamEnableWrite who i en) s (fun t => rd t (Reg.ING_STR_CTRL_ENABLE i) = b2n en ∧ (mget t.streams i).enable = some en ∧
          RegsKept [Reg.ING_STR_CTRL_ENABLE i, Reg.ING_STR_STATUS_HELD i, Reg.ING_STR_STATUS_RETIRING i, Reg.ING_STR_STATUS_FRAME_OPEN i] s.m t))) ∧
    (∀ who slot gen, MayWrite s.m who (Reg.ING_STR_RELEASE_SLOT i) .any → slot < 64 → gen < 2 →
      (strCamera e = true ∨ slotHeld s.m i slot gen = false → (streamEntry? s.m i).isSome = true → Completes (.streamSlotRelease who i slot gen) s (fun t => t = s.m)) ∧
      ((streamEntry? s.m i).isSome = true → strCamera e = false → slotHeld s.m i slot gen = true → Completes (.streamSlotRelease who i slot gen) s (fun t =>
        slotHeld t i slot gen = false ∧ t.items.map (fun x => (x.1, x.2.fixed)) = s.m.items.map (fun x => (x.1, x.2.fixed)) ∧ MemKept s.m t ∧
        RegsKept [Reg.ING_STR_STATUS_HELD i, Reg.ING_STR_STATUS_RETIRING i, Reg.ING_STR_STATUS_FRAME_OPEN i] s.m t)))) ∧
  (∀ s : State, Powered s → rdb s.m Reg.TIME_TURN_STATUS_RUNNING = true → s.m.ing.lastAdmit + 1000000 ≤ now s.m → (streamNos s.m).length ≤ 64 →
    Completes .admissionTick s (fun t => t.ing.lastAdmit = s.m.ing.lastAdmit + 1000000 ∧ rd t Reg.ING_ADMIT_STATUS_RUNNING = 1 ∧ MemKept s.m t ∧
      ∀ i ∈ streamNos s.m, strState t i = if strState s.m i = 2 ∧ portUp s.m (streamEntry s.m i) = true ∧ partStarted s.m (strPart (streamEntry s.m i)) = true
        then 3 else strState s.m i))

/-- A planned slot that is due takes the oldest item handed on before the tick, or counts as idle. A job whose pipe is free and
whose time has come starts: it holds its output slot or its scratch granules, from its planned time or the pipe's last end. At
its end, with all its checks passed and all its lines there, the tensor stands at its address (in HBM with its header and row
checks) and the completion joins the partition's FIFO; a failed raw check or an output mismatch fails the item with PIPE, logged
and counted; a job that runs twice its time fails it too; one that a reset reaches fails it with RESET. COMMIT of valid shadow
parameters makes a pending version of them, of invalid ones or a fifth version sets COMMIT_ERROR. A write of the tap sets its
point and shift, and arms it where they and the tap's buffer allow. (R201 (06_image_pipeline.md); R202 (06_image_pipeline.md);
R203 (06_image_pipeline.md); R204 (06_image_pipeline.md); R205 (06_image_pipeline.md); R206 (06_image_pipeline.md); R221
(06_image_pipeline.md); R224 (06_image_pipeline.md); R225 (06_image_pipeline.md); R231 (06_image_pipeline.md); R238
(07_seams.md)) -/
def Obligations.ImageJobsRunThroughTheirPipes : Prop :=
  (∀ (slot : Nat) (s : State), Powered s → slot < ispSlots s.m → bitOf (le (ispSlot s.m slot) 8 8) (cyclePos s.m) = true →
    let n := le (ispSlot s.m slot) 0 1
    let i := le (ispSlot s.m slot) 2 2
    let plan := rd s.m Reg.TIME_TURN_TICK + le (ispSlot s.m slot) 4 4
    plan ≤ now s.m → slot ∉ (mget s.m.pipes n).done → i < 512 → n < 8 →
    (oldestWaiting s.m i (rd s.m Reg.TIME_TURN_TICK) = none → Completes (.ispSlotStart slot) s (fun t => (mget t.pipes n).done = slot :: (mget s.m.pipes n).done ∧
      (mget t.pipes n).wait = (mget s.m.pipes n).wait ∧ rd t (Reg.ISP_PIPE_CNT_IDLE n) = min (2 ^ 32 - 1) (rd s.m (Reg.ISP_PIPE_CNT_IDLE n) + 1) ∧
      RegsKept [Reg.ISP_PIPE_CNT_IDLE n, Reg.ISP_PIPE_STATUS_BUSY n] s.m t ∧ MemKept s.m t)) ∧
    (∀ tag, oldestWaiting s.m i (rd s.m Reg.TIME_TURN_TICK) = some tag → Completes (.ispSlotStart slot) s (fun t =>
      (mget t.pipes n).wait = (mget s.m.pipes n).wait ++ [(i, tag, plan)] ∧ (mget t.isps i).waiting = (mget s.m.isps i).waiting.filter (fun w => w.1 != tag) ∧
      (mget t.pipes n).done = slot :: (mget s.m.pipes n).done ∧ t.items = s.m.items ∧ MemKept s.m t))) ∧
  (∀ (pipe : Fin 8) (i tag plan : Nat) (rest : List (Nat × Nat × Nat)) (it : Item) (s : State), Powered s → (mget s.m.pipes pipe).job = none →
    (mget s.m.pipes pipe).wait = (i, tag, plan) :: rest → plan ≤ now s.m → lookup s.m.items tag = some it → it.fixed = none → (mget s.m.pipes pipe).out = false → i < 512 →
    let se := streamEntry s.m i
    let e := ispEntry s.m i
    let x := mget s.m.isps i
    let v := getD x.active x.bound tag
    let ver := (x.vers.find? (fun w => w.id == v)).getD {}
    let psa := ispCore e * 2 ^ 25 + ver.scr
    let base : Job := { stream := i, tag := tag, start := max plan (mget s.m.pipes pipe).lastEnd, dur := jobNs se, core := ispCore e, part := strPart se, turn := gridTurn s.m, ver := v, tap := x.tapWait, rslot := it.slot, rgen := it.gen, raddr := it.slotAddr, addr := ver.scr }
    let starts (j : Job) : Prop := jobStops s.m j = false → Completes (.ispJobStart pipe) s (fun t => (mget t.pipes pipe).job = some j ∧ (mget t.pipes pipe).wait = rest ∧
      (j.toHbm = true → (mget t.isps i).held = x.held ++ [(j.addr, tag)]) ∧ rd t (Reg.ISP_PIPE_STATUS_BUSY pipe) = 1 ∧ rd t (Reg.ISP_PIPE_STATUS_STREAM pipe) = i ∧
      rd t (Reg.ISP_PIPE_CNT_JOBS pipe) = min (2 ^ 32 - 1) (rd s.m (Reg.ISP_PIPE_CNT_JOBS pipe) + 1) ∧
      rd t (Reg.ISP_STR_CNT_JOBS i) = min (2 ^ 32 - 1) (rd s.m (Reg.ISP_STR_CNT_JOBS i) + 1) ∧ t.items = s.m.items ∧ MemKept s.m t)
    (lineSources s.m it.slotAddr (pExp ver.param) (strHeight se)).isSome = true →
    (∀ k, ispDest e ≠ 0 → nextOut s.m i ver.outB = some k → starts { base with toHbm := true, slot := k, addr := ver.outB + k * ispSlotBytes e }) ∧
    (ispDest e = 0 → writable s.m (strPart se) (granules psa (tensorBytes e)) = true → leasedTo s.m (strPart se) psa (tensorBytes e) laneD = true → starts base)) ∧
  (∀ (pipe : Fin 8) (j : Job) (it : Item) (s : State), Powered s → (mget s.m.pipes pipe).job = some j → j.stream < 512 → lookup s.m.items j.tag = some it → it.fixed = none →
    let se := streamEntry s.m j.stream
    let e := ispEntry s.m j.stream
    let ver := ((mget s.m.isps j.stream).vers.find? (fun w => w.id == j.ver)).getD {}
    let ex := pExp ver.param
    let src := (lineSources s.m j.raddr ex (strHeight se)).getD []
    let failed (st : Status) (reason : Nat) (t : Mach) : Prop := (mget t.pipes pipe).job = none ∧ GotStatus j.tag st reason t
    (∀ b, jobStops s.m j = true → Completes (.ispJobStopReset pipe) s (fun t => failed .failedReset 0x8B t ∧ t.log = s.m.log ∧ MemKept s.m t) ∧
      Completes (.ispJobEnd pipe b) s (fun t => failed .failedReset 0x8B t ∧ t.log = s.m.log ∧ MemKept s.m t)) ∧
    (∀ b, jobStops s.m j = false → rawBad s.m se j.raddr src = true ∨ b = true → Completes (.ispJobEnd pipe b) s (fun t => failed .failedFault 0x81 t ∧ Logged 0x50 s.m t ∧
      rd t (Reg.ISP_STR_CNT_CHECK_FAIL j.stream) = min (2 ^ 32 - 1) (rd s.m (Reg.ISP_STR_CNT_CHECK_FAIL j.stream) + 1))) ∧
    (j.start + 2 * j.dur ≤ now s.m → Completes (.ispJobTimeout pipe) s (fun t => failed .failedFault 0x81 t ∧ Logged 0x56 s.m t ∧
      rd t (Reg.ISP_PIPE_CNT_ABORT pipe) = min (2 ^ 32 - 1) (rd s.m (Reg.ISP_PIPE_CNT_ABORT pipe) + 1) ∧
      rd t (Reg.ISP_STR_CNT_ABORT j.stream) = min (2 ^ 32 - 1) (rd s.m (Reg.ISP_STR_CNT_ABORT j.stream) + 1))) ∧
    (jobStops s.m j = false → rawBad s.m se j.raddr src = false → j.start + j.dur ≤ now s.m → src = List.range (strHeight se) → j.tap = false → ispStats e = 0 →
      (mget s.m.comps j.part).length < 512 →
      let gs := rawImages s.m se j.raddr ex src
      let r := if strDt se = 0x1E then runYuv ver.param (gs.getD 0 #[]) (strWidth se) (strHeight se / ex) (ispOutW e) (ispOutH e) (ispPlanes e)
        else runRaw ver.param gs (strWidth se) (strHeight se / ex) (ispOutW e) (ispOutH e) (ispPlanes e)
      Completes (.ispJobEnd pipe false) s (fun t => (mget t.pipes pipe).job = none ∧
        mget t.comps j.part = mget s.m.comps j.part ++ [{ tag := j.tag, lo := j.tag + j.flags * 2 ^ 32 + b2n j.toHbm * 2 ^ 48 + j.slot * 2 ^ 56, hi := j.turn + ver.seq * 2 ^ 32 }] ∧
        (∃ n, lookup t.items j.tag = some n ∧ n.fixed = none ∧ n.hasSlot = false ∧ n.ispFlags = it.ispFlags ||| j.flags ∧ n.turnOf.isSome = true) ∧ t.log = s.m.log ∧
        (j.toHbm = true → MemKept (writeMem (j.addr + 4096 + tensorBytes e) (rowChecks e r.planes) (writeMem (j.addr + 4096) (tensorOf e r.planes)
          (writeMem j.addr (tensorHeader e j.tag j.flags j.turn (le (readMem s.m j.raddr 128) 8 8)) s.m))) t) ∧
        (j.toHbm = false → MemKept (writeMem (psaAddr s.m j.part (j.core * 2 ^ 25 + j.addr)) (tensorOf e r.planes) s.m) t)))) ∧
  (∀ (who : Requester) (i : Fin 1024) (e : List Byte) (s : State), Powered s → i.val < 512 → ispEntry? s.m i = some e →
    (MayWrite s.m who (Reg.ISP_STR_CTRL_COMMIT i) .any →
      let x := mget s.m.isps i
      let ok := paramOk (shadowParam s.m i) (streamEntry s.m i) e && basesOk s.m e (rd s.m (Reg.ISP_STR_SH_SCR i)) (rd s.m (Reg.ISP_STR_SH_OUT i))
      (ok = false → Completes (.ispParamCommit who i) s (fun t => Sets [(Reg.ISP_STR_STATUS_COMMIT_ERROR i, 1)] s.m t ∧ t = { s.m with regs := t.regs })) ∧
      (ok = true → x.pending = none → 4 ≤ x.vers.length → Completes (.ispParamCommit who i) s (fun t =>
        Sets [(Reg.ISP_STR_STATUS_COMMIT_ERROR i, 1), (Reg.ISP_STR_STATUS_VERSIONS_FULL i, 1)] s.m t ∧ t = { s.m with regs := t.regs })) ∧
      (ok = true → x.pending = none → x.vers.length < 4 → Completes (.ispParamCommit who i) s (fun t => (mget t.isps i).pending = some x.nextId ∧
        (mget t.isps i).active = x.active ∧ (∃ w ∈ (mget t.isps i).vers, w.id = x.nextId ∧ w.param = shadowParam s.m i ∧ w.scr = rd s.m (Reg.ISP_STR_SH_SCR i) ∧
          w.outB = rd s.m (Reg.ISP_STR_SH_OUT i)) ∧ rd t (Reg.ISP_STR_APPLY_PENDING i) = 1 ∧ rd t (Reg.ISP_STR_APPLY_APPLY_SEQ i) = (mget s.m.streams i).seq % 2 ^ 22 ∧
        RegsKept [Reg.ISP_STR_STATUS_VERSIONS i, Reg.ISP_STR_STATUS_WAITING i, Reg.ISP_STR_APPLY_PENDING i, Reg.ISP_STR_APPLY_APPLY_SEQ i,
          Reg.ING_STR_APPLY_APPLY_SEQ i] s.m t ∧ MemKept s.m t))) ∧
    (MayWrite s.m who (Reg.ISP_STR_TAP_ARM i) .any → ∀ v : Word,
      let point := v.toNat % 16
      let shift := v.toNat / 16 % 16
      let bad := 11 ≤ point ∨ 9 ≤ shift ∨ ispTapBytes e = 0
      Completes (.ispTapArm who i v) s (fun t => rd t (Reg.ISP_STR_TAP_POINT i) = point ∧ rd t (Reg.ISP_STR_TAP_SHIFT i) = shift ∧
        (bitOf v.toNat 8 = true → bad → rd t (Reg.ISP_STR_TAP_ERROR i) = 1 ∧ t = { s.m with regs := t.regs }) ∧
        (bitOf v.toNat 8 = true → ¬ bad → rd t (Reg.ISP_STR_TAP_ARMED i) = 1 ∧ (mget t.isps i).tapWait = true) ∧
        (bitOf v.toNat 8 = false → t = { s.m with regs := t.regs }) ∧
        RegsKept [Reg.ISP_STR_TAP_POINT i, Reg.ISP_STR_TAP_SHIFT i, Reg.ISP_STR_TAP_DONE i, Reg.ISP_STR_TAP_ERROR i, Reg.ISP_STR_TAP_ARMED i,
          Reg.ISP_STR_STATUS_VERSIONS i, Reg.ISP_STR_STATUS_WAITING i, Reg.ISP_STR_APPLY_PENDING i] s.m t)))

/-- Equalisation that ends well goes on to block lock, ill it starts again. A lane's block lock is shown, the eighth one starts the
search for markers; a block of a hunting lane moves its candidates, a good marker of a locked lane its next place. A lock lost
on a running link, and RETRAIN, take it to RETRAINING with its frames kept, counted; RETRAIN frees a HALTED one. A HELLO that
fails a check halts the link with its reason; one that passes brings it up. An attempt past its limit drops the link, counted
and logged. HOLD disables it, clearing HOLD trains it; UNFENCE brings a FENCED one up. An IDLE row does nothing, an invalid row
is counted. Markers leave on all eight lanes with the counter. A TURN row sets skew, difference and offset, a new excess the
alarm, logged; DELAY rows are sent, answered and measured. (R424 (14_phase_roles_and_sash_links.md); R426
(14_phase_roles_and_sash_links.md); R427 (14_phase_roles_and_sash_links.md); R428 (14_phase_roles_and_sash_links.md); R429
(14_phase_roles_and_sash_links.md); R431 (14_phase_roles_and_sash_links.md); R432 (14_phase_roles_and_sash_links.md); R433
(14_phase_roles_and_sash_links.md); R434 (14_phase_roles_and_sash_links.md); R441 (14_phase_roles_and_sash_links.md); R442
(14_phase_roles_and_sash_links.md); R445 (14_phase_roles_and_sash_links.md)) -/
def Obligations.SashLinksTrainAndAlign : Prop :=
  (∀ (l : Fin 4) (s : State), Powered s →
    let x := mget s.m.links l
    let st := linkState s.m l
    let kept (t : Mach) : Prop := linkState t l = 4 ∧ rd t (Reg.SASH_STATUS_PHASE l) = 0 ∧ (mget t.links l).unacked = x.unacked ∧ (mget t.links l).queue = x.queue ∧
      (mget t.links l).fenced = (st == 3) ∧ (mget t.links l).attemptAt = now s.m ∧ MemKept s.m t ∧
      rd t (Reg.SASH_CNT_RETRAIN l) = min (2 ^ 32 - 1) (rd s.m (Reg.SASH_CNT_RETRAIN l) + 1)
    let from0 (t : Mach) : Prop := linkState t l = 1 ∧ rd t (Reg.SASH_STATUS_PHASE l) = 0 ∧ (mget t.links l).lanes = [] ∧ (mget t.links l).attemptAt = now s.m
    Completes (.sashIdleRx l) s (fun t => t = s.m) ∧
    (st = 1 ∨ st = 4 → rd s.m (Reg.SASH_STATUS_PHASE l) = 0 →
      (s.m.serdes = true → Completes (.sashEqualisationDone l true) s (fun t => t = { s.m with regs := t.regs } ∧ Sets [(Reg.SASH_STATUS_PHASE l, 1)] s.m t)) ∧
      Completes (.sashEqualisationDone l false) s (fun t => linkState t l = st ∧ rd t (Reg.SASH_STATUS_PHASE l) = 0 ∧ (mget t.links l).lanes = [] ∧
        rd t (Reg.SASH_LANE_LOCK_BLOCK l) = 0 ∧ rd t (Reg.SASH_LANE_LOCK_MARKER l) = 0 ∧ MemKept s.m t)) ∧
    (∀ lane : Fin 8, lanesOn s.m l = true →
      let y := mget x.lanes lane
      (y.block = false → Completes (.sashBlockLock l lane) s (fun t => mget (mget t.links l).lanes lane = { block := true } ∧
        bitOf (rd t (Reg.SASH_LANE_LOCK_BLOCK l)) lane = true ∧
        rd t (Reg.SASH_STATUS_PHASE l) = (if rd s.m (Reg.SASH_STATUS_PHASE l) = 1 ∧ (List.range 8).all (fun i => i == lane.val || (mget x.lanes i).block) = true then 2 else rd s.m (Reg.SASH_STATUS_PHASE l)) ∧
        RegsKept [Reg.SASH_LANE_LOCK_BLOCK l, Reg.SASH_LANE_LOCK_MARKER l, Reg.SASH_STATUS_PHASE l] s.m t)) ∧
      (∀ block found bip, y.block = true → y.lock = none → rd s.m (Reg.SASH_STATUS_PHASE l) ≠ 2 → Completes (.sashMarkerRx l lane block found bip) s (fun t =>
        let r := hunt block (found.map (fun f => (f.1.val, f.2.toNat))) bip y
        mget (mget t.links l).lanes lane = r.1 ∧ rd t (Reg.SASH_CNT_CAND_REJECT l) = min (2 ^ 32 - 1) (rd s.m (Reg.SASH_CNT_CAND_REJECT l) + r.2) ∧
        RegsKept [Reg.SASH_CNT_CAND_REJECT l, Reg.SASH_LANE_LOCK_BLOCK l, Reg.SASH_LANE_LOCK_MARKER l] s.m t)) ∧
      (∀ (k : Cand) (i : Fin 8) (n : BitVec 16), y.block = true → y.lock = some k → k.lane = i.val → k.count = n.toNat → Completes (.sashMarkerRx l lane k.due (some (i, n)) true) s (fun t =>
        mget (mget t.links l).lanes lane = { y with miss := 0, lock := some { k with due := k.due + 16384, count := (k.count + 1) % 65536 } } ∧ t.regs = s.m.regs)) ∧
      (y.block = true → linkRuns s.m l = true → Completes (.sashLockLoss l lane true) s kept)) ∧
    (∀ (group : BitVec 64) (package link : Byte) (period session : Word) (boxes : List (Nat × Nat × Nat × Nat × Nat)), st = 1 ∨ st = 4 → rd s.m (Reg.SASH_STATUS_PHASE l) = 4 →
      let r := helloCheck s.m l group.toNat package.toNat link.toNat period.toNat boxes
      (r ≠ 0 → x.serving = [] → Completes (.sashHelloRx l group package link period session boxes) s (fun t => linkState t l = 5 ∧ rd t (Reg.SASH_STATUS_HALT_REASON l) = r ∧
        (mget t.links l).unacked = [] ∧ MemKept s.m t)) ∧
      (r = 0 → x.known = false ∨ rd s.m (Reg.SASH_PEER_SESSION l) = session.toNat → x.fenced = false → Completes (.sashHelloRx l group package link period session boxes) s (fun t =>
        linkState t l = 2 ∧ rd t (Reg.SASH_STATUS_PHASE l) = 0 ∧ rd t (Reg.SASH_PEER_SESSION l) = session.toNat ∧ rd t (Reg.SASH_PEER_PACKAGE l) = package.toNat % 8 ∧ MemKept s.m t))) ∧
    (linkRuns s.m l = true → Completes (.sashRowInvalid l false) s (fun t => t = { s.m with regs := t.regs } ∧
      Sets [(Reg.SASH_CNT_ROW_ERR l, min (2 ^ 32 - 1) (rd s.m (Reg.SASH_CNT_ROW_ERR l) + 1))] s.m t)) ∧
    (st = 1 ∨ st = 4 → x.attemptAt + retrainLimitNs s.m ≤ now s.m → x.serving = [] → Completes (.sashRetrainTimeout l) s (fun t => from0 t ∧ (mget t.links l).unacked = [] ∧
      Logged 0x58 s.m t ∧ rd t (Reg.SASH_CNT_DROP l) = min (2 ^ 32 - 1) (rd s.m (Reg.SASH_CNT_DROP l) + 1))) ∧
    (∀ who, MayWrite s.m who (Reg.SASH_CTRL_RETRAIN l) .pfHcMi → (linkRuns s.m l = true → Completes (.sashRetrain who l) s kept) ∧
      (st = 5 → Completes (.sashRetrain who l) s (fun t => from0 t ∧ rd t (Reg.SASH_STATUS_HALT_REASON l) = 0 ∧ MemKept s.m t))) ∧
    (∀ who, MayWrite s.m who (Reg.SASH_CTRL_UNFENCE l) .pfHcMi → st = 3 → Completes (.sashUnfence who l) s (fun t => linkState t l = 2 ∧ (mget t.links l).fenced = false ∧ MemKept s.m t)) ∧
    (∀ who, MayWrite s.m who (Reg.SASH_CTRL_HOLD l) .pfHcMi →
      (st = 0 → Completes (.sashHoldWrite who l true) s (fun t => t = { s.m with regs := t.regs } ∧ Sets [(Reg.SASH_CTRL_HOLD l, 1)] s.m t)) ∧
      (st ≠ 0 → x.serving = [] → Completes (.sashHoldWrite who l true) s (fun t => linkState t l = 0 ∧ rd t (Reg.SASH_CTRL_HOLD l) = 1 ∧ (mget t.links l).unacked = [] ∧ MemKept s.m t)) ∧
      (st = 0 → applied s.m = true → linkEnabled s.m l = true → rd s.m Reg.PAT_STATUS_LIFECYCLE ≠ 2 → Completes (.sashHoldWrite who l false) s (fun t =>
        from0 t ∧ rd t (Reg.SASH_CTRL_HOLD l) = 0 ∧ MemKept s.m t))) ∧
    (st ≠ 0 → st ≠ 5 → Completes (.sashMarkerTx l) s (fun t => mget t.links l = { x with marker := (x.marker + 1) % 65536 } ∧ t.regs = s.m.regs ∧ MemKept s.m t ∧
      ∀ i < 8, ∃ bip < 256, Output.marker l i [0x5A, 0x4D, 0x96, 0x3A, i * 16 + (7 - i), x.marker % 256, x.marker / 256, bip, scramblerSeed i x.marker] ∈ t.out)) ∧
    (∀ (turn : Word) (time arrival : Nat), linkRuns s.m l = true → rdb s.m Reg.TIME_TURN_STATUS_RUNNING = true →
      let a : Int := (arrival : Int) - rd s.m (Reg.SASH_LINK_DELAY l)
      let k : Int := (2 * (a - s.m.time.lastTick) + periodNs s.m) / (2 * periodNs s.m)
      let g : Int := s.m.time.lastTick + k * periodNs s.m
      let above := skewLimitNs s.m < (satNs (a - g)).natAbs
      Completes (.sashTurnRx l turn time arrival) s (fun t => rd t (Reg.SASH_TURN_SKEW l) = fieldOf 32 (satNs (a - g)) % 2 ^ 32 ∧
        rd t (Reg.SASH_TIME_DIFF l) = fieldOf 32 (satNs ((time : Int) - g)) % 2 ^ 32 ∧
        rd t (Reg.SASH_TURN_OFFSET l) = fieldOf 32 ((turn.toNat : Int) - (gridTurn s.m + k)) % 2 ^ 32 ∧
        (above → rdb t (Reg.SASH_STATUS_SKEW_ALARM l) = true ∧ (rdb s.m (Reg.SASH_STATUS_SKEW_ALARM l) = false → rd t (Reg.SASH_STATUS_SKEW_EVENT l) = 1 ∧ Logged 0x58 s.m t)) ∧
        (¬ above → rd t (Reg.SASH_STATUS_SKEW_ALARM l) = 0 ∧ t = { s.m with regs := t.regs }))) ∧
    (linkRuns s.m l = true → x.delayAt + 125000000 ≤ now s.m → Completes (.sashDelayTx l) s (fun t => t = { s.m with links := t.links, out := .sashRow l 0x78 [0, now s.m] :: s.m.out } ∧
      mget t.links l = { x with delayT1 := some (now s.m), delayAt := now s.m })) ∧
    (∀ t1 t2 t3 arrival, linkRuns s.m l = true →
      Completes (.sashDelayRx l false t1 t2 t3 arrival) s (fun t => t = { s.m with out := .sashRow l 0x78 [1, t1, arrival, now s.m] :: s.m.out }) ∧
      (x.delayT1 = some t1 → Completes (.sashDelayRx l true t1 t2 t3 arrival) s (fun t =>
        Sets [(Reg.SASH_LINK_DELAY l, fieldOf 32 ((((arrival : Int) - t1) - ((t3 : Int) - t2)) / 2) % 2 ^ 32)] s.m t ∧ mget t.links l = { x with delayT1 := none }))))

/-- On a running link a frame out of order, and a bad one, is counted and NAKed with the credits owed, and takes nothing. A frame in
order moves the next SEQ up; a FENCED link drops what it bears. On one that is UP: a reference message or a page request for a
busy walker joins what it takes at its boundary, the 33rd request waits; an answer takes the message out of its ring; a page
frame is stored in the mirror, GONE and a data error give the mirror up and note the reason; a slot frame is stored in the free
inbox slot, the last one makes it arrived; a slot credit adds a grant. An ACK row adds its credits and ends frames up to its
SEQ. ACK rows carry what is owed. Behind 20 µs without an ACK every outstanding frame goes again, the fifth time the link
retrains. A posted slot with a good trailer is sent, one with a bad trailer is dropped, counted and logged. (R406
(13_attention_and_kv_pages.md); R433 (14_phase_roles_and_sash_links.md); R434 (14_phase_roles_and_sash_links.md); R435
(14_phase_roles_and_sash_links.md); R436 (14_phase_roles_and_sash_links.md); R437 (14_phase_roles_and_sash_links.md); R438
(14_phase_roles_and_sash_links.md); R439 (14_phase_roles_and_sash_links.md); R440 (14_phase_roles_and_sash_links.md)) -/
def Obligations.SashFramesAreTakenAndAcknowledged : Prop :=
  (∀ (l : Fin 4) (s : State), Powered s → linkRuns s.m l = true →
    let x := mget s.m.links l
    let nak (t : Mach) : Prop := t = { s.m with regs := t.regs, links := t.links, out := .sashRow l 0x55 ([(x.rxSeq + 65535) % 65536, 1] ++ x.owed) :: s.m.out } ∧
      Sets [(Reg.SASH_CNT_CRC_NAK l, min (2 ^ 32 - 1) (rd s.m (Reg.SASH_CNT_CRC_NAK l) + 1))] s.m t ∧
      mget t.links l = { x with owed := [0, 0, 0], rows := 0, ackSent := now s.m, nak := false }
    Completes (.sashFrameBad l) s nak ∧
    (∀ (seq : BitVec 16) (src dest : Fin 8) (b : Bool) (page epoch n : Nat) (i : Fin 16) (data : List Byte),
      let frames := [Instr.sashFrameRefMsg l seq src dest b page epoch n, .sashFrameRefAck l seq src dest n b, .sashFramePageReq l seq src page epoch n,
        .sashFramePageData l seq n i data, .sashFramePageGone l seq n, .sashFramePageErr l seq n]
      (∀ c ∈ frames, seq.toNat ≠ x.rxSeq → Completes c s nak) ∧
      (seq.toNat ≠ x.rxSeq → Completes (.sashFrameSlotData l seq n page data) s nak ∧ Completes (.sashFrameSlotFree l seq n) s nak) ∧
      (∀ c ∈ frames, seq.toNat = x.rxSeq → linkState s.m l = 3 → Completes c s (fun t => t = { s.m with links := t.links } ∧ (mget t.links l).rxSeq = (x.rxSeq + 1) % 65536))) ∧
    Completes (.sashAckTx l) s (fun t => t = { s.m with links := t.links, out := .sashRow l 0x55 ([(x.rxSeq + 65535) % 65536, b2n x.nak] ++ x.owed) :: s.m.out } ∧
      mget t.links l = { x with owed := [0, 0, 0], rows := 0, ackSent := now s.m, nak := false }) ∧
    (x.unacked ≠ [] → x.ackAt + 20000 ≤ now s.m →
      (x.fails ≠ 4 → Completes (.sashReplayTimeout l) s (fun t => mget t.links l = { x with fails := x.fails + 1, ackAt := now s.m } ∧
        t.out = (x.unacked.map (fun f => Output.sashFrame l f.vc f.kind f.seq f.fields f.data)).reverse ++ s.m.out ∧
        Sets [(Reg.SASH_CNT_REPLAY_ROWS l, min (2 ^ 32 - 1) (rd s.m (Reg.SASH_CNT_REPLAY_ROWS l) + (x.unacked.map SFrame.rows).sum))] s.m t)) ∧
      (x.fails = 4 → Completes (.sashReplayTimeout l) s (fun t => linkState t l = 4 ∧ (mget t.links l).unacked = x.unacked ∧ MemKept s.m t))) ∧
    (∀ (seq : BitVec 16) (c0 c1 c2 : Nat), x.queue = [] → (∀ p < 8, kvIdle s.m p = false) → (∀ f ∈ x.unacked, f.kind ≠ SFrame.pageData ∧ f.kind ≠ SFrame.slotData) →
      Completes (.sashAckRx l seq false c0 c1 c2) s (fun t => t = { s.m with links := t.links } ∧
        (mget t.links l).credits = [x.credits.getD 0 0 + c0, x.credits.getD 1 0 + c1, x.credits.getD 2 0 + c2] ∧
        ((∀ f ∈ x.unacked, f.seq ≠ seq.toNat) → (mget t.links l).unacked = x.unacked) ∧
        (∀ old f new, x.unacked = old ++ f :: new → f.seq = seq.toNat → (∀ g ∈ old, g.seq ≠ seq.toNat) → (mget t.links l).unacked = new ∧ (mget t.links l).fails = 0)))) ∧
  (∀ (l : Fin 4) (seq : BitVec 16) (s : State), Powered s → linkState s.m l = 2 → seq.toNat = (mget s.m.links l).rxSeq →
    let x := mget s.m.links l
    let moved (t : Mach) : Prop := (mget t.links l).rxSeq = (x.rxSeq + 1) % 65536
    (∀ (src dest : Fin 8) (add gone : Bool) (page epoch n : Nat),
      (kvIdle s.m dest = false → Completes (.sashFrameRefMsg l seq src dest add page epoch n) s (fun t => moved t ∧ t = { s.m with links := t.links, kvs := t.kvs } ∧
        mget t.kvs dest = { mget s.m.kvs dest with inbox := (mget s.m.kvs dest).inbox ++ [.ref (8 + l * 8 + src) { inc := add, seq := n, page := page, epoch := epoch }] })) ∧
      ((mget s.m.kvs src).op = .instr → Completes (.sashFrameRefAck l seq src dest n gone) s (fun t => moved t ∧
        (mget t.kvs src).msgs = dropFirst (fun g => g.pkg * 8 + g.part == peerPackage s.m l * 8 + dest && g.seq == n) (mget s.m.kvs src).msgs ∧
        RegsKept [Reg.KV_STATUS_MSG_BACKLOG src] s.m t ∧ MemKept s.m t)) ∧
      (kvIdle s.m src = false → x.serving.length < 32 → Completes (.sashFramePageReq l seq src page epoch n) s (fun t => moved t ∧ t = { s.m with links := t.links, kvs := t.kvs } ∧
        (mget t.links l).serving = x.serving ++ [{ req := n, part := src, page := page, epoch := epoch }] ∧
        (mget t.kvs src).inbox = (mget s.m.kvs src).inbox ++ [.page l n page epoch])) ∧
      (32 ≤ x.serving.length → Completes (.sashFramePageReq l seq src page epoch n) s (fun t => moved t ∧ t = { s.m with links := t.links } ∧
        (mget t.links l).waiting = x.waiting ++ [{ req := n, part := src, page := page, epoch := epoch }]))) ∧
    (∀ (req : Nat) (r : KvRead), readOf s.m l req = some r →
      (∀ (i : Fin 16) (data : List Byte), r.frames < 15 → Clean s.m (kvPage s.m (req % 8) r.mirror + 4096 * i) 4096 → Completes (.sashFramePageData l seq req i data) s (fun t => moved t ∧
        Stored (kvPage s.m (req % 8) r.mirror + 4096 * i) (padTo 4096 data) s.m t ∧ t.regs = s.m.regs ∧
        (mget t.kvs (req % 8)).reads = (mget s.m.kvs (req % 8)).reads.map (fun y => if y.req = req then { y with frames := y.frames + 1 } else y))) ∧
      (∀ rest, (mget s.m.kvs (req % 8)).reads = r :: rest → rest ≠ [] → (∀ y ∈ rest, y.req ≠ req) → (mget s.m.kvs (req % 8)).fail = none →
        let above (k : Nat) (t : Mach) : Prop := moved t ∧ (mget t.kvs (req % 8)).reads = rest ∧ (mget t.kvs (req % 8)).fail = some k ∧
          (mget t.kvs (req % 8)).zeroing = (mget s.m.kvs (req % 8)).zeroing ++ [r.mirror]
        Completes (.sashFramePageGone l seq req) s (above Kvr.gone) ∧ Completes (.sashFramePageErr l seq req) s (above Kvr.dataEcc))) ∧
    (∀ (box k : Nat) (data : List Byte), box < 32 → (boxAt s.m box).part < 8 →
      let b := boxAt s.m box
      let y := mget s.m.boxes box
      let a := b.base + k * b.bytes + 4096 * y.frames
      (boxOn s.m l box 0 = true → Completes (.sashFrameSlotFree l seq box) s (fun t => moved t ∧ t = { s.m with links := t.links, boxes := t.boxes } ∧
        mget t.boxes box = { y with grants := y.grants + 1 })) ∧
      (boxOn s.m l box 1 = true → freeInSlot s.m b = some k → Clean s.m a 4096 →
        ((y.frames + 1) * 4096 < b.bytes → Completes (.sashFrameSlotData l seq box y.frames data) s (fun t => moved t ∧ Stored a (padTo 4096 data) s.m t ∧
          mget t.boxes box = { y with frames := y.frames + 1 } ∧ t.regs = s.m.regs)) ∧
        (b.bytes ≤ (y.frames + 1) * 4096 → Completes (.sashFrameSlotData l seq box y.frames data) s (fun t => moved t ∧ Stored a (padTo 4096 data) s.m t ∧
          mget t.boxes box = { y with used := y.used ++ [k], next := (k + 1) % b.slots, frames := 0 } ∧
          rd t (Reg.SASH_CNT_SLOTS_RECV b.link) = min (2 ^ 32 - 1) (rd s.m (Reg.SASH_CNT_SLOTS_RECV b.link) + 1)))))) ∧
  (∀ (l : Fin 4) (box : Fin 32) (k : Nat) (s : State), Powered s → linkState s.m l = 2 → boxOn s.m l box 0 = true → (boxAt s.m box).part < 8 →
    let b := boxAt s.m box
    let y := mget s.m.boxes box
    let bs := readMem s.m (b.base + k * b.bytes) b.bytes
    y.used.find? (fun i => !y.sent.contains i) = some k → y.grants ≠ 0 → Clean s.m (b.base + k * b.bytes) b.bytes →
    (le bs (b.bytes - 4) 4 = crc32c (bs.take (b.bytes - 4)) → Completes (.sashSlotSend l box) s (fun t => MemKept s.m t ∧
      mget t.boxes box = { y with sent := y.sent ++ [k], grants := y.grants - 1, next := (k + 1) % b.slots } ∧
      rd t (Reg.SASH_CNT_SLOTS_SENT l) = min (2 ^ 32 - 1) (rd s.m (Reg.SASH_CNT_SLOTS_SENT l) + 1))) ∧
    (le bs (b.bytes - 4) 4 ≠ crc32c (bs.take (b.bytes - 4)) → Completes (.sashSlotSend l box) s (fun t => Logged 0x58 s.m t ∧
      mget t.boxes box = { y with used := y.used.filter (· != k), next := (k + 1) % b.slots } ∧
      rd t (Reg.SASH_CNT_BAD_POST l) = min (2 ^ 32 - 1) (rd s.m (Reg.SASH_CNT_BAD_POST l) + 1))))

/-- In every powered state, the indication of an uncorrectable or poisoned island SRAM word is fatal: the safe state is entered for
the cause ISLAND_MEMORY (code 20), and a fatal record of the island's memory that names the word's address joins the log.
Registers outside the host interface and the first registers of the SAF block stay. (R534) -/
def Obligations.IslandMemoryErrorsAreFatal : Prop :=
  Cause.islandMemory.code = 20 ∧ ∀ (addr : Nat) (s : State), Powered s → Completes (.fatalIndication 2 addr) s (fun t => Entered .islandMemory s.m t ∧
    (∃ new, t.log = (new ++ s.m.log).take 4096 ∧ ∃ r ∈ new, r.source = 0x47 ∧ r.fatal = true ∧ r.detail = leBytes 4 addr) ∧
    ∀ f : Fld, f.beyond → rd t f = rd s.m f)

/-- A disagreement of the fault collector's or the Caller's copies, a wrong readback of SAFE_n, a vote with no odd core or in pair
mode, and a watchdog write too early or too late or missing, enter the safe state; a lost vote and a missing write stop the
island. A vote with an odd core starts its resynchronisation, whose end is counted and logged and fences the core at its third
within 1 s. A debug halt stops the cores and enters the safe state; register writes are kept, the 257th is refused; resume
empties them, and an odd core is resynchronised. ACTION 2 enters the safe state; ACTION 1 with the token, where every cause may
be left, begins the exit, else it is refused, counted and logged, as is any other action. Tests that pass let the exit go on,
that fail are fatal; at its turns both latches clear and SAFE_n rises. (R507 (17_safety_channels_and_safe_state.md); R509
(17_safety_channels_and_safe_state.md); R512 (17_safety_channels_and_safe_state.md); R530
(17_safety_channels_and_safe_state.md); R531 (17_safety_channels_and_safe_state.md); R532
(17_safety_channels_and_safe_state.md); R538 (17_safety_channels_and_safe_state.md); R539
(17_safety_channels_and_safe_state.md); R506 (17_safety_channels_and_safe_state.md)) -/
def Obligations.TheIslandVotesAndTheSafeStateHolds : Prop :=
  (∀ s : State, Powered s →
    (∀ addr, Completes (.fatalIndication 0 addr) s (fun t => Entered .faultCollector s.m t ∧ ∀ f : Fld, f.beyond → rd t f = rd s.m f) ∧
      Completes (.fatalIndication 1 addr) s (fun t => Entered .caller s.m t ∧ Noted 0x49 s.m t ∧ ∀ f : Fld, f.beyond → rd t f = rd s.m f)) ∧
    (∀ level : Bool, s.m.saf.islandUp = true →
      (level = (!s.m.saf.latchA && !s.m.saf.latchB) → Completes (.safeNReadback level) s (fun t => t = { s.m with regs := t.regs } ∧ Sets [(Reg.SAF_STATUS_SAFE_N, b2n level)] s.m t)) ∧
      (level ≠ (!s.m.saf.latchA && !s.m.saf.latchB) → Completes (.safeNReadback level) s (Entered .faultCollector s.m))) ∧
    (s.m.saf.islandUp = true → s.m.saf.halted = false →
      (∀ k : Fin 3, pairMode s.m = false → Completes (.islandVoteMismatch (some k)) s (fun t => t.saf.odd = some k.val ∧ t.saf.oddAt = now s.m ∧
        rd t Reg.SAF_STATUS_ISLAND_MODE = 1 ∧ Noted 0x43 s.m t ∧ ∀ f : Fld, f.beyond → rd t f = rd s.m f)) ∧
      (∀ odd, odd = none ∨ pairMode s.m = true → Completes (.islandVoteMismatch odd) s (fun t => Entered .islandVote s.m t ∧ t.saf.islandUp = false)) ∧
      (∀ t0, s.m.saf.wdogLast = some t0 →
        (s.m.saf.wdogFresh = true ∨ 50000 ≤ now s.m - t0 → now s.m - t0 ≤ 150000 → Completes .islandWatchdogWrite s (fun t =>
          t = { s.m with saf := { s.m.saf with wdogLast := some (now s.m), wdogFresh := false } })) ∧
        (s.m.saf.wdogFresh = false ∧ now s.m - t0 < 50000 ∨ 150000 < now s.m - t0 → Completes .islandWatchdogWrite s (Entered .islandWdog s.m)) ∧
        (t0 + 150000 < now s.m → Completes .islandWatchdogTimeout s (fun t => Entered .islandWdog s.m t ∧ t.saf.islandUp = false)))) ∧
    (∀ k, s.m.saf.odd = some k →
      let past := now s.m :: (mget s.m.saf.resyncs k).filter (fun t => now s.m < t + 1000000000)
      Completes .islandResyncComplete s (fun t => t.saf.odd = none ∧ mget t.saf.resyncs k = past ∧ Noted 0x44 s.m t ∧
        (past.length < 3 → rd t Reg.SAF_STATUS_ISLAND_MODE = 0 ∧ t.saf.fenced = s.m.saf.fenced) ∧
        (3 ≤ past.length → rd t Reg.SAF_STATUS_ISLAND_MODE = 2 ∧ rd t Reg.SAF_STATUS_FENCED_CORE = k % 4 ∧ t.saf.fenced = [k] ∧ Noted 0x45 s.m t)))) ∧
  (∀ s : State, Powered s → debugOpen s.m = true →
    (s.m.saf.halted = false → s.m.saf.islandUp = true → Completes .debugHalt s (fun t => Entered .debugHalt s.m t ∧ t.saf.halted = true ∧ Noted 0x5C s.m t)) ∧
    Completes .debugStep s (fun t => t = s.m) ∧
    (∀ reg value, (s.m.saf.replay.length < 256 → Completes (.debugStateWrite reg value) s (fun t =>
        t = { s.m with saf := { s.m.saf with replay := s.m.saf.replay ++ [(reg, value)] } })) ∧
      (256 ≤ s.m.saf.replay.length → Completes (.debugStateWrite reg value) s (fun t => t = { s.m with out := .debugBusy :: s.m.out }))) ∧
    (s.m.saf.halted = true → Completes (.debugResume none) s (fun t => Logged 0x5C s.m t ∧ (∀ f : Fld, f.unlogged → rd t f = rd s.m f) ∧
        t.saf = { s.m.saf with halted := false, replay := [], wdogLast := some (now s.m), wdogFresh := true }) ∧
      (∀ k : Fin 3, pairMode s.m = false → Completes (.debugResume (some k)) s (fun t => t.saf.halted = false ∧ t.saf.replay = [] ∧ t.saf.odd = some k.val ∧
        rd t Reg.SAF_STATUS_ISLAND_MODE = 1 ∧ Output.debugEvent ∈ t.out)))) ∧
  (∀ (who : Requester) (s : State), Powered s → MayWrite s.m who Reg.HOST_SAF_REQUEST_ACTION .pfHc →
    let refused (t : Mach) : Prop := rd t Reg.SAF_CNT_EXIT_REFUSED = min (2 ^ 32 - 1) (rd s.m Reg.SAF_CNT_EXIT_REFUSED + 1) ∧ Logged 0x41 s.m t ∧ t.saf = s.m.saf ∧
      ∀ f : Fld, f.unlogged → f.key ≠ Reg.SAF_CNT_EXIT_REFUSED.key → rd t f = rd s.m f
    Completes (.safeEnterRequest who) s (fun t => Entered .hostRequest s.m t ∧ ∀ f : Fld, f.beyond → rd t f = rd s.m f) ∧
    (∀ action : Byte, action ≠ 1 → action ≠ 2 → Completes (.safRequestInvalid who action) s refused) ∧
    (∀ token : BitVec 16,
      let may := exitMode s.m = 1 ∧ rd s.m Reg.SAF_STATUS_EXIT_TOKEN = token.toNat ∧ ∀ k ∈ s.m.saf.causes, mayExit s.m k = true
      (may → Completes (.safeExitRequest who token) s (fun t => t.saf = { s.m.saf with exit := some { at0 := now s.m } } ∧
        Sets [(Reg.SAF_STATUS_EXIT_PENDING, 1)] s.m t ∧ MemKept s.m t)) ∧
      (¬ may → Completes (.safeExitRequest who token) s refused))) ∧
  (∀ s : State, Powered s →
    (∀ x, s.m.saf.exit = some x → x.tested = false → x.at0 + 2000000 ≤ now s.m →
      Completes (.safeExitTestsComplete false) s (fun t => t = { s.m with saf := { s.m.saf with exit := some { x with tested := true } } }) ∧
      Completes (.safeExitTestsComplete true) s (fun t => Entered .selftest s.m t ∧ t.saf.exit = none)) ∧
    (∀ x n, s.m.saf.exit = some x → x.tested = true → x.turns = some n → exitTurns s.m ≤ n → now s.m ≤ rd s.m Reg.TIME_TURN_TICK + 2 →
      (∀ k ∈ s.m.saf.causes, mayExit s.m k = true) → Completes .safeExitComplete s (fun t => inSafe t = false ∧ rd t Reg.SAF_STATUS_SAFE_N = 1 ∧
        rd t Reg.SAF_STATUS_EXIT_PENDING = 0 ∧ t.saf = { s.m.saf with latchA := false, latchB := false, causes := [], exit := none } ∧ Noted 0x41 s.m t ∧
        ∀ f : Fld, f.beyond → rd t f = rd s.m f)))

/-- A grid of no open item is counted as late; one with a bad CRC is logged and noted; the first of two waits; with both there
outside the safe state, cells that agree within the profile's limits accept the item, count it and send its fragments on the
ports that are up, and others reject it with reason REGION or COUNT and the number of disagreements, logged. A run of rejected
grids at its limit raises class G, with the safe state where the reaction says so. A tick's alive frame leaves on each port that
is up with the next sequence number, and HB_OUT toggles. A received frame of another type is discarded and counted. The Partner
clock's deviation is shown, above 1 % it is a fault; a Partner fault empties its FIFO and lanes and holds it; its wipe ends it.
A chunk for a taken item is stored with its valid bit and its notice, one for none is dropped and counted; a close leaves the
count and a notice. (R513 (17_safety_channels_and_safe_state.md); R516 (17_safety_channels_and_safe_state.md); R517
(17_safety_channels_and_safe_state.md); R518 (17_safety_channels_and_safe_state.md); R519
(17_safety_channels_and_safe_state.md); R521 (17_safety_channels_and_safe_state.md); R522
(17_safety_channels_and_safe_state.md); R523 (17_safety_channels_and_safe_state.md); R525
(17_safety_channels_and_safe_state.md); R526 (17_safety_channels_and_safe_state.md); R527
(17_safety_channels_and_safe_state.md); R528 (17_safety_channels_and_safe_state.md)) -/
def Obligations.GridsReachTheCallerAndThePartnerItsItems : Prop :=
  (∀ (partner bad : Bool) (tag : Nat) (g : GridMsg) (rest : List GridMsg) (s : State), Powered s → takeGrid partner tag s.m.grids = some (g, rest) →
    let k := mget s.m.saf.caller tag
    ((lookup s.m.items tag = none ∨ ∃ it, lookup s.m.items tag = some it ∧ it.verdict.isSome = true) → Completes (.callerGridArrival partner tag bad false) s (fun t =>
      t = { s.m with regs := t.regs, grids := rest } ∧ rd t Reg.SAF_CALLER_CNT_LATE_GRID = min (2 ^ 32 - 1) (rd s.m Reg.SAF_CALLER_CNT_LATE_GRID + 1) ∧
      RegsKept [Reg.SAF_CALLER_CNT_LATE_GRID, Reg.PTN_CNT_LATE_GRIDS] s.m t)) ∧
    (∀ it, lookup s.m.items tag = some it → it.verdict = none → it.fixed = none →
      Completes (.callerGridArrival partner tag true false) s (fun t => t.grids = rest ∧ Logged 0x50 s.m t ∧ mget t.saf.caller tag = { k with crc := true } ∧ t.items = s.m.items) ∧
      (inSafe s.m = false → s.m.saf.latchA = false → s.m.saf.latchB = false →
        ((if partner then k.main else k.partner) = none → Completes (.callerGridArrival partner tag false false) s (fun t => t.grids = rest ∧ t.items = s.m.items ∧
          mget t.saf.caller tag = if partner then { k with partner := some g.data } else { k with main := some g.data })) ∧
        (∀ a b, (partner = true ∧ k.main = some a ∧ b = g.data) ∨ (partner = false ∧ a = g.data ∧ k.partner = some b) →
          let pr := (callerProfile s.m (tagStream tag)).getD []
          let r := compareCells pr a b
          (r.2.2 = false → r.2.1 ≤ le pr 6 2 → Completes (.callerGridArrival partner tag false false) s (fun t => lookup t.items tag = some { it with verdict := some true } ∧
            t.saf.accepted = s.m.saf.accepted + 1 ∧ rd t Reg.SAF_CALLER_CNT_ACCEPTED = min (2 ^ 32 - 1) (rd s.m Reg.SAF_CALLER_CNT_ACCEPTED + 1) ∧
            ∀ e < 2, rd s.m (Reg.SAF_ETH_STATUS_STATE e) = 2 → ∀ f < ceilDiv r.1.length 1400, ∃ q,
              Output.safetyFrame e (gridFrag s.m tag it pr r.1 f q e ++ leBytes 4 (crc32 (gridFrag s.m tag it pr r.1 f q e))) ∈ t.out)) ∧
          (r.2.2 = true ∨ le pr 6 2 < r.2.1 → getD 0 s.m.saf.runs (tagStream tag) + 1 < rejectRun s.m → Completes (.callerGridArrival partner tag false false) s (fun t =>
            lookup t.items tag = some { it with verdict := some false } ∧ t.saf.rejected = s.m.saf.rejected + 1 ∧ Noted 0x48 s.m t ∧
            rd t Reg.SAF_CALLER_LAST_REASON = (if r.2.2 then 2 else 1) ∧ rd t Reg.SAF_CALLER_LAST_DISAGREE = min 16384 r.2.1 ∧
            rd t Reg.SAF_CALLER_LAST_TAG = tag % 2 ^ 32 ∧ getD 0 t.saf.runs (tagStream tag) = getD 0 s.m.saf.runs (tagStream tag) + 1))))) ) ∧
  (∀ (i : Nat) (s : State), Powered s → getD 0 s.m.saf.runs i ≠ 0 → rejectRun s.m ≤ getD 0 s.m.saf.runs i → i ∉ s.m.saf.raised → Completes (.rejectRunLimit i) s (fun t =>
    t.saf.raised = s.m.saf.raised ++ [i] ∧ t.saf.condReject = s.m.saf.condReject ++ [i] ∧ (reactReject s.m = 2 → Entered .reject s.m t) ∧ ∀ f : Fld, f.beyond → rd t f = rd s.m f)) ∧
  (∀ (a : Alive) (s : State), Powered s → s.m.saf.aliveDue = some a → s.m.saf.islandUp = true → s.m.saf.halted = false →
    let n := { s.m with saf := { s.m.saf with aliveDue := none, aliveSeq := (s.m.saf.aliveSeq + 1) % 2 ^ 32 } }
    Completes .aliveFrameSend s (fun t => t = { n with regs := t.regs, out := t.out } ∧ rdb t Reg.SAF_STATUS_HB_OUT = !rdb s.m Reg.SAF_STATUS_HB_OUT ∧
      rd t Reg.SAF_CNT_ALIVE = min (2 ^ 32 - 1) (rd s.m Reg.SAF_CNT_ALIVE + 1) ∧ RegsKept [Reg.SAF_STATUS_HB_OUT, Reg.SAF_CNT_ALIVE, Reg.SAF_ETH_CNT_TX 0, Reg.SAF_ETH_CNT_TX 1] s.m t ∧
      ∀ e < 2, rd s.m (Reg.SAF_ETH_STATUS_STATE e) = 2 → Output.safetyFrame e (aliveBytes n a e ++ leBytes 4 (crc32 (aliveBytes n a e))) ∈ t.out)) ∧
  (∀ (e : Fin 2) (frame : List Byte) (s : State), Powered s → rd s.m (Reg.SAF_ETH_STATUS_STATE e) = 2 → (ethHeader frame).2.2.1 ≠ 0x0806 → (ethHeader frame).2.2.1 ≠ 0x88F7 →
    Completes (.safetyEthRx e frame) s (fun t => t = { s.m with regs := t.regs } ∧
      Sets [(Reg.SAF_ETH_CNT_RX_DISCARD e, min (2 ^ 32 - 1) (rd s.m (Reg.SAF_ETH_CNT_RX_DISCARD e) + 1))] s.m t)) ∧
  (∀ s : State, Powered s →
    let stopped (t : Mach) : Prop := rd t Reg.PTN_STATUS_STATE = 2 ∧ rd t Reg.PTN_STATUS_ROUTINE_RUNNING = 0 ∧ mget t.rnotes 8 = [] ∧ t.lane = [] ∧
      (mget t.seqs 8).run = none ∧ t.saf.condPartner = true ∧ rd t Reg.PTN_CNT_FAULTS = min (2 ^ 32 - 1) (rd s.m Reg.PTN_CNT_FAULTS + 1) ∧ Noted 0x4A s.m t ∧
      (reactPartner s.m = 2 → Entered .partner s.m t)
    (∀ dev : Int, (dev.natAbs ≤ 100 ∨ rd s.m Reg.PTN_STATUS_STATE ≠ 1 → Completes (.partnerClockCheck dev) s (fun t => t = { s.m with regs := t.regs } ∧
        Sets [(Reg.PTN_STATUS_CLOCK_DEV, min 65535 dev.natAbs)] s.m t)) ∧
      (100 < dev.natAbs → rd s.m Reg.PTN_STATUS_STATE = 1 → Completes (.partnerClockCheck dev) s stopped)) ∧
    (∀ k : Fin 6, rd s.m Reg.PTN_STATUS_STATE = 1 → Completes (.partnerFault k) s stopped) ∧
    (rd s.m Reg.PTN_STATUS_STATE = 2 → s.m.saf.ptnWipeAt + 36409 ≤ now s.m → Completes .partnerWipeComplete s (fun t => t = { s.m with regs := t.regs } ∧
      Sets [(Reg.PTN_STATUS_STATE, 0)] s.m t)) ∧
    (∀ k rest, s.m.lane = k :: rest →
      (k.index ≠ 0xFFFFFFFF → (ptnEntry s.m (tagStream k.tag) = none ∨ 2 ≤ rd s.m Reg.PTN_STATUS_STATE) → Completes (.partnerChunkRx false) s (fun t => t.lane = rest ∧
        Sets [(Reg.PTN_CNT_DROPS, min (2 ^ 32 - 1) (rd s.m Reg.PTN_CNT_DROPS + 1))] s.m t ∧ MemKept s.m t ∧
        ∀ it, lookup s.m.items k.tag = some it → lookup t.items k.tag = some { it with itemFlags := it.itemFlags ||| 2 ^ 21 })) ∧
      (∀ x, ptnEntry s.m (tagStream k.tag) = some x → lookup s.m.saf.ptnIn k.tag = some true → (mget s.m.rnotes 8).length < 512 →
        let base := ptnSlot x k.tag
        let off := base + 64 + ptnMap (streamEntry s.m (tagStream k.tag)) + k.index * le x 12 4
        let a := ptnAddr (base + 64 + k.index / 8)
        let n := writeMem (ptnAddr off) k.data s.m
        (k.index ≠ 0xFFFFFFFF → rd s.m Reg.PTN_STATUS_STATE < 2 → Completes (.partnerChunkRx false) s (fun t => t.lane = rest ∧ t.regs = s.m.regs ∧
          MemKept (if k.valid then writeMem a [rb n a ||| BitVec.ofNat 8 (2 ^ (k.index % 8))] n else n) t ∧
          mget t.rnotes 8 = mget s.m.rnotes 8 ++ [{ tag := k.tag, lo := k.tag + k.index * 2 ^ 32, hi := k.data.length + off * 2 ^ 32 }])) ∧
        (k.index = 0xFFFFFFFF → Completes .partnerItemClose s (fun t => t.lane = rest ∧ t.regs = s.m.regs ∧ lookup t.saf.ptnIn k.tag = none ∧
          MemKept (writeMem (ptnAddr (base + 4)) (leBytes 4 k.stamp) s.m) t ∧
          mget t.rnotes 8 = mget s.m.rnotes 8 ++ [{ tag := k.tag, lo := k.tag + 0xFFFFFFFF * 2 ^ 32, hi := k.stamp + base * 2 ^ 32 }])))))

/-- The link comes up with its speed and width. NumVFs, VF Enable, Bus Master Enable and D3hot take the values written; a function
without pending vectors only changes its power state. A VF's FLR, and for the PF and every VF a PF FLR, a hot reset, the link
going down, the loss of PE_REFCLK and PERST_n going low, reset the function: it is resetting since now, its rings are DISABLED,
and every lock it held is released abandoned (of functions whose rings hold no descriptor and no spilled record, nothing is
logged and no memory changes); VF Enable going to 0 resets the VFs. The end of a reset clears its bit. Losing SERDES_REFCLK
retrains every running Sash link and takes NVMe down; its return is noted. (R545 (18_queues_host_and_virtual_instances.md); R546
(18_queues_host_and_virtual_instances.md); R547 (18_queues_host_and_virtual_instances.md); R566
(18_queues_host_and_virtual_instances.md); R573 (18_queues_host_and_virtual_instances.md); R574
(18_queues_host_and_virtual_instances.md); R577 (18_queues_host_and_virtual_instances.md); R578
(18_queues_host_and_virtual_instances.md); R679 (23_startup_balls_and_package.md); R685 (23_startup_balls_and_package.md)) -/
def Obligations.FunctionsAndTheLinkComeAndGo : Prop :=
  (∀ (gen width : Nat) (s : State), Powered s → s.m.perst = false → s.m.pe = false → 1 ≤ gen → gen ≤ 5 → width ∈ [1, 2, 4, 8, 16] → Completes (.pcieLinkUp gen width) s (fun t =>
    t = { s.m with pe := true, regs := t.regs } ∧ Sets [(Reg.HOST_STATUS_SPEED, gen), (Reg.HOST_STATUS_WIDTH, width)] s.m t)) ∧
  (∀ s : State, Powered s → s.m.pe = true → s.m.endpoint = true →
    Completes .vfEnableSet s (fun t => t = { s.m with regs := t.regs } ∧ Sets [(Reg.HOST_STATUS_VF_ENABLE, 1)] s.m t) ∧
    ∀ n, Completes (.numvfsWrite n) s (fun t => t = { s.m with regs := t.regs } ∧ Sets [(Reg.HOST_STATUS_NUMVFS, min n (vfTotal s.m) % 64)] s.m t)) ∧
  (∀ (v : Fin 64) (s : State), Powered s →
    let f := mget s.m.funcs v
    (fnReach s.m v = true →
      Completes (.busMasterEnableSet v) s (fun t => t = { s.m with funcs := t.funcs } ∧ mget t.funcs v = { f with busMaster := true } ∧ ∀ k, k ≠ v.val → mget t.funcs k = mget s.m.funcs k) ∧
      Completes (.busMasterEnableClear v) s (fun t => t = { s.m with funcs := t.funcs } ∧ mget t.funcs v = { f with busMaster := false } ∧ ∀ k, k ≠ v.val → mget t.funcs k = mget s.m.funcs k) ∧
      ∀ d, f.msixPending = [] → Completes (.powerStateChange v d) s (fun t => t = { s.m with funcs := t.funcs } ∧ mget t.funcs v = { f with d3hot := d })) ∧
    (f.resetting = true → rd s.m Reg.HOST_VF_RESETTING < 2 ^ 64 → Completes (.vfResetComplete v) s (fun t => mget t.funcs v = { f with resetting := false } ∧
      bitOf (rd t Reg.HOST_VF_RESETTING) v = false ∧ RegsKept [Reg.HOST_VF_RESETTING] s.m t ∧ MemKept s.m t))) ∧
  (∀ s : State, Powered s →
    let quiet (v : Nat) : Prop := ∀ q ∈ ringsOf s.m v, (mget s.m.rings q).fetched = [] ∧ (mget s.m.rings q).spill = []
    let gone (l : List Nat) (t : Mach) : Prop := MemKept s.m t ∧ t.log = s.m.log ∧ ∀ v ∈ l, mget t.funcs v = { resetting := true, resetAt := now s.m } ∧
      (∀ q ∈ ringsOf s.m v, qState t q = 0 ∧ (mget t.rings q).fetched = []) ∧
      ∀ n < 1024, rd s.m (Reg.LOCK_STATE_HOLDER n) = v + 1 → rd t (Reg.LOCK_STATE_HOLDER n) = 0 ∧ rd t (Reg.LOCK_STATE_ABANDONED n) = 1
    let all := 0 :: liveVfs s.m
    (∀ v : Fin 64, v.val ≠ 0 → s.m.pe = true → fnExists s.m v = true → (mget s.m.funcs v).resetting = false → quiet v → Completes (.vfFlr v []) s (fun t =>
      gone [v.val] t ∧ bitOf (rd t Reg.HOST_VF_RESETTING) v = true)) ∧
    ((∀ v ∈ all, quiet v) → s.m.pe = true →
      let off (t : Mach) : Prop := gone all t ∧ rd t Reg.HOST_STATUS_VF_ENABLE = 0 ∧ rd t Reg.HOST_STATUS_NUMVFS = 0
      let down (t : Mach) : Prop := off t ∧ t.pe = false ∧ rd t Reg.HOST_STATUS_SPEED = 0 ∧ rd t Reg.HOST_STATUS_WIDTH = 0
      (s.m.endpoint = true → Completes (.pfFlr []) s off ∧ Completes (.vfEnableClear []) s (fun t => gone (liveVfs s.m) t ∧ rd t Reg.HOST_STATUS_VF_ENABLE = 0)) ∧
      Completes (.pcieHotReset []) s off ∧ Completes (.pcieLinkDown []) s down ∧ Completes (.peRefclkLoss []) s down ∧
      Completes (.pciePerst true []) s (fun t => down t ∧ t.perst = true) ∧ Completes (.pciePerst false []) s (fun t => t = { s.m with perst := false })) ∧
    ((∀ x ∈ s.m.rings, ∀ d ∈ x.2.fetched, d.started = true → d.opcode < 6) → Completes .serdesRefclkLoss s (fun t => t.serdes = false ∧ rd t Reg.HOST_STATUS_NVME_READY = 0 ∧
      (∀ l < 4, linkRuns s.m l = true → linkState t l = 4) ∧ t.decided = s.m.decided ∧ MemKept s.m t)) ∧
    Completes .serdesRefclkReturn s (fun t => t = { s.m with serdes := true }))

/-- By a requester that may write its context: enabling a DISABLED ring whose values pass R551's checks latches them and starts it
with zero indices and no error; one that fails shows the code and stays DISABLED. Disabling an out-going ring disables it, or
drains it while reservations or spilled records stand. An index write inside R550's window takes effect, another sets BAD_INDEX
and is logged. A decided record whose ring has room is written behind PROD with its payload, then the index, and its reservation
goes; with the ring full it is spilled. A ring past its coalescing time signals. A free lock is taken, one's own is released and
its mark cleared, another's release is refused and logged. A reset of host-cluster cores abandons their locks. (R550
(18_queues_host_and_virtual_instances.md); R551 (18_queues_host_and_virtual_instances.md); R552
(18_queues_host_and_virtual_instances.md); R554 (18_queues_host_and_virtual_instances.md); R556
(18_queues_host_and_virtual_instances.md); R566 (18_queues_host_and_virtual_instances.md); R570
(18_queues_host_and_virtual_instances.md); R571 (18_queues_host_and_virtual_instances.md); R573
(18_queues_host_and_virtual_instances.md); R583 (18_queues_host_and_virtual_instances.md); R590
(18_queues_host_and_virtual_instances.md)) -/
def Obligations.RingsIndicesAndLocksFollowTheirWrites : Prop :=
  (∀ (who : Requester) (q : Nat) (v : Word) (s : State), Powered s → q < 65536 → hasQueue s.m q = true →
    let n := wr (Reg.HOST_Q_CTRL_SIZE_LOG2 q) (bitsAt v.toNat 1 5) s.m
    (MayWrite s.m who (Reg.HOST_Q_CTRL_ENABLE q) .queueOwner →
      (v.getLsbD 0 = true → qState s.m q = 0 →
        (enableError n q = 0 → Completes (.queueEnable who q v) s (fun t => qState t q = 1 ∧ rd t (Reg.HOST_Q_CTRL_ENABLE q) = 1 ∧ rd t (Reg.HOST_Q_PROD q) = 0 ∧
          rd t (Reg.HOST_Q_CONS q) = 0 ∧ rd t (Reg.HOST_Q_STATUS_ERROR q) = 0 ∧
          mget t.rings q = { k := bitsAt v.toNat 1 5, base := rd s.m (Reg.HOST_Q_BASE q), pay := rd s.m (Reg.HOST_Q_PAY q) } ∧
          (qInHbm s.m q = true → MemKept (writeMem (rd s.m (Reg.HOST_Q_BASE q) + 64 * 2 ^ bitsAt v.toNat 1 5) (zeros 64) s.m) t) ∧ (qInHbm s.m q = false → MemKept s.m t))) ∧
        (enableError n q ≠ 0 → Completes (.queueEnable who q v) s (fun t => qState t q = 0 ∧ rd t (Reg.HOST_Q_STATUS_ERROR q) = enableError n q ∧
          t = { s.m with regs := t.regs } ∧ RegsKept [Reg.HOST_Q_CTRL_SIZE_LOG2 q, Reg.HOST_Q_STATUS_ERROR q] s.m t))) ∧
      (v.getLsbD 0 = false → qKind s.m q ≠ 2 → qState s.m q = 1 ∨ qState s.m q = 3 → Completes (.queueDisable who q v) s (fun t => t = { s.m with regs := t.regs } ∧
        rd t (Reg.HOST_Q_CTRL_ENABLE q) = 0 ∧ RegsKept [Reg.HOST_Q_CTRL_ENABLE q, Reg.HOST_Q_CTRL_SIZE_LOG2 q, Reg.HOST_Q_STATUS_STATE q] s.m t ∧
        qState t q = if qState s.m q = 3 ∨ (rd s.m (Reg.HOST_Q_STATUS_RESERVED q) = 0 ∧ (mget s.m.rings q).spill = []) then 0 else 2))) ∧
    (qState s.m q ≠ 0 →
      let bad (t : Mach) : Prop := rd t (Reg.HOST_Q_STATUS_BAD_INDEX q) = 1 ∧ Logged 0x5E s.m t ∧ ∀ f : Fld, f.unlogged → rd t f = rd s.m f
      (qKind s.m q = 2 → MayWrite s.m who (Reg.HOST_Q_PROD q) .queueOwner →
        let ok := qHeld s.m q ≤ fromCons s.m q v ∧ fromCons s.m q v ≤ qSize s.m q
        (ok → Completes (.submitDoorbell who q v) s (fun t => t = { s.m with regs := t.regs } ∧ Sets [(Reg.HOST_Q_PROD q, v.toNat)] s.m t)) ∧
        (¬ ok → Completes (.submitDoorbell who q v) s bad)) ∧
      (qKind s.m q ≠ 2 → MayWrite s.m who (Reg.HOST_Q_CONS q) .queueOwner →
        (fromCons s.m q v ≤ qHeld s.m q → (mget s.m.rings q).spill = [] → Completes (.consumerIndexWrite who q v) s (fun t =>
          t = { s.m with regs := t.regs } ∧ Sets [(Reg.HOST_Q_CONS q, v.toNat)] s.m t)) ∧
        (qHeld s.m q < fromCons s.m q v → Completes (.consumerIndexWrite who q v) s bad)))) ∧
  (∀ (q : Nat) (fails : Fin 3) (r : Rec) (rest : List Rec) (s : State), Powered s → q < 65536 → takeDecided q s.m.decided = some (r, rest) → r.queue = q → r.orphan = false →
    ringHeld s.m q = false → (mget s.m.rings q).lost = false → (mget s.m.rings q).spill = [] → (r.kind ≠ 0 ∨ (fails = 0 ∧ ∀ p < 8, kvPages s.m p = 0)) →
    let x := mget s.m.rings q
    let i := rd s.m (Reg.HOST_Q_PROD q)
    let a := x.pay + i % 2 ^ x.k * qPaySlot s.m q
    let n := if r.fixed.payload = [] then s.m else writeMem a r.fixed.payload s.m
    (qHeld s.m q < qSize s.m q → reachable s.m q = true → Completes (.recordPlace q fails) s (fun t => t.decided = rest ∧ rd t (Reg.HOST_Q_PROD q) = (i + 1) % 2 ^ 32 ∧
      rd t (Reg.HOST_Q_STATUS_RESERVED q) = (rd s.m (Reg.HOST_Q_STATUS_RESERVED q) - 1) % 2 ^ 18 ∧
      rd t (Reg.HOST_Q_CNT_PLACED q) = min (2 ^ 32 - 1) (rd s.m (Reg.HOST_Q_CNT_PLACED q) + 1) ∧
      (qInHbm s.m q = true → MemKept (writeMem (x.base + 2 ^ x.k * 64) (leBytes 4 ((i + 1) % 2 ^ 32)) (writeMem (x.base + i % 2 ^ x.k * 64) (r.bytes r.spilled a i) n)) t) ∧
      (qInHbm s.m q = false → MemKept s.m t ∧ Output.busWrite (qOwner s.m q) (x.base + i % 2 ^ x.k * 64) (r.bytes r.spilled a i) ∈ t.out))) ∧
    (qSize s.m q ≤ qHeld s.m q → Completes (.recordPlace q fails) s (fun t => t.decided = rest ∧ (mget t.rings q).spill = [{ r with spilled := true }] ∧
      rd t (Reg.HOST_Q_SPILL_USED q) = 1 ∧ rd t (Reg.HOST_Q_PROD q) = i ∧ MemKept s.m t))) ∧
  (∀ (q at0 : Nat) (s : State), Powered s → (mget s.m.rings q).firstPlaced = some at0 → rdb s.m (Reg.HOST_Q_IRQ_IRQ_EN q) = true →
    at0 + 1000 * rd s.m (Reg.HOST_Q_IRQ_TIME q) ≤ now s.m → Completes (.msixCoalesceTimeout q) s (fun t =>
      mget t.rings q = { mget s.m.rings q with unsignalled := 0, firstPlaced := none } ∧ MemKept s.m t ∧
      let vec := rd s.m (Reg.HOST_Q_IRQ_VECTOR q)
      let f := mget s.m.funcs (qOwner s.m q - 1)
      (qOwner s.m q = 0x41 → rd t (Reg.HOST_HC_QPEND (vec % 16) (q / 32) (q % 32)) = 1 ∧ t.out = s.m.out) ∧
      (qOwner s.m q ≠ 0x41 → f.d3hot = false → bitOf (msixWord f (4 * vec + 3)) 0 = false → t.out = .msix (qOwner s.m q - 1) vec :: s.m.out ∧ t.regs = s.m.regs))) ∧
  (∀ (who : Requester) (n : Fin 1024) (s : State), Powered s → MayWrite s.m who (Reg.LOCK_CMD_CMD n) .any →
    let holder := rd s.m (Reg.LOCK_STATE_HOLDER n)
    let refused (t : Mach) : Prop := Logged 0x5E s.m t ∧ rd t (Reg.LOCK_STATE_HOLDER n) = holder ∧ ∀ f : Fld, f.unlogged → rd t f = rd s.m f
    (lockMine s.m (ownerCode who) n = false → Completes (.lockAcquire who n) s refused ∧ Completes (.lockRelease who n) s refused ∧ Completes (.lockClearAbandoned who n) s refused) ∧
    (lockMine s.m (ownerCode who) n = true →
      (holder = 0 → Completes (.lockAcquire who n) s (fun t => t = { s.m with regs := t.regs } ∧ Sets [(Reg.LOCK_STATE_HOLDER n, reqCode who % 256)] s.m t)) ∧
      (holder ≠ 0 → Completes (.lockAcquire who n) s (fun t => t = s.m)) ∧
      (holder = reqCode who → Completes (.lockRelease who n) s (fun t => t = { s.m with regs := t.regs } ∧ Sets [(Reg.LOCK_STATE_HOLDER n, 0)] s.m t) ∧
        Completes (.lockClearAbandoned who n) s (fun t => t = { s.m with regs := t.regs } ∧ Sets [(Reg.LOCK_STATE_ABANDONED n, 0)] s.m t)) ∧
      (holder ≠ reqCode who → Completes (.lockRelease who n) s refused ∧ Completes (.lockClearAbandoned who n) s refused))) ∧
  (∀ (who : Requester) (v : Word) (s : State), Powered s → MayWrite s.m who Reg.HOST_HC_CTRL_RESET .any → Completes (.hostClusterCoreReset who v) s (fun t =>
    t = { s.m with regs := t.regs } ∧ ∀ n < 1024, ((∃ k < 16, v.getLsbD k = true ∧ rd s.m (Reg.LOCK_STATE_HOLDER n) = 0x70 + k) →
      rd t (Reg.LOCK_STATE_HOLDER n) = 0 ∧ rd t (Reg.LOCK_STATE_ABANDONED n) = 1) ∧
    ((∀ k < 16, v.getLsbD k = true → rd s.m (Reg.LOCK_STATE_HOLDER n) ≠ 0x70 + k) → rd t (Reg.LOCK_STATE_HOLDER n) = rd s.m (Reg.LOCK_STATE_HOLDER n))))

/-- A ring that may fetch takes its next 64 bytes as a descriptor, moves CONS up and reserves a completion; a read that fails takes
it to ERROR, logged. A ring's next descriptor that fails a check completes as FAILED_DATA with its reason, one with a reserved
opcode with BAD_DESC, a NOP completes OK. A copy takes one of eight engines; its bursts move the bytes to their place, the last
completes it OK, an answer with an error fails it with HOST_IO. A WORK whose role and routine allow joins its partition's FIFO,
one whose role does not completes with ROLE. An NVMe descriptor issues its first command, or fails with NO_STORAGE where the
controller is not ready; its last command's end stores the data read and completes it OK, or FAILED_DATA with NVME_ERROR. (R553
(18_queues_host_and_virtual_instances.md); R554 (18_queues_host_and_virtual_instances.md); R555
(18_queues_host_and_virtual_instances.md); R558 (18_queues_host_and_virtual_instances.md); R559
(18_queues_host_and_virtual_instances.md); R560 (18_queues_host_and_virtual_instances.md); R568
(18_queues_host_and_virtual_instances.md); R569 (18_queues_host_and_virtual_instances.md); R594
(19_scheduling_and_preemption.md)) -/
def Obligations.DescriptorsAreFetchedAndRun : Prop :=
  (∀ (q : Nat) (s : State), Powered s → q < 65536 → mayFetch s.m q = true → qCompletion s.m q ≠ q →
    let x := mget s.m.rings q
    let i := rd s.m (Reg.HOST_Q_CONS q)
    let a := x.base + i % 2 ^ x.k * 64
    let took (b : List Byte) (t : Mach) : Prop := (mget t.rings q).fetched = x.fetched ++ [readDesc q i b] ∧ rd t (Reg.HOST_Q_CONS q) = (i + 1) % 2 ^ 32 ∧
      rd t (Reg.HOST_Q_STATUS_RESERVED (qCompletion s.m q)) = min (2 ^ 18 - 1) (rd s.m (Reg.HOST_Q_STATUS_RESERVED (qCompletion s.m q)) + 1)
    (∀ host, qInHbm s.m q = false → Completes (.descriptorFetch q host) s (fun t => took (padTo 64 host) t ∧ MemKept s.m t)) ∧
    (∀ host, qInHbm s.m q = true → inRefresh s.m a 64 = false → Clean s.m a 64 → Completes (.descriptorFetch q host) s (took (readMem s.m a 64))) ∧
    Completes (.descriptorReadError q) s (fun t => qState t q = 3 ∧ rd t (Reg.HOST_Q_STATUS_ERROR q) = 4 ∧ Logged 0x5E s.m t)) ∧
  (∀ (q : Nat) (d : Desc) (s : State), Powered s → nextDesc s.m q = some d → d.ring = q → d.cancelled = false →
    let ended (st : Status) (reason : Nat) (t : Mach) : Prop := MemKept s.m t ∧ (mget t.rings q).fetched = (mget s.m.rings q).fetched.filter (fun y => y.index != d.index) ∧
      ∃ r, t.decided = s.m.decided ++ [r] ∧ r.queue = qCompletion s.m q ∧ r.kind = 1 ∧ r.descTag = d.tag ∧ r.fixed.status = st ∧ r.fixed.reason = reason
    (∀ lba k r, ∀ c ∈ [(Instr.descCopyIn q, 1), (.descCopyOut q, 2), (.descCopyHbm q, 3), (.work q, 4), (.descNop q, 5), (.descNvmeRead q lba k, 6),
        (.descNvmeWrite q lba k, 7), (.descNvmeFlush q lba, 8)], d.opcode = c.2 → descError s.m d = some r → Completes c.1 s (ended .failedData r)) ∧
    (d.opcode = 0 ∨ 9 ≤ d.opcode → Completes (.descReserved q) s (ended .failedData 1)) ∧
    (descError s.m d = none →
      (d.opcode = 5 → Completes (.descNop q) s (ended .ok 0)) ∧
      (∀ c ∈ [(Instr.descCopyIn q, 1), (.descCopyOut q, 2), (.descCopyHbm q, 3)], d.opcode = c.2 → dmaBusy s.m < 8 → Completes c.1 s (fun t => t = { s.m with rings := t.rings } ∧
        (mget t.rings q).fetched = (mget s.m.rings q).fetched.map (fun y => if y.index = d.index then { y with started := true } else y))) ∧
      (d.opcode = 4 →
        let p := rd s.m (Reg.HOST_Q_CFG_PARTITION q)
        (roleRefuses (partRole s.m p) (bitsAt d.c 8 2) = true → Completes (.work q) s (ended .failedData 4)) ∧
        (∀ r, roleRefuses (partRole s.m p) (bitsAt d.c 8 2) = false → routineAt s.m p (d.c % 256) = some r → r.cls ≠ 0 → schedMode s.m p ≠ 0 → (mget s.m.recov p).work.length < 64 →
          Completes (.work q) s (fun t => (mget t.recov p).work = (mget s.m.recov p).work ++ [{ d with started := true }] ∧ MemKept s.m t ∧ t.decided = s.m.decided ∧
            (mget t.rings q).fetched = (mget s.m.rings q).fetched.map (fun y => if y.index = d.index then { y with started := true } else y)))) ∧
      (∀ lba k, ∀ c ∈ [(Instr.descNvmeRead q lba k, 6), (.descNvmeWrite q lba k, 7), (.descNvmeFlush q lba, 8)], d.opcode = c.2 →
        (nvmeReady s.m = false → Completes c.1 s (ended .failedFault 8)) ∧
        (∀ n, nvmeReady s.m = true → lba = some n → n = 512 ∨ n = 4096 → d.bytes % n = 0 → d.nvmeBad = false → d.opcode = 8 ∨ d.nvmeNext < d.bytes → Completes c.1 s (fun t =>
          Output.nvme d.opcode d.c (if d.opcode = 8 then 0 else d.a + d.nvmeNext / n) (min 131072 (d.bytes - d.nvmeNext) / n) (d.b + d.nvmeNext) ∈ t.out ∧
          (∃ y ∈ (mget t.rings q).fetched, y.index = d.index ∧ y.started = true) ∧ t.decided = s.m.decided ∧ t.regs = s.m.regs ∧ MemKept s.m t))))) ∧
  (∀ (q : Nat) (d : Desc) (s : State), Powered s → d.ring = q → d.cancelled = false →
    let ended (st : Status) (reason : Nat) (t : Mach) : Prop := (mget t.rings q).fetched = (mget s.m.rings q).fetched.filter (fun y => y.index != d.index) ∧
      ∃ r, t.decided = s.m.decided ++ [r] ∧ r.queue = qCompletion s.m q ∧ r.descTag = d.tag ∧ r.fixed.status = st ∧ r.fixed.reason = reason
    ((mget s.m.rings q).fetched.find? (fun d => d.started && decide (1 ≤ d.opcode) && decide (d.opcode ≤ 3)) = some d → burstHeld s.m d = false →
      let n := min 4096 (d.bytes - d.done)
      let moved (t : Mach) : Prop := (4096 < d.bytes - d.done → t.decided = s.m.decided ∧
          (mget t.rings q).fetched = (mget s.m.rings q).fetched.map (fun y => if y.index = d.index then { y with done := y.done + n } else y)) ∧
        (d.bytes - d.done ≤ 4096 → ended .ok 0 t)
      (∀ bs, d.opcode = 1 → busMaster s.m (qOwner s.m q) = true → Clean s.m (d.b + d.done) n → Completes (.hostDmaBurstComplete q (some bs)) s (fun t =>
        moved t ∧ Stored (d.b + d.done) (padTo n bs) s.m t)) ∧
      (d.opcode = 1 → Completes (.hostDmaBurstComplete q none) s (fun t => ended .failedFault 6 t ∧ MemKept s.m t)) ∧
      (∀ data, d.opcode = 2 → busMaster s.m (qOwner s.m q) = true → Clean s.m (d.b + d.done) n → Completes (.hostDmaBurstComplete q data) s (fun t =>
        moved t ∧ MemKept s.m t ∧ t.out = .busWrite (qOwner s.m q) (d.a + d.done) (readMem s.m (d.b + d.done) n) :: s.m.out)) ∧
      (∀ data, d.opcode = 3 → Clean s.m (d.b + d.done) n → Clean s.m (d.a + d.done) n → Completes (.hostDmaBurstComplete q data) s (fun t =>
        moved t ∧ Stored (d.a + d.done) (readMem s.m (d.b + d.done) n) s.m t))) ∧
    (∀ off len data lba k, (mget s.m.rings q).fetched.find? (fun d => d.started && decide (6 ≤ d.opcode)) = some d → d.nvmeOpen = [(off, len)] → d.nvmeBad = false →
      d.bytes ≤ d.nvmeNext → (d.opcode = 8 ∨ inRefresh s.m (d.b + off) len = false) →
      (∀ status : BitVec 15, status ≠ 0 → Completes (.nvmeCommandComplete q off status data lba k) s (fun t => ended .failedData 7 t ∧ MemKept s.m t)) ∧
      (d.opcode ≠ 6 → Completes (.nvmeCommandComplete q off 0 data lba k) s (fun t => ended .ok 0 t ∧ MemKept s.m t)) ∧
      (d.opcode = 6 → Clean s.m (d.b + off) len → Completes (.nvmeCommandComplete q off 0 data lba k) s (fun t => ended .ok 0 t ∧ Stored (d.b + off) (padTo len data) s.m t))))

/-- An alteration's resets begin together with its sections in force. A heartbeat timer that expires, or a heartbeat write, counts,
restarts the age and the watch; behind a waiting instruction it stays due. 300 µs without one is a hang: shown, counted,
recorded, and the routine is killed; engines still busy 20 µs into its drain stop. A rescue that ends, or runs out of its 250
µs, lets the kill end: with a reset for a hang or a host's reset, else without; tensors not copied in time fail FAILED_RESET. A
host's reset is ignored while one runs, waits for a kill under way, else kills what runs. A partition reset ends recorded, its
channels out of self-refresh; a spare that fails its test is out of use, and bad instruction memory halts the partition. (R72
(02_the_pattern.md); R73 (02_the_pattern.md); R610 (20_hang_reset_and_recovery.md); R611 (20_hang_reset_and_recovery.md); R612
(20_hang_reset_and_recovery.md); R615 (20_hang_reset_and_recovery.md); R617 (20_hang_reset_and_recovery.md); R619
(20_hang_reset_and_recovery.md); R620 (20_hang_reset_and_recovery.md); R634 (20_hang_reset_and_recovery.md)) -/
def Obligations.HangsKillsRescuesAndResetsRun : Prop :=
  (∀ s : State, Powered s → s.m.ldr.alter = .pending → (∀ p ∈ s.m.ldr.altNamed, p < 8 ∧ alterReady s.m p = true) → Completes .alterationResetsBegin s (fun t =>
    t.ldr.sections = overlay s.m.ldr.sections s.m.ldr.altSecs ∧ (∀ p ∈ s.m.ldr.altNamed, (mget t.recov p).cause = 2 ∧ (mget t.recov p).resetAt = now s.m) ∧
    (s.m.ldr.altNamed ≠ [] → t.ldr.alter = .resetting ∧ t.ldr.altLeft = s.m.ldr.altNamed) ∧
    (s.m.ldr.altNamed = [] → t.ldr.alter = .none ∧ rd t Reg.PAT_STATUS_ALTER_PENDING = 0 ∧ rd t Reg.PAT_ALTER_SEQ = (rd s.m Reg.PAT_ALTER_SEQ + 1) % 2 ^ 32))) ∧
  (∀ (who : Requester) (p : Fin 8) (s : State), Powered s → rd s.m (Reg.TC_RECOV_STATUS_STATE p) ≠ 3 →
    let r := mget s.m.recov p
    let beats (t : Mach) : Prop := t = { s.m with regs := t.regs, recov := t.recov } ∧ mget t.recov p = { r with hbLast := now s.m, hbDue := false } ∧
      Sets [(Reg.TC_HB_STATUS_COUNT p, (rd s.m (Reg.TC_HB_STATUS_COUNT p) + 1) % 2 ^ 16), (Reg.TC_HB_STATUS_AGE p, 0),
        (Reg.TC_HB_STATUS_WATCHED p, b2n (!rdb s.m (Reg.SAF_SUSPECT_HALTED p) && !rdb s.m (Reg.TC_RECOV_STATUS_HOLD p))),
        (Reg.TC_SEQ_STATUS_STATE p, if rd s.m (Reg.TC_SEQ_STATUS_STATE p) = 0 then 3 else rd s.m (Reg.TC_SEQ_STATUS_STATE p))] s.m t
    (MayWrite s.m who (Reg.TC_HB_WRITE p) .seqfw → Completes (.heartbeatWrite who p) s beats) ∧
    (r.hbLast ≠ 0 → r.hbLast + 100000 ≤ now s.m →
      ((mget s.m.seqs p).run = none ∨ (mget s.m.seqs p).waiting = none → Completes (.heartbeatExpiry p) s beats) ∧
      ((mget s.m.seqs p).run.isSome = true → (mget s.m.seqs p).waiting.isSome = true → Completes (.heartbeatExpiry p) s (fun t =>
        t = { s.m with recov := t.recov } ∧ mget t.recov p = { r with hbDue := true }))) ∧
    (rdb s.m (Reg.TC_HB_STATUS_WATCHED p) = true → r.hbLast + 300000 ≤ now s.m → r.killing ≠ some .hang → flightEmpty s.m p = false → Completes (.hangDetected p) s (fun t =>
      Logged 0x59 s.m t ∧ rd t (Reg.TC_HB_STATUS_HANG p) = 1 ∧ rd t (Reg.TC_RECOV_CNT_HANG p) = min (2 ^ 32 - 1) (rd s.m (Reg.TC_RECOV_CNT_HANG p) + 1) ∧
      mget t.recov p = { r with killing := some .hang, killAt := now s.m, hangSeq := rd t Reg.SAF_LOG_SEQ } ∧
      (r.killing = none → rd t (Reg.TC_RECOV_STATUS_STATE p) = 1 ∧ ∀ e < 6, (engine t p e).queue = [] ∧ (engine t p e).flight = (engine s.m p e).flight))) ∧
    (r.killing = some .hang → rd s.m (Reg.TC_RECOV_STATUS_STATE p) = 1 → r.killAt + 20000 ≤ now s.m → flightEmpty s.m p = false → Completes (.killDrainTimeout p) s (fun t =>
      (∀ e < 6, (engine t p e).flight = []) ∧
      (forensicDue s.m = true → rd t (Reg.SCR_STATUS_HELD p) = 1 ∧ rd t (Reg.TC_RECOV_STATUS_HOLD p) = 1 ∧ (mget t.recov p).forensic = some (now s.m)) ∧
      (forensicDue s.m = false → rd t (Reg.TC_RECOV_STATUS_STATE p) = 2 ∨ rd t (Reg.TC_RECOV_STATUS_STATE p) = 3)))) ∧
  (∀ (p : Fin 8) (s : State), Powered s → rd s.m (Reg.TC_RECOV_STATUS_STATE p) = 2 →
    let r := mget s.m.recov p
    let guilty := (mget s.m.seqs p).run.bind (·.replayOf)
    let above (t : Mach) : Prop := (mget t.recov p).rescue = [] ∧
      (r.killing = some .hang → rd t (Reg.TC_RECOV_STATUS_STATE p) = 3 ∧ (mget t.recov p).cause = 1) ∧
      (r.killing = some .host → guilty = none → rd t (Reg.TC_RECOV_STATUS_STATE p) = 3 ∧ (mget t.recov p).cause = 5) ∧
      (∀ cls, r.killing = some (.exception cls) ∨ r.killing = some .permanent → guilty = none → r.nextCauses.contains 5 = false →
        rd t (Reg.TC_RECOV_STATUS_STATE p) = 0 ∧ (mget t.recov p).killing = none)
    let ns := (r.rescue.map (rescueNs s.m p)).sum
    (r.rescueAt + ns ≤ now s.m → ns ≤ 250000 → r.killing.isSome = true → Completes (.rescueComplete p) s (fun t => above t ∧
      ∀ y it, r.rescue = [y] → tagStream y < 512 → lookup s.m.items y = some it → it.fixed = none →
        let i := tagStream y
        let base := if (mget s.m.isps i).outBase = 0 then ispOutBase (ispEntry s.m i) else (mget s.m.isps i).outBase
        let whole := (scrVerdict { tag := y } p true (ispCore (ispEntry s.m i) * 2 ^ 25 + it.scr) (tensorBytes (ispEntry s.m i)) s.m).1 = 0
        (whole → (nextOut s.m i base).isSome = true → rd t (Reg.TC_RECOV_CNT_RESCUED p) = min (2 ^ 32 - 1) (rd s.m (Reg.TC_RECOV_CNT_RESCUED p) + 1) ∧
          (mget t.recov p).rescued = r.rescued + 1) ∧
        (¬ whole → rd t (Reg.TC_RECOV_CNT_LOST p) = min (2 ^ 32 - 1) (rd s.m (Reg.TC_RECOV_CNT_LOST p) + 1) ∧ GotStatus y .failedFault Reason.rescueFailed t))) ∧
    (r.rescueAt + 250000 ≤ now s.m → r.killing.isSome = true → r.rescue.Nodup → Completes (.rescueTimeout p) s (fun t => above t ∧
      ∀ y ∈ (rescueBy s.m p 250000 r.rescue).2, ∀ it, lookup s.m.items y = some it → it.fixed = none → GotStatus y .failedReset Reason.scratchLost t))) ∧
  (∀ (who : Requester) (p : Fin 8) (s : State), Powered s → MayWrite s.m who (Reg.TC_RECOV_CTRL_RESET p) .pfHcMi →
    let r := mget s.m.recov p
    let state := rd s.m (Reg.TC_RECOV_STATUS_STATE p)
    (rdb s.m Reg.PWR_STATUS_SHUTDOWN = true → Completes (.recovResetWrite who p) s (fun t => t = s.m)) ∧
    (rdb s.m Reg.PWR_STATUS_SHUTDOWN = false →
      (state = 3 → Completes (.recovResetWrite who p) s (fun t => t = { s.m with regs := t.regs } ∧
        Sets [(Reg.TC_RECOV_CNT_IGNORED p, min (2 ^ 32 - 1) (rd s.m (Reg.TC_RECOV_CNT_IGNORED p) + 1))] s.m t)) ∧
      (state ≠ 3 → r.killing.isSome = true → Completes (.recovResetWrite who p) s (fun t => t = { s.m with recov := t.recov } ∧
        mget t.recov p = { r with nextCauses := if r.nextCauses.contains 5 then r.nextCauses else r.nextCauses ++ [5] })) ∧
      (state ≠ 3 → r.killing = none → flightEmpty s.m p = false → Completes (.recovResetWrite who p) s (fun t => t = { s.m with regs := t.regs, recov := t.recov, seqs := t.seqs, engines := t.engines } ∧
        mget t.recov p = { r with killing := some .host, killAt := now s.m } ∧ rd t (Reg.TC_RECOV_STATUS_STATE p) = 1 ∧ RegsKept (Reg.TC_RECOV_STATUS_STATE p :: engineFields p) s.m t ∧ ∀ e < 6, (engine t p e).queue = [])) ∧
      (state ≠ 3 → r.killing = none → flightEmpty s.m p = true → forensicDue s.m = false → Completes (.recovResetWrite who p) s (fun t =>
        rd t (Reg.TC_RECOV_STATUS_STATE p) = 2 ∨ rd t (Reg.TC_RECOV_STATUS_STATE p) = 3)))) ∧
  (∀ (p : Fin 8) (imemBad spareBad : Bool) (s : State), Powered s → rdb s.m Reg.PWR_STATUS_SHUTDOWN = false → rd s.m (Reg.TC_RECOV_STATUS_STATE p) = 3 →
    let r := mget s.m.recov p
    r.resetAt + cyclesNs s.m p (8800 + 16384) ≤ now s.m → r.cause ≤ 5 → Completes (.partitionResetComplete p imemBad spareBad) s (fun t =>
      rd t (Reg.TC_RECOV_LAST_CAUSE p) = r.cause ∧ rd t (Reg.TC_RECOV_LAST_DURATION p) = min 65535 ((now s.m - r.resetAt) / 1000) ∧ Noted 0x5A s.m t ∧
      (imemBad = true → rd t (Reg.SAF_SUSPECT_HALTED p) = 1) ∧
      (r.cause = 3 → spareBad = true → rd t (spareInUse (p / 4)) = 0 ∧ rd t (spareFailed (p / 4)) = 1 ∧ rd t (Reg.SAF_SUSPECT_HALTED p) = 1 ∧ Noted 0x0F s.m t) ∧
      (r.nextCauses.contains 5 = true → rd t (Reg.TC_RECOV_STATUS_STATE p) = 3 ∧ (mget t.recov p).cause = 5) ∧
      (r.nextCauses.contains 5 = false → rd t (Reg.SCR_STATUS_WIPING p) = 0 ∧ (mget t.recov p).catchUp = true ∧ (mget t.recov p).cause = 0 ∧
        (r.cause ≠ 1 → rd t (Reg.TC_RECOV_STATUS_STATE p) = 0) ∧ (s.m.held = [] → ∀ j < 4, rd t (Reg.MEM_STATUS_STATE (4 * p + j)) = 2))))

/-- Where best-effort work may run, a saved context begins its restore, else a due stream routine, else the oldest WORK, becomes the
open context and its switch begins. Under LIGHT the range clear zeroes the best-effort granules of every core and the routine
starts at its entry. At the request point a running best-effort context starts to drain, counted; a latency-critical routine is
never disturbed. When nothing is in flight its light state is saved, a drain that outlasts DRAIN_NS counted, and the context
goes to the save area under FULL. A restored context has the pc, the s registers and the descriptors with which it was saved,
and under FULL its scratch; a restore that meets bad words discards the context, and a bad latency-critical image wipes the
scratch. (R593 (19_scheduling_and_preemption.md); R594 (19_scheduling_and_preemption.md); R599
(19_scheduling_and_preemption.md); R602 (19_scheduling_and_preemption.md); R603 (19_scheduling_and_preemption.md); R604
(19_scheduling_and_preemption.md); R605 (19_scheduling_and_preemption.md); R607 (19_scheduling_and_preemption.md)) -/
def Obligations.BestEffortWorkTakesItsTurns : Prop :=
  (∀ (p : Fin 8) (s : State), Powered s →
    let r := mget s.m.recov p
    let full := schedMode s.m p = 2
    let elapsed := min 0xFFFFFFFF (now s.m - r.requested)
    (∀ c, r.be = some c → beMay s.m p true = true → Completes (.beWorkStart p) s (fun t => t = { s.m with regs := t.regs, recov := t.recov } ∧
      mget t.recov p = { r with requested := now s.m, switch := if full then .savingLc else .restoring } ∧ Sets [(Reg.TC_SCHED_STATUS_RUNNING p, 3)] s.m t)) ∧
    (∀ i rest x, r.be = none → beMay s.m p false = true → (mget s.m.turns p).beDue = i :: rest → routineAt s.m p i = some x → Completes (.beWorkStart p) s (fun t => MemKept s.m t ∧
      mget t.turns p = { mget s.m.turns p with beDue := rest } ∧ rd t (Reg.TC_SCHED_STATUS_OPEN p) = 1 ∧ rd t (Reg.TC_SCHED_STATUS_OPEN_KIND p) = 1 ∧ rd t (Reg.TC_SCHED_STATUS_RUNNING p) = 3 ∧
      mget t.recov p = { r with be := some { run := runOf x 1 }, requested := now s.m, switch := if full then .savingLc else .clearing })) ∧
    (∀ d rest x, r.be = none → beMay s.m p false = true → (mget s.m.turns p).beDue = [] → r.work = d :: rest → routineAt s.m p (d.c % 256) = some x → Completes (.beWorkStart p) s (fun t => MemKept s.m t ∧
      rd t (Reg.TC_SCHED_STATUS_OPEN_KIND p) = 2 ∧ rd t (Reg.TC_SCHED_WORK_ROUTINE p) = d.c % 256 ∧ rd t (Reg.TC_SCHED_ARG p) = d.a % 2 ^ 64 ∧ rd t (Reg.TC_SCHED_ARG_BYTES p) = d.bytes % 2 ^ 24 ∧
      mget t.recov p = { r with work := rest, be := some { run := runOf x 2, desc := some d }, requested := now s.m, switch := if full then .savingLc else .clearing })) ∧
    (∀ c, r.be = some c → r.switch = .clearing → schedMode s.m p = 1 → r.requested + switchIn s.m p false ≤ now s.m → Completes (.beRangeClearComplete p) s (fun t =>
      (mget t.seqs p).run = some c.run ∧ rd t (Reg.TC_SEQ_PC p) = (c.run.base + c.run.entry) % 2 ^ 32 ∧ rd t (Reg.TC_SCHED_LAST_SWITCH p) = elapsed ∧ (mget t.recov p).switch = .none ∧
      ∀ a, rb t a = if (List.range (coresPer s.m)).any (fun k => decide (scrAddr s.m p k (beFirst s.m p k * 4096) ≤ a) &&
        decide (a < scrAddr s.m p k (beFirst s.m p k * 4096) + beCount s.m p k * 4096)) then 0 else rb s.m a)) ∧
    (requestPoint s.m p ≤ now s.m → r.switch = .none →
      ((mget s.m.seqs p).run = none ∨ (∃ x, (mget s.m.seqs p).run = some x ∧ x.kind = 0) ∨ r.be = none → Completes (.preemptRequest p) s (fun t => t = s.m)) ∧
      (∀ c x, r.be = some c → (mget s.m.seqs p).run = some x → x.kind ≠ 0 → Completes (.preemptRequest p) s (fun t => t = { s.m with regs := t.regs, seqs := t.seqs, recov := t.recov } ∧
        mget t.recov p = { r with requested := now s.m, switch := .draining } ∧ mget t.seqs p = { mget s.m.seqs p with waiting := none } ∧
        Sets [(Reg.TC_SCHED_CNT_PREEMPT p, min (2 ^ 32 - 1) (rd s.m (Reg.TC_SCHED_CNT_PREEMPT p) + 1)), (Reg.TC_SCHED_STATUS_RUNNING p, 3)] s.m t))) ∧
    (∀ c x, r.be = some c → (mget s.m.seqs p).run = some x → r.switch = .draining → flightEmpty s.m p = true → r.killing = none →
      let above := rd s.m (Reg.TC_SCHED_CNT_OVERRUN p)
      let counted (t : Mach) : Prop := (mget t.seqs p).run = none ∧
        rd t (Reg.TC_SCHED_CNT_OVERRUN p) = if r.requested + drainNs s.m p < now s.m then min (2 ^ 32 - 1) (above + 1) else above
      ((mget s.m.seqs p).ended = true → drained s.m p = true → Completes (.preemptDrainComplete p) s (fun t => counted t ∧ (mget t.recov p).be = none)) ∧
      ((mget s.m.seqs p).ended = false ∨ drained s.m p = false → c.desc.any (·.cancelled) = true → Completes (.preemptDrainComplete p) s (fun t => counted t ∧ (mget t.recov p).be = none)) ∧
      ((mget s.m.seqs p).ended = false ∨ drained s.m p = false → c.desc.any (·.cancelled) = false → Completes (.preemptDrainComplete p) s (fun t => counted t ∧
        (mget t.recov p).be = some { c with saved := some (takeLight s.m p) } ∧ (∀ e < 6, (engine t p e).queue = []) ∧
        (full → (mget t.recov p).switch = .saving) ∧ (¬ full → rd t (Reg.TC_SCHED_LAST_SWITCH p) = elapsed)))) ∧
    (∀ c, r.be = some c →
      (r.switch = .saving → (mget s.m.turns p).pendWin = false → Completes (.contextSaveComplete p) s (fun t => t = { s.m with regs := t.regs, recov := t.recov } ∧
        mget t.recov p = { r with be := some { c with image := takeImage s.m p }, switch := if (mget s.m.turns p).lcTodo.isEmpty then .none else .restoringLc })) ∧
      (r.switch = .savingLc → c.saved.isSome = true → Completes (.contextSaveComplete p) s (fun t => t = { s.m with regs := t.regs, recov := t.recov } ∧
        mget t.recov p = { r with lcImage := some (takeImage s.m p), switch := .restoring })) ∧
      (r.switch = .savingLc → c.saved = none → Completes (.contextSaveComplete p) s (fun t => rd t (Reg.SCR_STATUS_WIPING p) = 1 ∧
        mget t.recov p = { r with lcImage := some (takeImage s.m p), switch := .clearing, wipeAt := now s.m }))) ∧
    (∀ c (n n' : Mach), r.switch = .restoring → r.be = some c → c.saved = some (takeLight n p) → c.image = takeImage n' p →
      (c.image.bad = [] → Completes (.contextRestoreComplete p false) s (fun t => (mget t.seqs p).run = some c.run ∧ rd t (Reg.TC_SEQ_PC p) = seqPc n p % 2 ^ 32 ∧
        (∀ j, sReg t p j = sReg n p j ∧ tReg t p j = tReg n p j) ∧ (∀ e < 6, (engine t p e).queue = (engine n p e).queue) ∧
        mget t.recov p = { r with be := some { c with saved := none, image := {} }, switch := .none } ∧ rd t (Reg.TC_SCHED_LAST_SWITCH p) = elapsed ∧
        (¬ full → MemKept s.m t) ∧
        (full → Memory.wf n'.mem = true → coresPer n' = coresPer s.m → rd t (Reg.TC_SCHED_STATUS_BE_RESIDENT p) = 1 ∧
          ∀ a, (scrSpan s.m p).1 ≤ a → a < (scrSpan s.m p).2 → rb t a = rb n' a))) ∧
      Completes (.contextRestoreComplete p true) s (fun t => (mget t.recov p).be = none ∧
        rd t (Reg.TC_SCHED_CNT_DISCARD p) = min (2 ^ 32 - 1) (rd s.m (Reg.TC_SCHED_CNT_DISCARD p) + 1))) ∧
    (∀ n' : Mach, r.switch = .restoringLc → r.lcImage = some (takeImage n' p) →
      ((takeImage n' p).bad = [] → Memory.wf n'.mem = true → coresPer n' = coresPer s.m → Completes (.contextRestoreComplete p false) s (fun t =>
        mget t.recov p = { r with lcImage := none, switch := .none } ∧ rd t (Reg.TC_SCHED_STATUS_BE_RESIDENT p) = 0 ∧
        ∀ a, rb t a = if (scrSpan s.m p).1 ≤ a ∧ a < (scrSpan s.m p).2 then rb n' a else rb s.m a)) ∧
      Completes (.contextRestoreComplete p true) s (fun t => (mget t.recov p).lcImage = none ∧ rd t (Reg.SCR_STATUS_WIPING p) = 1)))

/-- A sample gives the two averages, the package's energy, each rail's measurement and each partition's energy, charged to one
account. A control step above the cap lowers the first eligible unit of the lowering order, or notes that none was; below the
cap less its hysteresis it raises the last eligible one; no other level moves. PWR_CAP takes a value in range as pending, else
shows CAP_ERROR. Past CAP_GRACE_MS cap hold begins, recorded and counted, and pre-empts what runs; a further one makes it unmet;
it ends below the hysteresis. A change that ends gives the unit its point and its voltage, or begins the next one. A HINT's rail
rises at its lead less 6 µs; windows that close are counted where unused and the rail falls to the light level where nothing
else needs it. (R636 (21_power_and_thermal.md); R637 (21_power_and_thermal.md); R638 (21_power_and_thermal.md); R640
(21_power_and_thermal.md); R641 (21_power_and_thermal.md); R642 (21_power_and_thermal.md); R643 (21_power_and_thermal.md); R644
(21_power_and_thermal.md); R645 (21_power_and_thermal.md); R646 (21_power_and_thermal.md); R657 (21_power_and_thermal.md)) -/
def Obligations.PowerKeepsToItsCap : Prop :=
  (∀ (pkg : Nat) (parts : List (Nat × Nat × Nat)) (s : State), Powered s → parts.length ≤ 8 → Completes (.powerSample pkg parts) s (fun t =>
    let l := (pkg :: s.m.power.samples).take 10000
    let e := s.m.power.energy + pkg
    t = { s.m with regs := t.regs, power := { s.m.power with samples := l, energy := e % 1000 } } ∧ rd t Reg.PWR_POWER = average 10000 l % 2 ^ 32 ∧
    rd t Reg.PWR_POWER_CTL = average 1000 l % 2 ^ 32 ∧ rd t Reg.PWR_ENERGY_PKG = (rd s.m Reg.PWR_ENERGY_PKG + e / 1000) % 2 ^ 64 ∧
    ∀ p x, parts[p]? = some x →
      let a := accountOf s.m p
      let f := if a < 256 then Reg.PWR_PART_E_ROUTINE p a else if a = 256 then Reg.PWR_PART_E_SERVICE p else if a = 257 then Reg.PWR_PART_E_RECOVERY p else Reg.PWR_PART_E_IDLE p
      rd t (Reg.PWR_PART_RAIL_MEASURED p) = x.1 % 2 ^ 10 ∧ rd t (Reg.PWR_PART_CURRENT p) = x.2.1 % 2 ^ 16 ∧ rd t f = (rd s.m f + x.2.2) % 2 ^ 64 ∧
      rd t (Reg.PWR_PART_E_TOTAL p) = (rd s.m (Reg.PWR_PART_E_TOTAL p) + x.2.2) % 2 ^ 64)) ∧
  (∀ s : State, Powered s → applied s.m = true → s.m.power.ctlAt + 100000 ≤ now s.m →
    let pw := rd s.m Reg.PWR_POWER_CTL
    let c := 1000 * rd s.m Reg.PWR_CAP
    let moved (u : Nat) (v : Nat) (t : Mach) : Prop := rd t (capLevelOf u) = v % (if u = 8 then 4 else 8) ∧
      rd t Reg.PWR_CNT_CAP_STEPS = min (2 ^ 32 - 1) (rd s.m Reg.PWR_CNT_CAP_STEPS + 1) ∧ capAtOf t u = some (now s.m) ∧ t.power.ctlAt = now s.m ∧ MemKept s.m t ∧
      ∀ x, x ≤ 8 → x ≠ u → rd t (capLevelOf x) = rd s.m (capLevelOf x) ∧ capAtOf t x = capAtOf s.m x
    let same (t : Mach) : Prop := t = { s.m with power := t.power } ∧ t.power = { s.m.power with ctlAt := now s.m, above := t.power.above, under := t.power.under }
    (c < pw →
      (∀ u, (lowerOrder s.m).find? (eligible s.m true) = some u → Completes .capControlTick s (fun t => moved u (rd s.m (capLevelOf u) + 1) t ∧ t.power.above = none ∧ t.power.under = none)) ∧
      ((lowerOrder s.m).find? (eligible s.m true) = none → Completes .capControlTick s (fun t => same t ∧ t.power.under = none ∧
        t.power.above = (if s.m.power.above.isSome then s.m.power.above else some (now s.m))))) ∧
    (pw ≤ c → c ≤ pw + capHystMw s.m → Completes .capControlTick s (fun t => same t ∧ t.power.above = none ∧ t.power.under = none)) ∧
    (pw + capHystMw s.m < c →
      let under := if s.m.power.under.isSome then s.m.power.under else some (now s.m)
      (∀ u, (lowerOrder s.m).reverse.find? (eligible s.m false) = some u → Completes .capControlTick s (fun t => moved u (rd s.m (capLevelOf u) - 1) t ∧ t.power.above = none ∧ t.power.under = under)) ∧
      ((lowerOrder s.m).reverse.find? (eligible s.m false) = none → Completes .capControlTick s (fun t => same t ∧ t.power.above = none ∧ t.power.under = under)))) ∧
  (∀ (who : Requester) (v : Word) (s : State), Powered s → MayWrite s.m who Reg.PWR_CAP .pfHcMi →
    let w := v.toNat % 512
    (w < 75 ∨ capMax s.m < w → Completes (.pwrCapWrite who v) s (fun t => t = { s.m with regs := t.regs } ∧ Sets [(Reg.PWR_STATUS_CAP_ERROR, 1)] s.m t)) ∧
    (75 ≤ w → w ≤ capMax s.m → Completes (.pwrCapWrite who v) s (fun t => t = { s.m with regs := t.regs, power := { s.m.power with capNext := some w } } ∧
      Sets [(Reg.PWR_STATUS_CAP_PENDING, 1)] s.m t))) ∧
  (∀ s : State, Powered s →
    (∀ t0, rdb s.m Reg.PWR_STATUS_CAP_HOLD = false → s.m.power.above = some t0 → t0 + capGraceNs s.m ≤ now s.m → Completes .capHoldEntry s (fun t =>
      rd t Reg.PWR_STATUS_CAP_HOLD = 1 ∧ rd t Reg.PWR_CNT_CAP_HOLD = min (2 ^ 32 - 1) (rd s.m Reg.PWR_CNT_CAP_HOLD + 1) ∧ t.power = { s.m.power with heldAt := now s.m } ∧ Logged 0x5D s.m t ∧
      ∀ p < 8, ∀ x c, (mget s.m.seqs p).run = some x → x.kind = 1 ∨ x.kind = 2 → (mget s.m.recov p).be = some c → (mget s.m.recov p).switch = .none →
        (mget t.recov p).switch = .draining)) ∧
    (rdb s.m Reg.PWR_STATUS_CAP_HOLD = true → rdb s.m Reg.PWR_STATUS_CAP_UNMET = false → s.m.power.above.isSome = true → s.m.power.heldAt + capGraceNs s.m ≤ now s.m →
      Completes .capUnmetExpiry s (fun t => rd t Reg.PWR_STATUS_CAP_UNMET = 1 ∧ Logged 0x5D s.m t ∧ t.power = s.m.power ∧
        ∀ f : Fld, f.unlogged → f.key ≠ Reg.PWR_STATUS_CAP_UNMET.key → rd t f = rd s.m f)) ∧
    (∀ t0, rdb s.m Reg.PWR_STATUS_CAP_HOLD = true → s.m.power.under = some t0 → t0 + capGraceNs s.m ≤ now s.m → Completes .capHoldExit s (fun t =>
      t = { s.m with regs := t.regs } ∧ Sets [(Reg.PWR_STATUS_CAP_HOLD, 0), (Reg.PWR_STATUS_CAP_UNMET, 0)] s.m t)) ∧
    (∀ d, s.m.power.hcChange = some d → d < 4 → (if rdb s.m Reg.PWR_STATUS_FORCED_SLOW then 3 else max (rd s.m Reg.PWR_HC_POINT_CAP_LEVEL) (rd s.m Reg.PWR_HC_POINT_THERM_LEVEL)) = d →
      s.m.power.hcChangeAt + (if d < rd s.m Reg.PWR_HC_POINT_POINT then rampNs (hcMv d - hcMv (rd s.m Reg.PWR_HC_POINT_POINT)) true else 0) ≤ now s.m →
      Completes (.opChangeComplete 8) s (fun t => t = { s.m with regs := t.regs, power := { s.m.power with hcChange := none } } ∧ Sets [(Reg.PWR_HC_POINT_POINT, d)] s.m t))) ∧
  (∀ (p : Fin 8) (s : State), Powered s →
    let x := mget s.m.pparts p
    let n := rd s.m (Reg.PWR_PART_STATUS_POINT p)
    let due := pointDue s.m p
    (∀ d, x.change = some d → d < 8 → x.changeAt + (if d < n then rampNs (50 * (n - d)) true else 0) ≤ now s.m →
      (due = d → Completes (.opChangeComplete (p.castLE (by decide))) s (fun t => t = { s.m with regs := t.regs, pparts := t.pparts } ∧ mget t.pparts p = { x with change := none } ∧
        rd t (Reg.PWR_PART_STATUS_POINT p) = d ∧ rd t (Reg.PWR_PART_STATUS_CHANGING p) = 0 ∧ rd t (Reg.PWR_PART_RAIL_V_SET p) = vSet t p ∧
        RegsKept [Reg.PWR_PART_STATUS_POINT p, Reg.PWR_PART_STATUS_CHANGING p, Reg.PWR_PART_STATUS_WINDOW p, Reg.PWR_PART_RAIL_V_SET p, Reg.TC_PWR_STATUS p] s.m t)) ∧
      (due ≠ d → due < 8 → rd s.m (Reg.TC_RECOV_STATUS_STATE p) ≠ 3 → marginRuns s.m p = false → rdb s.m Reg.PWR_STATUS_SHUTDOWN = false →
        Completes (.opChangeComplete (p.castLE (by decide))) s (fun t => mget t.pparts p = { x with change := some due, changeAt := now s.m } ∧
          rd t (Reg.PWR_PART_STATUS_CHANGING p) = 1 ∧ rd t (Reg.PWR_PART_STATUS_POINT p) = max d due ∧ rd t (Reg.PWR_PART_RAIL_V_SET p) = vSet t p))) ∧
    (∀ w ∈ x.wins, w.opened + 1000 * (w.lead - 6) ≤ now s.m → rdb s.m (Reg.PWR_PART_STATUS_LIGHT p) = true → Completes (.hintRailRise p) s (fun t =>
      t = { s.m with regs := t.regs, pparts := t.pparts } ∧ mget t.pparts p = { x with fullAt := now s.m + 5000 } ∧ rd t (Reg.PWR_PART_STATUS_LIGHT p) = 0 ∧
      rd t (Reg.PWR_PART_RAIL_V_SET p) = vSet t p)) ∧
    (x.wins.any (winCloses s.m) = true → rdb s.m (Reg.PWR_PART_STATUS_LIGHT p) = false → Completes (.hintWindowClose p) s (fun t =>
      let left := x.wins.filter (fun w => !winCloses s.m w)
      t = { s.m with regs := t.regs, pparts := t.pparts } ∧ mget t.pparts p = { x with wins := left } ∧
      rd t (Reg.TC_PWR_CNT_HINT_UNUSED p) = min (2 ^ 32 - 1) (rd s.m (Reg.TC_PWR_CNT_HINT_UNUSED p) + ((x.wins.filter (winCloses s.m)).filter (fun w => w.left == 0)).length) ∧
      rd t (Reg.PWR_PART_STATUS_WINDOW p) = b2n (!left.isEmpty) ∧
      rdb t (Reg.PWR_PART_STATUS_LIGHT p) = (hinted s.m p && arraysCold s.m p && left.isEmpty && !x.held && rd s.m (Reg.TC_RECOV_STATUS_STATE p) != 3))))

/-- A sample of the margin monitors moves V_trim by the rows of R649, and holds it at 0 where R650 does; the hold of an exhausted
margin ends after 1 s. A temperature sample takes each working sensor's reading, marks one whose converters differ as failed
with its record, and moves each partition's THERM_LEVEL by the hottest of its sensors and its stack. Each condition of R654 that
begins enters the safe state for POWER with its record and shows OVER_LIMIT; one that ends leaves the conditions held. Die and
stack over-temperature force every unit to its slowest point, released when both have been absent for 1 s. At 125 °C the part
shuts down: no sequencer runs, HBM is in self-refresh, the host cluster is down. (R649 (21_power_and_thermal.md); R650
(21_power_and_thermal.md); R652 (21_power_and_thermal.md); R653 (21_power_and_thermal.md); R654 (21_power_and_thermal.md); R655
(21_power_and_thermal.md); R656 (21_power_and_thermal.md)) -/
def Obligations.MarginsTemperaturesAndLimitsAct : Prop :=
  (∀ (p : Fin 8) (slack : Int) (s : State), Powered s →
    let x := mget s.m.pparts p
    let v := rd s.m (Reg.PWR_PART_STATUS_TRIM_MV p)
    let trims (mv held : Nat) (f : Option Nat) (t : Mach) : Prop := t = { s.m with regs := t.regs, pparts := t.pparts } ∧ mget t.pparts p = { x with fine := f } ∧
      rd t (Reg.PWR_PART_STATUS_TRIM_MV p) = mv % 2 ^ 6 ∧ rd t (Reg.PWR_PART_STATUS_TRIM_HELD p) = held ∧ rd t (Reg.PWR_PART_RAIL_V_SET p) = vSet t p ∧
      RegsKept [Reg.PWR_PART_STATUS_TRIM_MV p, Reg.PWR_PART_STATUS_TRIM_HELD p, Reg.PWR_PART_STATUS_WINDOW p, Reg.PWR_PART_RAIL_V_SET p, Reg.TC_PWR_STATUS p] s.m t
    (trimOff s.m p = true ∨ x.exhaust.isSome = true → Completes (.marginMonitorSample p slack) s (trims 0 1 none)) ∧
    (trimOff s.m p = false → x.exhaust = none →
      (slack < 5 → Completes (.marginMonitorSample p slack) s (fun t => Logged 0x5D s.m t ∧ rd t (Reg.PWR_PART_STATUS_TRIM_MV p) = 0 ∧ rd t (Reg.PWR_PART_STATUS_TRIM_HELD p) = 1 ∧
        mget t.pparts p = { x with fine := none, exhaust := some (now s.m) } ∧ rd t Reg.PWR_CNT_MARGIN_EXH = min (2 ^ 32 - 1) (rd s.m Reg.PWR_CNT_MARGIN_EXH + 1))) ∧
      (5 ≤ slack → slack < 20 → Completes (.marginMonitorSample p slack) s (trims (v - 10) 0 none)) ∧
      (20 ≤ slack → slack < 40 → Completes (.marginMonitorSample p slack) s (trims v 0 none)) ∧
      (40 ≤ slack → x.fine = none → Completes (.marginMonitorSample p slack) s (trims v 0 (some (now s.m)))) ∧
      (∀ t0, 40 ≤ slack → x.fine = some t0 → Completes (.marginMonitorSample p slack) s
        (if t0 + 100000000 ≤ now s.m ∧ v < trimMax s.m p then trims (v + 5) 0 (some (now s.m)) else trims v 0 (some t0)))) ∧
    (∀ t0, x.exhaust = some t0 → t0 + 1000000000 ≤ now s.m → Completes (.trimHoldExpiry p) s (fun t => t = { s.m with regs := t.regs, pparts := t.pparts } ∧
      mget t.pparts p = { x with exhaust := none } ∧ rd t (Reg.PWR_PART_STATUS_TRIM_HELD p) = b2n (trimOff s.m p) ∧ rd t (Reg.PWR_PART_STATUS_TRIM_MV p) = v))) ∧
  (∀ (readings : List (Int × Bool)) (s : State), Powered s → readings.length ≤ 64 → Completes (.tempSample readings) s (fun t =>
    (∀ i x, readings[i]? = some x → rdb s.m (Reg.PWR_TEMP_FAILED i) = false → rd t (Reg.PWR_TEMP_C i) = fieldOf 8 x.1 ∧
      (x.2 = true → rd t (Reg.PWR_TEMP_FAILED i) = 1 ∧ Noted 0x5D s.m t) ∧ (x.2 = false → rdb t (Reg.PWR_TEMP_FAILED i) = false)) ∧
    (∀ i, rdb s.m (Reg.PWR_TEMP_FAILED i) = true → i < 64 → rd t (Reg.PWR_TEMP_C i) = rd s.m (Reg.PWR_TEMP_C i)) ∧
    (applied s.m = true → ∀ p < 8,
      let hottest := (hottestOf t (partSensors t p)).getD (tjThrottle s.m)
      let hot := decide (tjThrottle s.m ≤ hottest) || decide (tstackThrottle s.m ≤ stackTemp s.m p)
      let cool := decide (hottest < tjThrottle s.m - 5) && decide (stackTemp s.m p < tstackThrottle s.m - 5)
      let v := rd s.m (Reg.PWR_PART_STATUS_THERM_LEVEL p)
      rd t (Reg.PWR_PART_STATUS_THROTTLED p) = b2n hot ∧
      (∀ w, thermStep s.m hot cool v (partSlowest s.m p) (partFastest s.m p) (mget s.m.pparts p).thermDn (mget s.m.pparts p).thermUp = some w →
        rd t (Reg.PWR_PART_STATUS_THERM_LEVEL p) = w % 8) ∧
      (thermStep s.m hot cool v (partSlowest s.m p) (partFastest s.m p) (mget s.m.pparts p).thermDn (mget s.m.pparts p).thermUp = none →
        rd t (Reg.PWR_PART_STATUS_THERM_LEVEL p) = v)))) ∧
  (∀ (i : Fin 64) (st : Fin 2) (u : Fin 10) (w : Fin 11) (p : Fin 8) (mv cur : Nat) (temp lim : Int) (s : State), Powered s →
    let rows (holds : Bool) : List (Instr × Nat) := [(.overTemp i temp holds, 8), (.stackOverTemp st temp holds, 9), (.railUnder u mv holds, 10), (.railOver w mv holds, 11),
      (.overcurrent p cur holds, 12), (.supply temp lim holds, 13)]
    (∀ c ∈ rows true, c.2 ∉ s.m.power.conds → c.2 = 10 → u.val < 8 → rdb s.m (Reg.PWR_PART_STATUS_CHANGING u) = true → Completes c.1 s (fun t => t = s.m)) ∧
    (∀ c ∈ rows true, c.2 ∉ s.m.power.conds → (c.2 = 10 → u.val < 8 → rdb s.m (Reg.PWR_PART_STATUS_CHANGING u) = false) → Completes c.1 s (fun t => Entered .power s.m t ∧ Noted 0x5D s.m t ∧
      t.power.conds = s.m.power.conds ++ [c.2] ∧ rd t Reg.PWR_STATUS_OVER_LIMIT = 1 ∧
      (10 ≤ c.2 → ∀ f : Fld, f.beyond → f.key ≠ Reg.PWR_STATUS_OVER_LIMIT.key → rd t f = rd s.m f) ∧
      (c.2 ≤ 9 → rd t Reg.PWR_STATUS_FORCED_SLOW = 1 ∧ ∀ q < 8, rdb s.m (Reg.PWR_PART_STATUS_CHANGING q) = false → rd s.m (Reg.TC_RECOV_STATUS_STATE q) ≠ 3 → marginRuns s.m q = false →
        rdb s.m Reg.PWR_STATUS_SHUTDOWN = false → rd s.m (Reg.PWR_PART_STATUS_POINT q) < 7 → rd t (Reg.PWR_PART_STATUS_POINT q) = 7 ∧ rd t (Reg.PWR_PART_STATUS_CHANGING q) = 1))) ∧
    (∀ c ∈ rows false, c.2 ∉ s.m.power.conds → Completes c.1 s (fun t => t = s.m)) ∧
    (∀ c ∈ rows false, c.2 ∈ s.m.power.conds →
      let l := s.m.power.conds.filter (· != c.2)
      Completes c.1 s (fun t => t = { s.m with regs := t.regs, power := { s.m.power with conds := l, lastCond := some (now s.m), heat := if c.2 ≤ 9 then some (now s.m) else s.m.power.heat } } ∧
        Sets [(Reg.PWR_STATUS_OVER_LIMIT, b2n (!l.isEmpty))] s.m t))) ∧
  (∀ (i : Fin 64) (temp : Int) (s : State), Powered s →
    (rdb s.m Reg.PWR_STATUS_SHUTDOWN = true → Completes (.shutdown i temp) s (fun t => t = s.m)) ∧
    (rdb s.m Reg.PWR_STATUS_SHUTDOWN = false → 14 ∉ s.m.power.conds → Completes (.shutdown i temp) s (fun t => Entered .power s.m t ∧ Noted 0x5D s.m t ∧ rd t Reg.PWR_STATUS_SHUTDOWN = 1 ∧
      t.ldr.hcUp = false ∧ (∀ p < 8, (mget t.seqs p).run = none ∧ rd t (Reg.TC_SEQ_STATUS_STATE p) = 0 ∧ (mget t.recov p).work = []) ∧
      ∀ ch < 32, rd t (Reg.MEM_STATUS_STATE ch) = 3)) ∧
    (∀ t0, rdb s.m Reg.PWR_STATUS_FORCED_SLOW = true → 8 ∉ s.m.power.conds → 9 ∉ s.m.power.conds → s.m.power.heat = some t0 → t0 + 1000000000 ≤ now s.m →
      Completes .forcedSlowRelease s (fun t => rd t Reg.PWR_STATUS_FORCED_SLOW = 0 ∧ t.power.heat = none ∧ MemKept s.m t ∧
        ∀ q < 8, rdb s.m (Reg.PWR_PART_STATUS_CHANGING q) = false → rd s.m (Reg.TC_RECOV_STATUS_STATE q) ≠ 3 → marginRuns s.m q = false → rdb s.m Reg.PWR_STATUS_SHUTDOWN = false →
          let d := max (rd s.m (Reg.PWR_PART_STATUS_CAP_LEVEL q)) (rd s.m (Reg.PWR_PART_STATUS_THERM_LEVEL q))
          d ≠ rd s.m (Reg.PWR_PART_STATUS_POINT q) → (mget t.pparts q).change = some d ∧ (mget t.pparts q).changeAt = now s.m ∧ rd t (Reg.PWR_PART_STATUS_CHANGING q) = 1)))
end

