-- ==== Sys2Proof/Laws/Map.lean ====
section
/-!
SUPPORT. The laws of the sparse maps: reading after a write, and that every operation keeps the canonical form.
-/

namespace Sys2Proof.Machine

variable {α : Type}

/-! ### Reading one key -/

/-- Reading a list whose entries are kept by their keys. -/
theorem lookup_filter (q : Nat → Bool) (l : List (Nat × α)) (j : Nat) :
    lookup (l.filter (fun c => q c.1)) j = if q j then lookup l j else none := by
  induction l with
  | nil => simp [lookup]
  | cons c r ih =>
    rw [List.filter_cons]
    by_cases hj : c.1 = j
    · subst hj
      cases hq : q c.1 <;> simp [lookup, ih, hq]
    · cases hq : q c.1 <;> simp [lookup, ih, hj]

theorem lookup_eraseKey_same (l : List (Nat × α)) (i : Nat) : lookup (eraseKey l i) i = none := by
  simp [eraseKey, lookup_filter (· != i)]

theorem lookup_eraseKey_other (l : List (Nat × α)) {i j : Nat} (h : j ≠ i) : lookup (eraseKey l i) j = lookup l j := by
  simp [eraseKey, lookup_filter (· != i), h]

theorem lookup_insertKey_same (l : List (Nat × α)) (i : Nat) (v : α) (h : lookup l i = none) :
    lookup (insertKey l i v) i = some v := by
  induction l with
  | nil => simp [insertKey, lookup]
  | cons c r ih =>
    obtain ⟨k, w⟩ := c
    have hk : k ≠ i := fun e => by simp [lookup, e] at h
    have hr : lookup r i = none := by simpa [lookup, hk] using h
    unfold insertKey
    split <;> simp [lookup, hk, ih hr]

theorem lookup_insertKey_other (l : List (Nat × α)) {i j : Nat} (v : α) (h : j ≠ i) :
    lookup (insertKey l i v) j = lookup l j := by
  induction l with
  | nil => simp [insertKey, lookup, Ne.symm h]
  | cons c r ih =>
    obtain ⟨k, w⟩ := c
    unfold insertKey
    split <;> simp [lookup, Ne.symm h, ih]

/-- Reading the key just written gives the value written. -/
@[simp] theorem getD_setD_same [DecidableEq α] (d : α) (l : List (Nat × α)) (i : Nat) (v : α) :
    getD d (setD d l i v) i = v := by
  unfold getD setD
  split
  · next h => simp [lookup_eraseKey_same, h]
  · simp [lookup_insertKey_same, lookup_eraseKey_same]

/-- A write leaves every other key alone, whatever it reads as unlisted. -/
theorem getD_setD_other [DecidableEq α] (d e : α) (l : List (Nat × α)) {i j : Nat} (v : α) (h : j ≠ i) :
    getD e (setD d l i v) j = getD e l j := by
  unfold getD setD
  split
  · rw [lookup_eraseKey_other l h]
  · rw [lookup_insertKey_other _ v h, lookup_eraseKey_other l h]

theorem lookup_clearRange (l : List (Nat × α)) (lo hi j : Nat) :
    lookup (clearRange l lo hi) j = if lo ≤ j ∧ j < hi then none else lookup l j := by
  unfold clearRange
  rw [lookup_filter (fun k => !(decide (lo ≤ k) && decide (k < hi)))]
  by_cases h1 : lo ≤ j <;> by_cases h2 : j < hi <;> simp only [h1, h2] <;> rfl

/-- A key outside a cleared range keeps its value. -/
theorem getD_clearRange_out (d : α) (l : List (Nat × α)) {lo hi j : Nat} (h : ¬ (lo ≤ j ∧ j < hi)) :
    getD d (clearRange l lo hi) j = getD d l j := by
  unfold getD; rw [lookup_clearRange, if_neg h]

/-- A key inside a cleared range reads as unlisted. -/
theorem getD_clearRange_in (d : α) (l : List (Nat × α)) {lo hi j : Nat} (h : lo ≤ j ∧ j < hi) :
    getD d (clearRange l lo hi) j = d := by
  unfold getD; rw [lookup_clearRange, if_pos h]; rfl

@[simp] theorem mget_mset_same [Inhabited α] [DecidableEq α] (l : List (Nat × α)) (i : Nat) (v : α) :
    mget (mset l i v) i = v := getD_setD_same _ _ _ _

theorem mget_mset_other [Inhabited α] [DecidableEq α] (l : List (Nat × α)) {i j : Nat} (v : α) (h : j ≠ i) :
    mget (mset l i v) j = mget l j := getD_setD_other _ _ _ _ h

@[simp] theorem mget_mmod_same [Inhabited α] [DecidableEq α] (l : List (Nat × α)) (i : Nat) (f : α → α) :
    mget (mmod l i f) i = f (mget l i) := mget_mset_same _ _ _

theorem mget_mmod_other [Inhabited α] [DecidableEq α] (l : List (Nat × α)) {i j : Nat} (f : α → α) (h : j ≠ i) :
    mget (mmod l i f) j = mget l j := mget_mset_other _ _ h

/-! ### The canonical form -/

/-- Keys strictly rising above a bound, in the words of `List`. -/
theorem rising_iff (b : Option Nat) (l : List (Nat × α)) :
    rising b l = true ↔ l.Pairwise (fun x y => x.1 < y.1) ∧ ∀ x ∈ l, ∀ n, b = some n → n < x.1 := by
  induction l generalizing b with
  | nil => simp [rising]
  | cons c r ih =>
    obtain ⟨k, v⟩ := c
    cases b with
    | none => simp [rising, ih, and_comm]
    | some n =>
      simp only [rising, Bool.and_eq_true, decide_eq_true_eq, ih, List.pairwise_cons, List.mem_cons, Option.some.injEq]
      constructor
      · rintro ⟨h1, h2, h3⟩
        exact ⟨⟨fun x hx => h3 x hx k rfl, h2⟩, by
          rintro x (rfl | hx) m rfl
          · exact h1
          · exact Nat.lt_trans h1 (h3 x hx k rfl)⟩
      · rintro ⟨⟨h1, h2⟩, h3⟩
        exact ⟨h3 _ (.inl rfl) n rfl, h2, by rintro x hx m rfl; exact h1 x hx⟩

theorem canonical_iff [DecidableEq α] (d : α) (l : List (Nat × α)) :
    canonical d l = true ↔ l.Pairwise (fun x y => x.1 < y.1) ∧ ∀ x ∈ l, x.2 ≠ d := by
  simp [canonical, rising_iff]

@[simp] theorem canonical_nil [DecidableEq α] (d : α) : canonical d ([] : List (Nat × α)) = true := rfl

/-- Dropping entries keeps the canonical form. -/
theorem canonical_filter [DecidableEq α] {d : α} {l : List (Nat × α)} (p : Nat × α → Bool)
    (h : canonical d l = true) : canonical d (l.filter p) = true := by
  rw [canonical_iff] at *
  exact ⟨h.1.filter p, fun x hx => h.2 x (List.mem_filter.mp hx).1⟩

theorem mem_insertKey (l : List (Nat × α)) (i : Nat) (v : α) (x : Nat × α) :
    x ∈ insertKey l i v ↔ x = (i, v) ∨ x ∈ l := by
  induction l with
  | nil => simp [insertKey]
  | cons c r ih =>
    obtain ⟨k, w⟩ := c
    unfold insertKey
    split
    · simp
    · simp only [List.mem_cons, ih]
      constructor
      · rintro (h | h | h)
        · exact .inr (.inl h)
        · exact .inl h
        · exact .inr (.inr h)
      · rintro (h | h | h)
        · exact .inr (.inl h)
        · exact .inl h
        · exact .inr (.inr h)

theorem pairwise_insertKey (l : List (Nat × α)) (i : Nat) (v : α) (h : l.Pairwise (fun x y => x.1 < y.1))
    (hi : ∀ x ∈ l, x.1 ≠ i) : (insertKey l i v).Pairwise (fun x y => x.1 < y.1) := by
  induction l with
  | nil => simp [insertKey]
  | cons c r ih =>
    obtain ⟨k, w⟩ := c
    have h' := List.pairwise_cons.mp h
    unfold insertKey
    split
    · next hk =>
      refine List.pairwise_cons.mpr ⟨fun x hx => ?_, h⟩
      rcases List.mem_cons.mp hx with rfl | hx
      · exact hk
      · exact Nat.lt_trans hk (h'.1 x hx)
    · next hk =>
      have hki : k ≠ i := hi _ (List.mem_cons_self ..)
      refine List.pairwise_cons.mpr ⟨fun x hx => ?_, ih h'.2 (fun x hx => hi x (List.mem_cons_of_mem _ hx))⟩
      rcases (mem_insertKey r i v x).mp hx with rfl | hx
      · show k < i; omega
      · exact h'.1 x hx

/-- A write keeps the canonical form. -/
theorem canonical_setD [DecidableEq α] {d : α} {l : List (Nat × α)} (i : Nat) (v : α)
    (h : canonical d l = true) : canonical d (setD d l i v) = true := by
  unfold setD
  split
  · exact canonical_filter _ h
  · next hv =>
    have he : canonical d (eraseKey l i) = true := canonical_filter _ h
    rw [canonical_iff] at he ⊢
    refine ⟨pairwise_insertKey _ _ _ he.1 fun x hx => ?_, fun x hx => ?_⟩
    · simpa using (List.mem_filter.mp hx).2
    · rcases (mem_insertKey _ _ _ _).mp hx with rfl | hx
      · exact hv
      · exact he.2 x hx

/-- Clearing a range keeps the canonical form. -/
theorem canonical_clearRange [DecidableEq α] {d : α} {l : List (Nat × α)} (lo hi : Nat)
    (h : canonical d l = true) : canonical d (clearRange l lo hi) = true := canonical_filter _ h

theorem canonical_mset [Inhabited α] [DecidableEq α] {l : List (Nat × α)} (i : Nat) (v : α)
    (h : canonical default l = true) : canonical default (mset l i v) = true := canonical_setD _ _ h

end Sys2Proof.Machine
end

