-- ==== Sys2Proof/Laws/State.lean ====
section
/-!
SUPPORT. The laws of the state: what each field holds after each named update, so that no proof unfolds a record update; the
register file; and what a command's `run` answers.
-/

namespace Sys2Proof.Machine

/-! ### Fields after a register write and after an output -/

@[simp] theorem wr_latches (g : Fld) (v : Nat) (m : Mach) : (wr g v m).latches = m.latches := rfl
@[simp] theorem wr_holds (g : Fld) (v : Nat) (m : Mach) : (wr g v m).holds = m.holds := rfl
@[simp] theorem wr_mem (g : Fld) (v : Nat) (m : Mach) : (wr g v m).mem = m.mem := rfl
@[simp] theorem wr_bad (g : Fld) (v : Nat) (m : Mach) : (wr g v m).bad = m.bad := rfl
@[simp] theorem wr_soft (g : Fld) (v : Nat) (m : Mach) : (wr g v m).soft = m.soft := rfl
@[simp] theorem wr_imem (g : Fld) (v : Nat) (m : Mach) : (wr g v m).imem = m.imem := rfl
@[simp] theorem wr_out (g : Fld) (v : Nat) (m : Mach) : (wr g v m).out = m.out := rfl
@[simp] theorem wr_draws (g : Fld) (v : Nat) (m : Mach) : (wr g v m).draws = m.draws := rfl
@[simp] theorem wr_powered (g : Fld) (v : Nat) (m : Mach) : (wr g v m).powered = m.powered := rfl
@[simp] theorem wr_pe (g : Fld) (v : Nat) (m : Mach) : (wr g v m).pe = m.pe := rfl
@[simp] theorem wr_endpoint (g : Fld) (v : Nat) (m : Mach) : (wr g v m).endpoint = m.endpoint := rfl
@[simp] theorem wr_perst (g : Fld) (v : Nat) (m : Mach) : (wr g v m).perst = m.perst := rfl
@[simp] theorem wr_serdes (g : Fld) (v : Nat) (m : Mach) : (wr g v m).serdes = m.serdes := rfl
@[simp] theorem wr_ldr (g : Fld) (v : Nat) (m : Mach) : (wr g v m).ldr = m.ldr := rfl
@[simp] theorem wr_time (g : Fld) (v : Nat) (m : Mach) : (wr g v m).time = m.time := rfl
@[simp] theorem wr_trigs (g : Fld) (v : Nat) (m : Mach) : (wr g v m).trigs = m.trigs := rfl
@[simp] theorem wr_ppsLevel (g : Fld) (v : Nat) (m : Mach) : (wr g v m).ppsLevel = m.ppsLevel := rfl
@[simp] theorem wr_lastPpsOut (g : Fld) (v : Nat) (m : Mach) : (wr g v m).lastPpsOut = m.lastPpsOut := rfl
@[simp] theorem wr_evts (g : Fld) (v : Nat) (m : Mach) : (wr g v m).evts = m.evts := rfl
@[simp] theorem wr_turns (g : Fld) (v : Nat) (m : Mach) : (wr g v m).turns = m.turns := rfl
@[simp] theorem wr_items (g : Fld) (v : Nat) (m : Mach) : (wr g v m).items = m.items := rfl
@[simp] theorem wr_deadlined (g : Fld) (v : Nat) (m : Mach) : (wr g v m).deadlined = m.deadlined := rfl
@[simp] theorem wr_decided (g : Fld) (v : Nat) (m : Mach) : (wr g v m).decided = m.decided := rfl
@[simp] theorem wr_log (g : Fld) (v : Nat) (m : Mach) : (wr g v m).log = m.log := rfl
@[simp] theorem wr_logCount (g : Fld) (v : Nat) (m : Mach) : (wr g v m).logCount = m.logCount := rfl
@[simp] theorem wr_rings (g : Fld) (v : Nat) (m : Mach) : (wr g v m).rings = m.rings := rfl
@[simp] theorem wr_funcs (g : Fld) (v : Nat) (m : Mach) : (wr g v m).funcs = m.funcs := rfl
@[simp] theorem wr_saf (g : Fld) (v : Nat) (m : Mach) : (wr g v m).saf = m.saf := rfl
@[simp] theorem wr_ing (g : Fld) (v : Nat) (m : Mach) : (wr g v m).ing = m.ing := rfl
@[simp] theorem wr_aphy (g : Fld) (v : Nat) (m : Mach) : (wr g v m).aphy = m.aphy := rfl
@[simp] theorem wr_streams (g : Fld) (v : Nat) (m : Mach) : (wr g v m).streams = m.streams := rfl
@[simp] theorem wr_lane (g : Fld) (v : Nat) (m : Mach) : (wr g v m).lane = m.lane := rfl
@[simp] theorem wr_isps (g : Fld) (v : Nat) (m : Mach) : (wr g v m).isps = m.isps := rfl
@[simp] theorem wr_pipes (g : Fld) (v : Nat) (m : Mach) : (wr g v m).pipes = m.pipes := rfl
@[simp] theorem wr_comps (g : Fld) (v : Nat) (m : Mach) : (wr g v m).comps = m.comps := rfl
@[simp] theorem wr_rnotes (g : Fld) (v : Nat) (m : Mach) : (wr g v m).rnotes = m.rnotes := rfl
@[simp] theorem wr_seqs (g : Fld) (v : Nat) (m : Mach) : (wr g v m).seqs = m.seqs := rfl
@[simp] theorem wr_engines (g : Fld) (v : Nat) (m : Mach) : (wr g v m).engines = m.engines := rfl
@[simp] theorem wr_cores (g : Fld) (v : Nat) (m : Mach) : (wr g v m).cores = m.cores := rfl
@[simp] theorem wr_recov (g : Fld) (v : Nat) (m : Mach) : (wr g v m).recov = m.recov := rfl
@[simp] theorem wr_grans (g : Fld) (v : Nat) (m : Mach) : (wr g v m).grans = m.grans := rfl
@[simp] theorem wr_poisonq (g : Fld) (v : Nat) (m : Mach) : (wr g v m).poisonq = m.poisonq := rfl
@[simp] theorem wr_ascrub (g : Fld) (v : Nat) (m : Mach) : (wr g v m).ascrub = m.ascrub := rfl
@[simp] theorem wr_pparts (g : Fld) (v : Nat) (m : Mach) : (wr g v m).pparts = m.pparts := rfl
@[simp] theorem wr_power (g : Fld) (v : Nat) (m : Mach) : (wr g v m).power = m.power := rfl
@[simp] theorem wr_margin (g : Fld) (v : Nat) (m : Mach) : (wr g v m).margin = m.margin := rfl
@[simp] theorem wr_grids (g : Fld) (v : Nat) (m : Mach) : (wr g v m).grids = m.grids := rfl
@[simp] theorem wr_chans (g : Fld) (v : Nat) (m : Mach) : (wr g v m).chans = m.chans := rfl
@[simp] theorem wr_held (g : Fld) (v : Nat) (m : Mach) : (wr g v m).held = m.held := rfl
@[simp] theorem wr_boxes (g : Fld) (v : Nat) (m : Mach) : (wr g v m).boxes = m.boxes := rfl
@[simp] theorem wr_links (g : Fld) (v : Nat) (m : Mach) : (wr g v m).links = m.links := rfl
@[simp] theorem wr_kvs (g : Fld) (v : Nat) (m : Mach) : (wr g v m).kvs = m.kvs := rfl
@[simp] theorem wr_ucie (g : Fld) (v : Nat) (m : Mach) : (wr g v m).ucie = m.ucie := rfl

@[simp] theorem emit_regs (o : Output) (m : Mach) : (emit o m).regs = m.regs := rfl
@[simp] theorem emit_latches (o : Output) (m : Mach) : (emit o m).latches = m.latches := rfl
@[simp] theorem emit_holds (o : Output) (m : Mach) : (emit o m).holds = m.holds := rfl
@[simp] theorem emit_mem (o : Output) (m : Mach) : (emit o m).mem = m.mem := rfl
@[simp] theorem emit_bad (o : Output) (m : Mach) : (emit o m).bad = m.bad := rfl
@[simp] theorem emit_soft (o : Output) (m : Mach) : (emit o m).soft = m.soft := rfl
@[simp] theorem emit_imem (o : Output) (m : Mach) : (emit o m).imem = m.imem := rfl
@[simp] theorem emit_draws (o : Output) (m : Mach) : (emit o m).draws = m.draws := rfl
@[simp] theorem emit_powered (o : Output) (m : Mach) : (emit o m).powered = m.powered := rfl
@[simp] theorem emit_pe (o : Output) (m : Mach) : (emit o m).pe = m.pe := rfl
@[simp] theorem emit_endpoint (o : Output) (m : Mach) : (emit o m).endpoint = m.endpoint := rfl
@[simp] theorem emit_perst (o : Output) (m : Mach) : (emit o m).perst = m.perst := rfl
@[simp] theorem emit_serdes (o : Output) (m : Mach) : (emit o m).serdes = m.serdes := rfl
@[simp] theorem emit_ldr (o : Output) (m : Mach) : (emit o m).ldr = m.ldr := rfl
@[simp] theorem emit_time (o : Output) (m : Mach) : (emit o m).time = m.time := rfl
@[simp] theorem emit_trigs (o : Output) (m : Mach) : (emit o m).trigs = m.trigs := rfl
@[simp] theorem emit_ppsLevel (o : Output) (m : Mach) : (emit o m).ppsLevel = m.ppsLevel := rfl
@[simp] theorem emit_lastPpsOut (o : Output) (m : Mach) : (emit o m).lastPpsOut = m.lastPpsOut := rfl
@[simp] theorem emit_evts (o : Output) (m : Mach) : (emit o m).evts = m.evts := rfl
@[simp] theorem emit_turns (o : Output) (m : Mach) : (emit o m).turns = m.turns := rfl
@[simp] theorem emit_items (o : Output) (m : Mach) : (emit o m).items = m.items := rfl
@[simp] theorem emit_deadlined (o : Output) (m : Mach) : (emit o m).deadlined = m.deadlined := rfl
@[simp] theorem emit_decided (o : Output) (m : Mach) : (emit o m).decided = m.decided := rfl
@[simp] theorem emit_log (o : Output) (m : Mach) : (emit o m).log = m.log := rfl
@[simp] theorem emit_logCount (o : Output) (m : Mach) : (emit o m).logCount = m.logCount := rfl
@[simp] theorem emit_rings (o : Output) (m : Mach) : (emit o m).rings = m.rings := rfl
@[simp] theorem emit_funcs (o : Output) (m : Mach) : (emit o m).funcs = m.funcs := rfl
@[simp] theorem emit_saf (o : Output) (m : Mach) : (emit o m).saf = m.saf := rfl
@[simp] theorem emit_ing (o : Output) (m : Mach) : (emit o m).ing = m.ing := rfl
@[simp] theorem emit_aphy (o : Output) (m : Mach) : (emit o m).aphy = m.aphy := rfl
@[simp] theorem emit_streams (o : Output) (m : Mach) : (emit o m).streams = m.streams := rfl
@[simp] theorem emit_lane (o : Output) (m : Mach) : (emit o m).lane = m.lane := rfl
@[simp] theorem emit_isps (o : Output) (m : Mach) : (emit o m).isps = m.isps := rfl
@[simp] theorem emit_pipes (o : Output) (m : Mach) : (emit o m).pipes = m.pipes := rfl
@[simp] theorem emit_comps (o : Output) (m : Mach) : (emit o m).comps = m.comps := rfl
@[simp] theorem emit_rnotes (o : Output) (m : Mach) : (emit o m).rnotes = m.rnotes := rfl
@[simp] theorem emit_seqs (o : Output) (m : Mach) : (emit o m).seqs = m.seqs := rfl
@[simp] theorem emit_engines (o : Output) (m : Mach) : (emit o m).engines = m.engines := rfl
@[simp] theorem emit_cores (o : Output) (m : Mach) : (emit o m).cores = m.cores := rfl
@[simp] theorem emit_recov (o : Output) (m : Mach) : (emit o m).recov = m.recov := rfl
@[simp] theorem emit_grans (o : Output) (m : Mach) : (emit o m).grans = m.grans := rfl
@[simp] theorem emit_poisonq (o : Output) (m : Mach) : (emit o m).poisonq = m.poisonq := rfl
@[simp] theorem emit_ascrub (o : Output) (m : Mach) : (emit o m).ascrub = m.ascrub := rfl
@[simp] theorem emit_pparts (o : Output) (m : Mach) : (emit o m).pparts = m.pparts := rfl
@[simp] theorem emit_power (o : Output) (m : Mach) : (emit o m).power = m.power := rfl
@[simp] theorem emit_margin (o : Output) (m : Mach) : (emit o m).margin = m.margin := rfl
@[simp] theorem emit_grids (o : Output) (m : Mach) : (emit o m).grids = m.grids := rfl
@[simp] theorem emit_chans (o : Output) (m : Mach) : (emit o m).chans = m.chans := rfl
@[simp] theorem emit_held (o : Output) (m : Mach) : (emit o m).held = m.held := rfl
@[simp] theorem emit_boxes (o : Output) (m : Mach) : (emit o m).boxes = m.boxes := rfl
@[simp] theorem emit_links (o : Output) (m : Mach) : (emit o m).links = m.links := rfl
@[simp] theorem emit_kvs (o : Output) (m : Mach) : (emit o m).kvs = m.kvs := rfl
@[simp] theorem emit_ucie (o : Output) (m : Mach) : (emit o m).ucie = m.ucie := rfl
@[simp] theorem emit_out (o : Output) (m : Mach) : (emit o m).out = o :: m.out := rfl

/-! ### A free value drawn -/

@[simp] theorem draw_regs (w : Nat) (m : Mach) : (draw w m).2.regs = m.regs := rfl
@[simp] theorem draw_latches (w : Nat) (m : Mach) : (draw w m).2.latches = m.latches := rfl
@[simp] theorem draw_holds (w : Nat) (m : Mach) : (draw w m).2.holds = m.holds := rfl
@[simp] theorem draw_mem (w : Nat) (m : Mach) : (draw w m).2.mem = m.mem := rfl
@[simp] theorem draw_bad (w : Nat) (m : Mach) : (draw w m).2.bad = m.bad := rfl
@[simp] theorem draw_soft (w : Nat) (m : Mach) : (draw w m).2.soft = m.soft := rfl
@[simp] theorem draw_imem (w : Nat) (m : Mach) : (draw w m).2.imem = m.imem := rfl
@[simp] theorem draw_out (w : Nat) (m : Mach) : (draw w m).2.out = m.out := rfl
@[simp] theorem draw_powered (w : Nat) (m : Mach) : (draw w m).2.powered = m.powered := rfl
@[simp] theorem draw_pe (w : Nat) (m : Mach) : (draw w m).2.pe = m.pe := rfl
@[simp] theorem draw_endpoint (w : Nat) (m : Mach) : (draw w m).2.endpoint = m.endpoint := rfl
@[simp] theorem draw_perst (w : Nat) (m : Mach) : (draw w m).2.perst = m.perst := rfl
@[simp] theorem draw_serdes (w : Nat) (m : Mach) : (draw w m).2.serdes = m.serdes := rfl
@[simp] theorem draw_ldr (w : Nat) (m : Mach) : (draw w m).2.ldr = m.ldr := rfl
@[simp] theorem draw_time (w : Nat) (m : Mach) : (draw w m).2.time = m.time := rfl
@[simp] theorem draw_trigs (w : Nat) (m : Mach) : (draw w m).2.trigs = m.trigs := rfl
@[simp] theorem draw_ppsLevel (w : Nat) (m : Mach) : (draw w m).2.ppsLevel = m.ppsLevel := rfl
@[simp] theorem draw_lastPpsOut (w : Nat) (m : Mach) : (draw w m).2.lastPpsOut = m.lastPpsOut := rfl
@[simp] theorem draw_evts (w : Nat) (m : Mach) : (draw w m).2.evts = m.evts := rfl
@[simp] theorem draw_turns (w : Nat) (m : Mach) : (draw w m).2.turns = m.turns := rfl
@[simp] theorem draw_items (w : Nat) (m : Mach) : (draw w m).2.items = m.items := rfl
@[simp] theorem draw_deadlined (w : Nat) (m : Mach) : (draw w m).2.deadlined = m.deadlined := rfl
@[simp] theorem draw_decided (w : Nat) (m : Mach) : (draw w m).2.decided = m.decided := rfl
@[simp] theorem draw_log (w : Nat) (m : Mach) : (draw w m).2.log = m.log := rfl
@[simp] theorem draw_logCount (w : Nat) (m : Mach) : (draw w m).2.logCount = m.logCount := rfl
@[simp] theorem draw_rings (w : Nat) (m : Mach) : (draw w m).2.rings = m.rings := rfl
@[simp] theorem draw_funcs (w : Nat) (m : Mach) : (draw w m).2.funcs = m.funcs := rfl
@[simp] theorem draw_saf (w : Nat) (m : Mach) : (draw w m).2.saf = m.saf := rfl
@[simp] theorem draw_ing (w : Nat) (m : Mach) : (draw w m).2.ing = m.ing := rfl
@[simp] theorem draw_aphy (w : Nat) (m : Mach) : (draw w m).2.aphy = m.aphy := rfl
@[simp] theorem draw_streams (w : Nat) (m : Mach) : (draw w m).2.streams = m.streams := rfl
@[simp] theorem draw_lane (w : Nat) (m : Mach) : (draw w m).2.lane = m.lane := rfl
@[simp] theorem draw_isps (w : Nat) (m : Mach) : (draw w m).2.isps = m.isps := rfl
@[simp] theorem draw_pipes (w : Nat) (m : Mach) : (draw w m).2.pipes = m.pipes := rfl
@[simp] theorem draw_comps (w : Nat) (m : Mach) : (draw w m).2.comps = m.comps := rfl
@[simp] theorem draw_rnotes (w : Nat) (m : Mach) : (draw w m).2.rnotes = m.rnotes := rfl
@[simp] theorem draw_seqs (w : Nat) (m : Mach) : (draw w m).2.seqs = m.seqs := rfl
@[simp] theorem draw_engines (w : Nat) (m : Mach) : (draw w m).2.engines = m.engines := rfl
@[simp] theorem draw_cores (w : Nat) (m : Mach) : (draw w m).2.cores = m.cores := rfl
@[simp] theorem draw_recov (w : Nat) (m : Mach) : (draw w m).2.recov = m.recov := rfl
@[simp] theorem draw_grans (w : Nat) (m : Mach) : (draw w m).2.grans = m.grans := rfl
@[simp] theorem draw_poisonq (w : Nat) (m : Mach) : (draw w m).2.poisonq = m.poisonq := rfl
@[simp] theorem draw_ascrub (w : Nat) (m : Mach) : (draw w m).2.ascrub = m.ascrub := rfl
@[simp] theorem draw_pparts (w : Nat) (m : Mach) : (draw w m).2.pparts = m.pparts := rfl
@[simp] theorem draw_power (w : Nat) (m : Mach) : (draw w m).2.power = m.power := rfl
@[simp] theorem draw_margin (w : Nat) (m : Mach) : (draw w m).2.margin = m.margin := rfl
@[simp] theorem draw_grids (w : Nat) (m : Mach) : (draw w m).2.grids = m.grids := rfl
@[simp] theorem draw_chans (w : Nat) (m : Mach) : (draw w m).2.chans = m.chans := rfl
@[simp] theorem draw_held (w : Nat) (m : Mach) : (draw w m).2.held = m.held := rfl
@[simp] theorem draw_boxes (w : Nat) (m : Mach) : (draw w m).2.boxes = m.boxes := rfl
@[simp] theorem draw_links (w : Nat) (m : Mach) : (draw w m).2.links = m.links := rfl
@[simp] theorem draw_kvs (w : Nat) (m : Mach) : (draw w m).2.kvs = m.kvs := rfl
@[simp] theorem draw_ucie (w : Nat) (m : Mach) : (draw w m).2.ucie = m.ucie := rfl
@[simp] theorem draw_draws (w : Nat) (m : Mach) : (draw w m).2.draws = m.draws + 1 := rfl

/-! ### The updates of one unit -/

@[simp] theorem modLdr_ldr (f : Loader → Loader) (m : Mach) : (modLdr f m).ldr = f m.ldr := rfl
@[simp] theorem modLdr_regs (f : Loader → Loader) (m : Mach) : (modLdr f m).regs = m.regs := rfl
@[simp] theorem modLdr_mem (f : Loader → Loader) (m : Mach) : (modLdr f m).mem = m.mem := rfl
@[simp] theorem modLdr_out (f : Loader → Loader) (m : Mach) : (modLdr f m).out = m.out := rfl
@[simp] theorem modLdr_powered (f : Loader → Loader) (m : Mach) : (modLdr f m).powered = m.powered := rfl
@[simp] theorem modLdr_log (f : Loader → Loader) (m : Mach) : (modLdr f m).log = m.log := rfl
@[simp] theorem modLdr_saf (f : Loader → Loader) (m : Mach) : (modLdr f m).saf = m.saf := rfl
@[simp] theorem modLdr_items (f : Loader → Loader) (m : Mach) : (modLdr f m).items = m.items := rfl
@[simp] theorem modLdr_seqs (f : Loader → Loader) (m : Mach) : (modLdr f m).seqs = m.seqs := rfl
@[simp] theorem modLdr_time (f : Loader → Loader) (m : Mach) : (modLdr f m).time = m.time := rfl
@[simp] theorem modLdr_turns (f : Loader → Loader) (m : Mach) : (modLdr f m).turns = m.turns := rfl
@[simp] theorem modLdr_recov (f : Loader → Loader) (m : Mach) : (modLdr f m).recov = m.recov := rfl
@[simp] theorem modLdr_links (f : Loader → Loader) (m : Mach) : (modLdr f m).links = m.links := rfl
@[simp] theorem modLdr_kvs (f : Loader → Loader) (m : Mach) : (modLdr f m).kvs = m.kvs := rfl
@[simp] theorem modLdr_streams (f : Loader → Loader) (m : Mach) : (modLdr f m).streams = m.streams := rfl
@[simp] theorem modTime_time (f : TimeUnit → TimeUnit) (m : Mach) : (modTime f m).time = f m.time := rfl
@[simp] theorem modTime_regs (f : TimeUnit → TimeUnit) (m : Mach) : (modTime f m).regs = m.regs := rfl
@[simp] theorem modTime_mem (f : TimeUnit → TimeUnit) (m : Mach) : (modTime f m).mem = m.mem := rfl
@[simp] theorem modTime_out (f : TimeUnit → TimeUnit) (m : Mach) : (modTime f m).out = m.out := rfl
@[simp] theorem modTime_powered (f : TimeUnit → TimeUnit) (m : Mach) : (modTime f m).powered = m.powered := rfl
@[simp] theorem modTime_log (f : TimeUnit → TimeUnit) (m : Mach) : (modTime f m).log = m.log := rfl
@[simp] theorem modTime_saf (f : TimeUnit → TimeUnit) (m : Mach) : (modTime f m).saf = m.saf := rfl
@[simp] theorem modTime_ldr (f : TimeUnit → TimeUnit) (m : Mach) : (modTime f m).ldr = m.ldr := rfl
@[simp] theorem modTime_items (f : TimeUnit → TimeUnit) (m : Mach) : (modTime f m).items = m.items := rfl
@[simp] theorem modTime_seqs (f : TimeUnit → TimeUnit) (m : Mach) : (modTime f m).seqs = m.seqs := rfl
@[simp] theorem modTime_turns (f : TimeUnit → TimeUnit) (m : Mach) : (modTime f m).turns = m.turns := rfl
@[simp] theorem modTime_recov (f : TimeUnit → TimeUnit) (m : Mach) : (modTime f m).recov = m.recov := rfl
@[simp] theorem modTime_links (f : TimeUnit → TimeUnit) (m : Mach) : (modTime f m).links = m.links := rfl
@[simp] theorem modTime_kvs (f : TimeUnit → TimeUnit) (m : Mach) : (modTime f m).kvs = m.kvs := rfl
@[simp] theorem modTime_streams (f : TimeUnit → TimeUnit) (m : Mach) : (modTime f m).streams = m.streams := rfl
@[simp] theorem modSaf_saf (f : Safety → Safety) (m : Mach) : (modSaf f m).saf = f m.saf := rfl
@[simp] theorem modSaf_regs (f : Safety → Safety) (m : Mach) : (modSaf f m).regs = m.regs := rfl
@[simp] theorem modSaf_mem (f : Safety → Safety) (m : Mach) : (modSaf f m).mem = m.mem := rfl
@[simp] theorem modSaf_out (f : Safety → Safety) (m : Mach) : (modSaf f m).out = m.out := rfl
@[simp] theorem modSaf_powered (f : Safety → Safety) (m : Mach) : (modSaf f m).powered = m.powered := rfl
@[simp] theorem modSaf_log (f : Safety → Safety) (m : Mach) : (modSaf f m).log = m.log := rfl
@[simp] theorem modSaf_ldr (f : Safety → Safety) (m : Mach) : (modSaf f m).ldr = m.ldr := rfl
@[simp] theorem modSaf_items (f : Safety → Safety) (m : Mach) : (modSaf f m).items = m.items := rfl
@[simp] theorem modSaf_seqs (f : Safety → Safety) (m : Mach) : (modSaf f m).seqs = m.seqs := rfl
@[simp] theorem modSaf_time (f : Safety → Safety) (m : Mach) : (modSaf f m).time = m.time := rfl
@[simp] theorem modSaf_turns (f : Safety → Safety) (m : Mach) : (modSaf f m).turns = m.turns := rfl
@[simp] theorem modSaf_recov (f : Safety → Safety) (m : Mach) : (modSaf f m).recov = m.recov := rfl
@[simp] theorem modSaf_links (f : Safety → Safety) (m : Mach) : (modSaf f m).links = m.links := rfl
@[simp] theorem modSaf_kvs (f : Safety → Safety) (m : Mach) : (modSaf f m).kvs = m.kvs := rfl
@[simp] theorem modSaf_streams (f : Safety → Safety) (m : Mach) : (modSaf f m).streams = m.streams := rfl
@[simp] theorem modPower_power (f : Power → Power) (m : Mach) : (modPower f m).power = f m.power := rfl
@[simp] theorem modPower_regs (f : Power → Power) (m : Mach) : (modPower f m).regs = m.regs := rfl
@[simp] theorem modPower_mem (f : Power → Power) (m : Mach) : (modPower f m).mem = m.mem := rfl
@[simp] theorem modPower_out (f : Power → Power) (m : Mach) : (modPower f m).out = m.out := rfl
@[simp] theorem modPower_powered (f : Power → Power) (m : Mach) : (modPower f m).powered = m.powered := rfl
@[simp] theorem modPower_log (f : Power → Power) (m : Mach) : (modPower f m).log = m.log := rfl
@[simp] theorem modPower_saf (f : Power → Power) (m : Mach) : (modPower f m).saf = m.saf := rfl
@[simp] theorem modPower_ldr (f : Power → Power) (m : Mach) : (modPower f m).ldr = m.ldr := rfl
@[simp] theorem modPower_items (f : Power → Power) (m : Mach) : (modPower f m).items = m.items := rfl
@[simp] theorem modPower_seqs (f : Power → Power) (m : Mach) : (modPower f m).seqs = m.seqs := rfl
@[simp] theorem modPower_time (f : Power → Power) (m : Mach) : (modPower f m).time = m.time := rfl
@[simp] theorem modPower_turns (f : Power → Power) (m : Mach) : (modPower f m).turns = m.turns := rfl
@[simp] theorem modPower_recov (f : Power → Power) (m : Mach) : (modPower f m).recov = m.recov := rfl
@[simp] theorem modPower_links (f : Power → Power) (m : Mach) : (modPower f m).links = m.links := rfl
@[simp] theorem modPower_kvs (f : Power → Power) (m : Mach) : (modPower f m).kvs = m.kvs := rfl
@[simp] theorem modPower_streams (f : Power → Power) (m : Mach) : (modPower f m).streams = m.streams := rfl
@[simp] theorem modMargin_margin (f : Margin → Margin) (m : Mach) : (modMargin f m).margin = f m.margin := rfl
@[simp] theorem modMargin_regs (f : Margin → Margin) (m : Mach) : (modMargin f m).regs = m.regs := rfl
@[simp] theorem modMargin_mem (f : Margin → Margin) (m : Mach) : (modMargin f m).mem = m.mem := rfl
@[simp] theorem modMargin_out (f : Margin → Margin) (m : Mach) : (modMargin f m).out = m.out := rfl
@[simp] theorem modMargin_powered (f : Margin → Margin) (m : Mach) : (modMargin f m).powered = m.powered := rfl
@[simp] theorem modMargin_log (f : Margin → Margin) (m : Mach) : (modMargin f m).log = m.log := rfl
@[simp] theorem modMargin_saf (f : Margin → Margin) (m : Mach) : (modMargin f m).saf = m.saf := rfl
@[simp] theorem modMargin_ldr (f : Margin → Margin) (m : Mach) : (modMargin f m).ldr = m.ldr := rfl
@[simp] theorem modMargin_items (f : Margin → Margin) (m : Mach) : (modMargin f m).items = m.items := rfl
@[simp] theorem modMargin_seqs (f : Margin → Margin) (m : Mach) : (modMargin f m).seqs = m.seqs := rfl
@[simp] theorem modMargin_time (f : Margin → Margin) (m : Mach) : (modMargin f m).time = m.time := rfl
@[simp] theorem modMargin_turns (f : Margin → Margin) (m : Mach) : (modMargin f m).turns = m.turns := rfl
@[simp] theorem modMargin_recov (f : Margin → Margin) (m : Mach) : (modMargin f m).recov = m.recov := rfl
@[simp] theorem modMargin_links (f : Margin → Margin) (m : Mach) : (modMargin f m).links = m.links := rfl
@[simp] theorem modMargin_kvs (f : Margin → Margin) (m : Mach) : (modMargin f m).kvs = m.kvs := rfl
@[simp] theorem modMargin_streams (f : Margin → Margin) (m : Mach) : (modMargin f m).streams = m.streams := rfl
@[simp] theorem modSeq_seqs (q : Nat) (f : Seq → Seq) (m : Mach) : (modSeq q f m).seqs = mmod m.seqs q f := rfl
@[simp] theorem modSeq_regs (q : Nat) (f : Seq → Seq) (m : Mach) : (modSeq q f m).regs = m.regs := rfl
@[simp] theorem modSeq_mem (q : Nat) (f : Seq → Seq) (m : Mach) : (modSeq q f m).mem = m.mem := rfl
@[simp] theorem modSeq_out (q : Nat) (f : Seq → Seq) (m : Mach) : (modSeq q f m).out = m.out := rfl
@[simp] theorem modSeq_powered (q : Nat) (f : Seq → Seq) (m : Mach) : (modSeq q f m).powered = m.powered := rfl
@[simp] theorem modSeq_log (q : Nat) (f : Seq → Seq) (m : Mach) : (modSeq q f m).log = m.log := rfl
@[simp] theorem modSeq_saf (q : Nat) (f : Seq → Seq) (m : Mach) : (modSeq q f m).saf = m.saf := rfl
@[simp] theorem modSeq_ldr (q : Nat) (f : Seq → Seq) (m : Mach) : (modSeq q f m).ldr = m.ldr := rfl
@[simp] theorem modSeq_items (q : Nat) (f : Seq → Seq) (m : Mach) : (modSeq q f m).items = m.items := rfl
@[simp] theorem modSeq_time (q : Nat) (f : Seq → Seq) (m : Mach) : (modSeq q f m).time = m.time := rfl
@[simp] theorem modSeq_turns (q : Nat) (f : Seq → Seq) (m : Mach) : (modSeq q f m).turns = m.turns := rfl
@[simp] theorem modSeq_recov (q : Nat) (f : Seq → Seq) (m : Mach) : (modSeq q f m).recov = m.recov := rfl
@[simp] theorem modSeq_links (q : Nat) (f : Seq → Seq) (m : Mach) : (modSeq q f m).links = m.links := rfl
@[simp] theorem modSeq_kvs (q : Nat) (f : Seq → Seq) (m : Mach) : (modSeq q f m).kvs = m.kvs := rfl
@[simp] theorem modSeq_streams (q : Nat) (f : Seq → Seq) (m : Mach) : (modSeq q f m).streams = m.streams := rfl
@[simp] theorem modRecov_recov (q : Nat) (f : Recov → Recov) (m : Mach) : (modRecov q f m).recov = mmod m.recov q f := rfl
@[simp] theorem modRecov_regs (q : Nat) (f : Recov → Recov) (m : Mach) : (modRecov q f m).regs = m.regs := rfl
@[simp] theorem modRecov_mem (q : Nat) (f : Recov → Recov) (m : Mach) : (modRecov q f m).mem = m.mem := rfl
@[simp] theorem modRecov_out (q : Nat) (f : Recov → Recov) (m : Mach) : (modRecov q f m).out = m.out := rfl
@[simp] theorem modRecov_powered (q : Nat) (f : Recov → Recov) (m : Mach) : (modRecov q f m).powered = m.powered := rfl
@[simp] theorem modRecov_log (q : Nat) (f : Recov → Recov) (m : Mach) : (modRecov q f m).log = m.log := rfl
@[simp] theorem modRecov_saf (q : Nat) (f : Recov → Recov) (m : Mach) : (modRecov q f m).saf = m.saf := rfl
@[simp] theorem modRecov_ldr (q : Nat) (f : Recov → Recov) (m : Mach) : (modRecov q f m).ldr = m.ldr := rfl
@[simp] theorem modRecov_items (q : Nat) (f : Recov → Recov) (m : Mach) : (modRecov q f m).items = m.items := rfl
@[simp] theorem modRecov_seqs (q : Nat) (f : Recov → Recov) (m : Mach) : (modRecov q f m).seqs = m.seqs := rfl
@[simp] theorem modRecov_time (q : Nat) (f : Recov → Recov) (m : Mach) : (modRecov q f m).time = m.time := rfl
@[simp] theorem modRecov_turns (q : Nat) (f : Recov → Recov) (m : Mach) : (modRecov q f m).turns = m.turns := rfl
@[simp] theorem modRecov_links (q : Nat) (f : Recov → Recov) (m : Mach) : (modRecov q f m).links = m.links := rfl
@[simp] theorem modRecov_kvs (q : Nat) (f : Recov → Recov) (m : Mach) : (modRecov q f m).kvs = m.kvs := rfl
@[simp] theorem modRecov_streams (q : Nat) (f : Recov → Recov) (m : Mach) : (modRecov q f m).streams = m.streams := rfl
@[simp] theorem modTurn_turns (q : Nat) (f : PTurn → PTurn) (m : Mach) : (modTurn q f m).turns = mmod m.turns q f := rfl
@[simp] theorem modTurn_regs (q : Nat) (f : PTurn → PTurn) (m : Mach) : (modTurn q f m).regs = m.regs := rfl
@[simp] theorem modTurn_mem (q : Nat) (f : PTurn → PTurn) (m : Mach) : (modTurn q f m).mem = m.mem := rfl
@[simp] theorem modTurn_out (q : Nat) (f : PTurn → PTurn) (m : Mach) : (modTurn q f m).out = m.out := rfl
@[simp] theorem modTurn_powered (q : Nat) (f : PTurn → PTurn) (m : Mach) : (modTurn q f m).powered = m.powered := rfl
@[simp] theorem modTurn_log (q : Nat) (f : PTurn → PTurn) (m : Mach) : (modTurn q f m).log = m.log := rfl
@[simp] theorem modTurn_saf (q : Nat) (f : PTurn → PTurn) (m : Mach) : (modTurn q f m).saf = m.saf := rfl
@[simp] theorem modTurn_ldr (q : Nat) (f : PTurn → PTurn) (m : Mach) : (modTurn q f m).ldr = m.ldr := rfl
@[simp] theorem modTurn_items (q : Nat) (f : PTurn → PTurn) (m : Mach) : (modTurn q f m).items = m.items := rfl
@[simp] theorem modTurn_seqs (q : Nat) (f : PTurn → PTurn) (m : Mach) : (modTurn q f m).seqs = m.seqs := rfl
@[simp] theorem modTurn_time (q : Nat) (f : PTurn → PTurn) (m : Mach) : (modTurn q f m).time = m.time := rfl
@[simp] theorem modTurn_recov (q : Nat) (f : PTurn → PTurn) (m : Mach) : (modTurn q f m).recov = m.recov := rfl
@[simp] theorem modTurn_links (q : Nat) (f : PTurn → PTurn) (m : Mach) : (modTurn q f m).links = m.links := rfl
@[simp] theorem modTurn_kvs (q : Nat) (f : PTurn → PTurn) (m : Mach) : (modTurn q f m).kvs = m.kvs := rfl
@[simp] theorem modTurn_streams (q : Nat) (f : PTurn → PTurn) (m : Mach) : (modTurn q f m).streams = m.streams := rfl
@[simp] theorem modRing_rings (q : Nat) (f : Ring → Ring) (m : Mach) : (modRing q f m).rings = mmod m.rings q f := rfl
@[simp] theorem modRing_regs (q : Nat) (f : Ring → Ring) (m : Mach) : (modRing q f m).regs = m.regs := rfl
@[simp] theorem modRing_mem (q : Nat) (f : Ring → Ring) (m : Mach) : (modRing q f m).mem = m.mem := rfl
@[simp] theorem modRing_out (q : Nat) (f : Ring → Ring) (m : Mach) : (modRing q f m).out = m.out := rfl
@[simp] theorem modRing_powered (q : Nat) (f : Ring → Ring) (m : Mach) : (modRing q f m).powered = m.powered := rfl
@[simp] theorem modRing_log (q : Nat) (f : Ring → Ring) (m : Mach) : (modRing q f m).log = m.log := rfl
@[simp] theorem modRing_saf (q : Nat) (f : Ring → Ring) (m : Mach) : (modRing q f m).saf = m.saf := rfl
@[simp] theorem modRing_ldr (q : Nat) (f : Ring → Ring) (m : Mach) : (modRing q f m).ldr = m.ldr := rfl
@[simp] theorem modRing_items (q : Nat) (f : Ring → Ring) (m : Mach) : (modRing q f m).items = m.items := rfl
@[simp] theorem modRing_seqs (q : Nat) (f : Ring → Ring) (m : Mach) : (modRing q f m).seqs = m.seqs := rfl
@[simp] theorem modRing_time (q : Nat) (f : Ring → Ring) (m : Mach) : (modRing q f m).time = m.time := rfl
@[simp] theorem modRing_turns (q : Nat) (f : Ring → Ring) (m : Mach) : (modRing q f m).turns = m.turns := rfl
@[simp] theorem modRing_recov (q : Nat) (f : Ring → Ring) (m : Mach) : (modRing q f m).recov = m.recov := rfl
@[simp] theorem modRing_links (q : Nat) (f : Ring → Ring) (m : Mach) : (modRing q f m).links = m.links := rfl
@[simp] theorem modRing_kvs (q : Nat) (f : Ring → Ring) (m : Mach) : (modRing q f m).kvs = m.kvs := rfl
@[simp] theorem modRing_streams (q : Nat) (f : Ring → Ring) (m : Mach) : (modRing q f m).streams = m.streams := rfl
@[simp] theorem modFunc_funcs (q : Nat) (f : Func → Func) (m : Mach) : (modFunc q f m).funcs = mmod m.funcs q f := rfl
@[simp] theorem modFunc_regs (q : Nat) (f : Func → Func) (m : Mach) : (modFunc q f m).regs = m.regs := rfl
@[simp] theorem modFunc_mem (q : Nat) (f : Func → Func) (m : Mach) : (modFunc q f m).mem = m.mem := rfl
@[simp] theorem modFunc_out (q : Nat) (f : Func → Func) (m : Mach) : (modFunc q f m).out = m.out := rfl
@[simp] theorem modFunc_powered (q : Nat) (f : Func → Func) (m : Mach) : (modFunc q f m).powered = m.powered := rfl
@[simp] theorem modFunc_log (q : Nat) (f : Func → Func) (m : Mach) : (modFunc q f m).log = m.log := rfl
@[simp] theorem modFunc_saf (q : Nat) (f : Func → Func) (m : Mach) : (modFunc q f m).saf = m.saf := rfl
@[simp] theorem modFunc_ldr (q : Nat) (f : Func → Func) (m : Mach) : (modFunc q f m).ldr = m.ldr := rfl
@[simp] theorem modFunc_items (q : Nat) (f : Func → Func) (m : Mach) : (modFunc q f m).items = m.items := rfl
@[simp] theorem modFunc_seqs (q : Nat) (f : Func → Func) (m : Mach) : (modFunc q f m).seqs = m.seqs := rfl
@[simp] theorem modFunc_time (q : Nat) (f : Func → Func) (m : Mach) : (modFunc q f m).time = m.time := rfl
@[simp] theorem modFunc_turns (q : Nat) (f : Func → Func) (m : Mach) : (modFunc q f m).turns = m.turns := rfl
@[simp] theorem modFunc_recov (q : Nat) (f : Func → Func) (m : Mach) : (modFunc q f m).recov = m.recov := rfl
@[simp] theorem modFunc_links (q : Nat) (f : Func → Func) (m : Mach) : (modFunc q f m).links = m.links := rfl
@[simp] theorem modFunc_kvs (q : Nat) (f : Func → Func) (m : Mach) : (modFunc q f m).kvs = m.kvs := rfl
@[simp] theorem modFunc_streams (q : Nat) (f : Func → Func) (m : Mach) : (modFunc q f m).streams = m.streams := rfl
@[simp] theorem modKv_kvs (q : Nat) (f : Kv → Kv) (m : Mach) : (modKv q f m).kvs = mmod m.kvs q f := rfl
@[simp] theorem modKv_regs (q : Nat) (f : Kv → Kv) (m : Mach) : (modKv q f m).regs = m.regs := rfl
@[simp] theorem modKv_mem (q : Nat) (f : Kv → Kv) (m : Mach) : (modKv q f m).mem = m.mem := rfl
@[simp] theorem modKv_out (q : Nat) (f : Kv → Kv) (m : Mach) : (modKv q f m).out = m.out := rfl
@[simp] theorem modKv_powered (q : Nat) (f : Kv → Kv) (m : Mach) : (modKv q f m).powered = m.powered := rfl
@[simp] theorem modKv_log (q : Nat) (f : Kv → Kv) (m : Mach) : (modKv q f m).log = m.log := rfl
@[simp] theorem modKv_saf (q : Nat) (f : Kv → Kv) (m : Mach) : (modKv q f m).saf = m.saf := rfl
@[simp] theorem modKv_ldr (q : Nat) (f : Kv → Kv) (m : Mach) : (modKv q f m).ldr = m.ldr := rfl
@[simp] theorem modKv_items (q : Nat) (f : Kv → Kv) (m : Mach) : (modKv q f m).items = m.items := rfl
@[simp] theorem modKv_seqs (q : Nat) (f : Kv → Kv) (m : Mach) : (modKv q f m).seqs = m.seqs := rfl
@[simp] theorem modKv_time (q : Nat) (f : Kv → Kv) (m : Mach) : (modKv q f m).time = m.time := rfl
@[simp] theorem modKv_turns (q : Nat) (f : Kv → Kv) (m : Mach) : (modKv q f m).turns = m.turns := rfl
@[simp] theorem modKv_recov (q : Nat) (f : Kv → Kv) (m : Mach) : (modKv q f m).recov = m.recov := rfl
@[simp] theorem modKv_links (q : Nat) (f : Kv → Kv) (m : Mach) : (modKv q f m).links = m.links := rfl
@[simp] theorem modKv_streams (q : Nat) (f : Kv → Kv) (m : Mach) : (modKv q f m).streams = m.streams := rfl
@[simp] theorem modPwr_pparts (q : Nat) (f : PwrPart → PwrPart) (m : Mach) : (modPwr q f m).pparts = mmod m.pparts q f := rfl
@[simp] theorem modPwr_regs (q : Nat) (f : PwrPart → PwrPart) (m : Mach) : (modPwr q f m).regs = m.regs := rfl
@[simp] theorem modPwr_mem (q : Nat) (f : PwrPart → PwrPart) (m : Mach) : (modPwr q f m).mem = m.mem := rfl
@[simp] theorem modPwr_out (q : Nat) (f : PwrPart → PwrPart) (m : Mach) : (modPwr q f m).out = m.out := rfl
@[simp] theorem modPwr_powered (q : Nat) (f : PwrPart → PwrPart) (m : Mach) : (modPwr q f m).powered = m.powered := rfl
@[simp] theorem modPwr_log (q : Nat) (f : PwrPart → PwrPart) (m : Mach) : (modPwr q f m).log = m.log := rfl
@[simp] theorem modPwr_saf (q : Nat) (f : PwrPart → PwrPart) (m : Mach) : (modPwr q f m).saf = m.saf := rfl
@[simp] theorem modPwr_ldr (q : Nat) (f : PwrPart → PwrPart) (m : Mach) : (modPwr q f m).ldr = m.ldr := rfl
@[simp] theorem modPwr_items (q : Nat) (f : PwrPart → PwrPart) (m : Mach) : (modPwr q f m).items = m.items := rfl
@[simp] theorem modPwr_seqs (q : Nat) (f : PwrPart → PwrPart) (m : Mach) : (modPwr q f m).seqs = m.seqs := rfl
@[simp] theorem modPwr_time (q : Nat) (f : PwrPart → PwrPart) (m : Mach) : (modPwr q f m).time = m.time := rfl
@[simp] theorem modPwr_turns (q : Nat) (f : PwrPart → PwrPart) (m : Mach) : (modPwr q f m).turns = m.turns := rfl
@[simp] theorem modPwr_recov (q : Nat) (f : PwrPart → PwrPart) (m : Mach) : (modPwr q f m).recov = m.recov := rfl
@[simp] theorem modPwr_links (q : Nat) (f : PwrPart → PwrPart) (m : Mach) : (modPwr q f m).links = m.links := rfl
@[simp] theorem modPwr_kvs (q : Nat) (f : PwrPart → PwrPart) (m : Mach) : (modPwr q f m).kvs = m.kvs := rfl
@[simp] theorem modPwr_streams (q : Nat) (f : PwrPart → PwrPart) (m : Mach) : (modPwr q f m).streams = m.streams := rfl
@[simp] theorem modAphy_aphy (q : Nat) (f : Aphy → Aphy) (m : Mach) : (modAphy q f m).aphy = mmod m.aphy q f := rfl
@[simp] theorem modAphy_regs (q : Nat) (f : Aphy → Aphy) (m : Mach) : (modAphy q f m).regs = m.regs := rfl
@[simp] theorem modAphy_mem (q : Nat) (f : Aphy → Aphy) (m : Mach) : (modAphy q f m).mem = m.mem := rfl
@[simp] theorem modAphy_out (q : Nat) (f : Aphy → Aphy) (m : Mach) : (modAphy q f m).out = m.out := rfl
@[simp] theorem modAphy_powered (q : Nat) (f : Aphy → Aphy) (m : Mach) : (modAphy q f m).powered = m.powered := rfl
@[simp] theorem modAphy_log (q : Nat) (f : Aphy → Aphy) (m : Mach) : (modAphy q f m).log = m.log := rfl
@[simp] theorem modAphy_saf (q : Nat) (f : Aphy → Aphy) (m : Mach) : (modAphy q f m).saf = m.saf := rfl
@[simp] theorem modAphy_ldr (q : Nat) (f : Aphy → Aphy) (m : Mach) : (modAphy q f m).ldr = m.ldr := rfl
@[simp] theorem modAphy_items (q : Nat) (f : Aphy → Aphy) (m : Mach) : (modAphy q f m).items = m.items := rfl
@[simp] theorem modAphy_seqs (q : Nat) (f : Aphy → Aphy) (m : Mach) : (modAphy q f m).seqs = m.seqs := rfl
@[simp] theorem modAphy_time (q : Nat) (f : Aphy → Aphy) (m : Mach) : (modAphy q f m).time = m.time := rfl
@[simp] theorem modAphy_turns (q : Nat) (f : Aphy → Aphy) (m : Mach) : (modAphy q f m).turns = m.turns := rfl
@[simp] theorem modAphy_recov (q : Nat) (f : Aphy → Aphy) (m : Mach) : (modAphy q f m).recov = m.recov := rfl
@[simp] theorem modAphy_links (q : Nat) (f : Aphy → Aphy) (m : Mach) : (modAphy q f m).links = m.links := rfl
@[simp] theorem modAphy_kvs (q : Nat) (f : Aphy → Aphy) (m : Mach) : (modAphy q f m).kvs = m.kvs := rfl
@[simp] theorem modAphy_streams (q : Nat) (f : Aphy → Aphy) (m : Mach) : (modAphy q f m).streams = m.streams := rfl
@[simp] theorem modChan_chans (q : Nat) (f : MemCh → MemCh) (m : Mach) : (modChan q f m).chans = mmod m.chans q f := rfl
@[simp] theorem modChan_regs (q : Nat) (f : MemCh → MemCh) (m : Mach) : (modChan q f m).regs = m.regs := rfl
@[simp] theorem modChan_mem (q : Nat) (f : MemCh → MemCh) (m : Mach) : (modChan q f m).mem = m.mem := rfl
@[simp] theorem modChan_out (q : Nat) (f : MemCh → MemCh) (m : Mach) : (modChan q f m).out = m.out := rfl
@[simp] theorem modChan_powered (q : Nat) (f : MemCh → MemCh) (m : Mach) : (modChan q f m).powered = m.powered := rfl
@[simp] theorem modChan_log (q : Nat) (f : MemCh → MemCh) (m : Mach) : (modChan q f m).log = m.log := rfl
@[simp] theorem modChan_saf (q : Nat) (f : MemCh → MemCh) (m : Mach) : (modChan q f m).saf = m.saf := rfl
@[simp] theorem modChan_ldr (q : Nat) (f : MemCh → MemCh) (m : Mach) : (modChan q f m).ldr = m.ldr := rfl
@[simp] theorem modChan_items (q : Nat) (f : MemCh → MemCh) (m : Mach) : (modChan q f m).items = m.items := rfl
@[simp] theorem modChan_seqs (q : Nat) (f : MemCh → MemCh) (m : Mach) : (modChan q f m).seqs = m.seqs := rfl
@[simp] theorem modChan_time (q : Nat) (f : MemCh → MemCh) (m : Mach) : (modChan q f m).time = m.time := rfl
@[simp] theorem modChan_turns (q : Nat) (f : MemCh → MemCh) (m : Mach) : (modChan q f m).turns = m.turns := rfl
@[simp] theorem modChan_recov (q : Nat) (f : MemCh → MemCh) (m : Mach) : (modChan q f m).recov = m.recov := rfl
@[simp] theorem modChan_links (q : Nat) (f : MemCh → MemCh) (m : Mach) : (modChan q f m).links = m.links := rfl
@[simp] theorem modChan_kvs (q : Nat) (f : MemCh → MemCh) (m : Mach) : (modChan q f m).kvs = m.kvs := rfl
@[simp] theorem modChan_streams (q : Nat) (f : MemCh → MemCh) (m : Mach) : (modChan q f m).streams = m.streams := rfl
@[simp] theorem modLink_links (q : Nat) (f : SLink → SLink) (m : Mach) : (modLink q f m).links = mmod m.links q f := rfl
@[simp] theorem modLink_regs (q : Nat) (f : SLink → SLink) (m : Mach) : (modLink q f m).regs = m.regs := rfl
@[simp] theorem modLink_mem (q : Nat) (f : SLink → SLink) (m : Mach) : (modLink q f m).mem = m.mem := rfl
@[simp] theorem modLink_out (q : Nat) (f : SLink → SLink) (m : Mach) : (modLink q f m).out = m.out := rfl
@[simp] theorem modLink_powered (q : Nat) (f : SLink → SLink) (m : Mach) : (modLink q f m).powered = m.powered := rfl
@[simp] theorem modLink_log (q : Nat) (f : SLink → SLink) (m : Mach) : (modLink q f m).log = m.log := rfl
@[simp] theorem modLink_saf (q : Nat) (f : SLink → SLink) (m : Mach) : (modLink q f m).saf = m.saf := rfl
@[simp] theorem modLink_ldr (q : Nat) (f : SLink → SLink) (m : Mach) : (modLink q f m).ldr = m.ldr := rfl
@[simp] theorem modLink_items (q : Nat) (f : SLink → SLink) (m : Mach) : (modLink q f m).items = m.items := rfl
@[simp] theorem modLink_seqs (q : Nat) (f : SLink → SLink) (m : Mach) : (modLink q f m).seqs = m.seqs := rfl
@[simp] theorem modLink_time (q : Nat) (f : SLink → SLink) (m : Mach) : (modLink q f m).time = m.time := rfl
@[simp] theorem modLink_turns (q : Nat) (f : SLink → SLink) (m : Mach) : (modLink q f m).turns = m.turns := rfl
@[simp] theorem modLink_recov (q : Nat) (f : SLink → SLink) (m : Mach) : (modLink q f m).recov = m.recov := rfl
@[simp] theorem modLink_kvs (q : Nat) (f : SLink → SLink) (m : Mach) : (modLink q f m).kvs = m.kvs := rfl
@[simp] theorem modLink_streams (q : Nat) (f : SLink → SLink) (m : Mach) : (modLink q f m).streams = m.streams := rfl
@[simp] theorem modBox_boxes (q : Nat) (f : Box → Box) (m : Mach) : (modBox q f m).boxes = mmod m.boxes q f := rfl
@[simp] theorem modBox_regs (q : Nat) (f : Box → Box) (m : Mach) : (modBox q f m).regs = m.regs := rfl
@[simp] theorem modBox_mem (q : Nat) (f : Box → Box) (m : Mach) : (modBox q f m).mem = m.mem := rfl
@[simp] theorem modBox_out (q : Nat) (f : Box → Box) (m : Mach) : (modBox q f m).out = m.out := rfl
@[simp] theorem modBox_powered (q : Nat) (f : Box → Box) (m : Mach) : (modBox q f m).powered = m.powered := rfl
@[simp] theorem modBox_log (q : Nat) (f : Box → Box) (m : Mach) : (modBox q f m).log = m.log := rfl
@[simp] theorem modBox_saf (q : Nat) (f : Box → Box) (m : Mach) : (modBox q f m).saf = m.saf := rfl
@[simp] theorem modBox_ldr (q : Nat) (f : Box → Box) (m : Mach) : (modBox q f m).ldr = m.ldr := rfl
@[simp] theorem modBox_items (q : Nat) (f : Box → Box) (m : Mach) : (modBox q f m).items = m.items := rfl
@[simp] theorem modBox_seqs (q : Nat) (f : Box → Box) (m : Mach) : (modBox q f m).seqs = m.seqs := rfl
@[simp] theorem modBox_time (q : Nat) (f : Box → Box) (m : Mach) : (modBox q f m).time = m.time := rfl
@[simp] theorem modBox_turns (q : Nat) (f : Box → Box) (m : Mach) : (modBox q f m).turns = m.turns := rfl
@[simp] theorem modBox_recov (q : Nat) (f : Box → Box) (m : Mach) : (modBox q f m).recov = m.recov := rfl
@[simp] theorem modBox_links (q : Nat) (f : Box → Box) (m : Mach) : (modBox q f m).links = m.links := rfl
@[simp] theorem modBox_kvs (q : Nat) (f : Box → Box) (m : Mach) : (modBox q f m).kvs = m.kvs := rfl
@[simp] theorem modBox_streams (q : Nat) (f : Box → Box) (m : Mach) : (modBox q f m).streams = m.streams := rfl

/-! ### The register file -/

/-- A field reads back what was written, modulo its width. -/
@[simp] theorem rd_wr_same (f : Fld) (v : Nat) (m : Mach) : rd (wr f v m) f = v % 2 ^ f.width := getD_setD_same _ _ _ _

/-- A write leaves every other field alone. -/
theorem rd_wr_other {f g : Fld} (v : Nat) (m : Mach) (h : g.key ≠ f.key) : rd (wr f v m) g = rd m g :=
  getD_setD_other _ _ _ _ h

/-- Two fields of different registers have different keys. -/
theorem Fld.key_ne_of_addr {f g : Fld} (hf : f.lo < 64) (hg : g.lo < 64) (h : g.addr ≠ f.addr) : g.key ≠ f.key := by
  unfold Fld.key; omega

/-- Two fields of one register that begin at different bits have different keys. -/
theorem Fld.key_ne_of_lo {f g : Fld} (h : g.addr = f.addr) (h' : g.lo ≠ f.lo) : g.key ≠ f.key := by
  unfold Fld.key; omega

/-- Reading depends on the register file alone. -/
theorem rd_congr {m n : Mach} (h : n.regs = m.regs) (f : Fld) : rd n f = rd m f := by unfold rd; rw [h]


@[simp] theorem rd_modLdr (g : Loader → Loader) (m : Mach) (f : Fld) : rd (modLdr g m) f = rd m f := rfl
@[simp] theorem rd_modTime (g : TimeUnit → TimeUnit) (m : Mach) (f : Fld) : rd (modTime g m) f = rd m f := rfl
@[simp] theorem rd_modSaf (g : Safety → Safety) (m : Mach) (f : Fld) : rd (modSaf g m) f = rd m f := rfl
@[simp] theorem rd_modPower (g : Power → Power) (m : Mach) (f : Fld) : rd (modPower g m) f = rd m f := rfl
@[simp] theorem rd_modMargin (g : Margin → Margin) (m : Mach) (f : Fld) : rd (modMargin g m) f = rd m f := rfl
@[simp] theorem rd_modSeq (q : Nat) (g : Seq → Seq) (m : Mach) (f : Fld) : rd (modSeq q g m) f = rd m f := rfl
@[simp] theorem rd_modRecov (q : Nat) (g : Recov → Recov) (m : Mach) (f : Fld) : rd (modRecov q g m) f = rd m f := rfl
@[simp] theorem rd_modTurn (q : Nat) (g : PTurn → PTurn) (m : Mach) (f : Fld) : rd (modTurn q g m) f = rd m f := rfl
@[simp] theorem rd_modRing (q : Nat) (g : Ring → Ring) (m : Mach) (f : Fld) : rd (modRing q g m) f = rd m f := rfl
@[simp] theorem rd_modFunc (q : Nat) (g : Func → Func) (m : Mach) (f : Fld) : rd (modFunc q g m) f = rd m f := rfl
@[simp] theorem rd_modKv (q : Nat) (g : Kv → Kv) (m : Mach) (f : Fld) : rd (modKv q g m) f = rd m f := rfl
@[simp] theorem rd_modPwr (q : Nat) (g : PwrPart → PwrPart) (m : Mach) (f : Fld) : rd (modPwr q g m) f = rd m f := rfl
@[simp] theorem rd_modAphy (q : Nat) (g : Aphy → Aphy) (m : Mach) (f : Fld) : rd (modAphy q g m) f = rd m f := rfl
@[simp] theorem rd_modChan (q : Nat) (g : MemCh → MemCh) (m : Mach) (f : Fld) : rd (modChan q g m) f = rd m f := rfl
@[simp] theorem rd_modLink (q : Nat) (g : SLink → SLink) (m : Mach) (f : Fld) : rd (modLink q g m) f = rd m f := rfl
@[simp] theorem rd_modBox (q : Nat) (g : Box → Box) (m : Mach) (f : Fld) : rd (modBox q g m) f = rd m f := rfl
@[simp] theorem rd_modCore (q k : Nat) (g : CoreSt → CoreSt) (m : Mach) (f : Fld) : rd (modCore q k g m) f = rd m f := rfl
@[simp] theorem rd_modLane (l i : Nat) (g : SLane → SLane) (m : Mach) (f : Fld) : rd (modLane l i g m) f = rd m f := rfl
@[simp] theorem rd_modItem (q : Nat) (g : Item → Item) (m : Mach) (f : Fld) : rd (modItem q g m) f = rd m f := by
  unfold modItem; split <;> rfl
@[simp] theorem rd_modDesc (d : Desc) (g : Desc → Desc) (m : Mach) (f : Fld) : rd (modDesc d g m) f = rd m f := rfl
@[simp] theorem rd_emit (o : Output) (m : Mach) (f : Fld) : rd (emit o m) f = rd m f := rfl
@[simp] theorem rd_draw (w : Nat) (m : Mach) (f : Fld) : rd (draw w m).2 f = rd m f := rfl
@[simp] theorem rdb_wrb_same (f : Fld) (b : Bool) (m : Mach) (h : f.width ≠ 0) : rdb (wrb f b m) f = b := by
  have h2 : 2 ≤ 2 ^ f.width := by
    calc 2 = 2 ^ 1 := rfl
      _ ≤ 2 ^ f.width := Nat.pow_le_pow_right (by decide) (by omega)
  unfold rdb wrb
  rw [rd_wr_same]
  cases b
  · simp [b2n]
  · simp [b2n, Nat.mod_eq_of_lt (show 1 < 2 ^ f.width by omega)]

theorem rdb_wr_other {f g : Fld} (v : Nat) (m : Mach) (h : g.key ≠ f.key) : rdb (wr f v m) g = rdb m g := by
  unfold rdb; rw [rd_wr_other v m h]

theorem rd_wrb_other {f g : Fld} (b : Bool) (m : Mach) (h : g.key ≠ f.key) : rd (wrb f b m) g = rd m g := rd_wr_other _ _ h

/-- A field in a cleared range of registers reads its reset value. -/
theorem rd_clearRegs_in {f : Fld} {lo hi : Nat} (m : Mach) (h : lo * 64 ≤ f.key ∧ f.key < hi * 64) :
    rd (clearRegs lo hi m) f = f.reset := getD_clearRange_in _ _ h

/-- A field outside a cleared range of registers keeps its value. -/
theorem rd_clearRegs_out {f : Fld} {lo hi : Nat} (m : Mach) (h : ¬ (lo * 64 ≤ f.key ∧ f.key < hi * 64)) :
    rd (clearRegs lo hi m) f = rd m f := getD_clearRange_out _ _ h

/-- A counter goes up by `n`, and stops at its width's largest value (R14). -/
theorem rd_addTo_same (f : Fld) (n : Nat) (m : Mach) :
    rd (addTo f n m) f = min (2 ^ f.width - 1) (rd m f + n) := by
  have h : 0 < 2 ^ f.width := Nat.pow_pos (by decide)
  unfold addTo satAdd
  rw [rd_wr_same]
  exact Nat.mod_eq_of_lt (by omega)

theorem rd_inc_same (f : Fld) (m : Mach) : rd (inc f m) f = min (2 ^ f.width - 1) (rd m f + 1) := rd_addTo_same f 1 m

theorem rd_addTo_other {f g : Fld} (n : Nat) (m : Mach) (h : g.key ≠ f.key) : rd (addTo f n m) g = rd m g := rd_wr_other _ _ h

theorem rd_inc_other {f g : Fld} (m : Mach) (h : g.key ≠ f.key) : rd (inc f m) g = rd m g := rd_wr_other _ _ h

@[simp] theorem whenB_true (f : Mach → Mach) (m : Mach) : whenB true f m = f m := rfl
@[simp] theorem whenB_false (f : Mach → Mach) (m : Mach) : whenB false f m = m := rfl
@[simp] theorem forEach_nil {α : Type} (f : α → Mach → Mach) (m : Mach) : forEach [] f m = m := rfl
@[simp] theorem forEach_cons {α : Type} (a : α) (l : List α) (f : α → Mach → Mach) (m : Mach) :
    forEach (a :: l) f m = forEach l f (f a m) := rfl

/-- What every step of a sequence keeps, the sequence keeps. -/
theorem forEach_keeps {α β : Type} (g : Mach → β) (l : List α) (f : α → Mach → Mach)
    (h : ∀ a ∈ l, ∀ m, g (f a m) = g m) (m : Mach) : g (forEach l f m) = g m := by
  induction l generalizing m with
  | nil => rfl
  | cons a r ih =>
    rw [forEach_cons, ih (fun b hb => h b (List.mem_cons_of_mem _ hb)), h a (List.mem_cons_self ..)]

/-! ### What a command answers -/

/-- A command with a meaning on the part answers a next state, with the queue and the fuses as they were. -/
theorem run_next (s : State) (f : Mach → Mach) :
    s.run f = .next { s with m := if s.m.powered then f s.m else s.m } := by
  unfold State.run; cases s.m.powered <;> rfl

theorem run_powered {s : State} (f : Mach → Mach) (h : s.m.powered = true) : s.run f = .next { s with m := f s.m } := by
  unfold State.run; rw [h]; rfl

end Sys2Proof.Machine
end

