-- ==== Sys2Proof/Laws/Memory.lean ====
section
/-!
SUPPORT. The laws of memory: every operation keeps the canonical form, a read after a write gives the bytes written, and a
write leaves every other byte alone.
-/

namespace Sys2Proof.Machine

/-! ### The canonical form -/

theorem wf_reset : Memory.wf State.reset.m.mem = true := rfl

theorem wf_writeCells (bs : List Byte) (l : List Host.Cell) (a : Nat) (h : Memory.wf l = true) :
    Memory.wf (writeCells l a bs) = true := by
  induction bs generalizing l a with
  | nil => exact h
  | cons b r ih => exact ih _ _ (canonical_setD _ _ h)

theorem wf_clearRange (l : List Host.Cell) (lo hi : Nat) (h : Memory.wf l = true) :
    Memory.wf (clearRange l lo hi) = true := canonical_clearRange lo hi h

theorem wf_poisonWord (w : Nat) (m : Mach) (h : Memory.wf m.mem = true) : Memory.wf (poisonWord w m).mem = true :=
  wf_clearRange _ _ _ h

theorem wf_zeroMem (lo hi : Nat) (m : Mach) (h : Memory.wf m.mem = true) : Memory.wf (zeroMem lo hi m).mem = true :=
  wf_clearRange _ _ _ h

/-- What every step of a sequence preserves holds behind the sequence. -/
theorem forEach_invariant {α : Type} (P : Mach → Prop) (l : List α) (f : α → Mach → Mach)
    (hf : ∀ a m, P m → P (f a m)) (m : Mach) (h : P m) : P (forEach l f m) := by
  induction l generalizing m with
  | nil => exact h
  | cons a r ih => exact ih _ (hf a m h)

theorem wf_writeMem (a : Nat) (bs : List Byte) (m : Mach) (h : Memory.wf m.mem = true) :
    Memory.wf (writeMem a bs m).mem = true := by
  unfold writeMem
  apply forEach_invariant (fun m => Memory.wf m.mem = true)
  · exact fun c m => wf_poisonWord c.1 m
  · exact wf_writeCells bs m.mem a h

theorem putRegs_mem (l saved : List (Nat × Nat)) (m : Mach) : (putRegs l saved m).mem = m.mem :=
  forEach_keeps Mach.mem l (fun x => clearRegs x.1 x.2) (fun _ _ _ => rfl) m

/-- Restoring a saved scratch image keeps the form. -/
theorem wf_putImage (p : Nat) (x : Image) (m : Mach) (h : Memory.wf m.mem = true) : Memory.wf (putImage p x m).mem = true := by
  have key : ∀ (bs l : List Host.Cell), Memory.wf l = true →
      Memory.wf (bs.foldl (fun l c => setD 0 l c.1 c.2) l) = true := by
    intro bs
    induction bs with
    | nil => exact fun _ h => h
    | cons c r ih => exact fun l h => ih _ (canonical_setD _ _ h)
  unfold putImage
  generalize scrSpan m p = b
  refine key x.bytes _ ?_
  rw [putRegs_mem]
  exact wf_zeroMem _ _ m h

/-! ### Reading behind a write -/

/-- The byte at an address behind a write of bytes from `a` up. -/
theorem getD_writeCells (bs : List Byte) (l : List Host.Cell) (a x : Nat) :
    getD 0 (writeCells l a bs) x = if a ≤ x ∧ x < a + bs.length then bs.getD (x - a) 0 else getD 0 l x := by
  induction bs generalizing l a with
  | nil =>
    have h : ¬ (a ≤ x ∧ x < a + 0) := by omega
    exact (if_neg h).symm
  | cons b r ih =>
    rw [writeCells, ih]
    by_cases hx : x = a
    · subst hx
      have h : ¬ (x + 1 ≤ x ∧ x < x + 1 + r.length) := by omega
      rw [if_neg h]
      simp
    · rw [getD_setD_other _ _ _ _ hx]
      by_cases h : a ≤ x ∧ x < a + (b :: r).length
      · have h1 : a + 1 ≤ x ∧ x < a + 1 + r.length := by simp at h; omega
        rw [if_pos h1, if_pos h, show x - a = (x - (a + 1)) + 1 by omega]
        rfl
      · have h1 : ¬ (a + 1 ≤ x ∧ x < a + 1 + r.length) := by simp at h; omega
        rw [if_neg h1, if_neg h]

/-- A store that touches no damaged ECC word changes the bytes it stores and no others. -/
theorem rb_writeMem (a : Nat) (bs : List Byte) (m : Mach) (h : damaged m a bs.length = []) (x : Nat) :
    rb (writeMem a bs m) x = if a ≤ x ∧ x < a + bs.length then bs.getD (x - a) 0 else rb m x := by
  unfold writeMem
  simp only [h, List.filter_nil, forEach_nil]
  exact getD_writeCells bs m.mem a x

/-- A zeroed range reads zero, and every other byte as before. -/
theorem rb_zeroMem (lo hi : Nat) (m : Mach) (x : Nat) :
    rb (zeroMem lo hi m) x = if lo ≤ x ∧ x < hi then 0 else rb m x := by
  unfold rb zeroMem
  split
  · next h => exact getD_clearRange_in _ _ h
  · next h => exact getD_clearRange_out _ _ h

/-- Reading what was just stored gives the bytes stored. -/
theorem readMem_writeMem (a : Nat) (bs : List Byte) (m : Mach) (h : damaged m a bs.length = []) :
    readMem (writeMem a bs m) a bs.length = bs := by
  apply List.ext_getElem
  · simp [readMem]
  · intro i h1 h2
    have hi : i < bs.length := by simpa [readMem] using h1
    simp [readMem, rb_writeMem a bs m h, hi]

@[simp] theorem wr_rb (f : Fld) (v : Nat) (m : Mach) (x : Nat) : rb (wr f v m) x = rb m x := rfl
@[simp] theorem emit_rb (o : Output) (m : Mach) (x : Nat) : rb (emit o m) x = rb m x := rfl

end Sys2Proof.Machine
end

