-- ==== Sys2Proof/Laws/Log.lean ====
section
/-!
SUPPORT. What writing an error record and entering the safe state can change, said once for each shared operation: outside the
rings, the log and the counters of the host interface nothing changes with a record, and outside the SAF block nothing more with
the safe state.
-/

namespace Sys2Proof.Machine

/-! ### What a record leaves alone -/

/-- The part without what placing an entry on a ring may touch: its registers, the memory of rings, what leaves the part, free
values, the rings and the functions' pending interrupts. -/
def Mach.beyondRing (m : Mach) : Mach :=
  { m with regs := [], mem := [], bad := [], soft := [], out := [], draws := 0, rings := [], funcs := [] }

@[simp] theorem wr_beyondRing (f : Fld) (v : Nat) (m : Mach) : (wr f v m).beyondRing = m.beyondRing := rfl
@[simp] theorem inc_beyondRing (f : Fld) (m : Mach) : (inc f m).beyondRing = m.beyondRing := rfl
@[simp] theorem emit_beyondRing (o : Output) (m : Mach) : (emit o m).beyondRing = m.beyondRing := rfl
@[simp] theorem draw_beyondRing (w : Nat) (m : Mach) : (draw w m).2.beyondRing = m.beyondRing := rfl
@[simp] theorem modRing_beyondRing (q : Nat) (f : Ring → Ring) (m : Mach) : (modRing q f m).beyondRing = m.beyondRing := rfl
@[simp] theorem modFunc_beyondRing (v : Nat) (f : Func → Func) (m : Mach) : (modFunc v f m).beyondRing = m.beyondRing := rfl
@[simp] theorem poisonWord_beyondRing (w : Nat) (m : Mach) : (poisonWord w m).beyondRing = m.beyondRing := rfl

@[simp] theorem writeMem_beyondRing (a : Nat) (bs : List Byte) (m : Mach) : (writeMem a bs m).beyondRing = m.beyondRing := by
  unfold writeMem
  dsimp only
  rw [forEach_keeps Mach.beyondRing _ (fun c : Nat × Nat => poisonWord c.1) (fun c _ m => poisonWord_beyondRing c.1 m)]
  simp only [Mach.beyondRing]

@[simp] theorem ringWrite_beyondRing (q a : Nat) (bs : List Byte) (m : Mach) : (ringWrite q a bs m).beyondRing = m.beyondRing := by
  unfold ringWrite; split <;> simp

@[simp] theorem sendMsix_beyondRing (v vec : Nat) (m : Mach) : (sendMsix v vec m).beyondRing = m.beyondRing := by
  unfold sendMsix; dsimp only; split
  · split <;> simp
  · simp

@[simp] theorem ringSignal_beyondRing (q : Nat) (m : Mach) : (ringSignal q m).beyondRing = m.beyondRing := by
  unfold ringSignal; dsimp only; split <;> simp

@[simp] theorem ringPlaced_beyondRing (q : Nat) (m : Mach) : (ringPlaced q m).beyondRing = m.beyondRing := by
  unfold ringPlaced; dsimp only; split
  · simp
  · split <;> simp

@[simp] theorem ringPut_beyondRing (q : Nat) (e : List Byte) (m : Mach) : (ringPut q e m).beyondRing = m.beyondRing := by
  unfold ringPut; simp

@[simp] theorem ringUnreachable_beyondRing (q : Nat) (m : Mach) : (ringUnreachable q m).beyondRing = m.beyondRing := by
  unfold ringUnreachable; split <;> simp

@[simp] theorem placeError_beyondRing (r : LogRec) (m : Mach) : (placeError r m).beyondRing = m.beyondRing := by
  unfold placeError; split
  · simp
  · split <;> simp

@[simp] theorem sampleUnit_beyondRing (path : Nat) (m : Mach) : (sampleUnit path m).2.beyondRing = m.beyondRing := by
  unfold sampleUnit; dsimp only; split <;> rfl

/-- The part without what an error record may touch: the log, beside what its placement touches. -/
def Mach.beyondLog (m : Mach) : Mach := { m.beyondRing with log := [], logCount := [] }

@[simp] theorem wr_beyond (f : Fld) (v : Nat) (m : Mach) : (wr f v m).beyondLog = m.beyondLog := rfl
@[simp] theorem inc_beyond (f : Fld) (m : Mach) : (inc f m).beyondLog = m.beyondLog := rfl
@[simp] theorem draw_beyond (w : Nat) (m : Mach) : (draw w m).2.beyondLog = m.beyondLog := rfl

/-- An error record touches nothing beyond what `beyondLog` removes. -/
@[simp] theorem logErr_beyond (r : LogRec) (m : Mach) : (logErr r m).beyondLog = m.beyondLog := by
  unfold logErr
  have h := sampleUnit_beyondRing r.path m
  generalize sampleUnit r.path m = x at h
  obtain ⟨⟨t, rail⟩, n⟩ := x
  dsimp only at h ⊢
  have h' : n.beyondLog = m.beyondLog := congrArg (fun m : Mach => { m with log := [], logCount := [] }) h
  refine Eq.trans ?_ h'
  unfold Mach.beyondLog
  rw [placeError_beyondRing]
  split <;> rfl

@[simp] theorem logErr_latches (r : LogRec) (m : Mach) : (logErr r m).latches = m.latches := by
  have h := congrArg Mach.latches (logErr_beyond r m); exact h
@[simp] theorem logErr_holds (r : LogRec) (m : Mach) : (logErr r m).holds = m.holds := by
  have h := congrArg Mach.holds (logErr_beyond r m); exact h
@[simp] theorem logErr_imem (r : LogRec) (m : Mach) : (logErr r m).imem = m.imem := by
  have h := congrArg Mach.imem (logErr_beyond r m); exact h
@[simp] theorem logErr_powered (r : LogRec) (m : Mach) : (logErr r m).powered = m.powered := by
  have h := congrArg Mach.powered (logErr_beyond r m); exact h
@[simp] theorem logErr_pe (r : LogRec) (m : Mach) : (logErr r m).pe = m.pe := by
  have h := congrArg Mach.pe (logErr_beyond r m); exact h
@[simp] theorem logErr_endpoint (r : LogRec) (m : Mach) : (logErr r m).endpoint = m.endpoint := by
  have h := congrArg Mach.endpoint (logErr_beyond r m); exact h
@[simp] theorem logErr_perst (r : LogRec) (m : Mach) : (logErr r m).perst = m.perst := by
  have h := congrArg Mach.perst (logErr_beyond r m); exact h
@[simp] theorem logErr_serdes (r : LogRec) (m : Mach) : (logErr r m).serdes = m.serdes := by
  have h := congrArg Mach.serdes (logErr_beyond r m); exact h
@[simp] theorem logErr_ldr (r : LogRec) (m : Mach) : (logErr r m).ldr = m.ldr := by
  have h := congrArg Mach.ldr (logErr_beyond r m); exact h
@[simp] theorem logErr_time (r : LogRec) (m : Mach) : (logErr r m).time = m.time := by
  have h := congrArg Mach.time (logErr_beyond r m); exact h
@[simp] theorem logErr_trigs (r : LogRec) (m : Mach) : (logErr r m).trigs = m.trigs := by
  have h := congrArg Mach.trigs (logErr_beyond r m); exact h
@[simp] theorem logErr_ppsLevel (r : LogRec) (m : Mach) : (logErr r m).ppsLevel = m.ppsLevel := by
  have h := congrArg Mach.ppsLevel (logErr_beyond r m); exact h
@[simp] theorem logErr_lastPpsOut (r : LogRec) (m : Mach) : (logErr r m).lastPpsOut = m.lastPpsOut := by
  have h := congrArg Mach.lastPpsOut (logErr_beyond r m); exact h
@[simp] theorem logErr_evts (r : LogRec) (m : Mach) : (logErr r m).evts = m.evts := by
  have h := congrArg Mach.evts (logErr_beyond r m); exact h
@[simp] theorem logErr_turns (r : LogRec) (m : Mach) : (logErr r m).turns = m.turns := by
  have h := congrArg Mach.turns (logErr_beyond r m); exact h
@[simp] theorem logErr_items (r : LogRec) (m : Mach) : (logErr r m).items = m.items := by
  have h := congrArg Mach.items (logErr_beyond r m); exact h
@[simp] theorem logErr_deadlined (r : LogRec) (m : Mach) : (logErr r m).deadlined = m.deadlined := by
  have h := congrArg Mach.deadlined (logErr_beyond r m); exact h
@[simp] theorem logErr_decided (r : LogRec) (m : Mach) : (logErr r m).decided = m.decided := by
  have h := congrArg Mach.decided (logErr_beyond r m); exact h
@[simp] theorem logErr_saf (r : LogRec) (m : Mach) : (logErr r m).saf = m.saf := by
  have h := congrArg Mach.saf (logErr_beyond r m); exact h
@[simp] theorem logErr_ing (r : LogRec) (m : Mach) : (logErr r m).ing = m.ing := by
  have h := congrArg Mach.ing (logErr_beyond r m); exact h
@[simp] theorem logErr_aphy (r : LogRec) (m : Mach) : (logErr r m).aphy = m.aphy := by
  have h := congrArg Mach.aphy (logErr_beyond r m); exact h
@[simp] theorem logErr_streams (r : LogRec) (m : Mach) : (logErr r m).streams = m.streams := by
  have h := congrArg Mach.streams (logErr_beyond r m); exact h
@[simp] theorem logErr_lane (r : LogRec) (m : Mach) : (logErr r m).lane = m.lane := by
  have h := congrArg Mach.lane (logErr_beyond r m); exact h
@[simp] theorem logErr_isps (r : LogRec) (m : Mach) : (logErr r m).isps = m.isps := by
  have h := congrArg Mach.isps (logErr_beyond r m); exact h
@[simp] theorem logErr_pipes (r : LogRec) (m : Mach) : (logErr r m).pipes = m.pipes := by
  have h := congrArg Mach.pipes (logErr_beyond r m); exact h
@[simp] theorem logErr_comps (r : LogRec) (m : Mach) : (logErr r m).comps = m.comps := by
  have h := congrArg Mach.comps (logErr_beyond r m); exact h
@[simp] theorem logErr_rnotes (r : LogRec) (m : Mach) : (logErr r m).rnotes = m.rnotes := by
  have h := congrArg Mach.rnotes (logErr_beyond r m); exact h
@[simp] theorem logErr_seqs (r : LogRec) (m : Mach) : (logErr r m).seqs = m.seqs := by
  have h := congrArg Mach.seqs (logErr_beyond r m); exact h
@[simp] theorem logErr_engines (r : LogRec) (m : Mach) : (logErr r m).engines = m.engines := by
  have h := congrArg Mach.engines (logErr_beyond r m); exact h
@[simp] theorem logErr_cores (r : LogRec) (m : Mach) : (logErr r m).cores = m.cores := by
  have h := congrArg Mach.cores (logErr_beyond r m); exact h
@[simp] theorem logErr_recov (r : LogRec) (m : Mach) : (logErr r m).recov = m.recov := by
  have h := congrArg Mach.recov (logErr_beyond r m); exact h
@[simp] theorem logErr_grans (r : LogRec) (m : Mach) : (logErr r m).grans = m.grans := by
  have h := congrArg Mach.grans (logErr_beyond r m); exact h
@[simp] theorem logErr_poisonq (r : LogRec) (m : Mach) : (logErr r m).poisonq = m.poisonq := by
  have h := congrArg Mach.poisonq (logErr_beyond r m); exact h
@[simp] theorem logErr_ascrub (r : LogRec) (m : Mach) : (logErr r m).ascrub = m.ascrub := by
  have h := congrArg Mach.ascrub (logErr_beyond r m); exact h
@[simp] theorem logErr_pparts (r : LogRec) (m : Mach) : (logErr r m).pparts = m.pparts := by
  have h := congrArg Mach.pparts (logErr_beyond r m); exact h
@[simp] theorem logErr_power (r : LogRec) (m : Mach) : (logErr r m).power = m.power := by
  have h := congrArg Mach.power (logErr_beyond r m); exact h
@[simp] theorem logErr_margin (r : LogRec) (m : Mach) : (logErr r m).margin = m.margin := by
  have h := congrArg Mach.margin (logErr_beyond r m); exact h
@[simp] theorem logErr_grids (r : LogRec) (m : Mach) : (logErr r m).grids = m.grids := by
  have h := congrArg Mach.grids (logErr_beyond r m); exact h
@[simp] theorem logErr_chans (r : LogRec) (m : Mach) : (logErr r m).chans = m.chans := by
  have h := congrArg Mach.chans (logErr_beyond r m); exact h
@[simp] theorem logErr_held (r : LogRec) (m : Mach) : (logErr r m).held = m.held := by
  have h := congrArg Mach.held (logErr_beyond r m); exact h
@[simp] theorem logErr_boxes (r : LogRec) (m : Mach) : (logErr r m).boxes = m.boxes := by
  have h := congrArg Mach.boxes (logErr_beyond r m); exact h
@[simp] theorem logErr_links (r : LogRec) (m : Mach) : (logErr r m).links = m.links := by
  have h := congrArg Mach.links (logErr_beyond r m); exact h
@[simp] theorem logErr_kvs (r : LogRec) (m : Mach) : (logErr r m).kvs = m.kvs := by
  have h := congrArg Mach.kvs (logErr_beyond r m); exact h
@[simp] theorem logErr_ucie (r : LogRec) (m : Mach) : (logErr r m).ucie = m.ucie := by
  have h := congrArg Mach.ucie (logErr_beyond r m); exact h

/-! ### The registers of a record -/

/-- A queue number that any section or register can give. -/
theorem hostKey {f g : Fld} (h : f.unlogged) (h1 : 0x7F40000000 * 64 ≤ g.key) (h2 : g.key < 0x7F42000000 * 64) : f.key ≠ g.key := by
  obtain ⟨h | h, _⟩ := h <;> omega

theorem rd_writeMem (a : Nat) (bs : List Byte) (m : Mach) (f : Fld) : rd (writeMem a bs m) f = rd m f := by
  unfold writeMem
  dsimp only
  rw [forEach_keeps (fun m => rd m f) _ (fun c : Nat × Nat => poisonWord c.1) (fun _ _ _ => rfl)]
  simp only [rd]

@[simp] theorem rd_ringWrite (q a : Nat) (bs : List Byte) (m : Mach) (f : Fld) : rd (ringWrite q a bs m) f = rd m f := by
  unfold ringWrite; split
  · exact rd_writeMem a bs m f
  · rfl


@[simp] theorem rd_sendMsix (v vec : Nat) (m : Mach) (f : Fld) : rd (sendMsix v vec m) f = rd m f := by
  unfold sendMsix; dsimp only; split
  · split <;> rfl
  · rfl

/-- The first byte of a two-byte field of a section is below 2^16. -/
theorem leNat_lt : ∀ bs : List Byte, leNat bs < 256 ^ bs.length
  | [] => by simp [leNat]
  | b :: r => by
    have h := leNat_lt r
    have hb : b.toNat < 256 := b.isLt
    simp only [leNat, List.length_cons, Nat.pow_succ]
    omega

theorem le_two_lt (bs : List Byte) (off : Nat) : le bs off 2 < 65536 := by
  unfold le
  have h := leNat_lt ((bs.drop off).take 2)
  have h2 : ((bs.drop off).take 2).length ≤ 2 := by rw [List.length_take]; exact Nat.min_le_left _ _
  exact Nat.lt_of_lt_of_le h (Nat.pow_le_pow_right (by decide) h2)

theorem ringField_lt {m : Mach} {off q : Nat} (h : ringField m off = some q) : q < 65536 := by
  unfold ringField at h
  split at h
  · cases h
  · split at h
    · cases h
    · next b _ _ => cases h; exact le_two_lt b off

theorem errorRing_lt {m : Mach} {b : Bool} {q : Nat} (h : errorRing m b = some q) : q < 65536 := by
  unfold errorRing at h
  split at h
  · next hq =>
    split at h
    · exact ringField_lt h
    · cases h; exact ringField_lt hq
  · split at h
    · exact ringField_lt h
    · cases h

/-- The fields of a ring that its placements write lie in the host interface. -/
theorem rd_ringSignal {f : Fld} (h : f.unlogged) (q : Nat) (hq : q < 65536) (m : Mach) : rd (ringSignal q m) f = rd m f := by
  unfold ringSignal; dsimp only; split
  · rw [rd_wr_other]
    · rfl
    · refine hostKey h ?_ ?_ <;> simp only [Fld.key, Reg.HOST_HC_QPEND] <;> omega
  · simp

theorem rd_ringPlaced {f : Fld} (h : f.unlogged) (q : Nat) (hq : q < 65536) (m : Mach) : rd (ringPlaced q m) f = rd m f := by
  unfold ringPlaced; dsimp only; split
  · simp
  · split
    · rw [rd_ringSignal h q hq]; simp
    · simp

theorem rd_ringPut {f : Fld} (h : f.unlogged) (q : Nat) (hq : q < 65536) (e : List Byte) (m : Mach) :
    rd (ringPut q e m) f = rd m f := by
  unfold ringPut; dsimp only
  rw [rd_ringPlaced h q hq, rd_inc_other, rd_ringWrite, rd_wr_other, rd_ringWrite]
  · refine hostKey h ?_ ?_ <;> simp only [Fld.key, Reg.HOST_Q_PROD] <;> omega
  · refine hostKey h ?_ ?_ <;> simp only [Fld.key, Reg.HOST_Q_CNT_PLACED] <;> omega

theorem rd_ringUnreachable {f : Fld} (h : f.unlogged) (q : Nat) (hq : q < 65536) (m : Mach) :
    rd (ringUnreachable q m) f = rd m f := by
  unfold ringUnreachable; split
  · rw [rd_wr_other, rd_wr_other]
    · refine hostKey h ?_ ?_ <;> simp only [Fld.key, Reg.HOST_Q_STATUS_STATE] <;> omega
    · refine hostKey h ?_ ?_ <;> simp only [Fld.key, Reg.HOST_Q_STATUS_ERROR] <;> omega
  · rfl

theorem rd_placeError {f : Fld} (h : f.unlogged) (r : LogRec) (m : Mach) : rd (placeError r m) f = rd m f := by
  have hl : f.key ≠ Reg.HOST_CNT_ERRLOG_LOST.key := hostKey h (by decide) (by decide)
  unfold placeError; split
  · exact rd_inc_other _ hl
  · next q hq =>
    have hq := errorRing_lt hq
    split
    · exact rd_ringPut h q hq _ m
    · rw [rd_inc_other _ hl, rd_ringUnreachable h q hq]

theorem rd_sampleUnit (path : Nat) (m : Mach) (f : Fld) : rd (sampleUnit path m).2 f = rd m f := by
  unfold sampleUnit; dsimp only; split <;> rfl

/-- An error record writes no register but the log's sequence numbers and those of the host interface. -/
theorem rd_logErr {f : Fld} (h : f.unlogged) (r : LogRec) (m : Mach) : rd (logErr r m) f = rd m f := by
  unfold logErr
  have hs := rd_sampleUnit r.path m f
  generalize sampleUnit r.path m = x at hs
  obtain ⟨⟨t, rail⟩, n⟩ := x
  dsimp only at hs ⊢
  rw [rd_placeError h]
  split
  · rw [rd_wr_other _ _ h.2.2, rd_wr_other _ _ h.2.1]; exact hs
  · rw [rd_wr_other _ _ h.2.1]; exact hs

theorem placeError_log (r : LogRec) (m : Mach) : (placeError r m).log = m.log := by
  have h := congrArg Mach.log (placeError_beyondRing r m); exact h

theorem sampleUnit_log (path : Nat) (m : Mach) : (sampleUnit path m).2.log = m.log := by
  have h := congrArg Mach.log (sampleUnit_beyondRing path m); exact h

/-- An error record joins the log in front, with the next sequence number and the time (R485, R533). -/
theorem logErr_log (r : LogRec) (m : Mach) : ∃ r', (logErr r m).log = (r' :: m.log).take 4096 ∧
    r'.path = r.path ∧ r'.source = r.source ∧ r'.fatal = r.fatal ∧ r'.detail = r.detail ∧ r'.tag = r.tag ∧
    r'.time = now m ∧ r'.seq = (rd m Reg.SAF_LOG_SEQ + 1) % 2 ^ 32 := by
  unfold logErr
  have hl := sampleUnit_log r.path m
  have hr : ∀ f, rd (sampleUnit r.path m).2 f = rd m f := rd_sampleUnit r.path m
  generalize sampleUnit r.path m = x at hl hr
  obtain ⟨⟨t, rail⟩, n⟩ := x
  dsimp only at hl hr ⊢
  rw [placeError_log]
  simp only [now, hr]
  split
  · simp only [wr_log, hl]; exact ⟨_, rfl, rfl, rfl, rfl, rfl, rfl, rfl, rfl⟩
  · simp only [wr_log, hl]; exact ⟨_, rfl, rfl, rfl, rfl, rfl, rfl, rfl, rfl⟩

/-! ### The safe state -/

/-- The part without what entering the safe state may touch: the island's own state, beside what a record touches. -/
def Mach.beyondSafe (m : Mach) : Mach := { m.beyondLog with saf := {} }

theorem beyondSafe_of_beyondLog {m n : Mach} (h : n.beyondLog = m.beyondLog) : n.beyondSafe = m.beyondSafe :=
  congrArg (fun m : Mach => { m with saf := {} }) h

/-- SAF_CAUSE and SAF_STATUS follow what is held, and a record may tell of it. -/
@[simp] theorem refreshSafe_beyond (m : Mach) : (refreshSafe m).beyondLog = m.beyondLog := by
  unfold refreshSafe; dsimp only; split
  · rw [inc_beyond, logErr_beyond, wr_beyond, wr_beyond, wr_beyond]
  · rw [wr_beyond, wr_beyond, wr_beyond]

@[simp] theorem refreshSafe_latches (m : Mach) : (refreshSafe m).latches = m.latches := by
  have h := congrArg Mach.latches (refreshSafe_beyond m); exact h
@[simp] theorem refreshSafe_holds (m : Mach) : (refreshSafe m).holds = m.holds := by
  have h := congrArg Mach.holds (refreshSafe_beyond m); exact h
@[simp] theorem refreshSafe_imem (m : Mach) : (refreshSafe m).imem = m.imem := by
  have h := congrArg Mach.imem (refreshSafe_beyond m); exact h
@[simp] theorem refreshSafe_powered (m : Mach) : (refreshSafe m).powered = m.powered := by
  have h := congrArg Mach.powered (refreshSafe_beyond m); exact h
@[simp] theorem refreshSafe_pe (m : Mach) : (refreshSafe m).pe = m.pe := by
  have h := congrArg Mach.pe (refreshSafe_beyond m); exact h
@[simp] theorem refreshSafe_endpoint (m : Mach) : (refreshSafe m).endpoint = m.endpoint := by
  have h := congrArg Mach.endpoint (refreshSafe_beyond m); exact h
@[simp] theorem refreshSafe_perst (m : Mach) : (refreshSafe m).perst = m.perst := by
  have h := congrArg Mach.perst (refreshSafe_beyond m); exact h
@[simp] theorem refreshSafe_serdes (m : Mach) : (refreshSafe m).serdes = m.serdes := by
  have h := congrArg Mach.serdes (refreshSafe_beyond m); exact h
@[simp] theorem refreshSafe_ldr (m : Mach) : (refreshSafe m).ldr = m.ldr := by
  have h := congrArg Mach.ldr (refreshSafe_beyond m); exact h
@[simp] theorem refreshSafe_time (m : Mach) : (refreshSafe m).time = m.time := by
  have h := congrArg Mach.time (refreshSafe_beyond m); exact h
@[simp] theorem refreshSafe_trigs (m : Mach) : (refreshSafe m).trigs = m.trigs := by
  have h := congrArg Mach.trigs (refreshSafe_beyond m); exact h
@[simp] theorem refreshSafe_ppsLevel (m : Mach) : (refreshSafe m).ppsLevel = m.ppsLevel := by
  have h := congrArg Mach.ppsLevel (refreshSafe_beyond m); exact h
@[simp] theorem refreshSafe_lastPpsOut (m : Mach) : (refreshSafe m).lastPpsOut = m.lastPpsOut := by
  have h := congrArg Mach.lastPpsOut (refreshSafe_beyond m); exact h
@[simp] theorem refreshSafe_evts (m : Mach) : (refreshSafe m).evts = m.evts := by
  have h := congrArg Mach.evts (refreshSafe_beyond m); exact h
@[simp] theorem refreshSafe_turns (m : Mach) : (refreshSafe m).turns = m.turns := by
  have h := congrArg Mach.turns (refreshSafe_beyond m); exact h
@[simp] theorem refreshSafe_items (m : Mach) : (refreshSafe m).items = m.items := by
  have h := congrArg Mach.items (refreshSafe_beyond m); exact h
@[simp] theorem refreshSafe_deadlined (m : Mach) : (refreshSafe m).deadlined = m.deadlined := by
  have h := congrArg Mach.deadlined (refreshSafe_beyond m); exact h
@[simp] theorem refreshSafe_decided (m : Mach) : (refreshSafe m).decided = m.decided := by
  have h := congrArg Mach.decided (refreshSafe_beyond m); exact h
@[simp] theorem refreshSafe_saf (m : Mach) : (refreshSafe m).saf = m.saf := by
  have h := congrArg Mach.saf (refreshSafe_beyond m); exact h
@[simp] theorem refreshSafe_ing (m : Mach) : (refreshSafe m).ing = m.ing := by
  have h := congrArg Mach.ing (refreshSafe_beyond m); exact h
@[simp] theorem refreshSafe_aphy (m : Mach) : (refreshSafe m).aphy = m.aphy := by
  have h := congrArg Mach.aphy (refreshSafe_beyond m); exact h
@[simp] theorem refreshSafe_streams (m : Mach) : (refreshSafe m).streams = m.streams := by
  have h := congrArg Mach.streams (refreshSafe_beyond m); exact h
@[simp] theorem refreshSafe_lane (m : Mach) : (refreshSafe m).lane = m.lane := by
  have h := congrArg Mach.lane (refreshSafe_beyond m); exact h
@[simp] theorem refreshSafe_isps (m : Mach) : (refreshSafe m).isps = m.isps := by
  have h := congrArg Mach.isps (refreshSafe_beyond m); exact h
@[simp] theorem refreshSafe_pipes (m : Mach) : (refreshSafe m).pipes = m.pipes := by
  have h := congrArg Mach.pipes (refreshSafe_beyond m); exact h
@[simp] theorem refreshSafe_comps (m : Mach) : (refreshSafe m).comps = m.comps := by
  have h := congrArg Mach.comps (refreshSafe_beyond m); exact h
@[simp] theorem refreshSafe_rnotes (m : Mach) : (refreshSafe m).rnotes = m.rnotes := by
  have h := congrArg Mach.rnotes (refreshSafe_beyond m); exact h
@[simp] theorem refreshSafe_seqs (m : Mach) : (refreshSafe m).seqs = m.seqs := by
  have h := congrArg Mach.seqs (refreshSafe_beyond m); exact h
@[simp] theorem refreshSafe_engines (m : Mach) : (refreshSafe m).engines = m.engines := by
  have h := congrArg Mach.engines (refreshSafe_beyond m); exact h
@[simp] theorem refreshSafe_cores (m : Mach) : (refreshSafe m).cores = m.cores := by
  have h := congrArg Mach.cores (refreshSafe_beyond m); exact h
@[simp] theorem refreshSafe_recov (m : Mach) : (refreshSafe m).recov = m.recov := by
  have h := congrArg Mach.recov (refreshSafe_beyond m); exact h
@[simp] theorem refreshSafe_grans (m : Mach) : (refreshSafe m).grans = m.grans := by
  have h := congrArg Mach.grans (refreshSafe_beyond m); exact h
@[simp] theorem refreshSafe_poisonq (m : Mach) : (refreshSafe m).poisonq = m.poisonq := by
  have h := congrArg Mach.poisonq (refreshSafe_beyond m); exact h
@[simp] theorem refreshSafe_ascrub (m : Mach) : (refreshSafe m).ascrub = m.ascrub := by
  have h := congrArg Mach.ascrub (refreshSafe_beyond m); exact h
@[simp] theorem refreshSafe_pparts (m : Mach) : (refreshSafe m).pparts = m.pparts := by
  have h := congrArg Mach.pparts (refreshSafe_beyond m); exact h
@[simp] theorem refreshSafe_power (m : Mach) : (refreshSafe m).power = m.power := by
  have h := congrArg Mach.power (refreshSafe_beyond m); exact h
@[simp] theorem refreshSafe_margin (m : Mach) : (refreshSafe m).margin = m.margin := by
  have h := congrArg Mach.margin (refreshSafe_beyond m); exact h
@[simp] theorem refreshSafe_grids (m : Mach) : (refreshSafe m).grids = m.grids := by
  have h := congrArg Mach.grids (refreshSafe_beyond m); exact h
@[simp] theorem refreshSafe_chans (m : Mach) : (refreshSafe m).chans = m.chans := by
  have h := congrArg Mach.chans (refreshSafe_beyond m); exact h
@[simp] theorem refreshSafe_held (m : Mach) : (refreshSafe m).held = m.held := by
  have h := congrArg Mach.held (refreshSafe_beyond m); exact h
@[simp] theorem refreshSafe_boxes (m : Mach) : (refreshSafe m).boxes = m.boxes := by
  have h := congrArg Mach.boxes (refreshSafe_beyond m); exact h
@[simp] theorem refreshSafe_links (m : Mach) : (refreshSafe m).links = m.links := by
  have h := congrArg Mach.links (refreshSafe_beyond m); exact h
@[simp] theorem refreshSafe_kvs (m : Mach) : (refreshSafe m).kvs = m.kvs := by
  have h := congrArg Mach.kvs (refreshSafe_beyond m); exact h
@[simp] theorem refreshSafe_ucie (m : Mach) : (refreshSafe m).ucie = m.ucie := by
  have h := congrArg Mach.ucie (refreshSafe_beyond m); exact h

@[simp] theorem enterSafe_beyondSafe (c : Cause) (m : Mach) : (enterSafe c m).beyondSafe = m.beyondSafe := by
  unfold enterSafe endExit; dsimp only; split
  · rw [beyondSafe_of_beyondLog (refreshSafe_beyond _)]; rfl
  · rw [beyondSafe_of_beyondLog (logErr_beyond _ _), beyondSafe_of_beyondLog (refreshSafe_beyond _),
      beyondSafe_of_beyondLog (inc_beyond _ _), beyondSafe_of_beyondLog (wr_beyond _ _ _), beyondSafe_of_beyondLog (draw_beyond _ _)]; rfl

@[simp] theorem enterSafe_latches (c : Cause) (m : Mach) : (enterSafe c m).latches = m.latches := by
  have h := congrArg Mach.latches (enterSafe_beyondSafe c m); exact h
@[simp] theorem enterSafe_holds (c : Cause) (m : Mach) : (enterSafe c m).holds = m.holds := by
  have h := congrArg Mach.holds (enterSafe_beyondSafe c m); exact h
@[simp] theorem enterSafe_imem (c : Cause) (m : Mach) : (enterSafe c m).imem = m.imem := by
  have h := congrArg Mach.imem (enterSafe_beyondSafe c m); exact h
@[simp] theorem enterSafe_powered (c : Cause) (m : Mach) : (enterSafe c m).powered = m.powered := by
  have h := congrArg Mach.powered (enterSafe_beyondSafe c m); exact h
@[simp] theorem enterSafe_pe (c : Cause) (m : Mach) : (enterSafe c m).pe = m.pe := by
  have h := congrArg Mach.pe (enterSafe_beyondSafe c m); exact h
@[simp] theorem enterSafe_endpoint (c : Cause) (m : Mach) : (enterSafe c m).endpoint = m.endpoint := by
  have h := congrArg Mach.endpoint (enterSafe_beyondSafe c m); exact h
@[simp] theorem enterSafe_perst (c : Cause) (m : Mach) : (enterSafe c m).perst = m.perst := by
  have h := congrArg Mach.perst (enterSafe_beyondSafe c m); exact h
@[simp] theorem enterSafe_serdes (c : Cause) (m : Mach) : (enterSafe c m).serdes = m.serdes := by
  have h := congrArg Mach.serdes (enterSafe_beyondSafe c m); exact h
@[simp] theorem enterSafe_ldr (c : Cause) (m : Mach) : (enterSafe c m).ldr = m.ldr := by
  have h := congrArg Mach.ldr (enterSafe_beyondSafe c m); exact h
@[simp] theorem enterSafe_time (c : Cause) (m : Mach) : (enterSafe c m).time = m.time := by
  have h := congrArg Mach.time (enterSafe_beyondSafe c m); exact h
@[simp] theorem enterSafe_trigs (c : Cause) (m : Mach) : (enterSafe c m).trigs = m.trigs := by
  have h := congrArg Mach.trigs (enterSafe_beyondSafe c m); exact h
@[simp] theorem enterSafe_ppsLevel (c : Cause) (m : Mach) : (enterSafe c m).ppsLevel = m.ppsLevel := by
  have h := congrArg Mach.ppsLevel (enterSafe_beyondSafe c m); exact h
@[simp] theorem enterSafe_lastPpsOut (c : Cause) (m : Mach) : (enterSafe c m).lastPpsOut = m.lastPpsOut := by
  have h := congrArg Mach.lastPpsOut (enterSafe_beyondSafe c m); exact h
@[simp] theorem enterSafe_evts (c : Cause) (m : Mach) : (enterSafe c m).evts = m.evts := by
  have h := congrArg Mach.evts (enterSafe_beyondSafe c m); exact h
@[simp] theorem enterSafe_turns (c : Cause) (m : Mach) : (enterSafe c m).turns = m.turns := by
  have h := congrArg Mach.turns (enterSafe_beyondSafe c m); exact h
@[simp] theorem enterSafe_items (c : Cause) (m : Mach) : (enterSafe c m).items = m.items := by
  have h := congrArg Mach.items (enterSafe_beyondSafe c m); exact h
@[simp] theorem enterSafe_deadlined (c : Cause) (m : Mach) : (enterSafe c m).deadlined = m.deadlined := by
  have h := congrArg Mach.deadlined (enterSafe_beyondSafe c m); exact h
@[simp] theorem enterSafe_decided (c : Cause) (m : Mach) : (enterSafe c m).decided = m.decided := by
  have h := congrArg Mach.decided (enterSafe_beyondSafe c m); exact h
@[simp] theorem enterSafe_ing (c : Cause) (m : Mach) : (enterSafe c m).ing = m.ing := by
  have h := congrArg Mach.ing (enterSafe_beyondSafe c m); exact h
@[simp] theorem enterSafe_aphy (c : Cause) (m : Mach) : (enterSafe c m).aphy = m.aphy := by
  have h := congrArg Mach.aphy (enterSafe_beyondSafe c m); exact h
@[simp] theorem enterSafe_streams (c : Cause) (m : Mach) : (enterSafe c m).streams = m.streams := by
  have h := congrArg Mach.streams (enterSafe_beyondSafe c m); exact h
@[simp] theorem enterSafe_lane (c : Cause) (m : Mach) : (enterSafe c m).lane = m.lane := by
  have h := congrArg Mach.lane (enterSafe_beyondSafe c m); exact h
@[simp] theorem enterSafe_isps (c : Cause) (m : Mach) : (enterSafe c m).isps = m.isps := by
  have h := congrArg Mach.isps (enterSafe_beyondSafe c m); exact h
@[simp] theorem enterSafe_pipes (c : Cause) (m : Mach) : (enterSafe c m).pipes = m.pipes := by
  have h := congrArg Mach.pipes (enterSafe_beyondSafe c m); exact h
@[simp] theorem enterSafe_comps (c : Cause) (m : Mach) : (enterSafe c m).comps = m.comps := by
  have h := congrArg Mach.comps (enterSafe_beyondSafe c m); exact h
@[simp] theorem enterSafe_rnotes (c : Cause) (m : Mach) : (enterSafe c m).rnotes = m.rnotes := by
  have h := congrArg Mach.rnotes (enterSafe_beyondSafe c m); exact h
@[simp] theorem enterSafe_seqs (c : Cause) (m : Mach) : (enterSafe c m).seqs = m.seqs := by
  have h := congrArg Mach.seqs (enterSafe_beyondSafe c m); exact h
@[simp] theorem enterSafe_engines (c : Cause) (m : Mach) : (enterSafe c m).engines = m.engines := by
  have h := congrArg Mach.engines (enterSafe_beyondSafe c m); exact h
@[simp] theorem enterSafe_cores (c : Cause) (m : Mach) : (enterSafe c m).cores = m.cores := by
  have h := congrArg Mach.cores (enterSafe_beyondSafe c m); exact h
@[simp] theorem enterSafe_recov (c : Cause) (m : Mach) : (enterSafe c m).recov = m.recov := by
  have h := congrArg Mach.recov (enterSafe_beyondSafe c m); exact h
@[simp] theorem enterSafe_grans (c : Cause) (m : Mach) : (enterSafe c m).grans = m.grans := by
  have h := congrArg Mach.grans (enterSafe_beyondSafe c m); exact h
@[simp] theorem enterSafe_poisonq (c : Cause) (m : Mach) : (enterSafe c m).poisonq = m.poisonq := by
  have h := congrArg Mach.poisonq (enterSafe_beyondSafe c m); exact h
@[simp] theorem enterSafe_ascrub (c : Cause) (m : Mach) : (enterSafe c m).ascrub = m.ascrub := by
  have h := congrArg Mach.ascrub (enterSafe_beyondSafe c m); exact h
@[simp] theorem enterSafe_pparts (c : Cause) (m : Mach) : (enterSafe c m).pparts = m.pparts := by
  have h := congrArg Mach.pparts (enterSafe_beyondSafe c m); exact h
@[simp] theorem enterSafe_power (c : Cause) (m : Mach) : (enterSafe c m).power = m.power := by
  have h := congrArg Mach.power (enterSafe_beyondSafe c m); exact h
@[simp] theorem enterSafe_margin (c : Cause) (m : Mach) : (enterSafe c m).margin = m.margin := by
  have h := congrArg Mach.margin (enterSafe_beyondSafe c m); exact h
@[simp] theorem enterSafe_grids (c : Cause) (m : Mach) : (enterSafe c m).grids = m.grids := by
  have h := congrArg Mach.grids (enterSafe_beyondSafe c m); exact h
@[simp] theorem enterSafe_chans (c : Cause) (m : Mach) : (enterSafe c m).chans = m.chans := by
  have h := congrArg Mach.chans (enterSafe_beyondSafe c m); exact h
@[simp] theorem enterSafe_held (c : Cause) (m : Mach) : (enterSafe c m).held = m.held := by
  have h := congrArg Mach.held (enterSafe_beyondSafe c m); exact h
@[simp] theorem enterSafe_boxes (c : Cause) (m : Mach) : (enterSafe c m).boxes = m.boxes := by
  have h := congrArg Mach.boxes (enterSafe_beyondSafe c m); exact h
@[simp] theorem enterSafe_links (c : Cause) (m : Mach) : (enterSafe c m).links = m.links := by
  have h := congrArg Mach.links (enterSafe_beyondSafe c m); exact h
@[simp] theorem enterSafe_kvs (c : Cause) (m : Mach) : (enterSafe c m).kvs = m.kvs := by
  have h := congrArg Mach.kvs (enterSafe_beyondSafe c m); exact h
@[simp] theorem enterSafe_ucie (c : Cause) (m : Mach) : (enterSafe c m).ucie = m.ucie := by
  have h := congrArg Mach.ucie (enterSafe_beyondSafe c m); exact h

@[simp] theorem fatal_beyondSafe (c : Cause) (r : LogRec) (m : Mach) : (fatal c r m).beyondSafe = m.beyondSafe := by
  unfold fatal; dsimp only
  rw [enterSafe_beyondSafe, beyondSafe_of_beyondLog (logErr_beyond _ _)]
  split
  · exact beyondSafe_of_beyondLog (wr_beyond _ _ _)
  · rfl

@[simp] theorem fatal_latches (c : Cause) (r : LogRec) (m : Mach) : (fatal c r m).latches = m.latches := by
  have h := congrArg Mach.latches (fatal_beyondSafe c r m); exact h
@[simp] theorem fatal_holds (c : Cause) (r : LogRec) (m : Mach) : (fatal c r m).holds = m.holds := by
  have h := congrArg Mach.holds (fatal_beyondSafe c r m); exact h
@[simp] theorem fatal_imem (c : Cause) (r : LogRec) (m : Mach) : (fatal c r m).imem = m.imem := by
  have h := congrArg Mach.imem (fatal_beyondSafe c r m); exact h
@[simp] theorem fatal_powered (c : Cause) (r : LogRec) (m : Mach) : (fatal c r m).powered = m.powered := by
  have h := congrArg Mach.powered (fatal_beyondSafe c r m); exact h
@[simp] theorem fatal_pe (c : Cause) (r : LogRec) (m : Mach) : (fatal c r m).pe = m.pe := by
  have h := congrArg Mach.pe (fatal_beyondSafe c r m); exact h
@[simp] theorem fatal_endpoint (c : Cause) (r : LogRec) (m : Mach) : (fatal c r m).endpoint = m.endpoint := by
  have h := congrArg Mach.endpoint (fatal_beyondSafe c r m); exact h
@[simp] theorem fatal_perst (c : Cause) (r : LogRec) (m : Mach) : (fatal c r m).perst = m.perst := by
  have h := congrArg Mach.perst (fatal_beyondSafe c r m); exact h
@[simp] theorem fatal_serdes (c : Cause) (r : LogRec) (m : Mach) : (fatal c r m).serdes = m.serdes := by
  have h := congrArg Mach.serdes (fatal_beyondSafe c r m); exact h
@[simp] theorem fatal_ldr (c : Cause) (r : LogRec) (m : Mach) : (fatal c r m).ldr = m.ldr := by
  have h := congrArg Mach.ldr (fatal_beyondSafe c r m); exact h
@[simp] theorem fatal_time (c : Cause) (r : LogRec) (m : Mach) : (fatal c r m).time = m.time := by
  have h := congrArg Mach.time (fatal_beyondSafe c r m); exact h
@[simp] theorem fatal_trigs (c : Cause) (r : LogRec) (m : Mach) : (fatal c r m).trigs = m.trigs := by
  have h := congrArg Mach.trigs (fatal_beyondSafe c r m); exact h
@[simp] theorem fatal_ppsLevel (c : Cause) (r : LogRec) (m : Mach) : (fatal c r m).ppsLevel = m.ppsLevel := by
  have h := congrArg Mach.ppsLevel (fatal_beyondSafe c r m); exact h
@[simp] theorem fatal_lastPpsOut (c : Cause) (r : LogRec) (m : Mach) : (fatal c r m).lastPpsOut = m.lastPpsOut := by
  have h := congrArg Mach.lastPpsOut (fatal_beyondSafe c r m); exact h
@[simp] theorem fatal_evts (c : Cause) (r : LogRec) (m : Mach) : (fatal c r m).evts = m.evts := by
  have h := congrArg Mach.evts (fatal_beyondSafe c r m); exact h
@[simp] theorem fatal_turns (c : Cause) (r : LogRec) (m : Mach) : (fatal c r m).turns = m.turns := by
  have h := congrArg Mach.turns (fatal_beyondSafe c r m); exact h
@[simp] theorem fatal_items (c : Cause) (r : LogRec) (m : Mach) : (fatal c r m).items = m.items := by
  have h := congrArg Mach.items (fatal_beyondSafe c r m); exact h
@[simp] theorem fatal_deadlined (c : Cause) (r : LogRec) (m : Mach) : (fatal c r m).deadlined = m.deadlined := by
  have h := congrArg Mach.deadlined (fatal_beyondSafe c r m); exact h
@[simp] theorem fatal_decided (c : Cause) (r : LogRec) (m : Mach) : (fatal c r m).decided = m.decided := by
  have h := congrArg Mach.decided (fatal_beyondSafe c r m); exact h
@[simp] theorem fatal_ing (c : Cause) (r : LogRec) (m : Mach) : (fatal c r m).ing = m.ing := by
  have h := congrArg Mach.ing (fatal_beyondSafe c r m); exact h
@[simp] theorem fatal_aphy (c : Cause) (r : LogRec) (m : Mach) : (fatal c r m).aphy = m.aphy := by
  have h := congrArg Mach.aphy (fatal_beyondSafe c r m); exact h
@[simp] theorem fatal_streams (c : Cause) (r : LogRec) (m : Mach) : (fatal c r m).streams = m.streams := by
  have h := congrArg Mach.streams (fatal_beyondSafe c r m); exact h
@[simp] theorem fatal_lane (c : Cause) (r : LogRec) (m : Mach) : (fatal c r m).lane = m.lane := by
  have h := congrArg Mach.lane (fatal_beyondSafe c r m); exact h
@[simp] theorem fatal_isps (c : Cause) (r : LogRec) (m : Mach) : (fatal c r m).isps = m.isps := by
  have h := congrArg Mach.isps (fatal_beyondSafe c r m); exact h
@[simp] theorem fatal_pipes (c : Cause) (r : LogRec) (m : Mach) : (fatal c r m).pipes = m.pipes := by
  have h := congrArg Mach.pipes (fatal_beyondSafe c r m); exact h
@[simp] theorem fatal_comps (c : Cause) (r : LogRec) (m : Mach) : (fatal c r m).comps = m.comps := by
  have h := congrArg Mach.comps (fatal_beyondSafe c r m); exact h
@[simp] theorem fatal_rnotes (c : Cause) (r : LogRec) (m : Mach) : (fatal c r m).rnotes = m.rnotes := by
  have h := congrArg Mach.rnotes (fatal_beyondSafe c r m); exact h
@[simp] theorem fatal_seqs (c : Cause) (r : LogRec) (m : Mach) : (fatal c r m).seqs = m.seqs := by
  have h := congrArg Mach.seqs (fatal_beyondSafe c r m); exact h
@[simp] theorem fatal_engines (c : Cause) (r : LogRec) (m : Mach) : (fatal c r m).engines = m.engines := by
  have h := congrArg Mach.engines (fatal_beyondSafe c r m); exact h
@[simp] theorem fatal_cores (c : Cause) (r : LogRec) (m : Mach) : (fatal c r m).cores = m.cores := by
  have h := congrArg Mach.cores (fatal_beyondSafe c r m); exact h
@[simp] theorem fatal_recov (c : Cause) (r : LogRec) (m : Mach) : (fatal c r m).recov = m.recov := by
  have h := congrArg Mach.recov (fatal_beyondSafe c r m); exact h
@[simp] theorem fatal_grans (c : Cause) (r : LogRec) (m : Mach) : (fatal c r m).grans = m.grans := by
  have h := congrArg Mach.grans (fatal_beyondSafe c r m); exact h
@[simp] theorem fatal_poisonq (c : Cause) (r : LogRec) (m : Mach) : (fatal c r m).poisonq = m.poisonq := by
  have h := congrArg Mach.poisonq (fatal_beyondSafe c r m); exact h
@[simp] theorem fatal_ascrub (c : Cause) (r : LogRec) (m : Mach) : (fatal c r m).ascrub = m.ascrub := by
  have h := congrArg Mach.ascrub (fatal_beyondSafe c r m); exact h
@[simp] theorem fatal_pparts (c : Cause) (r : LogRec) (m : Mach) : (fatal c r m).pparts = m.pparts := by
  have h := congrArg Mach.pparts (fatal_beyondSafe c r m); exact h
@[simp] theorem fatal_power (c : Cause) (r : LogRec) (m : Mach) : (fatal c r m).power = m.power := by
  have h := congrArg Mach.power (fatal_beyondSafe c r m); exact h
@[simp] theorem fatal_margin (c : Cause) (r : LogRec) (m : Mach) : (fatal c r m).margin = m.margin := by
  have h := congrArg Mach.margin (fatal_beyondSafe c r m); exact h
@[simp] theorem fatal_grids (c : Cause) (r : LogRec) (m : Mach) : (fatal c r m).grids = m.grids := by
  have h := congrArg Mach.grids (fatal_beyondSafe c r m); exact h
@[simp] theorem fatal_chans (c : Cause) (r : LogRec) (m : Mach) : (fatal c r m).chans = m.chans := by
  have h := congrArg Mach.chans (fatal_beyondSafe c r m); exact h
@[simp] theorem fatal_held (c : Cause) (r : LogRec) (m : Mach) : (fatal c r m).held = m.held := by
  have h := congrArg Mach.held (fatal_beyondSafe c r m); exact h
@[simp] theorem fatal_boxes (c : Cause) (r : LogRec) (m : Mach) : (fatal c r m).boxes = m.boxes := by
  have h := congrArg Mach.boxes (fatal_beyondSafe c r m); exact h
@[simp] theorem fatal_links (c : Cause) (r : LogRec) (m : Mach) : (fatal c r m).links = m.links := by
  have h := congrArg Mach.links (fatal_beyondSafe c r m); exact h
@[simp] theorem fatal_kvs (c : Cause) (r : LogRec) (m : Mach) : (fatal c r m).kvs = m.kvs := by
  have h := congrArg Mach.kvs (fatal_beyondSafe c r m); exact h
@[simp] theorem fatal_ucie (c : Cause) (r : LogRec) (m : Mach) : (fatal c r m).ucie = m.ucie := by
  have h := congrArg Mach.ucie (fatal_beyondSafe c r m); exact h

theorem Fld.beyond.unlogged {f : Fld} (h : f.beyond) : f.unlogged := by
  have h1 : 0x7F50000000 * 64 ≤ Reg.SAF_LOG_SEQ.key ∧ Reg.SAF_LOG_SEQ.key < 0x7F50000100 * 64 := by decide
  have h2 : 0x7F50000000 * 64 ≤ Reg.SAF_LAST_FATAL_SEQ.key ∧ Reg.SAF_LAST_FATAL_SEQ.key < 0x7F50000100 * 64 := by decide
  refine ⟨h.1, ?_, ?_⟩ <;> rcases h.2 with h | h <;> omega

/-- A register of the SAF block is none that `beyond` names. -/
theorem Fld.beyond.ne {f g : Fld} (h : f.beyond) (hg : 0x7F50000000 * 64 ≤ g.key ∧ g.key < 0x7F50000100 * 64) : f.key ≠ g.key := by
  rcases h.2 with h | h <;> omega

theorem rd_refreshSafe {f : Fld} (h : f.beyond) (m : Mach) : rd (refreshSafe m) f = rd m f := by
  unfold refreshSafe; dsimp only; split
  · rw [rd_inc_other _ (h.ne (by decide)), rd_logErr h.unlogged, rd_wr_other _ _ (h.ne (by decide)), rd_wr_other _ _ (h.ne (by decide)),
      rd_wr_other _ _ (h.ne (by decide))]
  · rw [rd_wr_other _ _ (h.ne (by decide)), rd_wr_other _ _ (h.ne (by decide)), rd_wr_other _ _ (h.ne (by decide))]

theorem rd_endExit {f : Fld} (h : f.beyond) (m : Mach) : rd (endExit m) f = rd m f :=
  (rd_wrb_other (f := Reg.SAF_STATUS_EXIT_PENDING) false _ (h.ne (by decide))).trans rfl

/-- Entering the safe state writes registers of the SAF block and the host interface alone. -/
theorem rd_enterSafe {f : Fld} (h : f.beyond) (c : Cause) (m : Mach) : rd (enterSafe c m) f = rd m f := by
  unfold enterSafe; dsimp only; split
  · rw [rd_refreshSafe h, rd_wr_other _ _ (h.ne (by decide))]
    exact rd_endExit h m
  · rw [rd_logErr h.unlogged, rd_refreshSafe h, rd_inc_other _ (h.ne (by decide)), rd_wr_other _ _ (h.ne (by decide)), rd_draw,
      rd_wr_other _ _ (h.ne (by decide))]
    exact rd_endExit h m

theorem rd_fatal {f : Fld} (h : f.beyond) (c : Cause) (r : LogRec) (m : Mach) : rd (fatal c r m) f = rd m f := by
  unfold fatal; dsimp only
  rw [rd_enterSafe h, rd_logErr h.unlogged]
  split
  · exact rd_wr_other _ _ (h.ne (by decide))
  · rfl

/-- With a latch set, the part is in the safe state (R506, R543). -/
theorem refreshSafe_state {m : Mach} (h : m.saf.latchA = true) : inSafe (refreshSafe m) = true := by
  have key : ∀ r n, rd (wr Reg.SAF_STATUS_STATE 2 n) Reg.SAF_STATUS_STATE = 2 →
      rd (logErr r (wr Reg.SAF_STATUS_STATE 2 n)) Reg.SAF_STATUS_STATE = 2 := by
    intro r n hn
    rw [rd_logErr (by decide)]; exact hn
  unfold inSafe refreshSafe
  simp only [wr_saf, h, Bool.true_or, if_true, beq_iff_eq]
  split
  · rw [rd_inc_other _ (by decide)]
    exact key _ _ (rd_wr_same _ _ _)
  · exact rd_wr_same _ _ _

theorem rd_refreshSafe_safeN (m : Mach) : rd (refreshSafe m) Reg.SAF_STATUS_SAFE_N = rd m Reg.SAF_STATUS_SAFE_N := by
  unfold refreshSafe; dsimp only; split
  · rw [rd_inc_other _ (by decide), rd_logErr (by decide), rd_wr_other _ _ (by decide), rd_wr_other _ _ (by decide),
      rd_wr_other _ _ (by decide)]
  · rw [rd_wr_other _ _ (by decide), rd_wr_other _ _ (by decide), rd_wr_other _ _ (by decide)]

theorem inSafe_logErr (r : LogRec) (m : Mach) : inSafe (logErr r m) = inSafe m := by
  unfold inSafe; rw [rd_logErr (by decide)]

/-- Entering the safe state: both latches set, the cause held with those held before, the part in the safe state and SAFE_n low
(R506, R507). -/
theorem enterSafe_safe (c : Cause) (m : Mach) :
    inSafe (enterSafe c m) = true ∧ (enterSafe c m).saf.latchA = true ∧ (enterSafe c m).saf.latchB = true ∧
      (enterSafe c m).saf.causes = (if m.saf.causes.contains c then m.saf.causes else m.saf.causes ++ [c]) ∧
      rd (enterSafe c m) Reg.SAF_STATUS_SAFE_N = 0 := by
  have hc : (endExit m).saf.causes = m.saf.causes := rfl
  unfold enterSafe
  dsimp only
  rw [hc]
  split
  · refine ⟨refreshSafe_state rfl, ?_, ?_, ?_, ?_⟩
    · rw [refreshSafe_saf]; rfl
    · rw [refreshSafe_saf]; rfl
    · rw [refreshSafe_saf]; rfl
    · rw [rd_refreshSafe_safeN]; exact rd_wr_same _ _ _
  · refine ⟨?_, ?_, ?_, ?_, ?_⟩
    · rw [inSafe_logErr]; exact refreshSafe_state rfl
    · rw [logErr_saf, refreshSafe_saf]; rfl
    · rw [logErr_saf, refreshSafe_saf]; rfl
    · rw [logErr_saf, refreshSafe_saf]; rfl
    · rw [rd_logErr (by decide), rd_refreshSafe_safeN, rd_inc_other _ (by decide), rd_wr_other _ _ (by decide), rd_draw]
      exact rd_wr_same _ _ _

/-- A fatal indication enters the safe state as well. -/
theorem fatal_safe (c : Cause) (r : LogRec) (m : Mach) :
    inSafe (fatal c r m) = true ∧ (fatal c r m).saf.latchA = true ∧ (fatal c r m).saf.latchB = true ∧
      (fatal c r m).saf.causes = (if m.saf.causes.contains c then m.saf.causes else m.saf.causes ++ [c]) ∧
      rd (fatal c r m) Reg.SAF_STATUS_SAFE_N = 0 := by
  have h : ∀ n : Mach, n.saf = m.saf → (logErr { r with fatal := true } n).saf = m.saf := fun n h => by rw [logErr_saf, h]
  unfold fatal
  dsimp only
  split
  · have k := enterSafe_safe c (logErr { r with fatal := true } (wr Reg.SAF_FATAL_PATH r.path m))
    rwa [h _ (wr_saf _ _ _)] at k
  · have k := enterSafe_safe c (logErr { r with fatal := true } m)
    rwa [h _ rfl] at k

/-! ### Accesses (R35 to R37) -/

/-- The requester reaches the register of `f`, and may write it: what every register write with a row of its own needs. -/
theorem regWrite_ok {w : Requester} {f : Fld} {k : Writers} {act : Mach → Mach} {m : Mach}
    (h : reach m w (presented w f.addr) = .ok f.addr) (hs : (inSaf f.addr && !mayWrite m w .mi f.addr) = false)
    (hw : mayWrite m w k f.addr = true) : regWrite w f k act m = act m := by
  unfold regWrite writeAt
  rw [h]
  simp [hs, hw]

/-- A requester that may not write a register changes nothing but the record of its attempt (R37, R582). -/
theorem regWrite_refused {w : Requester} {f : Fld} {k : Writers} {act : Mach → Mach} {m : Mach}
    (h : reach m w (presented w f.addr) = .ok f.addr) (hw : mayWrite m w k f.addr = false) :
    regWrite w f k act m = refuseWrite w (presented w f.addr) m := by
  unfold regWrite writeAt
  rw [h]
  simp [hw]

theorem readAt_ok {w : Requester} {addr a : Nat} {val : Nat → Nat} {act : Nat → Mach → Mach} {m : Mach}
    (h : reach m w addr = .ok a) : readAt w addr val act m = act a (emit (.readData w (val a)) m) := by
  unfold readAt
  rw [h]

/-! ### Instructions of the sequencers -/

/-- An instruction whose sequencer stands at its word, and whose try succeeds, has that effect. -/
theorem seqCmd_at {q op w : Nat} {f : SeqTry} {m n : Mach} (h : seqAt m q op w = true) (hf : f q w m = some n) :
    seqCmd q op w f m = n := by
  unfold seqCmd
  simp [h, hf]

/-- An instruction that must wait leaves its sequencer waiting at its word, and changes nothing else. -/
theorem seqCmd_waits {q op w : Nat} {f : SeqTry} {m : Mach} (h : seqAt m q op w = true) (hf : f q w m = none) :
    seqCmd q op w f m = modSeq q (fun x => { x with waiting := some (op, w), waitAt := now m }) m := by
  unfold seqCmd
  simp [h, hf]

theorem guarded_ok {op mask q w : Nat} {f : SeqTry} {m : Mach} (h : w &&& mask = 0) : guarded op mask f q w m = f q w m := by
  unfold guarded
  simp [h]

end Sys2Proof.Machine
end

