-- ==== Sys2Proof/Laws/Completing.lean ====
section
/-!
SUPPORT. Laws for showing that a command completes: what its meaning answers in a part that is powered, what a record, a refused access and a
store of whole words leave behind.
-/

namespace Sys2Proof.Machine

theorem completes_next {c : Instr} {s t : State} {n : Mach} {P : Mach → Prop} (hp : Powered s) (h : exec c s = .next t)
    (ht : t = if s.m.powered = true then { s with m := n } else s) (hP : P n) : Completes c s P := by
  unfold Powered at hp
  rw [hp] at ht
  exact ⟨t, h, by rw [ht]; rfl, by rw [ht]; rfl, by rw [ht]; exact hP⟩

theorem regsKept_wr {f : Fld} {v : Nat} {m : Mach} : RegsKept [f] m (wr f v m) := by
  intro g hg; simp at hg; exact rd_wr_other _ _ hg

theorem forEach_rd {α : Type} (l : List α) (f : α → Mach → Mach) (g : Fld) (m : Mach) (h : ∀ a ∈ l, ∀ m, rd (f a m) g = rd m g) : rd (forEach l f m) g = rd m g :=
  forEach_keeps (fun m => rd m g) l f h m

theorem regs_only_forEach {α : Type} (l : List α) (f : α → Mach → Mach) (m : Mach) (h : ∀ a m, f a m = { m with regs := (f a m).regs }) : forEach l f m = { m with regs := (forEach l f m).regs } := by
  induction l generalizing m with
  | nil => rfl
  | cons a r ih => rw [forEach_cons, ih]; rw [h a m]


theorem logged_logErr (r : LogRec) (m : Mach) : Logged r.source m (logErr r m) := by
  obtain ⟨r', h1, _, h2, _, _, _, h3, h4⟩ := logErr_log r m
  exact ⟨r', h1, h2, h3, h4⟩

theorem onlyLogged_hostIf (e req thing index dt addr tag) (m : Mach) : OnlyLogged m (hostIf e req thing index dt addr tag m) := by
  unfold hostIf
  exact ⟨logged_logErr _ m, fun f hf => rd_logErr hf _ m, by simp, by simp, by simp, by simp⟩

theorem logged_congr {src : Nat} {m n t : Mach} (h1 : n.log = m.log) (h2 : now n = now m) (h3 : rd n Reg.SAF_LOG_SEQ = rd m Reg.SAF_LOG_SEQ) (h : Logged src n t) : Logged src m t := by
  obtain ⟨r, a, b, c, d⟩ := h
  exact ⟨r, by rw [← h1]; exact a, b, by rw [← h2]; exact c, by rw [← h3]; exact d⟩

theorem onlyLogged_refuse (w space addr) (m : Mach) : OnlyLogged m (refuseAccess w space addr m) := by
  unfold refuseAccess hostIfAddr; dsimp only
  split
  · obtain ⟨a, b, c, d, e, f⟩ := onlyLogged_hostIf .ur (reqCode w) 0 (bitsAt addr 32 8 + space * 256) 0 (addr % 2 ^ 32) 0 (inc Reg.HOST_CNT_UR (emit (.unsupported w) m))
    refine ⟨logged_congr (by rfl) ?_ ?_ a, fun f hf => ?_, c, d, e, f⟩
    · exact rd_inc_other _ (by decide)
    · exact rd_inc_other _ (by decide)
    · rw [b f hf]; exact rd_inc_other _ (hostKey hf (by decide) (by decide))
  · obtain ⟨a, b, c, d, e, f⟩ := onlyLogged_hostIf .ur (reqCode w) 0 (bitsAt addr 32 8 + space * 256) 0 (addr % 2 ^ 32) 0 (emit (.busError w) m)
    exact ⟨logged_congr rfl rfl rfl a, fun f hf => b f hf, c, d, e, f⟩

-- what left the part is never taken back by a record
theorem out_ringWrite (q a bs) (m : Mach) (o : Output) (h : o ∈ m.out) : o ∈ (ringWrite q a bs m).out := by
  unfold ringWrite; split
  · have : (writeMem a bs m).out = m.out := by
      unfold writeMem; dsimp only
      rw [forEach_keeps Mach.out _ (fun c : Nat × Nat => poisonWord c.1) (fun _ _ _ => rfl)]
    rw [this]; exact h
  · simp [h]

theorem out_ringSignal (q) (m : Mach) (o : Output) (h : o ∈ m.out) : o ∈ (ringSignal q m).out := by
  unfold ringSignal sendMsix; dsimp only; split
  · exact h
  · split
    · split <;> exact h
    · exact List.mem_cons_of_mem _ h

theorem out_ringPlaced (q) (m : Mach) (o : Output) (h : o ∈ m.out) : o ∈ (ringPlaced q m).out := by
  unfold ringPlaced; dsimp only; split
  · exact h
  · split
    · exact out_ringSignal _ _ _ h
    · exact h

theorem out_ringPut (q e) (m : Mach) (o : Output) (h : o ∈ m.out) : o ∈ (ringPut q e m).out := by
  unfold ringPut; dsimp only
  apply out_ringPlaced
  show o ∈ (ringWrite q _ _ _).out
  apply out_ringWrite
  show o ∈ (ringWrite q _ _ _).out
  exact out_ringWrite _ _ _ _ _ h

theorem out_logErr (r : LogRec) (m : Mach) (o : Output) (h : o ∈ m.out) : o ∈ (logErr r m).out := by
  unfold logErr
  have hs : (sampleUnit r.path m).2.out = m.out := by unfold sampleUnit; dsimp only; split <;> rfl
  generalize sampleUnit r.path m = x at hs
  obtain ⟨⟨t, rail⟩, n⟩ := x
  dsimp only at hs ⊢
  have key : ∀ n' : Mach, n'.out = m.out → ∀ r, o ∈ (placeError r n').out := by
    intro n' hn r
    unfold placeError; split
    · rw [show (inc Reg.HOST_CNT_ERRLOG_LOST n').out = n'.out from rfl, hn]; exact h
    · split
      · apply out_ringPut; rw [hn]; exact h
      · unfold ringUnreachable; split
        · show o ∈ n'.out; rw [hn]; exact h
        · show o ∈ n'.out; rw [hn]; exact h
  apply key
  split <;> exact hs

theorem out_hostIf (e req thing index dt addr tag) (m : Mach) (o : Output) (h : o ∈ m.out) : o ∈ (hostIf e req thing index dt addr tag m).out := by
  unfold hostIf; exact out_logErr _ _ _ h

theorem out_hostIfAddr (e w sp addr) (m : Mach) (o : Output) (h : o ∈ m.out) : o ∈ (hostIfAddr e w sp addr m).out := by
  unfold hostIfAddr; exact out_hostIf _ _ _ _ _ _ _ _ _ h

theorem inc_out' (f) (m : Mach) : (inc f m).out = m.out := rfl

theorem refuse_mi (w space addr) (m : Mach) (h : isPcie w = false) : refuseAccess w space addr m = hostIfAddr .ur w space addr (emit (.busError w) m) := by
  unfold refuseAccess
  rw [if_neg (by rw [h]; exact Bool.false_ne_true)]
theorem refuse_pf (w space addr) (m : Mach) (h : isPcie w = true) : refuseAccess w space addr m = hostIfAddr .ur w space addr (inc Reg.HOST_CNT_UR (emit (.unsupported w) m)) := by
  unfold refuseAccess
  rw [if_pos h]
theorem out_refuse (w space addr) (m : Mach) : (isPcie w = false → Output.busError w ∈ (refuseAccess w space addr m).out) ∧ (isPcie w = true → Output.unsupported w ∈ (refuseAccess w space addr m).out) := by
  constructor
  · intro h
    rw [refuse_mi _ _ _ _ h]
    apply out_hostIfAddr; rw [emit_out]; exact List.mem_cons_self ..
  · intro h
    rw [refuse_pf _ _ _ _ h]
    apply out_hostIfAddr; rw [inc_out', emit_out]; exact List.mem_cons_self ..

theorem onlyLogged_refuseWrite (w addr) (m : Mach) : OnlyLogged m (refuseWrite w addr m) := by
  unfold refuseWrite hostIfAddr; apply onlyLogged_hostIf

theorem onlyLogged_hostIfAddr (e w sp addr) (m : Mach) : OnlyLogged m (hostIfAddr e w sp addr m) := by
  unfold hostIfAddr; apply onlyLogged_hostIf

theorem writeAt_refused {w addr a k act} {m : Mach} (h2 : reach m w addr = .ok a) (h3 : (mayWrite m w (k a) a = false ∨ (inSaf a = true ∧ mayWrite m w .mi a = false))) : writeAt w addr k act m = refuseWrite w addr m := by
  unfold writeAt
  rw [h2]
  rcases h3 with h3 | ⟨h3, h4⟩
  · simp [h3]
  · simp [h3, h4]


theorem mapM_none {α β : Type} (g : α → Option β) (l : List α) (p : α) (hp : p ∈ l) (hg : g p = none) : l.mapM g = none := by
  induction l with
  | nil => cases hp
  | cons a r ih =>
    rw [List.mapM_cons]
    rcases List.mem_cons.mp hp with rfl | hp
    · rw [hg]; rfl
    · rw [ih hp]; cases g a <;> rfl


theorem bar2_one {m : Mach} {fn off len page : Nat} {wr need : Bool} (h : len ≤ 0x200000 - off % 0x200000) (he : bar2Entry m fn (off / 0x200000) = some (page, wr))
    (hw : (wr || !need) = true) : bar2Parts m fn off len need = some [(page * 0x200000 + off % 0x200000, len)] := by
  unfold bar2Parts bar2Split
  dsimp only
  rw [if_pos h]
  simp only [List.mapM_cons, List.mapM_nil]
  rw [he]; dsimp only
  rw [if_pos hw]; rfl

theorem hbmVerdict_clean {m : Mach} {a n : Nat} (h : Clean m a n) (b : LogRec) : hbmVerdict b a n m = (0, m) := by
  unfold hbmVerdict
  rw [h.1, h.2]; rfl

theorem upsetHbm_nil (a n : Nat) (m : Mach) : upsetHbm a n [] [] m = m := rfl

theorem hbmWrite_clean {m : Mach} {a : Nat} {bs : List Byte} (h : Clean m a bs.length) : hbmWrite a bs m = writeMem a bs m := by
  unfold hbmWrite
  dsimp only
  rw [h.1, h.2]; rfl

theorem writeMem_out (a bs) (m : Mach) : (writeMem a bs m).out = m.out := by
  unfold writeMem; dsimp only
  rw [forEach_keeps Mach.out _ (fun c : Nat × Nat => poisonWord c.1) (fun _ _ _ => rfl)]
theorem writeMem_regs (a bs) (m : Mach) : (writeMem a bs m).regs = m.regs := by
  unfold writeMem; dsimp only
  rw [forEach_keeps Mach.regs _ (fun c : Nat × Nat => poisonWord c.1) (fun _ _ _ => rfl)]


theorem memKept_of_mem {m t : Mach} (h : t.mem = m.mem) : MemKept m t := by intro a; unfold rb; rw [h]

theorem emit_regs' (o : Output) (m : Mach) : (emit o m).regs = m.regs := rfl

/-! ### Register frames -/

theorem MayWrite.ok {w : Requester} {f : Fld} {k : Writers} {act : Mach → Mach} {m : Mach} (h : MayWrite m w f k) : regWrite w f k act m = act m := by
  obtain ⟨h1, h2, h3⟩ := h
  refine regWrite_ok h1 ?_ h3
  cases hs : inSaf f.addr
  · rfl
  · rw [h2 hs]; rfl

theorem RegsKept.refl (fs : List Fld) (m : Mach) : RegsKept fs m m := fun _ _ => rfl
theorem RegsKept.trans {fs : List Fld} {m n k : Mach} (h : RegsKept fs m n) (h' : RegsKept fs n k) : RegsKept fs m k :=
  fun f hf => (h' f hf).trans (h f hf)
theorem RegsKept.of_regs {fs : List Fld} {m n k : Mach} (e : k.regs = n.regs) (h : RegsKept fs m n) : RegsKept fs m k :=
  fun f hf => (rd_congr e f).trans (h f hf)
theorem RegsKept.put {fs : List Fld} {m n : Mach} (f : Fld) (v : Nat) (hf : f ∈ fs) (h : RegsKept fs m n) : RegsKept fs m (wr f v n) :=
  fun g hg => (rd_wr_other _ _ (fun e => hg (by rw [e]; exact List.mem_map_of_mem hf))).trans (h g hg)
theorem RegsKept.putb {fs : List Fld} {m n : Mach} (f : Fld) (v : Bool) (hf : f ∈ fs) (h : RegsKept fs m n) : RegsKept fs m (wrb f v n) :=
  RegsKept.put f _ hf h
theorem RegsKept.bump {fs : List Fld} {m n : Mach} (f : Fld) (hf : f ∈ fs) (h : RegsKept fs m n) : RegsKept fs m (inc f n) := RegsKept.put f _ hf h
theorem RegsKept.add {fs : List Fld} {m n : Mach} (f : Fld) (v : Nat) (hf : f ∈ fs) (h : RegsKept fs m n) : RegsKept fs m (addTo f v n) :=
  RegsKept.put f _ hf h
theorem RegsKept.when {fs : List Fld} {m n : Mach} {c : Bool} {g : Mach → Mach} (h : RegsKept fs m n) (hg : c = true → RegsKept fs n (g n)) :
    RegsKept fs m (whenB c g n) := by
  cases c
  · exact h
  · exact h.trans (hg rfl)
theorem RegsKept.each {α : Type} {fs : List Fld} {m n : Mach} (l : List α) (f : α → Mach → Mach) (h : RegsKept fs m n)
    (hf : ∀ a ∈ l, ∀ k, RegsKept fs k (f a k)) : RegsKept fs m (forEach l f n) := by
  induction l generalizing n with
  | nil => exact h
  | cons a r ih => exact ih (h.trans (hf a (List.mem_cons_self ..) n)) (fun b hb => hf b (List.mem_cons_of_mem _ hb))

/-! ### The safe state -/

theorem inSafe_congr {m n : Mach} (h : n.regs = m.regs) : inSafe n = inSafe m := by unfold inSafe; rw [rd_congr h]

/-- What has entered the safe state has done so as well where only other parts of the state differ. -/
theorem Entered.congr {c : Cause} {m t n : Mach} (h : Entered c m t) (hr : n.regs = t.regs) (hs : n.saf = t.saf) : Entered c m n := by
  obtain ⟨a, b, d, e, f⟩ := h
  exact ⟨by rw [inSafe_congr hr]; exact a, by rw [hs]; exact b, by rw [hs]; exact d, by rw [rd_congr hr]; exact e, by rw [hs]; exact f⟩

theorem entered_enterSafe (c : Cause) (m : Mach) : Entered c m (enterSafe c m) := by
  obtain ⟨a, b, d, e, f⟩ := enterSafe_safe c m
  exact ⟨a, b, d, f, e⟩

theorem entered_fatal (c : Cause) (r : LogRec) (m : Mach) : Entered c m (fatal c r m) := by
  obtain ⟨a, b, d, e, f⟩ := fatal_safe c r m
  exact ⟨a, b, d, f, e⟩

/-- Entering depends on the causes held before alone. -/
theorem Entered.from {c : Cause} {m n t : Mach} (h : Entered c n t) (hs : n.saf.causes = m.saf.causes) : Entered c m t := by
  obtain ⟨a, b, d, e, f⟩ := h
  exact ⟨a, b, d, e, by rw [← hs]; exact f⟩

theorem Logged.congr {src : Nat} {m t n : Mach} (h : Logged src m t) (hl : n.log = t.log) : Logged src m n := by
  obtain ⟨r, a, b⟩ := h
  exact ⟨r, by rw [hl]; exact a, b⟩

/-! ### MSI-X messages -/

theorem sendMsix_regs (v vec : Nat) (m : Mach) : (sendMsix v vec m).regs = m.regs := by
  unfold sendMsix; dsimp only; split
  · split <;> rfl
  · rfl
theorem sendMsix_mem (v vec : Nat) (m : Mach) : (sendMsix v vec m).mem = m.mem := by
  unfold sendMsix; dsimp only; split
  · split <;> rfl
  · rfl
theorem sendMsix_ldr (v vec : Nat) (m : Mach) : (sendMsix v vec m).ldr = m.ldr := by
  unfold sendMsix; dsimp only; split
  · split <;> rfl
  · rfl

end Sys2Proof.Machine
end

