-- ==== Sys2Proof/Laws/Sequencer.lean ====
section
/-!
SUPPORT. Laws of the sequencer: a command whose sequencer stands at its word completes with what its meaning gives, reserved bits as a mask,
and what writing a scalar register or a descriptor and going on to the next instruction leave behind.
-/

namespace Sys2Proof.Machine

/-- The masked bits of a word, as a number (R308). -/
theorem and_bitMask (w lo n : Nat) : w &&& bitMask lo n = bitsAt w lo n * 2 ^ lo := by
  unfold bitMask bitsAt
  apply Nat.eq_of_testBit_eq
  intro i
  rw [Nat.testBit_and, Nat.mul_comm (2 ^ n - 1), Nat.mul_comm _ (2 ^ lo), Nat.testBit_two_pow_mul, Nat.testBit_two_pow_mul, Nat.testBit_two_pow_sub_one]
  by_cases h : lo ≤ i
  · simp only [ge_iff_le, h, decide_true, Bool.true_and]
    rw [Nat.testBit_mod_two_pow, Nat.testBit_div_two_pow, show i - lo + lo = i by omega, Bool.and_comm]
  · simp [h]

/-- Where the sequencer stands at the word and its meaning goes through, the command completes with what the meaning gives (R304). -/
theorem seq_completes {c : Instr} {s : State} {q op w : Nat} {f : SeqTry} {n : Mach} {P : Mach → Prop} (he : exec c s = s.run (seqCmd q op w f))
    (hp : Powered s) (hat : StandsAt s.m q op w) (hf : f q w s.m = some n) (hP : P n) : Completes c s P := by
  refine completes_next hp he rfl ?_
  unfold seqCmd
  rw [show seqAt s.m q op w = true from hat]
  rw [if_neg (by simp), hf]
  exact hP

theorem guarded_eq {op mask : Nat} {f : SeqTry} {q w : Nat} {m : Mach} (h : w &&& mask = 0) : guarded op mask f q w m = f q w m := by
  unfold guarded; rw [if_neg (fun k => k h)]

theorem mask_zero {w lo n : Nat} (h : bitsAt w lo n = 0) : w &&& bitMask lo n = 0 := by rw [and_bitMask, h, Nat.zero_mul]

theorem mget_modSeq_same (q : Nat) (f : Seq → Seq) (m : Mach) : mget (modSeq q f m).seqs q = f (mget m.seqs q) := mget_mmod_same _ _ _
theorem mget_modSeq_other {q k : Nat} (f : Seq → Seq) (m : Mach) (h : k ≠ q) : mget (modSeq q f m).seqs k = mget m.seqs k := mget_mmod_other _ _ h

theorem sReg_setS (q i v j : Nat) (m : Mach) : sReg (setS q i v m) q j = if j = i ∧ i ≠ 0 then v % 2 ^ 64 else sReg m q j := by
  unfold setS
  by_cases h : i = 0
  · simp [h]
  · rw [if_neg h]
    unfold sReg
    rw [mget_modSeq_same]
    by_cases hj : j = i
    · subst hj; simp [h]
    · rw [if_neg (fun k => hj k.1)]; dsimp only; rw [getD_setD_other _ _ _ _ hj]

theorem tReg_setS (q i v j : Nat) (m : Mach) : tReg (setS q i v m) q j = tReg m q j := by
  unfold setS tReg; split
  · rfl
  · rw [mget_modSeq_same]

theorem tReg_setT (q i : Nat) (d : TDesc) (j : Nat) (m : Mach) : tReg (setT q i d m) q j = if j = i then d else tReg m q j := by
  unfold setT tReg
  rw [mget_modSeq_same]
  by_cases hj : j = i
  · subst hj; simp
  · rw [if_neg hj]; dsimp only; rw [getD_setD_other _ _ _ _ hj]

theorem sReg_setT (q i : Nat) (d : TDesc) (j : Nat) (m : Mach) : sReg (setT q i d m) q j = sReg m q j := by
  unfold setT sReg; rw [mget_modSeq_same]

theorem sReg_congr {m t : Mach} (h : t.seqs = m.seqs) (q j : Nat) : sReg t q j = sReg m q j := by unfold sReg; rw [h]
theorem tReg_congr {m t : Mach} (h : t.seqs = m.seqs) (q j : Nat) : tReg t q j = tReg m q j := by unfold tReg; rw [h]

/-- A meaning that changes the sequencer and lists fields, with the step to the next instruction behind it. -/
theorem executed_at {q pc : Nat} {fs : List Fld} {m n : Mach} (h1 : n = { m with regs := n.regs, seqs := n.seqs }) (h2 : ∀ k, k ≠ q → mget n.seqs k = mget m.seqs k)
    (h3 : RegsKept fs m n) (h4 : (Reg.TC_SEQ_CNT_INSTR q).key ∉ fs.map Fld.key) :
    Executed q pc fs m (n |> wr (Reg.TC_SEQ_PC q) pc |> inc (Reg.TC_SEQ_CNT_INSTR q)) := by
  refine ⟨?_, h2, ?_, ?_, ?_⟩
  · show ({ n with regs := _ } : Mach) = { m with regs := _, seqs := n.seqs }
    rw [h1]
    rfl
  · rw [rd_inc_other _ (by simp only [Fld.key, Reg.TC_SEQ_PC, Reg.TC_SEQ_CNT_INSTR]; omega), rd_wr_same]; rfl
  · rw [rd_inc_same, rd_wr_other _ _ (by simp only [Fld.key, Reg.TC_SEQ_PC, Reg.TC_SEQ_CNT_INSTR]; omega), h3 _ h4]; rfl
  · intro f hf
    simp only [List.map_cons, List.mem_cons, not_or] at hf
    rw [rd_inc_other _ hf.2.1, rd_wr_other _ _ hf.1, h3 f hf.2.2]

theorem setS_seqs (q i v : Nat) (m : Mach) : setS q i v m = { m with regs := m.regs, seqs := (setS q i v m).seqs } := by
  unfold setS; split <;> rfl
theorem setS_regs (q i v : Nat) (m : Mach) : (setS q i v m).regs = m.regs := by unfold setS; split <;> rfl
theorem seqPc_setS (q i v k : Nat) (m : Mach) : seqPc (setS q i v m) k = seqPc m k := by unfold seqPc rd; rw [setS_regs]
theorem setS_other (q i v : Nat) (m : Mach) (k : Nat) (h : k ≠ q) : mget (setS q i v m).seqs k = mget m.seqs k := by
  unfold setS; split
  · rfl
  · exact mget_modSeq_other _ _ h
theorem regsKept_of_eq {m t : Mach} (fs) (h : t.regs = m.regs) : RegsKept fs m t := by intro f _; unfold rd; rw [h]

/-- A scalar register is written and the sequencer goes on to the next instruction (R308). -/
theorem setS_next (q i v : Nat) (m : Mach) : Executed q (seqPc m q + 8) [] m (setS q i v m |> seqNext q) ∧ SetsS q i v m (setS q i v m |> seqNext q) := by
  constructor
  · have := executed_at (pc := seqPc m q + 8) (fs := []) (n := setS q i v m) (by rw [setS_regs]; exact setS_seqs q i v m) (setS_other q i v m) (regsKept_of_eq _ (setS_regs q i v m)) (by simp)
    unfold seqNext
    rw [seqPc_setS]; exact this
  · constructor
    · intro j; rw [← sReg_setS q i v j m]; exact sReg_congr rfl _ _
    · intro j; rw [← tReg_setS q i v j m]; exact tReg_congr rfl _ _

end Sys2Proof.Machine
end

