-- ==== Sys2Proof/Tests/Slice0.lean ====
section
/-!
SUPPORT. Tests: ill-formed commands are refused, and states that meet the hypotheses of the statements.
-/

namespace Sys2Proof.Tests
open Sys2Proof Sys2Proof.Machine

set_option Elab.async false

/-! ### WellFormed -/

theorem test_wf_requester_vf : (Instr.loadFull (.vf 64)).wf = false ∧ (Instr.loadFull (.vf 0)).wf = false ∧ (Instr.loadFull (.vf 63)).wf = true := by decide
theorem test_wf_requester_others : (Instr.heartbeatWrite (.hc 16) 0).wf = false ∧ (Instr.heartbeatWrite (.seqfw 8) 0).wf = false ∧
    (Instr.hbmRead (.sash 4) 0 1 [] []).wf = false ∧ (Instr.hbmRead (.dma 7) 0 1 [] []).wf = true := by decide
theorem test_wf_aligned : (Instr.registerWrite .pf false 2 0).wf = false ∧ (Instr.rcRegisterRead .pf false 1).wf = false ∧ (Instr.pairLoRead .pf 6).wf = false ∧
    (Instr.registerWrite .pf false 4 0).wf = true := by decide
theorem test_wf_misaligned : (Instr.registerAccessMisaligned .pf 8 4 false).wf = false ∧ (Instr.registerAccessMisaligned .pf 6 4 false).wf = true := by decide
theorem test_wf_space : (Instr.unpopulatedAccess .pf 2 0 false).wf = false := by decide
theorem test_wf_bar2 : (Instr.bar2Read 0 0 0).wf = false ∧ (Instr.bar2Read 0 0 4097).wf = false ∧ (Instr.bar2Write 0 0 []).wf = false ∧ (Instr.bar2Read 0 0 4096).wf = true := by decide
theorem test_wf_datatype : (Instr.csi2ShortPacket 0 0 64 0).wf = false ∧ (Instr.csi2ShortPacket 0 0 63 0).wf = true := by decide
theorem test_wf_page_frame : (Instr.sashFramePageData 0 0 0 0 []).wf = false := by decide
theorem test_wf_queue : (Instr.submitDoorbell .pf 16384 0).wf = false ∧ (Instr.recordPlace 16384 0).wf = false ∧ (Instr.recordPlace 16383 0).wf = true := by decide
theorem test_wf_descriptor : (Instr.descriptorFetch 0 [0]).wf = false ∧ (Instr.descriptorFetch 0 []).wf = true ∧ (Instr.descriptorFetch 16384 []).wf = false := by decide

/-! ### States -/

/-- A part out of reset with its PCIe link up, changed by `f`. -/
def on (f : Mach → Mach) : State := { m := f { powered := true, pe := true, endpoint := true } }

/-- Register fields at values. -/
def sets (l : List (Fld × Nat)) (m : Mach) : Mach := l.foldl (fun m x => wr x.1 x.2 m) m

/-- Bytes that are zero but for little-endian fields: offset, size and value of each. -/
def blob (n : Nat) (l : List (Nat × Nat × Nat)) : List Byte :=
  l.foldl (fun b x => b.take x.1 ++ leBytes x.2.1 x.2.2 ++ b.drop (x.1 + x.2.1)) (zeros n)

/-- One more applied section. -/
def hasSec (t i : Nat) (bs : List Byte) (m : Mach) : Mach :=
  { m with ldr := { m.ldr with sections := m.ldr.sections ++ [{ type := t, instnc := i, bytes := bs }] } }

/-- The state behind one step. -/
def after (s : State) : State :=
  match step s with
  | .next t => t
  | _ => s

/-- The row of the register table that an address names. -/
def rowOf (a : Nat) : RegRow :=
  match regFind {} a with
  | some (r, _) => r
  | none => ⟨0, [], false, .any, .power, []⟩

/-- One routine of 64 bytes of code, class latency-critical, in PART[0]. -/
def oneRoutine : Mach → Mach := hasSec 7 0 (blob 192 [(0, 2, 1), (76, 4, 64)])

/-- Sequencer `q` runs a routine whose first instruction is the one of opcode `op` and low bits `w`. -/
def runs (q op w : Nat) (x : Seq) (m : Mach) : Mach :=
  sets [(Reg.TC_SEQ_STATUS_STATE q, 1)] { m with
    seqs := mset m.seqs q { x with run := some (x.run.getD { code := 64, const := 256 }) }
    imem := ((leBytes 8 (op * 2 ^ 56 + w)).zipIdx.map (fun c => (q * 2 ^ 20 + c.2, c.1))).filter (fun c => c.2 != 0) }

/-- A stream table with stream 0 alone: camera or range, its flags, and its routine's partition PART[0]. -/
def oneStream (range flags : Nat) : Mach → Mach := hasSec 4 0 (blob 80 [(0, 2, 1), (18, 1, range), (22, 1, flags)])

/-- A scratch matrix of `n` rows of `k` elements, one behind the other in steps of 64 bytes. -/
def mat (fmt base k n : Nat) : TDesc := BitVec.ofNat 512 (leNat (blob 64 [(0, 1, 1), (1, 1, fmt), (4, 4, base), (8, 4, k), (0xC, 2, n), (0xE, 2, 1), (0x10, 2, 1), (0x14, 4, 64)]))

/-- A vector of bytes in scratch. -/
def vec (base n : Nat) : TDesc := BitVec.ofNat 512 (leNat (blob 64 [(0, 1, 4), (4, 4, base), (8, 4, n)]))

/-- An array instruction on the Partner engine: one output of one product. -/
def oneMma : EngOp := { opcode := 0x40, descs := [mat 6 0 1 1, mat 6 4096 1 1, mat 6 8192 1 1], vals := [1] }

/-- PART[0] with a copy of one row of eight bytes in flight, of which the first is 7. -/
def oneCopy : State := on (fun m => { m with
  mem := [(psaAddr {} 0 0, 7)], engines := [(4, { flight := [{ opcode := 0x60, descs := [mat 0 0 8 1, mat 0 4096 8 1] }] })] })

/-- PART[0] with a handle of one reference, and KVREF.INC of it in flight. -/
def oneHandle : State := on (fun m => hasSec 6 0 (blob 64 [(0x10, 4, 1)]) { m with
  mem := [(64, 1), (70, 1)], kvs := [(0, { op := .instr })], engines := [(5, { flight := [{ opcode := 0x6A, vals := [1] }] })] })

/-- A stream table with stream 0 and one classifier entry for it; `l` gives fields of the section. -/
def stream0 (l : List (Nat × Nat × Nat)) : Mach → Mach := hasSec 4 0 (blob 144 ((0, 2, 1) :: (2, 2, 1) :: l))

/-- A frame of 64 bytes with a datagram of 18 bytes to port 6000. -/
def oneFrame : List Byte := leBytes 64 0xf3d685551211100f0e0d0c0b0a09080706050403020100001a00701788130200000a0100000abd661140000000002e0000450008010000000002000000000000

/-- An ISP section with one entry, for stream 0, and one slot; `l` gives fields of the section. -/
def isp0 (l : List (Nat × Nat × Nat)) : Mach → Mach := hasSec 5 0 (blob 144 ((1, 1, 1) :: (2, 2, 1) :: (4, 2, 1) :: l))

/-- Bytes of memory from an address on. -/
def holds (a : Nat) (bs : List Byte) (m : Mach) : Mach := { m with mem := (bs.zipIdx.map (fun c => (a + c.2, c.1))).filter (fun c => c.2 != 0) }

/-- Stream 0 with an ISP entry of one plane of 8 × 4 and parameters that R210 allows. -/
def goodIsp (m : Mach) : Mach :=
  isp0 [(67, 1, 1), (70, 2, 8), (72, 2, 4), (74, 1, 2), (96, 4, 8192), (100, 4, 4096)] (stream0 [(21, 1, 0x2A), (24, 2, 8), (26, 2, 4)]
    (sets [(Reg.ISP_STR_PARAM 0 0, 0x01010000), (Reg.ISP_STR_PARAM 0 24, 0x01000100), (Reg.ISP_STR_PARAM 0 67, 0x00040008)] m))

theorem crc_zeros : crc32c (zeros 124) = 0xd71bd364 := by
  have h1 : (zeros 31).foldl (crcByte 0x82F63B78) 0xFFFFFFFF = 0xe12c83b4 := by decide +kernel
  have h2 : (zeros 31).foldl (crcByte 0x82F63B78) 0xe12c83b4 = 0x68834cce := by decide +kernel
  have h3 : (zeros 31).foldl (crcByte 0x82F63B78) 0x68834cce = 0xc48773d2 := by decide +kernel
  have h4 : (zeros 31).foldl (crcByte 0x82F63B78) 0xc48773d2 = 0x28e42c9b := by decide +kernel
  rw [show zeros 124 = zeros 31 ++ (zeros 31 ++ (zeros 31 ++ zeros 31)) by decide +kernel]
  simp only [crc32c, crc32r, List.foldl_append, h1, h2, h3, h4]
  decide

/-- A raw slot of stream 0, a frame of one line of eight samples, its job at its end on pipe 0. -/
def oneJob : State := on (fun m => stream0 [(21, 1, 0x2A), (24, 2, 8), (26, 2, 1)]
  (holds 0x7C (leBytes 4 0xd71bd364 ++ leBytes 4 0x8c28b28a) (sets [(Reg.TIME_NOW, 7)] { m with
    pipes := [(0, { job := some { tag := 3, start := 5, dur := 2 } })], items := [(3, {})], isps := [(0, { vers := [{ param := [0, 0, 1] }] })] })))

theorem oneJob_rawOk : rawBad oneJob.m (streamEntry oneJob.m 0) 0 [0] = false := by
  have h : (readMem oneJob.m 0 128).take 124 = zeros 124 := by decide +kernel
  simp only [rawBad, h, crc_zeros]
  decide +kernel

/-- A part out of the safe state, changed by `f`. -/
def noSafe (f : Mach → Mach) : State := on (fun m => f (sets [(Reg.SAF_STATUS_STATE, 1)] { m with saf := { latchA := false, latchB := false } }))

/-- A HOST section with ring 0 of the PF, which completes on ring 1, and one region that the PF reads and writes; the PF is bus master. -/
def host0 (m : Mach) : Mach :=
  hasSec 0xD 0 (blob 128 [(2, 2, 1), (4, 2, 1), (66, 1, 1), (70, 2, 1), (104, 8, 65536), (112, 1, 1), (113, 1, 3)])
    (sets [(Reg.HOST_Q_CFG_OWNER 0, 1)] { m with funcs := [(0, { busMaster := true })] })

/-- Ring 0 has fetched descriptor `d`; `l` gives registers. -/
def fetched0 (d : Desc) (l : List (Fld × Nat)) : State := on (fun m => host0 (sets l { m with rings := [(0, { fetched := [d] })] }))

/-- PART[0] with one best-effort routine and MODE FULL in its schedule block. -/
def fullRoutine (m : Mach) : Mach :=
  hasSec 6 0 (blob 64 [(0, 1, 1)]) (hasSec 7 0 (blob 1280 [(0, 2, 1), (70, 1, 1), (76, 4, 64), (80, 4, 1088), (192, 1, 2)]) m)

/-! ### SHA-384 on natural numbers, for the kernel -/

/-- The constants of SHA-384 and its initial value, as numbers. -/
def kLits : List Nat :=
  [0x428a2f98d728ae22, 0x7137449123ef65cd, 0xb5c0fbcfec4d3b2f, 0xe9b5dba58189dbbc, 0x3956c25bf348b538, 0x59f111f1b605d019,
   0x923f82a4af194f9b, 0xab1c5ed5da6d8118, 0xd807aa98a3030242, 0x12835b0145706fbe, 0x243185be4ee4b28c, 0x550c7dc3d5ffb4e2,
   0x72be5d74f27b896f, 0x80deb1fe3b1696b1, 0x9bdc06a725c71235, 0xc19bf174cf692694, 0xe49b69c19ef14ad2, 0xefbe4786384f25e3, 0xfc19dc68b8cd5b5,
   0x240ca1cc77ac9c65, 0x2de92c6f592b0275, 0x4a7484aa6ea6e483, 0x5cb0a9dcbd41fbd4, 0x76f988da831153b5, 0x983e5152ee66dfab,
   0xa831c66d2db43210, 0xb00327c898fb213f, 0xbf597fc7beef0ee4, 0xc6e00bf33da88fc2, 0xd5a79147930aa725, 0x6ca6351e003826f, 0x142929670a0e6e70,
   0x27b70a8546d22ffc, 0x2e1b21385c26c926, 0x4d2c6dfc5ac42aed, 0x53380d139d95b3df, 0x650a73548baf63de, 0x766a0abb3c77b2a8,
   0x81c2c92e47edaee6, 0x92722c851482353b, 0xa2bfe8a14cf10364, 0xa81a664bbc423001, 0xc24b8b70d0f89791, 0xc76c51a30654be30,
   0xd192e819d6ef5218, 0xd69906245565a910, 0xf40e35855771202a, 0x106aa07032bbd1b8, 0x19a4c116b8d2d0c8, 0x1e376c085141ab53,
   0x2748774cdf8eeb99, 0x34b0bcb5e19b48a8, 0x391c0cb3c5c95a63, 0x4ed8aa4ae3418acb, 0x5b9cca4f7763e373, 0x682e6ff3d6b2b8a3,
   0x748f82ee5defb2fc, 0x78a5636f43172f60, 0x84c87814a1f0ab72, 0x8cc702081a6439ec, 0x90befffa23631e28, 0xa4506cebde82bde9,
   0xbef9a3f7b2c67915, 0xc67178f2e372532b, 0xca273eceea26619c, 0xd186b8c721c0c207, 0xeada7dd6cde0eb1e, 0xf57d4f7fee6ed178, 0x6f067aa72176fba,
   0xa637dc5a2c898a6, 0x113f9804bef90dae, 0x1b710b35131c471b, 0x28db77f523047d84, 0x32caab7b40c72493, 0x3c9ebe0a15c9bebc, 0x431d67c49c100d4c,
   0x4cc5d4becb3e42b6, 0x597f299cfc657e2a, 0x5fcb6fab3ad6faec, 0x6c44198c4a475817]

def iLits : List Nat :=
  [0xcbbb9d5dc1059ed8, 0x629a292a367cd507, 0x9159015a3070dd17, 0x152fecd8f70e5939, 0x67332667ffc00b31, 0x8eb44a8768581511,
   0xdb0c2e0d64f98fa7, 0x47b5481dbefa4fa4]

/-- A rotation of 64 bits to the right, on numbers. -/
def ror (n x : Nat) : Nat := Nat.lor (Nat.shiftRight x n) (Nat.shiftLeft x (64 - n) % 18446744073709551616)

/-- `shaNext` on numbers. -/
def nNext (w : List Nat) : List Nat :=
  let s0 (x : Nat) := Nat.xor (Nat.xor (ror 1 x) (ror 8 x)) (Nat.shiftRight x 7)
  let s1 (x : Nat) := Nat.xor (Nat.xor (ror 19 x) (ror 61 x)) (Nat.shiftRight x 6)
  Nat.mod (Nat.add (Nat.add (Nat.add (s1 (w.getD 1 0)) (w.getD 6 0)) (s0 (w.getD 14 0))) (w.getD 15 0)) 18446744073709551616 :: w

/-- The eight working variables. -/
structure W8 where
  (a b c d e f g h : Nat)

/-- `shaRound` on numbers. -/
def nRound (s : W8) (kw : Nat × Nat) : W8 :=
  let t1 := Nat.add (Nat.add (Nat.add (Nat.add s.h (Nat.xor (Nat.xor (ror 14 s.e) (ror 18 s.e)) (ror 41 s.e)))
    (Nat.xor (Nat.land s.e s.f) (Nat.land (Nat.xor s.e 18446744073709551615) s.g))) kw.1) kw.2
  let t2 := Nat.add (Nat.xor (Nat.xor (ror 28 s.a) (ror 34 s.a)) (ror 39 s.a)) (Nat.xor (Nat.xor (Nat.land s.a s.b) (Nat.land s.a s.c)) (Nat.land s.b s.c))
  ⟨Nat.mod (Nat.add t1 t2) 18446744073709551616, s.a, s.b, s.c, Nat.mod (Nat.add s.d t1) 18446744073709551616, s.e, s.f, s.g⟩

/-- `shaBlock` on numbers. -/
def nBlock (h : List Nat) (blk : List Byte) : List Nat :=
  let w0 := ((List.range 16).map (fun i => beNat (slice blk (8 * i) 8))).reverse
  let w := ((List.range 64).foldl (fun w _ => nNext w) w0).reverse
  match h with
  | [a, b, c, d, e, f, g, i] =>
    let r := (kLits.zip w).foldl nRound ⟨a, b, c, d, e, f, g, i⟩
    List.zipWith (fun x y => (x + y) % 18446744073709551616) h [r.a, r.b, r.c, r.d, r.e, r.f, r.g, r.h]
  | h => h

/-- `shaBlocks` on numbers. -/
def nBlocks : Nat → List Nat → List Byte → List Nat
  | 0, h, _ => h
  | n + 1, h, bs => nBlocks n (nBlock h (bs.take 128)) (bs.drop 128)

/-- `sha384` with numbers in place of 64-bit words: the kernel evaluates it faster. -/
def nSha (bs : List Byte) : Nat :=
  let n := bs.length
  let fill := (239 - n % 128) % 128
  let msg := bs ++ (0x80 :: zeros fill) ++ beBytes 16 (8 * n)
  ((nBlocks (msg.length / 128) iLits msg).take 6).foldl (fun a w => a * 2 ^ 64 + w) 0

theorem ror_eq (n : Nat) (x : BitVec 64) (h : n < 64) : (x.rotateRight n).toNat = ror n x.toNat := by
  rw [BitVec.toNat_rotateRight, Nat.mod_eq_of_lt h]; rfl

theorem getD_map (w : List (BitVec 64)) (i : Nat) : (w.map BitVec.toNat).getD i 0 = (w.getD i 0).toNat := by
  simp [List.getD_eq_getElem?_getD, List.getElem?_map]; cases w[i]? <;> rfl

theorem nNext_eq (w : List (BitVec 64)) : nNext (w.map BitVec.toNat) = (shaNext w).map BitVec.toNat := by
  simp only [nNext, shaNext, getD_map, List.map_cons, BitVec.toNat_add, BitVec.toNat_xor, BitVec.toNat_ushiftRight, ror_eq _ _ (show 1 < 64 by decide),
    ror_eq _ _ (show 8 < 64 by decide), ror_eq _ _ (show 19 < 64 by decide), ror_eq _ _ (show 61 < 64 by decide)]
  simp only [Nat.mod_add_mod]; rfl

def W8.of (a b c d e f g h : BitVec 64) : W8 := ⟨a.toNat, b.toNat, c.toNat, d.toNat, e.toNat, f.toNat, g.toNat, h.toNat⟩

theorem not_eq (x : BitVec 64) : (~~~x).toNat = Nat.xor x.toNat 18446744073709551615 := by
  rw [← BitVec.xor_allOnes, BitVec.toNat_xor]; rfl

theorem nRound_eq (a b c d e f g h k w : BitVec 64) :
    ∃ a' e', shaRound [a, b, c, d, e, f, g, h] (k, w) = [a', a, b, c, e', e, f, g] ∧
      nRound (W8.of a b c d e f g h) (k.toNat, w.toNat) = W8.of a' a b c e' e f g := by
  refine ⟨_, _, rfl, ?_⟩
  simp only [nRound, W8.of, BitVec.toNat_add, BitVec.toNat_xor, BitVec.toNat_and, not_eq, ror_eq _ _ (show 14 < 64 by decide),
    ror_eq _ _ (show 18 < 64 by decide), ror_eq _ _ (show 41 < 64 by decide), ror_eq _ _ (show 28 < 64 by decide), ror_eq _ _ (show 34 < 64 by decide),
    ror_eq _ _ (show 39 < 64 by decide)]
  simp only [Nat.mod_add_mod, Nat.add_mod_mod]; rfl

theorem nRounds_eq (l : List (BitVec 64 × BitVec 64)) (a b c d e f g h : BitVec 64) :
    ∃ a' b' c' d' e' f' g' h', l.foldl shaRound [a, b, c, d, e, f, g, h] = [a', b', c', d', e', f', g', h'] ∧
      (l.map (fun x => (x.1.toNat, x.2.toNat))).foldl nRound (W8.of a b c d e f g h) = W8.of a' b' c' d' e' f' g' h' := by
  induction l generalizing a b c d e f g h with
  | nil => exact ⟨a, b, c, d, e, f, g, h, rfl, rfl⟩
  | cons x l ih =>
    obtain ⟨a', e', h1, h2⟩ := nRound_eq a b c d e f g h x.1 x.2
    simp only [List.foldl_cons, List.map_cons, h2]
    rw [show shaRound [a, b, c, d, e, f, g, h] x = _ from h1]
    exact ih ..

theorem folds (l : List Nat) (w : List (BitVec 64)) :
    l.foldl (fun w _ => nNext w) (w.map BitVec.toNat) = (l.foldl (fun w _ => shaNext w) w).map BitVec.toNat := by
  induction l generalizing w with
  | nil => rfl
  | cons x l ih => simp only [List.foldl_cons, nNext_eq, ih]

theorem kLits_eq : kLits = shaK.map BitVec.toNat := by decide +kernel

theorem word_lt (b : List Byte) (h : b.length = 8) : beNat b < 2 ^ 64 := by
  obtain ⟨x0, x1, x2, x3, x4, x5, x6, x7, rfl⟩ : ∃ x0 x1 x2 x3 x4 x5 x6 x7, b = [x0, x1, x2, x3, x4, x5, x6, x7] := by
    match b, h with
    | [x0, x1, x2, x3, x4, x5, x6, x7], _ => exact ⟨_, _, _, _, _, _, _, _, rfl⟩
  simp [beNat, leNat]; omega

theorem slice_length (b : List Byte) (o n : Nat) : (slice b o n).length = n := by
  simp only [slice, List.length_append, zeros, List.length_replicate, List.length_take]; omega

theorem nBlock_eq (a b c d e f g i : BitVec 64) (blk : List Byte) :
    ∃ a' b' c' d' e' f' g' i', shaBlock [a, b, c, d, e, f, g, i] blk = [a', b', c', d', e', f', g', i'] ∧
      nBlock ([a, b, c, d, e, f, g, i].map BitVec.toNat) blk = [a', b', c', d', e', f', g', i'].map BitVec.toNat := by
  have hw : (List.range 16).map (fun i => beNat (slice blk (8 * i) 8)) = ((List.range 16).map (fun i => BitVec.ofNat 64 (beNat (slice blk (8 * i) 8)))).map BitVec.toNat := by
    rw [List.map_map]
    exact List.map_congr_left fun i _ => (Nat.mod_eq_of_lt (word_lt _ (slice_length _ _ _))).symm
  have hz (w : List (BitVec 64)) : kLits.zip (w.map BitVec.toNat) = (shaK.zip w).map (fun x => (x.1.toNat, x.2.toNat)) := by
    rw [kLits_eq, List.zip_map]; rfl
  simp only [shaBlock, nBlock, hw, ← List.map_reverse, folds, hz]
  obtain ⟨a', b', c', d', e', f', g', i', h1, h2⟩ := nRounds_eq (shaK.zip (List.foldl (fun w x => shaNext w)
    (List.map (fun i => BitVec.ofNat 64 (beNat (slice blk (8 * i) 8))) (List.range 16).reverse) (List.range 64)).reverse) a b c d e f g i
  simp only [h1]
  refine ⟨_, _, _, _, _, _, _, _, rfl, ?_⟩
  simp only [List.map_cons, List.map_nil]
  rw [show (⟨a.toNat, b.toNat, c.toNat, d.toNat, e.toNat, f.toNat, g.toNat, i.toNat⟩ : W8) = W8.of a b c d e f g i from rfl, h2]
  simp only [W8.of, List.zipWith_cons_cons, List.zipWith_nil_left, BitVec.toNat_add]

theorem nBlocks_eq (n : Nat) (a b c d e f g i : BitVec 64) (bs : List Byte) :
    nBlocks n ([a, b, c, d, e, f, g, i].map BitVec.toNat) bs = (shaBlocks n [a, b, c, d, e, f, g, i] bs).map BitVec.toNat := by
  induction n generalizing a b c d e f g i bs with
  | zero => rfl
  | succ n ih =>
    obtain ⟨a', b', c', d', e', f', g', i', h1, h2⟩ := nBlock_eq a b c d e f g i (bs.take 128)
    simp only [nBlocks, shaBlocks, h1, h2, ih]

theorem sha_eq (bs : List Byte) : sha384 bs = nSha bs := by
  have h : iLits = shaInit.map BitVec.toNat ∧ shaInit.length = 8 := by decide +kernel
  have h' (n : Nat) (b : List Byte) : nBlocks n iLits b = (shaBlocks n shaInit b).map BitVec.toNat := by
    rw [h.1]
    match shaInit, h.2 with
    | [_, _, _, _, _, _, _, _], _ => exact nBlocks_eq ..
  simp only [sha384, nSha, h', ← List.map_take, List.foldl_map]

/-! ### Containers -/

/-- Bytes `at0` to `n - 1` of a record that is zero but for little-endian fields, which stand in the order of their offsets. -/
def flat (n : Nat) : Nat → List (Nat × Nat × Nat) → List Byte
  | at0, [] => zeros (n - at0)
  | at0, x :: r => zeros (x.1 - at0) ++ (leBytes x.2.1 x.2.2 ++ flat n (x.1 + x.2.1) r)

/-- The sections of a container from directory entry `at0` on, at offset `off`. -/
def entries (off : Nat) : List (Nat × Nat × List Byte) → List Nat → List Byte
  | x :: r, d :: ds => leBytes 2 x.1 ++ (leBytes 2 x.2.1 ++ (zeros 4 ++ (leBytes 4 off ++ (leBytes 4 x.2.2.length ++ (beBytes 48 d ++
      entries (off + roundUp x.2.2.length 64) r ds)))))
  | _, _ => []

/-- Sections, each filled up to a multiple of 64 bytes, before `tl`. -/
def bodies (tl : List Byte) : List (Nat × Nat × List Byte) → List Byte
  | x :: r => x.2.2 ++ (zeros (roundUp x.2.2.length 64 - x.2.2.length) ++ bodies tl r)
  | [] => tl

/-- A container of kind `kind` with key slot 1: its sections with their digests `d`, `pad` zero bytes, its key `q`, and r = s = `z`. -/
def boxed (kind id base seq n pad : Nat) (l : List (Nat × Nat × List Byte)) (d : List Nat) (q : Nat × Nat) (z : Nat) : List Byte :=
  flat 256 0 [(0, 4, 0x50384B46), (4, 2, 1), (6, 2, 0x100), (8, 4, n), (0xC, 2, 0x0F08), (0xE, 1, 1), (0x10, 1, 1), (0x11, 1, 0x82),
    (0x12, 1, kind), (0x13, 1, 1), (0x1C, 4, l.length), (0x20, 8, id), (0x28, 8, base), (0x30, 4, seq), (0x34, 4, 0x100)] ++
  (entries (256 + 64 * l.length) l d ++ bodies (zeros pad ++ ([1] ++ (zeros 7 ++ ([4] ++ (beBytes 48 q.1 ++ (beBytes 48 q.2 ++
    (zeros 7 ++ (beBytes 48 z ++ (beBytes 48 z ++ zeros 48))))))))) l)

/-- The sections of a base pattern that uses no port, no partition and no Partner: DEVICE, TIME, eight PARTITION, SEQFW, ISLANDFW,
HOST, POWER and SAFETY. -/
def baseSecs : List (Nat × Nat × List Byte) :=
  [(1, 0, flat 64 0 [(4, 4, 0x9c4), (8, 4, 200), (12, 4, 0x9c4)]), (2, 0, flat 32 0 [(0, 1, 255), (4, 4, 0x2710), (16, 4, 100)])] ++
  (List.range 8).map (fun p => (6, p, zeros 32)) ++
  [(8, 0, flat 72 0 [(0, 4, 0x54524b46), (4, 1, 1), (5, 1, 130), (8, 4, 1), (12, 4, 8)]), (9, 0, flat 68 0 [(0, 4, 0x46494b46), (4, 4, 4)]),
    (0xD, 0, flat 1120 0 [(2, 2, 1), (6, 2, 0xffff), (8, 2, 0xffff), (10, 2, 0xffff), (66, 1, 1), (67, 1, 1), (68, 1, 255), (70, 2, 0xffff)]),
    (0xF, 0, flat 64 0 [(0, 2, 75), (2, 1, 1), (4, 2, 10), (6, 1, 80), (7, 1, 80)]), (0x11, 0, flat 128 0 [(4, 1, 1), (6, 1, 1)])]

/-- Digests of sections of zeros but for a few fields, as SHA-384 gives them. -/
def baseDigests : List Nat :=
  [0xc1a68774de7389bc6a7cab799c357baed86405cf8930c36eaf4688057e5cbedb0c3b0213737e34cb968f2c3670b02b05,
    0xec9733637e963fc78856ebdeac33d4816c6ea54d2d038cd9868a20d55e7165dd28d0a7574d32d8a8489859470f48f463,
    0xa38fff4ba26c15e4ac9cde8c03103ac89080fd47545fde9446c8f192729eab7bd03a4d5c3187f75fe2a71b0ee50a4a40] ++
  List.replicate 7 0xa38fff4ba26c15e4ac9cde8c03103ac89080fd47545fde9446c8f192729eab7bd03a4d5c3187f75fe2a71b0ee50a4a40 ++
  [0x59a1f16cdf0fa8701b663300f6b7b92c07aaac8530038831da94d12c078920e63ceb72ee2c54f5ff630c459fee389ba4,
    0x1020f080b3d882e6cafa434e200a911d46c9aead69ebdb96ca33bf31e352769e8cdb2d60b4773e68fcbc1f27dd94f390,
    0xa8203d9054953c75ef28d2f9eb8d52fbdf263d90481b8fd8dd164d5b047e54f42538a80db860370d036ff0a0a8d22cc3,
    0xe24fa5ebd7c75545292faa4e423e98e1ad5d3d4bdb536fa8781d88592b9da7e38406dc72c15adcc9281b9ea29fac5db2,
    0x15f4c8557c4275d5fdbe5ed9c3f3eb73dec0b55618b7b3eef4ae7679fac6f50a8eb52a19c68ffeb1587c0b3cc492c490]

/-- A signed base pattern of 3,712 bytes. -/
def goodBase : List Byte := boxed 1 1 0 0 3712 0 baseSecs baseDigests
  (0xe882068426146d0bb33a6e211ec7bfbfdf26dff17fde70ba1287b27a8122b3cb02720cdb4d61dd96937020ab7967aac2,
   0x43132b76932fbcf0abe6d650073228deb408aaa25f3968fee26729f0a5a6ef37c6f38aa0c0fb2816714292079877a6bb)
  0x8eb411165732af8a136f38b1351f32a0bc48422c0b8f400c4e65ae345f31d4e7248d5cc1d177a6a86fedbdd5ee544260

/-- The hash of its key. -/
def goodBaseKey : Nat := 0x45156fe93a592918ee11b28446f9b7d9c59e7e99b596c8e77f09f65c3c97c8d4de991f03401f0a336dfb94638a398221

/-- A signed alteration of it: the priority of PART[0] becomes 1. -/
def goodAlter : List Byte := boxed 2 2 1 1 1024 384 [(0xF, 0, flat 64 0 [(0, 2, 75), (2, 1, 1), (4, 2, 10), (6, 1, 80), (7, 1, 80), (32, 1, 1)])]
  [0x198ea3262da14afb508995b7c4ece7629070e452d5b1652d7093d1de12758b3101f9d1dc0aed64bdfce28eea30a69c53]
  (0xb91c9304d8d77217939be195b4638fed52eca5c22e4d035da6e5056af57b5bdbdb98c3a39a3476541d09929517b5a1ab,
   0xc055b1bc8de8b1d85e028ca50a64c671a49de2bcd762ee83e29f0b2d022411217bdcc84e3967611b85dbdae154741551)
  0xcabd9de4f6d8de887f2367515e59e9315def18511a9c370e094124d6dd1203881754381015ce7126c7acc610414d2194

def goodAlterKey : Nat := 0xb3b8ea8c2133f0ebb35b2735fe0c0c7e5e4cb6e64959a6e19fc14371b9a79845dbe5e8f85492c703125c510b725ee006

/-- A signed fuse request: revoke key slot 2. -/
def goodFuse : List Byte := boxed 3 2 0 0 1024 384 [(0x14, 0, flat 16 0 [(8, 1, 3), (9, 1, 2)])]
  [0xe3747aac5ad15c56947197b21d8d9db0e2567741785ca26a863b67f1519e70adfb29a4bb9669926092cf4b86a2258512]
  (0x8c96256c8436744aac6c24b3a850f367fe9c3ed678f23fbdc87d08f13b40efadf43f5d66fe6423c9269c565b61a28d55,
   0x53fc33f841b93cab8dc3529012a10bacae808ac9bcdd037dd655124293a7809cb089642ba867a59f86260124f31ab18e)
  0x64fa01b91ae39a2be56f88ade17486d82f5165e97c60c8a2debd784433d3c2b171cc3932d199ea73b4ed0c979396f6b1

def goodFuseKey : Nat := 0x44163e6217b399347d9f69d040cd23776371a437a6c3f701cdea1435da75979d73b15dec726b314589b42cd26e5a8ec4

/-- A debugger's key for challenge 8, with the hash of the key and r = s. -/
def debugKey : List Byte := [4] ++ beBytes 48 0x17f99329e7751d1b78ad797450e81a4fbbdeb023336b924d44a6151fbe04ef1cec5a475ea70e54ab988d9e492e251f87 ++
  beBytes 48 0x37f8bcce356563e3a1b7a08f757d0df3f752fd1657663edf5db62ef54f326b953d0c7d9812771d93f7986bf15c3fb904
def debugHash : Nat := 0x76d04dd5c041adcdac5895ab891bf29f4c2c0a9a2bc36e6035c23717a89bf87779ada02107ece1515ce0074077a9e3e
def debugSig : Nat := 0xaaeabeac44f08f689acbb9056efd076a83360ffc5dbda12d4a16c0d5869b3844a6302e80a00665a4fba666ef2390af00

/-- A part whose mailbox has read a container of `n` bytes for command `cmd`. -/
def mailed (cmd n : Nat) (f : Mach → Mach) (hash : Nat) : State :=
  let s := on (fun m => f (sets [(Reg.PAT_MBX_STATUS_STATE, 1), (Reg.PAT_ID_CONTRACT, 1)]
    { m with funcs := [(0, { busMaster := true })], ldr := { m.ldr with cmd := cmd, cmdLen := n } }))
  { s with fuses := { keyHash := [(1, hash)] } }

/-! ### Containers that pass -/

theorem both_none {α : Type} {a b : Option α} (ha : a = none) (hb : b = none) : (a <|> b) = none := by subst ha hb; rfl

def hostHead : List Byte := flat 96 0 [(2, 2, 1), (6, 2, 0xffff), (8, 2, 0xffff), (10, 2, 0xffff), (66, 1, 1), (67, 1, 1), (68, 1, 255), (70, 2, 0xffff)]

/-- Records of one zero byte each behind `p`. -/
theorem zero_recs (p : List Byte) (n : Nat) (f : Nat → List Byte → Option Nat) (h : ∀ i, f i [0] = none) : eachRec (p ++ zeros n) p.length 1 n f = none := by
  simp only [eachRec, List.findSome?_eq_none_iff, List.mem_range, Option.map_eq_none_iff]
  intro i hi
  have : slice (p ++ zeros n) (p.length + 1 * i) 1 = [0] := by
    obtain ⟨k, hk⟩ : ∃ k, n - i = k + 1 := ⟨n - i - 1, by omega⟩
    simp only [slice, Nat.one_mul, List.drop_length_add_append, zeros, List.drop_replicate, hk, List.replicate_succ, List.take_succ_cons, List.take_zero]
    rfl
  rw [this, h]

theorem host_form (m : Mach) : formHost m (hostHead ++ zeros 1024) = none := by
  have h0 : le (hostHead ++ zeros 1024) 0 1 = 0 ∧ le (hostHead ++ zeros 1024) 2 2 = 1 ∧ le (hostHead ++ zeros 1024) 4 2 = 0 := by decide +kernel
  simp only [formHost, h0.1, h0.2.1, h0.2.2]
  refine both_none ?_ (both_none (by decide +kernel) (both_none (by decide +kernel) (both_none ?_ (both_none rfl (zero_recs hostHead _ _ fun i => rfl)))))
  all_goals rfl

theorem goodBase_digests : checkDigests goodBase = none := by
  simp only [checkDigests, sha_eq]; decide +kernel

theorem goodBase_signed : goodBaseKey = sha384 (pubKey goodBase) ∧
    ecVerify (pubKey goodBase) (goodBase.take (dirEnd goodBase)) (beNat (slice goodBase (sigAt goodBase + 0x70) 48)) (beNat (slice goodBase (sigAt goodBase + 0xA0) 48)) = true := by
  simp only [ecVerify, sha_eq]; decide +kernel

/-- The sections of the base pattern. -/
def goodSecs : List Sec :=
  (baseSecs.zip [1216, 1280, 1344, 1408, 1472, 1536, 1600, 1664, 1728, 1792, 1856, 1984, 2112, 3264, 3328]).map (fun x =>
    { type := x.1.1, instnc := x.1.2.1, offset := x.2, bytes := x.1.2.2 })

theorem goodBase_secs : sectionsOf goodBase = goodSecs := by decide +kernel

theorem asBase_good (m : Mach) : asBase goodBase m = { m with ldr := { m.ldr with sections := goodSecs, header := goodBase.take 256 } } := by
  rw [asBase, goodBase_secs]

/-- The base pattern keeps step 13 in a part where its other sections do. -/
theorem goodBase_form (m : Mach) (on : Nat → Bool)
    (h : (goodSecs.filter (fun x => x.type != 0xD)).all (fun x => formSection m goodBase x == none) = true)
    (h' : crossForm goodBase on m = none) : checkForm goodBase on m = none := by
  refine both_none ?_ h'
  have hd : goodSecs.filter (fun x => x.type == 0xD) = [{ type := 0xD, offset := 2112, bytes := hostHead ++ zeros 1024 }] := by decide +kernel
  simp only [eachOf, List.findSome?_eq_none_iff, Option.map_eq_none_iff]
  intro x hx
  have hm : x.2 ∈ goodSecs := goodBase_secs ▸ (List.of_mem_zip hx).2
  by_cases ht : x.2.type = 0xD
  · have : x.2 ∈ goodSecs.filter (fun x => x.type == 0xD) := List.mem_filter.2 ⟨hm, by simp [ht]⟩
    rw [hd, List.mem_singleton] at this
    rw [this]
    exact host_form m
  · have := List.all_eq_true.1 h x.2 (List.mem_filter.2 ⟨hm, by simp [ht]⟩)
    simpa using this

/-- A part whose mailbox reads the base pattern again under RELOAD_FULL, and whose loader could read it from flash. -/
def loads : State := mailed 2 3712 (fun m => sets [(Reg.PAT_STATUS_STATE, 1)] { m with
  ldr := { m.ldr with reload := true, copy := 1, flashHalf := some 0x800000 } }) goodBaseKey

theorem loads_form : checkForm goodBase (flagOn (asBase goodBase loads.m)) (asBase goodBase loads.m) = none :=
  goodBase_form _ _ (by rw [asBase_good]; decide +kernel) (by rw [asBase_good]; decide +kernel)

theorem loads_fit : checkFit goodBase (flagOn (asBase goodBase loads.m)) false (asBase goodBase loads.m) = none := by
  rw [asBase_good]; decide +kernel

theorem loads_passes : mbxVerdict loads.fuses false goodBase loads.m = none := by
  change checkBase loads.fuses { kind := 1, mbxLen := some 3712 } true false goodBase loads.m = none
  refine both_none ?_ (both_none loads_form loads_fit)
  simp only [checkContainer, checkKey, ← goodBase_signed.1, goodBase_signed.2, goodBase_digests]
  decide +kernel

theorem loads_flash : checkBase loads.fuses { kind := 1, half := loads.m.ldr.flashHalf } true false goodBase loads.m = none := by
  refine both_none ?_ (both_none loads_form loads_fit)
  simp only [checkContainer, checkKey, ← goodBase_signed.1, goodBase_signed.2, goodBase_digests]
  decide +kernel

/-- A part whose mailbox has read the base pattern for STORE_PRIMARY. -/
def stores : State := mailed 5 3712 (fun m => { m with ldr := { m.ldr with flashHalf := some 0x800000 } }) goodBaseKey

theorem stores_passes : mbxVerdict stores.fuses false goodBase stores.m = none := by
  refine both_none (both_none ?_ (both_none (goodBase_form _ _ (by rw [asBase_good]; decide +kernel)
    (by rw [asBase_good]; decide +kernel)) rfl)) (by decide +kernel)
  simp only [checkContainer, checkKey, ← goodBase_signed.1, goodBase_signed.2, goodBase_digests]
  decide +kernel

/-- A part that runs the base pattern and has read the alteration of it. -/
def alters : State := mailed 3 1024 (fun m => sets [(Reg.PAT_PATTERN_ID, 1)] { m with ldr := { m.ldr with sections := goodSecs, header := goodBase.take 256 } }) goodAlterKey

theorem alters_passes : mbxVerdict alters.fuses false goodAlter alters.m = none := by
  change checkAlter alters.fuses { kind := 2, mbxLen := some 1024 } goodAlter alters.m = none
  simp only [checkAlter, checkContainer, checkKey, checkDigests, ecVerify, sha_eq]
  decide +kernel

/-- A part that has read the fuse request. -/
def fusing : State := mailed 7 1024 id goodFuseKey

theorem fusing_passes : mbxVerdict fusing.fuses false goodFuse fusing.m = none := by
  change checkFuse fusing.fuses { kind := 3, mbxLen := some 1024 } goodFuse fusing.m = none
  simp only [checkFuse, checkContainer, checkKey, checkDigests, ecVerify, sha_eq]
  decide +kernel

/-- R80: an accepted request to revoke key slot 2 blows that fuse. -/
theorem test_fuse_revokes : mbxFuses (some goodFuse) false fusing.fuses fusing.m = { fusing.fuses with revoked := [2] } := by
  have h : mbxBytes fusing.m (some goodFuse) = some goodFuse := by decide +kernel
  simp only [mbxFuses, h, fusing_passes, and_true]
  decide +kernel

/-- A part whose debug port waits for the answer to challenge 8. -/
def asked : State := { on (fun m => { m with ldr := { challenge := some 8 } }) with fuses := { keyHash := [(1, debugHash)] } }

theorem asked_passes : authOk asked.fuses asked.m 8 1 debugKey debugSig debugSig = true := by
  simp only [authOk, ecVerify, sha_eq]
  decide +kernel

/-! ### Witnesses: states and operands that meet the hypotheses of each statement -/

theorem witness_EmptyQueueAdvancesTheCounter :
    (∃ (s : State), s.pending = [] ∧ s.m.time.frac < 2 ^ 32 ∧ s.m.time.resid < 10 ^ 12 ∧ s.m.powered = false) ∧
    (∃ (s : State), s.pending = [] ∧ s.m.time.frac < 2 ^ 32 ∧ s.m.time.resid < 10 ^ 12 ∧ s.m.powered = true) :=
  ⟨⟨State.reset, by decide +kernel⟩,
    ⟨on id, by decide +kernel⟩⟩

theorem witness_TheQueueDrainsInOrder :
    (∃ (s : State) (k t : _), k ≤ s.pending.length ∧ Runs k s t) ∧
    (∃ (s : State) (t : _), Runs s.pending.length s t) :=
  ⟨⟨{ on id with pending := [.porstAssert, .porstAssert] }, 1, after { on id with pending := [.porstAssert, .porstAssert] }, by decide +kernel, _,
      rfl, rfl⟩,
    ⟨{ on id with pending := [.porstAssert] }, after { on id with pending := [.porstAssert] }, _, rfl, rfl⟩⟩

theorem witness_ResetPartIgnoresCommands :
    ∃ (c : Instr) (s : State), s.m.powered = false ∧ c ≠ .porstAssert ∧ (∀ b t v f, c ≠ .porstRelease b t v f) :=
  ⟨.firstTurnTick [], State.reset, rfl, nofun, nofun⟩

theorem witness_SoundFusesStaySound :
    ∃ (s t : State), s.fuses.sound ∧ step s = .next t :=
  ⟨{ on id with pending := [.porstAssert] }, after { on id with pending := [.porstAssert] }, by decide +kernel, rfl⟩

theorem witness_FusesOnlyGrow :
    ∃ (s t : State), step s = .next t :=
  ⟨{ on id with pending := [.porstAssert] }, after { on id with pending := [.porstAssert] }, rfl⟩

theorem witness_OnlyTwoCommandsBlowFuses :
    (∃ (c : Instr) (s t : State), exec c s = .next t ∧ (∀ l, c ≠ .firstTurnTick l) ∧ (∀ d e, c ≠ .mbxReadComplete d e)) ∧
    (∃ (c : Instr) (s t : State), exec c s = .next t ∧ (∃ l, c = .firstTurnTick l)) ∧
    (∃ (c : Instr) (s t : State), exec c s = .next t ∧ (∃ d e, c = .mbxReadComplete d e)) ∧
    (∃ (c : Instr) (s t : State), exec c s = .next t ∧ (∃ d e, c = .mbxReadComplete d e) ∧ s.m.ldr.cmd ≠ 7) :=
  ⟨⟨.porstAssert, on id, after { on id with pending := [.porstAssert] }, rfl, nofun, nofun⟩,
    ⟨.firstTurnTick [], on id, after { on id with pending := [.firstTurnTick []] }, rfl, _, rfl⟩,
    ⟨.mbxReadComplete none {}, on id, after { on id with pending := [.mbxReadComplete none {}] }, rfl, _, _, rfl⟩,
    ⟨.mbxReadComplete none {}, on id, after { on id with pending := [.mbxReadComplete none {}] }, rfl, ⟨_, _, rfl⟩, by decide +kernel⟩⟩

theorem witness_PowerOnResetAndRelease :
    (∃ (s : State), s.m.powered = false ∧ s.m.ldr.testHold = false ∧ s.fuses.sound ∧ s.fuses.uid < 2 ^ 64) ∧
    (∃ (s : State), s.m.powered = false ∧ s.m.ldr.testHold = false) :=
  ⟨⟨State.reset, by decide +kernel⟩,
    ⟨State.reset, by decide +kernel⟩⟩

theorem witness_RegisterReadsAndWrites :
    (∃ (who : Requester) (addr a : Nat) (s : State), Powered s ∧ addr % 4 = 0 ∧ reach s.m who addr = .ok a ∧ regFind s.m a = none) ∧
    (∃ (who : Requester) (addr a : Nat) (s : State), Powered s ∧ addr % 4 = 0 ∧ reach s.m who addr = .ok a ∧ regFind s.m a = none ∧ inSaf a = false) ∧
    (∃ (who : Requester) (addr a b : Nat) (r : RegRow) (s : State), Powered s ∧ addr % 4 = 0 ∧ reach s.m who addr = .ok a ∧ (regFind s.m a = some (r,
      b)) ∧ noQueue s.m a = false ∧ r.pair = false ∧ r.base ≠ (Reg.ING_APHY_CCI_RESULT_RDATA 0).addr ∧ r.base ≠ (Reg.TIME_EVT_FIFO 0).addr) ∧
    (∃ (who : Requester) (addr a b : Nat) (r : RegRow) (s : State), Powered s ∧ addr % 4 = 0 ∧ reach s.m who addr = .ok a ∧ (regFind s.m a = some (r,
      b)) ∧ noQueue s.m a = false ∧ r.pair = false ∧ r.base ∉ actRows ∧ mayWrite s.m who r.wr a = true ∧ (inSaf a = true →
      mayWrite s.m who .mi a = true) ∧ (r.fields.map (fun f => f.lo)).Nodup ∧ (∀ f ∈ r.fields, f.lo < 64)) :=
  ⟨⟨.mi false, 0x7F00000060, 0x7F00000060, on id, by decide +kernel⟩,
    ⟨.mi false, 0x7F00000060, 0x7F00000060, on id, by decide +kernel⟩,
    ⟨.pf, 4, 0x7F00000004, 0x7F00000004, rowOf 0x7F00000004, on id, by decide +kernel⟩,
    ⟨.pf, 0x10104, 0x7F00100104, 0x7F00100104, rowOf 0x7F00100104, on id, by decide +kernel⟩⟩

theorem witness_PairsLatchAndHold :
    (∃ (who : Requester) (addr b : Nat) (r : RegRow) (s : State), Powered s ∧ reach s.m who addr = .ok b ∧ deviceOf who addr = b ∧
      (regFind s.m b = some (r, b)) ∧ r.pair = true ∧ noQueue s.m b = false ∧ r.base ≠ (Reg.ING_APHY_CCI_RESULT_RDATA 0).addr) ∧
    (∃ (who : Requester) (addr b : Nat) (r : RegRow) (s : State), Powered s ∧ reach s.m who addr = .ok (b + 4) ∧ deviceOf who addr = b + 4 ∧
      (regFind s.m (b + 4) = some (r, b)) ∧ r.pair = true ∧ noQueue s.m (b + 4) = false ∧ r.base ≠ (Reg.ING_APHY_CCI_RESULT_RDATA 0).addr ∧ r.base ≠
      (Reg.TIME_EVT_FIFO 0).addr) ∧
    (∃ (who : Requester) (addr b : Nat) (r : RegRow) (s : State), Powered s ∧ reach s.m who addr = .ok b ∧ deviceOf who addr = b ∧
      (regFind s.m b = some (r, b)) ∧ r.pair = true ∧ noQueue s.m b = false ∧ mayWrite s.m who r.wr b = true ∧ (inSaf b = true →
      mayWrite s.m who .mi b = true) ∧ (∃ f ∈ r.fields, f.access = .rw)) ∧
    (∃ (who : Requester) (addr b : Nat) (r : RegRow) (f : FieldSpec) (s : State), Powered s ∧ reach s.m who addr = .ok (b + 4) ∧
      deviceOf who addr = b + 4 ∧ (regFind s.m (b + 4) = some (r, b)) ∧ r.pair = true ∧ noQueue s.m (b + 4) = false ∧ mayWrite s.m who r.wr
      (b + 4) = true ∧ (inSaf (b + 4) = true → mayWrite s.m who .mi (b + 4) = true) ∧ r.fields = [f] ∧ f.access = .rw) :=
  ⟨⟨.pf, 0x10004, 0x7F00100004, rowOf 0x7F00100004, on id, by decide +kernel⟩,
    ⟨.pf, 0x10008, 0x7F00100004, rowOf 0x7F00100004, on id, by decide +kernel⟩,
    ⟨.mi false, 0x7F00000040, 0x7F00000040, rowOf 0x7F00000040, on id, by decide +kernel⟩,
    ⟨.mi false, 0x7F00000044, 0x7F00000040, rowOf 0x7F00000040, ⟨0, 64, .rw, 0⟩, on id, by decide +kernel⟩⟩

theorem witness_RefusedAccessesAreLogged :
    (∃ (who : Requester) (addr bytes a : Nat) (s : State), Powered s ∧ (bytes ≠ 4 ∨ addr % 4 ≠ 0) ∧ reach s.m who addr = .ok a) ∧
    (∃ (who : Requester) (addr : Nat) (w : Bool) (s : State), Powered s ∧ isPcie who = false ∧ awake s.m who = true ∧
      masterMay s.m who addr w = false) ∧
    (∃ (who : Requester) (addr : Nat) (s : State), Powered s ∧ isPcie who = true ∧ reach s.m who addr = .unpopulated) ∧
    (∃ (who : Requester) (addr a : Nat) (s : State), Powered s ∧ addr % 4 = 0 ∧ reach s.m who addr = .ok a ∧ (mayWrite s.m who
      (writersAt s.m a) a = false ∨ (inSaf a = true ∧ mayWrite s.m who .mi a = false))) :=
  ⟨⟨.mi false, 0x7F00000004, 8, 0x7F00000004, on id, by decide +kernel⟩,
    ⟨.seq 0, 0x7F00000000, false, on id, by decide +kernel⟩,
    ⟨.pf, 0x20000, on id, by decide +kernel⟩,
    ⟨.pf, 0x2200000, 0x7F50000000, on id, by decide +kernel⟩⟩

theorem witness_Bar2MovesBytesThroughItsEntry :
    (∃ (fn : Fin 64) (off len page : Nat) (wr : Bool) (s : State), Powered s ∧ pcieGate s.m fn = none ∧ inBar2 fn off len = true ∧
      len ≤ 0x200000 - off % 0x200000 ∧ (bar2Entry s.m fn (off / 0x200000) = some (page, wr)) ∧ inRefresh s.m
      (page * 0x200000 + off % 0x200000) len = false ∧ Clean s.m (page * 0x200000 + off % 0x200000) len) ∧
    (∃ (fn : Fin 64) (off page : Nat) (data : List Byte) (s : State), Powered s ∧ pcieGate s.m fn = none ∧ inBar2 fn off data.length = true ∧
      data.length ≤ 0x200000 - off % 0x200000 ∧ (bar2Entry s.m fn (off / 0x200000) = some (page, true)) ∧ loaderOnly s.m
      (page * 0x200000 + off % 0x200000) data.length = false ∧ Clean s.m (page * 0x200000 + off % 0x200000) data.length ∧ inRefresh s.m
      (page * 0x200000 + off % 0x200000) data.length = false) ∧
    (∃ (fn : Fin 64) (off page : Nat) (data : List Byte) (s : State), Powered s ∧ pcieGate s.m fn = none ∧ inBar2 fn off data.length = true ∧
      data.length ≤ 0x200000 - off % 0x200000 ∧ (bar2Entry s.m fn (off / 0x200000) = some (page, true)) ∧ loaderOnly s.m
      (page * 0x200000 + off % 0x200000) data.length = false ∧ Clean s.m (page * 0x200000 + off % 0x200000) data.length ∧ inRefresh s.m
      (page * 0x200000 + off % 0x200000) data.length = true) :=
  ⟨⟨0, 0, 64, 0, true, on (sets [(Reg.HOST_BAR2_XLAT_PF_VALID 0, 1), (Reg.HOST_BAR2_XLAT_PF_WRITE 0, 1)]), by decide +kernel⟩,
    ⟨0, 0x1FFFFF, 0, [7], on (sets [(Reg.HOST_BAR2_XLAT_PF_VALID 0, 1), (Reg.HOST_BAR2_XLAT_PF_WRITE 0, 1)]), by decide +kernel⟩,
    ⟨0, 0, 0, [7], on (sets [(Reg.HOST_BAR2_XLAT_PF_VALID 0, 1), (Reg.HOST_BAR2_XLAT_PF_WRITE 0, 1), (Reg.MEM_STATUS_STATE (hbmChannel {} 0), 3)]),
      by decide +kernel⟩⟩

theorem witness_Bar2EntriesGuardHbm :
    (∃ (fn : Fin 64) (off len n : Nat) (s : State), Powered s ∧ pcieGate s.m fn = none ∧ inBar2 fn off len = true ∧ n ∈ (bar2Split off len).map
      (fun p => p.1 / 0x200000) ∧ (if fn.val = 0 then rdb s.m (Reg.HOST_BAR2_XLAT_PF_VALID n) else rdb s.m (Reg.HOST_BAR2_XLAT_VF_VALID
      (fn - 1) n)) = false) ∧
    (∃ (fn : Fin 64) (off len n : Nat) (data : List Byte) (s : State), Powered s ∧ pcieGate s.m fn = none ∧ inBar2 fn off len = true ∧ n ∈
      (bar2Split off len).map (fun p => p.1 / 0x200000) ∧ len = data.length ∧ ((if fn.val = 0 then rdb s.m
      (Reg.HOST_BAR2_XLAT_PF_VALID n) else rdb s.m (Reg.HOST_BAR2_XLAT_VF_VALID (fn - 1) n)) = false ∨ (if fn.val = 0 then rdb s.m
      (Reg.HOST_BAR2_XLAT_PF_WRITE n) else rdb s.m (Reg.HOST_BAR2_XLAT_VF_WRITE (fn - 1) n)) = false)) :=
  ⟨⟨0, 0, 64, 0, on id, by decide +kernel⟩,
    ⟨0, 0, 1, 0, [7], on (sets [(Reg.HOST_BAR2_XLAT_PF_VALID 0, 1)]), by decide +kernel⟩⟩

theorem witness_UcieRetriesAreWatched :
    (∃ (s : State), Powered s) ∧
    (∃ (u : Fin 2) (s : State), Powered s ∧ 8 < ((mget s.m.ucie u).filter (fun x => now s.m < x + 1000)).length) :=
  ⟨⟨on id, by decide +kernel⟩,
    ⟨1, on (fun m => { m with ucie := [(1, List.replicate 9 0)] }), by decide +kernel⟩⟩

theorem witness_MailboxCommandsBegin :
    (∃ (who : Requester) (n : Nat) (c : Instr) (s : State), Powered s ∧ MayWrite s.m who Reg.PAT_MBX_CMD_CMD .pfMi ∧ ((c, n) ∈ [(Instr.loadFull who,
      1), (.reloadFull who, 2), (.loadAlter who, 3), (.storePrimary who, 5), (.storeSecondary who, 6), (.fuseRequest who, 7)]) ∧
      (rd s.m Reg.PAT_MBX_STATUS_STATE ∉ [1, 2, 3]) ∧ rd s.m Reg.PAT_MBX_LEN % 64 = 0 ∧ busMaster s.m 1 = true ∧ (n = 1 →
      rd s.m Reg.PAT_STATUS_STATE ∈ [6, 7] ∧ rd s.m Reg.PAT_BOOT_BOOTSEL < 2) ∧ (n = 2 → s.m.ldr.alter ≠ .resetting) ∧ (n = 3 →
      s.m.ldr.alter = .none ∧ rd s.m Reg.PAT_STATUS_STATE ∉ [1, 2, 3, 4])) ∧
    (∃ (who : Requester) (s : State), Powered s ∧ MayWrite s.m who Reg.PAT_MBX_CMD_CMD .pfMi ∧ (rd s.m Reg.PAT_MBX_STATUS_STATE ∉ [1, 2, 3]) ∧
      s.m.ldr.alter = .pending) ∧
    (∃ (who : Requester) (s : State), Powered s ∧ MayWrite s.m who Reg.PAT_MBX_CMD_CMD .pfMi ∧ (rd s.m Reg.PAT_MBX_STATUS_STATE ∉ [1, 2, 3])) :=
  ⟨⟨.mi false, 5, .storePrimary (.mi false), on (fun m => { m with funcs := [(0, { busMaster := true })] }), by decide +kernel⟩,
    ⟨.mi false, on (fun m => { m with ldr := { alter := .pending } }), by decide +kernel⟩,
    ⟨.mi false, on id, by decide +kernel⟩⟩

theorem witness_MailboxContainersTakeEffect :
    (∃ (s : State), Powered s ∧ rd s.m Reg.PAT_MBX_STATUS_STATE = 1 ∧ s.m.ldr.reload = false) ∧
    (∃ (c : List Byte) (env : LoadEnv) (s : State), Powered s ∧ rd s.m Reg.PAT_MBX_STATUS_STATE = 1 ∧ s.m.ldr.reload = false ∧
      busMaster s.m 1 = true ∧ c.length = s.m.ldr.cmdLen ∧ mbxVerdict s.fuses env.nvmePresent c s.m = none ∧ s.m.ldr.cmd = 3 ∧ Clean s.m
      (stagingBase s.m) c.length) ∧
    (∃ (c : List Byte) (env : LoadEnv) (s : State), Powered s ∧ rd s.m Reg.PAT_MBX_STATUS_STATE = 1 ∧ s.m.ldr.reload = false ∧
      busMaster s.m 1 = true ∧ c.length = s.m.ldr.cmdLen ∧ mbxVerdict s.fuses env.nvmePresent c s.m = none ∧ (s.m.ldr.cmd = 5 ∨ s.m.ldr.cmd = 6)) ∧
    (∃ (c : List Byte) (env : LoadEnv) (s : State), Powered s ∧ rd s.m Reg.PAT_MBX_STATUS_STATE = 1 ∧ s.m.ldr.reload = false ∧
      busMaster s.m 1 = true ∧ c.length = s.m.ldr.cmdLen ∧ mbxVerdict s.fuses env.nvmePresent c s.m = none ∧ s.m.ldr.cmd = 7) ∧
    (∃ (s : State), Powered s ∧ rd s.m Reg.PAT_MBX_STATUS_STATE = 3) ∧
    (∃ (c : List Byte) (env : LoadEnv) (s : State), Powered s ∧ rd s.m Reg.PAT_MBX_STATUS_STATE = 1 ∧ s.m.ldr.reload = true ∧
      busMaster s.m 1 = true ∧ c.length = s.m.ldr.cmdLen ∧ mbxVerdict s.fuses env.nvmePresent c s.m = none) :=
  ⟨⟨on (sets [(Reg.PAT_MBX_STATUS_STATE, 1)]), by decide +kernel⟩,
    ⟨goodAlter, {}, alters, rfl, by decide +kernel, rfl, rfl, by decide +kernel, alters_passes, rfl, by decide +kernel⟩,
    ⟨goodBase, {}, stores, rfl, by decide +kernel, rfl, rfl, by decide +kernel, stores_passes, .inl rfl⟩,
    ⟨goodFuse, {}, fusing, rfl, by decide +kernel, rfl, rfl, by decide +kernel, fusing_passes, rfl⟩,
    ⟨on (sets [(Reg.PAT_MBX_STATUS_STATE, 3)]), by decide +kernel⟩,
    ⟨goodBase, {}, loads, rfl, by decide +kernel, rfl, rfl, by decide +kernel, loads_passes⟩⟩

theorem witness_FlashCopiesAreReadInOrder :
    (∃ (c : List Byte) (env : LoadEnv) (s : State), Powered s ∧ rd s.m Reg.PAT_STATUS_STATE = 1 ∧ (s.m.ldr.copy = 1 ∨ s.m.ldr.copy = 2) ∧
      (checkBase s.fuses { kind := 1, half := s.m.ldr.flashHalf } true env.nvmePresent c s.m = none)) ∧
    (∃ (c : Instr) (code : Nat) (s : State), Powered s ∧ rd s.m Reg.PAT_STATUS_STATE = 1 ∧ (c = .flashReadTimeout ∧ code = 0x13 ∨ ∃ bytes env x,
      c = .containerReadComplete bytes env ∧ code = x.code ∧ code < 256 ∧
      checkBase s.fuses { kind := 1, half := s.m.ldr.flashHalf } true env.nvmePresent bytes s.m = some x) ∧ s.m.ldr.copy = 1) ∧
    (∃ (c : Instr) (code : Nat) (s : State), Powered s ∧ rd s.m Reg.PAT_STATUS_STATE = 1 ∧ (c = .flashReadTimeout ∧ code = 0x13 ∨ ∃ bytes env x,
      c = .containerReadComplete bytes env ∧ code = x.code ∧ code < 256 ∧
      checkBase s.fuses { kind := 1, half := s.m.ldr.flashHalf } true env.nvmePresent bytes s.m = some x) ∧ s.m.ldr.copy = 2) :=
  ⟨⟨goodBase, {}, loads, rfl, by decide +kernel, .inl rfl, loads_flash⟩,
    ⟨.flashReadTimeout, 0x13, on (fun m => sets [(Reg.PAT_STATUS_STATE, 1)] { m with ldr := { copy := 1 } }), rfl, by decide +kernel, .inl ⟨rfl,
      rfl⟩, rfl⟩,
    ⟨.flashReadTimeout, 0x13, on (fun m => sets [(Reg.PAT_STATUS_STATE, 1)] { m with ldr := { copy := 2 } }), rfl, by decide +kernel, .inl ⟨rfl,
      rfl⟩, rfl⟩⟩

theorem witness_StartupReachesTheFirstTurn :
    (∃ (s : State), Powered s ∧ applied s.m = true ∧ s.m.saf.testsDone = false) ∧
    (∃ (s : State), Powered s ∧ applied s.m = true ∧ s.m.ldr.trained = false ∧ (∀ ch < 32, rd s.m (Reg.MEM_STATUS_STATE ch) ≠ 4)) ∧
    (∃ (ch : Fin 32) (s : State), Powered s ∧ applied s.m = true ∧ s.m.ldr.trained = false ∧ rd s.m (Reg.MEM_STATUS_STATE ch) = 1 ∧
      s.m.ing.appliedAt + 290000000 ≤ now s.m) ∧
    (∃ (s : State), Powered s ∧ s.m.ldr.trained = true ∧ s.m.ldr.hostfwDone = false ∧ Clean s.m (hostImageBase s.m) (sec s.m 0xA 0).length) ∧
    (∃ (i : Nat) (b : List Byte) (s : State), Powered s ∧ s.m.ldr.trained = true ∧ s.m.ldr.hostfwDone = true ∧ (rd s.m Reg.PAT_STATUS_STATE ∈ [4,
      5]) ∧ nextBlob s.m = some i ∧ b.length = le (preload s.m i) 0x18 8 ∧ sha384 b = beNat (slice (preload s.m i) 0x20 48) ∧ Clean s.m (le
      (preload s.m i) 0x10 8) b.length) ∧
    (∃ (s : State), Powered s ∧ firstDue s.m = true) :=
  ⟨⟨on (hasSec 1 0 []), by decide +kernel⟩,
    ⟨on (hasSec 1 0 []), by decide +kernel⟩,
    ⟨31, on (fun m => hasSec 1 0 [] (sets [(Reg.MEM_STATUS_STATE 31, 1), (Reg.TIME_NOW, 290000000)] m)), by decide +kernel⟩,
    ⟨on (fun m => { m with ldr := { trained := true } }), by decide +kernel⟩,
    ⟨0, [], on (fun m => sets [(Reg.PAT_STATUS_STATE, 5)] (hasSec 0x10 0 (blob 128 [(0x20, 48,
      0x5bb99848f1d21ad5fb656fe7bfde4e27dae1f663bfc70c4c4307be1411b7fd216ae3b1b17e32d94c3896ac51a760b038)]) { m with ldr := { trained := true, hostfwDone := true } })),
      rfl, rfl, rfl, by decide +kernel, by decide +kernel, by decide +kernel, by rw [sha_eq]; decide +kernel, by decide +kernel⟩,
    ⟨on (fun m => sets [(Reg.PAT_STATUS_STATE, 4), (Reg.TIME_NOW, 1000000)] (hasSec 1 0 (blob 64 [(4, 4,
      1000)]) { m with ldr := { trained := true }, saf := { testsDone := true } })), by decide +kernel⟩⟩

theorem witness_DebugPortAuthenticates :
    (∃ (s : State), Powered s ∧ s.m.ldr.hold = none ∧ s.m.saf.islandUp = true) ∧
    (∃ (slot : Nat) (key : List Byte) (r sig c : Nat) (s : State), Powered s ∧ s.m.ldr.challenge = some c ∧
      authOk s.fuses s.m c slot key r sig = true) ∧
    (∃ (slot : Nat) (key : List Byte) (r sig c : Nat) (s : State), Powered s ∧ s.m.ldr.challenge = some c ∧
      authOk s.fuses s.m c slot key r sig = false) ∧
    (∃ (t0 : Nat) (s : State), Powered s ∧ s.m.ldr.hold = some t0 ∧ t0 + 1000000000 ≤ now s.m) ∧
    (∃ (s : State), Powered s) :=
  ⟨⟨on id, by decide +kernel⟩,
    ⟨1, debugKey, debugSig, debugSig, 8, asked, rfl, rfl, asked_passes⟩,
    ⟨0, [], 0, 0, 5, on (fun m => { m with ldr := { challenge := some 5 } }), by decide +kernel⟩,
    ⟨0, on (fun m => sets [(Reg.TIME_NOW, 1000000000)] { m with ldr := { hold := some 0 } }), by decide +kernel⟩,
    ⟨on id, by decide +kernel⟩⟩

theorem witness_SmbusAnswersBlockReads :
    (∃ (s : State), Powered s ∧ s.m.saf.islandUp = true ∧ s.m.ldr.releasedAt + 1000000 ≤ now s.m) ∧
    (∃ (c : Instr) (s : State), Powered s ∧ (c ∈ [Instr.smbusReadPatId, .smbusReadUid, .smbusReadPatStatus, .smbusReadSafStatus, .smbusReadPower,
      .smbusReadTemps, .smbusOtherNack]) ∧ (c = .smbusOtherNack ∨ s.m.saf.islandUp = false ∨ now s.m < s.m.ldr.releasedAt + 1000000)) :=
  ⟨⟨on (sets [(Reg.TIME_NOW, 1000000)]), by decide +kernel⟩,
    ⟨.smbusOtherNack, on id, by decide +kernel⟩⟩

theorem witness_GridTicksCarryTheTurns :
    (∃ (s : State), Powered s ∧ applied s.m = true ∧ periodNs s.m ≠ 0 ∧ (nextTick s.m).2 ≤ now s.m ∧ rdb s.m Reg.TIME_TURN_STATUS_RUNNING = false ∧
      firstReady s.m = false) ∧
    (∃ (s : State), Powered s ∧ applied s.m = true ∧ periodNs s.m ≠ 0 ∧ (nextTick s.m).2 ≤ now s.m ∧ rdb s.m Reg.TIME_TURN_STATUS_RUNNING = true ∧
      secOf s.m 0xB 0 = none ∧ (∀ x ∈ s.m.items, x.2.safety = true → x.2.verdict.isSome = true ∨ x.2.turnOf = none)) :=
  ⟨⟨on (fun m => sets [(Reg.TIME_NOW, 1000000)] (hasSec 1 0 (blob 64 [(4, 4, 1000)]) m)), by decide +kernel⟩,
    ⟨on (fun m => sets [(Reg.TIME_NOW, 1000000), (Reg.TIME_TURN_STATUS_RUNNING, 1)] (hasSec 1 0 (blob 64 [(4, 4,
      1000)]) { m with items := [(1, { safety := true, verdict := some true })] })), by decide +kernel⟩⟩

theorem witness_PartitionTurnsOpen :
    ∃ (p : Fin 8) (g n : Nat) (rest : List (Nat × Nat)) (s : State), Powered s ∧ ((mget s.m.turns p).gticks = (g, n) :: rest) ∧ n < 2 ^ 32 ∧
      rdb s.m Reg.PWR_STATUS_SHUTDOWN = false ∧ plannedTick s.m p ≤ now s.m ∧ rd s.m (Reg.TC_RECOV_STATUS_STATE p) = 0 ∧
      ((mget s.m.turns p).begun = true → (mget s.m.turns p).lcDone = true ∧ (mget s.m.turns p).phase = .open) ∧ halted s.m p = false ∧
      mget s.m.comps p = [] ∧ mget s.m.rnotes p = [] ∧ ((mget s.m.recov p).killing = none ∧ (mget s.m.recov p).restart = none ∧
      (mget s.m.recov p).replayRun = none ∧ (mget s.m.recov p).be = none ∧ (mget s.m.recov p).switch = .none ∧ (mget s.m.recov p).events = [] ∧
      (mget s.m.recov p).toRetire = [] ∧ 4 ∉ (mget s.m.recov p).nextCauses ∧ (mget s.m.recov p).first = [] ∧ (mget s.m.recov p).lcImage = none) :=
  ⟨0, 0, 1, [], on (fun m => { m with turns := [(0, { gticks := [(0, 1)] })] }), by decide +kernel⟩

theorem witness_TurnWorkFollowsItsOrder :
    (∃ (p : Fin 8) (s : State), Powered s ∧ (mget s.m.turns p).phase = .window ∧ (mget s.m.turns p).windowEnd ≤ now s.m ∧
      (mget s.m.recov p).switch = .none ∧ marginRuns s.m p = false) ∧
    (∃ (p : Fin 8) (i : Nat) (rest : List Nat) (x : Routine) (s : State), Powered s ∧ (mget s.m.turns p).lcTodo = i :: rest ∧
      routineAt s.m p i = some x ∧ (mget s.m.turns p).phase = .open ∧ (mget s.m.turns p).windowEnd + x.start ≤ now s.m ∧
      (mget s.m.seqs p).run = none ∧ rd s.m (Reg.TC_RECOV_STATUS_STATE p) = 0 ∧ rdb s.m (Reg.SCR_STATUS_WIPING p) = false ∧ rdb s.m
      (Reg.SCR_STATUS_HELD p) = false ∧ (mget s.m.kvs p).building = false ∧ ((mget s.m.recov p).killing = none ∧ (mget s.m.recov p).restart = none ∧
      (mget s.m.recov p).replayRun = none ∧ (mget s.m.recov p).switch = .none ∧ (mget s.m.recov p).lcImage = none)) ∧
    (∃ (p : Fin 8) (a : Nat) (s : State), Powered s ∧ 1 ≤ a ∧ a ≤ 7 ∧ cyclesNs s.m p (testCycles.getD a 0) ≤ 25000 ∧ idleGap s.m p (cyclesNs s.m p
      (testCycles.getD a 0)) = true ∧ (∃ d ∈ (mget s.m.turns p).deferred, d.1 = a)) ∧
    (∃ (p : Fin 8) (row k : Nat) (s : State), Powered s ∧ ((row, k) ∈ (mget s.m.turns p).deferred) ∧ k ≠ rd s.m (Reg.TC_TURN_NUMBER p) ∧ k ≠ (rd s.m
      (Reg.TC_TURN_NUMBER p) + 2 ^ 32 - 1) % 2 ^ 32) :=
  ⟨⟨7, on (fun m => { m with turns := [(7, { phase := .window })] }), by decide +kernel⟩,
    ⟨0, 0, [], (routineAt (oneRoutine {}) 0 0).getD {}, on (fun m => oneRoutine { m with turns := [(0, { phase := .open, lcTodo := [0] })] }),
      by decide +kernel⟩,
    ⟨0, 3, on (fun m => { m with turns := [(0, { phase := .open, deferred := [(3, 0)] })] }), by decide +kernel⟩,
    ⟨0, 3, 5, on (fun m => { m with turns := [(0, { deferred := [(3, 5)] })] }), by decide +kernel⟩⟩

theorem witness_DeadlinesAreKept :
    (∃ (p : Fin 8) (g n : Nat) (rest : List (Nat × Nat)) (s : State), Powered s ∧ ((mget s.m.turns p).gticks = (g, n) :: rest) ∧
      (mget s.m.turns p).begun = true ∧ (mget s.m.turns p).deadlined = false ∧ g + lagLimitNs s.m < now s.m) ∧
    (∃ (tag : Nat) (it : Item) (s : State), Powered s ∧ lookup s.m.items tag = some it ∧ it.lc = true ∧ it.fixed = none ∧ it.deadline ≤ now s.m) :=
  ⟨⟨0, 0, 0, [], on (fun m => sets [(Reg.TIME_NOW, 1)] { m with turns := [(0, { begun := true, gticks := [(0, 0)] })] }), by decide +kernel⟩,
    ⟨3, { lc := true }, on (fun m => { m with items := [(3, { lc := true })] }), by decide +kernel⟩⟩

theorem witness_RegisterArithmetic :
    ∃ (c : Fin 9 → BitVec 56 → Instr) (op : Nat) (f : BitVec 64 → BitVec 64 → BitVec 64) (q : Fin 9) (w : BitVec 56) (s : State), ((c, op, f) ∈
      ([(Instr.add, 0x01, fun a b => a + b), (Instr.sub, 0x02, fun a b => a - b), (Instr.and, 0x03, fun a b => a &&& b), (Instr.or, 0x04, fun a b =>
      a ||| b), (Instr.xor, 0x05, fun a b => a ^^^ b), (Instr.sll, 0x06, fun a b => a <<< (b.toNat % 64)), (Instr.srl, 0x07, fun a b => a >>>
      (b.toNat % 64)), (Instr.sra, 0x08, fun a b => a.sshiftRight (b.toNat % 64)), (Instr.mul, 0x09, fun a b => a * b), (Instr.min, 0x0A, fun a b =>
      if a.toInt < b.toInt then a else b), (Instr.max, 0x0B, fun a b => if a.toInt < b.toInt then b else a), (Instr.slt, 0x0C, fun a b =>
      if a.toInt < b.toInt then 1 else 0), (Instr.sltu, 0x0D, fun a b => if a.toNat < b.toNat then 1 else 0)] : List ((Fin 9 → BitVec 56 →
      Instr) × Nat × (BitVec 64 → BitVec 64 → BitVec 64)))) ∧ Powered s ∧ StandsAt s.m q op w.toNat ∧ w.toNat % 2 ^ 41 = 0 :=
  ⟨.add, 1, _, 8, 0, on (runs 8 1 0 {}), .head _, rfl, by decide +kernel⟩

theorem witness_ImmediateArithmetic :
    (∃ (c : Fin 9 → BitVec 56 → Instr) (op : Nat) (f : BitVec 64 → BitVec 64 → BitVec 64) (q : Fin 9) (w : BitVec 56) (s : State), ((c, op, f) ∈
      ([(Instr.addi, 0x10, fun a b => a + b), (Instr.andi, 0x11, fun a b => a &&& b), (Instr.ori, 0x12, fun a b => a ||| b), (Instr.xori, 0x13,
      fun a b => a ^^^ b), (Instr.slli, 0x14, fun a b => a <<< (b.toNat % 64)), (Instr.srli, 0x15, fun a b => a >>> (b.toNat % 64)), (Instr.srai,
      0x16, fun a b => a.sshiftRight (b.toNat % 64))] : List ((Fin 9 → BitVec 56 → Instr) × Nat × (BitVec 64 → BitVec 64 → BitVec 64)))) ∧
      Powered s ∧ StandsAt s.m q op w.toNat ∧ bitsAt w.toNat 32 14 = 0 ∧ (0x14 ≤ op → bitsAt w.toNat 6 26 = 0)) ∧
    (∃ (q : Fin 9) (w : BitVec 56) (s : State), Powered s ∧ StandsAt s.m q 0x17 w.toNat ∧ bitsAt w.toNat 48 3 = 0) :=
  ⟨⟨.addi, 0x10, _, 0, 5, on (runs 0 0x10 5 {}), .head _, rfl, by decide +kernel⟩,
    ⟨0, 5, on (runs 0 0x17 5 {}), by decide +kernel⟩⟩

theorem witness_ControlFlow :
    (∃ (q : Fin 9) (s : State), Powered s ∧ StandsAt s.m q 0 0) ∧
    (∃ (c : Fin 9 → BitVec 56 → Instr) (op : Nat) (f : BitVec 64 → BitVec 64 → Bool) (q : Fin 9) (w : BitVec 56) (s : State), ((c, op,
      f) ∈ [(Instr.beq, 0x20, fun a b => decide (a = b)), (Instr.bne, 0x21, fun a b => decide (a ≠ b)), (Instr.blt, 0x22, fun a b => decide
      (a.toInt < b.toInt)), (Instr.bge, 0x23, fun a b => decide (b.toInt ≤ a.toInt)), (Instr.bltu, 0x24, fun a b => decide (a.toNat < b.toNat)),
      (Instr.bgeu, 0x25, fun a b => decide (b.toNat ≤ a.toNat))]) ∧ Powered s ∧ StandsAt s.m q op w.toNat ∧ bitsAt w.toNat 32 14 = 0 ∧ ((f
      (BitVec.ofNat 64 (sReg s.m q (bitsAt w.toNat 51 5))) (BitVec.ofNat 64 (sReg s.m q (bitsAt w.toNat 46 5)))) = true → InCode s.m q (fieldOf 64
      ((seqPc s.m q : Int) + signedOf 32 w.toNat)))) ∧
    (∃ (q : Fin 9) (w : BitVec 56) (s : State), Powered s ∧ StandsAt s.m q 0x26 w.toNat ∧ bitsAt w.toNat 32 19 = 0 ∧ InCode s.m q (fieldOf 64
      ((seqPc s.m q : Int) + signedOf 32 w.toNat))) ∧
    (∃ (q : Fin 9) (w : BitVec 56) (s : State), Powered s ∧ StandsAt s.m q 0x27 w.toNat ∧ bitsAt w.toNat 32 14 = 0 ∧ InCode s.m q (fieldOf 64
      ((sReg s.m q (bitsAt w.toNat 46 5) : Int) + signedOf 32 w.toNat))) ∧
    (∃ (q : Fin 9) (w : BitVec 56) (s : State), Powered s ∧ StandsAt s.m q 0x2A w.toNat ∧ bitsAt w.toNat 32 19 = 0 ∧ bitsAt w.toNat 0 32 ≤ 2) ∧
    (∃ (q : Fin 9) (w : BitVec 56) (s : State), Powered s ∧ StandsAt s.m q 0x2B w.toNat ∧ bitsAt w.toNat 51 5 = 0 ∧ bitsAt w.toNat 0 46 = 0) ∧
    (∃ (q : Fin 9) (s : State), Powered s ∧ StandsAt s.m q 0x28 0) ∧
    (∃ (s : State) (r : Run), Powered s ∧ (mget s.m.seqs 8).run = some r ∧ (mget s.m.seqs 8).ended = true ∧ drained s.m 8 = true) ∧
    (∃ (p : Fin 8) (s : State) (r : Run), Powered s ∧ (mget s.m.seqs p).run = some r ∧ r.kind = 0 ∧ r.replayOf = none ∧
      (mget s.m.seqs p).ended = true ∧ drained s.m p = true ∧ (mget s.m.recov p).killing = none) :=
  ⟨⟨0, on (runs 0 0 0 {}), by decide +kernel⟩,
    ⟨.beq, 0x20, _, 0, 8, on (runs 0 0x20 8 {}), .head _, rfl, by decide +kernel, by decide +kernel, fun _ => ⟨_, rfl, by decide +kernel⟩⟩,
    ⟨0, 56, on (runs 0 0x26 56 {}), rfl, by decide +kernel, by decide +kernel, _, rfl, by decide +kernel⟩,
    ⟨0, 56, on (runs 0 0x27 56 {}), rfl, by decide +kernel, by decide +kernel, _, rfl, by decide +kernel⟩,
    ⟨0, 2, on (runs 0 0x2A 2 {}), by decide +kernel⟩,
    ⟨0, 0, on (runs 0 0x2B 0 {}), by decide +kernel⟩,
    ⟨0, on (runs 0 0x28 0 {}), by decide +kernel⟩,
    ⟨on (runs 8 0 0 { ended := true }), { code := 64, const := 256 }, by decide +kernel⟩,
    ⟨7, on (runs 7 0 0 { ended := true }), { code := 64, const := 256 }, by decide +kernel⟩⟩

theorem witness_InstructionExceptions :
    (∃ (p : Fin 8) (q : Fin 9) (w : BitVec 56) (op : BitVec 8) (s : State), q.val = p.val ∧ Powered s ∧ StandsAt s.m q op.toNat w.toNat ∧
      flightEmpty s.m q = false ∧ (mget s.m.seqs q).excAt ≠ some (now s.m) ∧ op.toNat = 0x29 ∧ bitsAt w.toNat 16 40 = 0) ∧
    (∃ (p : Fin 8) (q : Fin 9) (w : BitVec 56) (op : BitVec 8) (s : State), q.val = p.val ∧ Powered s ∧ StandsAt s.m q op.toNat w.toNat ∧
      flightEmpty s.m q = false ∧ (mget s.m.seqs q).excAt ≠ some (now s.m) ∧ opReserved op.toNat = true) ∧
    (∃ (p : Fin 8) (q : Fin 9) (w : BitVec 56) (op : BitVec 8) (s : State), q.val = p.val ∧ Powered s ∧ StandsAt s.m q op.toNat w.toNat ∧
      flightEmpty s.m q = false ∧ (mget s.m.seqs q).excAt ≠ some (now s.m) ∧ op.toNat = 1 ∧ w.toNat % 2 ^ 41 ≠ 0) :=
  ⟨⟨0, 0, 0xFFFF, 0x29, on (fun m => runs 0 0x29 0xFFFF {} { m with engines := [(0, { flight := [{}] })] }), by decide +kernel⟩,
    ⟨0, 0, 0, 0xFF, on (fun m => runs 0 0xFF 0 {} { m with engines := [(0, { flight := [{}] })] }), by decide +kernel⟩,
    ⟨0, 0, 1, 1, on (fun m => runs 0 1 1 {} { m with engines := [(0, { flight := [{}] })] }), by decide +kernel⟩⟩

theorem witness_ScratchRegistersAndDescriptors :
    (∃ (q : Fin 9) (w : BitVec 56) (s : State), Powered s ∧ StandsAt s.m q 0x18 w.toNat ∧ bitsAt w.toNat 32 14 = 0 ∧ scalarOk s.m q (fieldOf 64
      ((sReg s.m q (bitsAt w.toNat 46 5) : Int) + (signedOf 32 w.toNat))) = true ∧ ready s.m q ((fieldOf 64 ((sReg s.m q
      (bitsAt w.toNat 46 5) : Int) + (signedOf 32 w.toNat))) / 4096) = true ∧ (q ≠ 8 → scrDamaged s.m q (fieldOf 64 ((sReg s.m q
      (bitsAt w.toNat 46 5) : Int) + (signedOf 32 w.toNat))) 8 = []) ∧ (q = 8 → damage s.m (ptnAddr (fieldOf 64 ((sReg s.m q
      (bitsAt w.toNat 46 5) : Int) + (signedOf 32 w.toNat)))) 8 = 0)) ∧
    (∃ (q : Fin 9) (w : BitVec 56) (s : State), Powered s ∧ StandsAt s.m q 0x19 w.toNat ∧ bitsAt w.toNat 32 14 = 0 ∧ scalarOk s.m q (fieldOf 64
      ((sReg s.m q (bitsAt w.toNat 46 5) : Int) + (signedOf 32 w.toNat))) = true ∧ granFree s.m q ((fieldOf 64 ((sReg s.m q
      (bitsAt w.toNat 46 5) : Int) + (signedOf 32 w.toNat))) / 4096) = true ∧ Clean s.m (if q = 8 then ptnAddr (fieldOf 64 ((sReg s.m q
      (bitsAt w.toNat 46 5) : Int) + (signedOf 32 w.toNat))) else psaAddr s.m q (fieldOf 64 ((sReg s.m q (bitsAt w.toNat 46 5) : Int) +
      (signedOf 32 w.toNat)))) 8 ∧ (q ≠ 8 → scrDamaged s.m q (fieldOf 64 ((sReg s.m q (bitsAt w.toNat 46 5) : Int) + (signedOf 32 w.toNat))) 8 = [])) ∧
    (∃ (q : Fin 9) (w : BitVec 56) (s : State) (b : _), Powered s ∧ StandsAt s.m q 0x1A w.toNat ∧ bitsAt w.toNat 32 14 = 0 ∧ seqRegAddr q
      (signedOf 32 w.toNat) = some b) ∧
    (∃ (q : Fin 9) (w : BitVec 56) (s : State) (n : Nat), Powered s ∧ n < 16 ∧ StandsAt s.m q 0x1B w.toNat ∧ bitsAt w.toNat 32 14 = 0 ∧
      (signedOf 32 w.toNat) = ((0x620 + 4 * n : Nat) : Int)) ∧
    (∃ (q : Fin 9) (w : BitVec 56) (s : State) (k : Nat), Powered s ∧ k < coresPer s.m ∧ q ≠ 8 ∧ StandsAt s.m q 0x1B w.toNat ∧
      bitsAt w.toNat 32 14 = 0 ∧ (signedOf 32 w.toNat) = ((0x40004 + 0x20000 * k : Nat) : Int) ∧ k < 2) ∧
    (∃ (q : Fin 9) (w : BitVec 56) (s : State) (r : _), Powered s ∧ StandsAt s.m q 0x30 w.toNat ∧ bitsAt w.toNat 32 20 = 0 ∧
      (mget s.m.seqs q).run = some r ∧ bitsAt w.toNat 0 32 % 64 = 0 ∧ bitsAt w.toNat 0 32 < r.const) ∧
    (∃ (q : Fin 9) (w : BitVec 56) (s : State) (keep : Bool), Powered s ∧ StandsAt s.m q (if keep then 0x33 else 0x32) w.toNat ∧
      bitsAt w.toNat 32 11 = 0) :=
  ⟨⟨0, 8, on (fun m => runs 0 0x18 8 {} (sets [(readyBit 0 0, 1)] m)), by decide +kernel⟩,
    ⟨0, 8, on (runs 0 0x19 8 {}), by decide +kernel⟩,
    ⟨0, 0xFFFFC, on (runs 0 0x1A 0xFFFFC {}), 0x7F100FFFFC, by decide +kernel⟩,
    ⟨8, 0x624, on (runs 8 0x1B 0x624 {}), 1, by decide +kernel⟩,
    ⟨0, 0x60004, on (runs 0 0x1B 0x60004 {}), 1, by decide +kernel⟩,
    ⟨0, 192, on (runs 0 0x30 192 {}), { code := 64, const := 256 }, by decide +kernel⟩,
    ⟨0, 5, on (runs 0 0x33 5 {}), true, by decide +kernel⟩⟩

theorem witness_DispatchToEngines :
    (∃ (q : Fin 9) (w : BitVec 56) (s : State), Powered s ∧ StandsAt s.m q 0x40 w.toNat ∧ bitsAt w.toNat 0 15 = 0 ∧ (q = 8 ∨
      (bitsAt w.toNat 19 1) < coresPer s.m) ∧ ((bitsAt w.toNat 35 1) = 0 → bitsAt w.toNat 40 4 = 0) ∧ ((bitsAt w.toNat 34 1) = 0 →
      bitsAt w.toNat 36 4 = 0) ∧ ((bitsAt w.toNat 25 9) = 0 ∨ (bitsAt w.toNat 25 9) = 0x0FF ∨ q ≠ 8 ∧ mmaBx s.m q w.toNat = true) ∧ (engine s.m q
      (bitsAt w.toNat 19 1)).queue.length < 4) ∧
    (∃ (q : Fin 9) (w : BitVec 56) (s : State), Powered s ∧ (q = 8 ∨ (bitsAt w.toNat 55 1) < coresPer s.m) ∧ (engine s.m q (2 +
      (bitsAt w.toNat 55 1))).queue.length < 8 ∧ StandsAt s.m q 0x50 w.toNat ∧ bitsAt w.toNat 0 27 = 0 ∧ vecFuncOk false
      (bitsAt w.toNat 49 6) = true ∧ (bitsAt w.toNat 31 1 = 1 ↔ bitsAt w.toNat 49 6 = 9)) ∧
    (∃ (q : Fin 9) (w : BitVec 56) (s : State), Powered s ∧ (q = 8 ∨ (bitsAt w.toNat 55 1) < coresPer s.m) ∧ (engine s.m q (2 +
      (bitsAt w.toNat 55 1))).queue.length < 8 ∧ StandsAt s.m q 0x51 w.toNat ∧ bitsAt w.toNat 0 31 = 0 ∧ bitsAt w.toNat 52 3 < 3 ∧
      (bitsAt w.toNat 35 1 = 1 ↔ bitsAt w.toNat 52 3 = 0)) ∧
    (∃ (q : Fin 9) (w : BitVec 56) (s : State) (c op : _), Powered s ∧ (q = 8 ∨ (bitsAt w.toNat 55 1) < coresPer s.m) ∧ (engine s.m q (2 +
      (bitsAt w.toNat 55 1))).queue.length < 8 ∧ ((c, op) ∈ [(Instr.vld q w, 0x52), (Instr.vst q w, 0x53)]) ∧ StandsAt s.m q op w.toNat ∧
      bitsAt w.toNat 32 13 = 0) ∧
    (∃ (q : Fin 9) (w : BitVec 56) (s : State), Powered s ∧ (q = 8 ∨ (bitsAt w.toNat 55 1) < coresPer s.m) ∧ (engine s.m q (2 +
      (bitsAt w.toNat 55 1))).queue.length < 8 ∧ StandsAt s.m q 0x54 w.toNat ∧ bitsAt w.toNat 0 27 = 0 ∧ vecFuncOk true
      (bitsAt w.toNat 49 6) = true ∧ bitsAt w.toNat 49 6 ≠ 9 ∧ (bitsAt w.toNat 49 6 = 0x22 → bitsAt w.toNat 30 5 < 4)) ∧
    (∃ (p : Fin 8) (q : Fin 9) (w : BitVec 56) (s : State), q.val = p.val ∧ Powered s ∧ (engine s.m p 4).queue.length < 16 ∧
      (engine s.m p 5).queue.length < 8 ∧ StandsAt s.m p 0x60 w.toNat ∧ bitsAt w.toNat 0 41 = 0) ∧
    (∃ (p : Fin 8) (q : Fin 9) (w : BitVec 56) (s : State) (c op : _), q.val = p.val ∧ Powered s ∧ (engine s.m p 4).queue.length < 16 ∧
      (engine s.m p 5).queue.length < 8 ∧ ((c, op) ∈ [(Instr.kvld p w, 0x68), (Instr.kvst p w, 0x69)]) ∧ StandsAt s.m p op w.toNat ∧
      bitsAt w.toNat 0 13 = 0) ∧
    (∃ (p : Fin 8) (q : Fin 9) (w : BitVec 56) (s : State) (c op : _), q.val = p.val ∧ Powered s ∧ (engine s.m p 4).queue.length < 16 ∧
      (engine s.m p 5).queue.length < 8 ∧ ((c, op) ∈ [(Instr.kvrefInc p w, 0), (Instr.kvrefDec p w, 1), (Instr.kvrefFork p w, 2),
      (Instr.kvrefTrunc p w, 3), (Instr.kvrefDrop p w, 4)]) ∧ StandsAt s.m p 0x6A w.toNat ∧ bitsAt w.toNat 0 38 = 0 ∧ bitsAt w.toNat 43 3 = op ∧
      (op ≠ 2 → bitsAt w.toNat 38 5 = 0)) ∧
    (∃ (q : Fin 9) (w : BitVec 56) (s : State), Powered s ∧ StandsAt s.m q 0x7D w.toNat ∧ bitsAt w.toNat 0 47 = 0 ∧
      (engine s.m q 4).queue.length < 16 ∧ strSafety (streamEntry s.m (tagStream (sReg s.m q (bitsAt w.toNat 51 5) % 2 ^ 32))) = true ∧ (dKind
      (tField s.m q w.toNat 47) = 4 → some (dBytes (tField s.m q w.toNat 47) % 2 ^ 24) = (callerProfile s.m (tagStream (sReg s.m q
      (bitsAt w.toNat 51 5) % 2 ^ 32))).map gridBytes) ∧ gridPosted s.m q (sReg s.m q (bitsAt w.toNat 51 5) % 2 ^ 32) = false) :=
  ⟨⟨0, 0, on (runs 0 0x40 0 {}), by decide +kernel⟩,
    ⟨8, 0, on (runs 8 0x50 0 {}), by decide +kernel⟩,
    ⟨0, 0x800000000, on (runs 0 0x51 0x800000000 {}), by decide +kernel⟩,
    ⟨0, 0, on (runs 0 0x52 0 {}), .vld 0 0, 0x52, by decide +kernel⟩,
    ⟨0, 0, on (runs 0 0x54 0 {}), by decide +kernel⟩,
    ⟨7, 7, 0, on (runs 7 0x60 0 {}), by decide +kernel⟩,
    ⟨0, 0, 0, on (runs 0 0x68 0 {}), .kvld 0 0, 0x68, by decide +kernel⟩,
    ⟨0, 0, 0x100000000000, on (runs 0 0x6A 0x100000000000 {}), .kvrefFork 0 0x100000000000, 2, by decide +kernel⟩,
    ⟨8, 0, on (fun m => runs 8 0x7D 0 {} (oneStream 0 2 m)), by decide +kernel⟩⟩

theorem witness_SynchronisationAndLocks :
    (∃ (q : Fin 9) (w : BitVec 56) (s : State), Powered s ∧ StandsAt s.m q 0x70 w.toNat ∧ bitsAt w.toNat 0 36 = 0 ∧ (bitsAt w.toNat 52 4) ≠ 0 ∧
      (bitsAt w.toNat 36 16) ≠ 0) ∧
    (∃ (q : Fin 9) (w : BitVec 56) (s : State), Powered s ∧ StandsAt s.m q 0x71 w.toNat ∧ bitsAt w.toNat 0 36 = 0 ∧ (bitsAt w.toNat 52 4) ≠ 0 ∧
      (bitsAt w.toNat 36 16) ≠ 0 ∧ (bitsAt w.toNat 36 16) ≤ rd s.m (Reg.TC_SEQ_SEM q (bitsAt w.toNat 52 4))) ∧
    (∃ (q : Fin 9) (w : BitVec 56) (s : State), Powered s ∧ ((mget s.m.seqs q).waiting = some (0x71, w.toNat)) ∧ bitsAt w.toNat 0 36 = 0 ∧
      (bitsAt w.toNat 52 4) ≠ 0 ∧ (bitsAt w.toNat 36 16) ≠ 0 ∧ (bitsAt w.toNat 36 16) ≤ rd s.m (Reg.TC_SEQ_SEM q (bitsAt w.toNat 52 4)) ∧ (q ≠ 8 →
      (mget s.m.recov q).killing = none ∧ (mget s.m.recov q).switch = .none) ∧ (mget s.m.recov q).hbDue = false) ∧
    (∃ (q : Fin 9) (w : BitVec 56) (s : State), Powered s ∧ StandsAt s.m q 0x72 w.toNat ∧ bitsAt w.toNat 0 48 = 0 ∧ 0 < bitsAt w.toNat 48 8 ∧
      bitsAt w.toNat 48 8 < (if q = 8 then 16 else 64) ∧ (∀ e < 6, bitOf (bitsAt w.toNat 48 8) e = true → (engine s.m q e).queue = [] ∧
      (engine s.m q e).flight = [])) ∧
    (∃ (q : Fin 9) (w : BitVec 56) (s : State), Powered s ∧ StandsAt s.m q 0x48 w.toNat ∧ bitsAt w.toNat 0 39 = 0 ∧ bitsAt w.toNat 43 6 ≠ 0 ∧
      bitsAt w.toNat 49 6 + bitsAt w.toNat 43 6 ≤ 48 ∧ bitsAt w.toNat 39 4 ≤ 9 ∧ (q ≠ 8 → (bitsAt w.toNat 55 1) < coresPer s.m ∧ banksBusy s.m q
      (bitsAt w.toNat 55 1) ((List.range (bitsAt w.toNat 43 6)).map (fun b => b + bitsAt w.toNat 49 6)) = false)) ∧
    (∃ (q : Fin 9) (w : BitVec 56) (s : State) (gs c op v : _), Powered s ∧ rangeOf s.m q w.toNat = some gs ∧ bitsAt w.toNat 51 5 = 0 ∧
      bitsAt w.toNat 0 41 = 0 ∧ ((c, op, v) ∈ [(Instr.rclr q w, 0x49, false), (Instr.rset q w, 0x4A, true)]) ∧ StandsAt s.m q op w.toNat ∧
      allFree s.m q gs = true) ∧
    (∃ (q : Fin 9) (w : BitVec 56) (s : State) (gs : _), Powered s ∧ rangeOf s.m q w.toNat = some gs ∧ bitsAt w.toNat 51 5 = 0 ∧
      bitsAt w.toNat 0 41 = 0 ∧ StandsAt s.m q 0x4B w.toNat ∧ allReady s.m q gs = true) ∧
    (∃ (p : Fin 8) (w : BitVec 56) (s : State), Powered s ∧ bitsAt w.toNat 0 46 = 0 ∧ (sReg s.m p (bitsAt w.toNat 46 5)) < 1024 ∧ lockOwner s.m
      (sReg s.m p (bitsAt w.toNat 46 5)) = 0x58 + p ∧ StandsAt s.m p 0x73 w.toNat ∧ rd s.m (Reg.LOCK_STATE_HOLDER (sReg s.m p
      (bitsAt w.toNat 46 5))) = 0 ∧ rd s.m (Reg.LOCK_STATE_ABANDONED (sReg s.m p (bitsAt w.toNat 46 5))) = 0) ∧
    (∃ (p : Fin 8) (w : BitVec 56) (s : State), Powered s ∧ bitsAt w.toNat 0 46 = 0 ∧ (sReg s.m p (bitsAt w.toNat 46 5)) < 1024 ∧ lockOwner s.m
      (sReg s.m p (bitsAt w.toNat 46 5)) = 0x58 + p ∧ StandsAt s.m p 0x74 w.toNat ∧ rd s.m (Reg.LOCK_STATE_HOLDER (sReg s.m p
      (bitsAt w.toNat 46 5))) = 0x58 + p) ∧
    (∃ (p : Fin 8) (w : BitVec 56) (s : State), Powered s ∧ bitsAt w.toNat 0 46 = 0 ∧ (sReg s.m p (bitsAt w.toNat 46 5)) < 1024 ∧ lockOwner s.m
      (sReg s.m p (bitsAt w.toNat 46 5)) = 0x58 + p ∧ StandsAt s.m p 0x75 w.toNat ∧ rd s.m (Reg.LOCK_STATE_HOLDER (sReg s.m p
      (bitsAt w.toNat 46 5))) = 0x58 + p) :=
  ⟨⟨0, 0xF0001000000000, on (runs 0 0x70 0xF0001000000000 {}), by decide +kernel⟩,
    ⟨0, 0x10001000000000, on (fun m => runs 0 0x71 0x10001000000000 {} (sets [(Reg.TC_SEQ_SEM 0 1, 1)] m)), by decide +kernel⟩,
    ⟨0, 0x10001000000000, on (fun m => sets [(Reg.TC_SEQ_SEM 0 1, 1)] { m with seqs := [(0, { waiting := some (0x71, 0x10001000000000) })] }),
      by decide +kernel⟩,
    ⟨0, 0x3F000000000000, on (runs 0 0x72 0x3F000000000000 {}), by decide +kernel⟩,
    ⟨0, 0x80000000000, on (runs 0 0x48 0x80000000000 {}), by decide +kernel⟩,
    ⟨0, 0x20000000000, on (runs 0 0x49 0x20000000000 { s := [(1, 1)] }), [0], .rclr 0 0x20000000000, 0x49, false, by decide +kernel⟩,
    ⟨0, 0x20000000000, on (fun m => runs 0 0x4B 0x20000000000 { s := [(1, 1)] } (sets [(readyBit 0 0, 1)] m)), [0], by decide +kernel⟩,
    ⟨0, 0, on (fun m => runs 0 0x73 0 {} (hasSec 0xD 0 (blob 65 [(64, 1, 0x58)]) m)), by decide +kernel⟩,
    ⟨0, 0, on (fun m => runs 0 0x74 0 {} (sets [(Reg.LOCK_STATE_HOLDER 0, 0x58)] (hasSec 0xD 0 (blob 65 [(64, 1, 0x58)]) m))), by decide +kernel⟩,
    ⟨0, 0, on (fun m => runs 0 0x75 0 {} (sets [(Reg.LOCK_STATE_HOLDER 0, 0x58)] (hasSec 0xD 0 (blob 65 [(64, 1, 0x58)]) m))), by decide +kernel⟩⟩

theorem witness_EntriesRecordsAndHints :
    (∃ (p : Fin 8) (w : BitVec 56) (n : Notice) (rest : List Notice) (r : Run) (s : State), Powered s ∧ (mget s.m.seqs p).run = some r ∧
      r.replayOf = none ∧ (mget s.m.recov p).first = [] ∧ bitsAt w.toNat 0 51 = 0 ∧ 0 < bitsAt w.toNat 51 5 ∧ bitsAt w.toNat 51 5 < 31 ∧
      tagLc s.m n.tag = (r.kind == 0) ∧ StandsAt s.m p 0x78 w.toNat ∧ mget s.m.comps p = n :: rest ∧ tagCamera s.m n.tag = true) ∧
    (∃ (p : Fin 8) (w : BitVec 56) (n : Notice) (rest : List Notice) (r : Run) (s : State), Powered s ∧ (mget s.m.seqs p).run = some r ∧
      r.replayOf = none ∧ (mget s.m.recov p).first = [] ∧ bitsAt w.toNat 0 51 = 0 ∧ 0 < bitsAt w.toNat 51 5 ∧ bitsAt w.toNat 51 5 < 31 ∧
      tagLc s.m n.tag = (r.kind == 0) ∧ StandsAt s.m p 0x79 w.toNat ∧ mget s.m.rnotes p = n :: rest ∧ tagCamera s.m n.tag = false) ∧
    (∃ (w : BitVec 56) (n : Notice) (rest : List Notice) (s : State), Powered s ∧ StandsAt s.m 8 0x7B w.toNat ∧ bitsAt w.toNat 0 51 = 0 ∧
      0 < bitsAt w.toNat 51 5 ∧ bitsAt w.toNat 51 5 < 31 ∧ mget s.m.rnotes 8 = n :: rest) ∧
    (∃ (p : Fin 8) (w : BitVec 56) (e : List Byte) (s : State), Powered s ∧ StandsAt s.m p 0x7A w.toNat ∧ bitsAt w.toNat 51 5 = 0 ∧
      bitsAt w.toNat 0 41 = 0 ∧ streamEntry? s.m (sReg s.m p (bitsAt w.toNat 46 5)) = some e ∧ strCamera e = false ∧ strPart e = p ∧ (sReg s.m p
      (bitsAt w.toNat 41 5)) < 128 ∧ slotHeld s.m (sReg s.m p (bitsAt w.toNat 46 5)) ((sReg s.m p (bitsAt w.toNat 41 5)) % 64) ((sReg s.m p
      (bitsAt w.toNat 41 5)) / 64) = true) ∧
    (∃ (p : Fin 8) (w : BitVec 56) (it : Item) (s : State), Powered s ∧ StandsAt s.m p 0x7C w.toNat ∧ bitsAt w.toNat 0 41 = 0 ∧ lookup s.m.items
      (sReg s.m p (bitsAt w.toNat 51 5) % 2 ^ 32) = some it ∧ it.part = p ∧ it.fixed = none ∧ it.verdict ≠ some false ∧ pastDeadline s.m (sReg s.m p
      (bitsAt w.toNat 51 5) % 2 ^ 32) = false ∧ ((sReg s.m p (bitsAt w.toNat 42 5)) % 16 = 0 ∨ (sReg s.m p (bitsAt w.toNat 42 5)) % 16 = 3) ∧ bitsAt
      (sReg s.m p (bitsAt w.toNat 42 5)) 4 12 = 0 ∧ (sReg s.m p (bitsAt w.toNat 51 5) % 2 ^ 32) ∉ (mget s.m.seqs p).results ∧ (sReg s.m p
      (bitsAt w.toNat 51 5) % 2 ^ 32) ∉ (mget s.m.seqs p).commits ∧ (engine s.m p 4).queue.length < 16 ∧ bitsAt w.toNat 41 1 = 1 ∧
      bitsAt w.toNat 47 4 = 0) ∧
    (∃ (p : Fin 8) (w : BitVec 56) (it : Item) (s : State), Powered s ∧ StandsAt s.m p 0x7C w.toNat ∧ bitsAt w.toNat 0 41 = 0 ∧ lookup s.m.items
      (sReg s.m p (bitsAt w.toNat 51 5) % 2 ^ 32) = some it ∧ it.part = p ∧ it.fixed = none ∧ it.verdict ≠ some false ∧ pastDeadline s.m (sReg s.m p
      (bitsAt w.toNat 51 5) % 2 ^ 32) = false ∧ ((sReg s.m p (bitsAt w.toNat 42 5)) % 16 = 0 ∨ (sReg s.m p (bitsAt w.toNat 42 5)) % 16 = 3) ∧ bitsAt
      (sReg s.m p (bitsAt w.toNat 42 5)) 4 12 = 0 ∧ (sReg s.m p (bitsAt w.toNat 51 5) % 2 ^ 32) ∉ (mget s.m.seqs p).results ∧ (sReg s.m p
      (bitsAt w.toNat 51 5) % 2 ^ 32) ∉ (mget s.m.seqs p).commits ∧ (engine s.m p 4).queue.length < 16 ∧ bitsAt w.toNat 41 1 = 0) ∧
    (∃ (p : Fin 8) (o : EngOp) (rest : List EngOp) (it : Item) (bs : List Byte) (s : State), Powered s ∧ (engine s.m p 4).flight = o :: rest ∧
      o.opcode = 0x7C ∧ (payRead p o s.m = (bs, 0, s.m)) ∧ (mget s.m.recov p).killing = none ∧ lookup s.m.items (o.vals.headD 0) = some it ∧
      it.fixed = none ∧ it.verdict ≠ some false ∧ pastDeadline s.m (o.vals.headD 0) = false ∧ bs.length ≤ qPaySlot s.m it.queue) ∧
    (∃ (w : BitVec 56) (s : State), Powered s ∧ StandsAt s.m 8 0x7E w.toNat ∧ bitsAt w.toNat 0 46 = 0) ∧
    (∃ (p : Fin 8) (q : Fin 9) (w : BitVec 56) (s : State), q.val = p.val ∧ Powered s ∧ StandsAt s.m p 0x7E w.toNat ∧ bitsAt w.toNat 0 46 = 0) :=
  ⟨⟨0, 0x8000000000000, {}, [], { kind := 1 }, on (fun m =>
      runs 0 0x78 0x8000000000000 { run := some { kind := 1 } } { m with comps := [(0, [{}])] }), by decide +kernel⟩,
    ⟨0, 0x8000000000000, {}, [], { kind := 1 }, on (fun m => runs 0 0x79 0x8000000000000 { run := some { kind := 1 } }
      (oneStream 1 0 { m with rnotes := [(0, [{}])] })), by decide +kernel⟩,
    ⟨0xF0000000000000, {}, [], on (fun m => runs 8 0x7B 0xF0000000000000 {} { m with rnotes := [(8, [{}])] }), by decide +kernel⟩,
    ⟨0, 0, streamEntry (oneStream 1 0 {}) 0, on (fun m => runs 0 0x7A 0 {}
      (oneStream 1 0 { m with streams := [(0, { ring := { slots := [(0, true)] } })] })), by decide +kernel⟩,
    ⟨0, 0x20000000000, {}, on (fun m => runs 0 0x7C 0x20000000000 {} { m with items := [(0, {})] }), by decide +kernel⟩,
    ⟨0, 0, {}, on (fun m => runs 0 0x7C 0 {} { m with items := [(0, {})] }), by decide +kernel⟩,
    ⟨0, { opcode := 0x7C, vals := [3] }, [], {}, [], on (fun m =>
      { m with items := [(3, {})], engines := [(4, { flight := [{ opcode := 0x7C, vals := [3] }] })] }), by decide +kernel⟩,
    ⟨0, on (runs 8 0x7E 0 {}), by decide +kernel⟩,
    ⟨0, 0, 0x1400000000000, on (runs 0 0x7E 0x1400000000000 {}), by decide +kernel⟩⟩

theorem witness_ArraysRampAndIssue :
    (∃ (p : Fin 8) (k : Fin 2) (s : State), Powered s ∧ k < coresPer s.m ∧ stepAllowed s.m p k = true ∧ rd s.m
      (Reg.TC_CORE_STATUS_RAMP_STATE p k) = 1 ∧ (rd s.m (Reg.TC_CORE_STATUS_RAMP_STEP p k)) < 8) ∧
    (∃ (p : Fin 8) (k : Fin 2) (s : State), Powered s ∧ k < coresPer s.m ∧ stepAllowed s.m p k = true ∧ rd s.m
      (Reg.TC_CORE_STATUS_RAMP_STATE p k) = 3 ∧ (engine s.m p k).queue = []) ∧
    (∃ (p : Fin 8) (k : Fin 2) (at0 : Nat) (s : State), Powered s ∧ rd s.m (Reg.TC_CORE_STATUS_RAMP_STATE p k) = 2 ∧ (engine s.m p k).queue = [] ∧
      (engine s.m p k).flight = [] ∧ rd s.m (Reg.TC_CORE_CTRL_HOLD_WARM p k) = 0 ∧ (coreSt s.m p k).idleAt = some at0 ∧ at0 + cyclesNs s.m p (rd s.m
      (Reg.TC_CORE_CTRL_IDLE_HOLD p k)) ≤ now s.m) ∧
    (∃ (q : Fin 9) (k : Fin 2) (o : EngOp) (rest : List EngOp) (s : State), Powered s ∧ (engine s.m q k).queue = o :: rest ∧
      mmaFault s.m q k o = none ∧ mmaHeld s.m q k (mmaArgs o) = 0) ∧
    (∃ (p : Fin 8) (k : Fin 2) (s : State), Powered s ∧ residueDue s.m p k = true ∧ rd s.m (Reg.TC_CORE_CHK_STATUS_RESIDUE_ON p k) = 0 ∧
      stepAllowed s.m p k = true) ∧
    (∃ (who : Requester) (p : Fin 8) (k : Fin 2) (s : State), Powered s ∧ MayWrite s.m who (Reg.TC_CORE_CHK_CTRL_TOL p k) .seqfwHcMi) :=
  ⟨⟨0, 1, on (sets [(Reg.TC_CORE_STATUS_RAMP_STATE 0 1, 1), (Reg.TC_CORE_STATUS_RAMP_STEP 0 1, 7)]), by decide +kernel⟩,
    ⟨0, 0, on (sets [(Reg.TC_CORE_STATUS_RAMP_STATE 0 0, 3)]), by decide +kernel⟩,
    ⟨0, 0, 0, on (fun m => sets [(Reg.TC_CORE_STATUS_RAMP_STATE 0 0, 2), (Reg.TC_CORE_CTRL_IDLE_HOLD 0 0,
      0)] { m with cores := [(0, { idleAt := some 0 })] }), by decide +kernel⟩,
    ⟨8, 1, oneMma, [], on (fun m => sets [(readyBit 8 0, 1), (readyBit 8 1, 1)] { m with engines := [(65, { queue := [oneMma] })] }),
      by decide +kernel⟩,
    ⟨0, 1, on (sets [(Reg.TC_CORE_CHK_STATUS_RESIDUE_CAUSE 0 1, 1)]), by decide +kernel⟩,
    ⟨.mi false, 7, 1, on id, by decide +kernel⟩⟩

theorem witness_EngineInstructionsComplete :
    (∃ (q : Fin 9) (k : Fin 2) (o : EngOp) (rest : List EngOp) (s : State), Powered s ∧ s.m.bad = [] ∧ (engine s.m q k).flight = o :: rest ∧
      o.ends ≤ now s.m ∧ (q ≠ 8 → (mget s.m.recov q).detect = none ∧ (mget s.m.recov q).killing = none) ∧ (∀ gn ∈ granulesOf (mmaArgs o).writes,
      gn < 2 ^ 14) ∧ (q = 8 →
      failingTiles { g := (seqBytes s.m q), a := (mmaArgs o), tiles := ((mmaTiles (mmaArgs o) (mmaWs s.m q k)).zipIdx.map (fun t => (t.1, upsetAt [] t.2))) } {} = []) ∧
      (q ≠ 8 →
      failingTiles { g := (seqBytes s.m q), a := (mmaArgs o), tiles := ((mmaTiles (mmaArgs o) (mmaWs s.m q k)).zipIdx.map (fun t => (t.1, upsetAt [] t.2))), tol := rd s.m (Reg.TC_CORE_CHK_CTRL_TOL q k) } { ws := mmaWs s.m q k, bypass := rdb s.m (Reg.TC_CORE_CHK_STATUS_CHECK_BYPASSED q k), residue := rdb s.m (Reg.TC_CORE_CHK_STATUS_RESIDUE_ON q k), operand := fun j => ((mmaTiles (mmaArgs o) (mmaWs s.m q k))[j]?).bind (tileDamage s.m q (mmaArgs o)) } = [])) ∧
    (∃ (q : Fin 9) (k : Fin 2) (o : EngOp) (rest : List EngOp) (s : State), Powered s ∧ (engine s.m q (2 + k)).queue = o :: rest ∧
      vecFault s.m q k o = none ∧ vecReady s.m q k o = true) ∧
    (∃ (q : Fin 9) (k : Fin 2) (o : EngOp) (rest : List EngOp) (s : State), Powered s ∧ s.m.bad = [] ∧ (takeDue (now s.m) (engine s.m q
      (2 + k)).flight = some (o, rest)) ∧ (q ≠ 8 → (mget s.m.recov q).detect = none ∧ (mget s.m.recov q).killing = none) ∧ (∀ gn ∈ granulesOf
      (vecWrites o), gn < 2 ^ 14) ∧ (o.vals.getD (if o.opcode = 0x54 then 0 else 1) 0 = 0 ∨ o.opcode ≠ 0x53 ∧ o.opcode ≠ 0x54)) ∧
    (∃ (q : Fin 9) (o : EngOp) (rest : List EngOp) (s : State), Powered s ∧ (engine s.m q 4).queue = o :: rest ∧
      (if o.opcode = 0x60 then copyFault s.m q o else payFault s.m q o) = none ∧ allReady s.m q (granulesOf (dmaReads o)) = true ∧ writable s.m q
      (granulesOf (dmaWrites o)) = true) ∧
    (∃ (p : Fin 8) (q : Fin 9) (o : EngOp) (rest : List EngOp) (n : Mach) (s : State), q.val = p.val ∧ Powered s ∧
      (engine s.m p 4).flight = o :: rest ∧ o.opcode = 0x60 ∧ (mget s.m.recov p).killing = none ∧ copyHeld s.m o.src = false ∧
      copyHeld s.m o.dst = false ∧ wholeSlot s.m o.src = none ∧ (∀ gn ∈ granulesOf (copyRanges o.dst), gn < 2 ^ 14) ∧
      ((copyOrder o.src o.order).foldl (fun r i => copyOne p o (if dKind o.src = 3 then 7 else 11) i r) (false, s.m) = (false, n)) ∧
      n = { s.m with mem := n.mem }) ∧
    (∃ (q : Fin 9) (o : EngOp) (rest : List EngOp) (bs : List Byte) (s : State), Powered s ∧ (engine s.m q 4).flight = o :: rest ∧ o.opcode = 0x7D ∧
      (payRead q o s.m = (bs, 0, s.m)) ∧ (mget s.m.recov q).killing = none) ∧
    (∃ (p : Fin 8) (k : Fin 2) (bank : Fin 48) (w : Nat) (rest : List Nat) (s : State), Powered s ∧ mget s.m.poisonq
      ((p.val * 2 + k) * 64 + bank) = w :: rest) :=
  ⟨⟨8, 1, oneMma, [], on (fun m => { m with engines := [(65, { flight := [oneMma] })] }), by decide +kernel⟩,
    ⟨8, 0, { opcode := 0x54, word := 0xC00000000000 }, [], on (fun m =>
      { m with engines := [(66, { queue := [{ opcode := 0x54, word := 0xC00000000000 }] })] }), by decide +kernel⟩,
    ⟨0, 0, { opcode := 0x54 }, [], on (fun m => { m with engines := [(2, { flight := [{ opcode := 0x54 }] })] }), by decide +kernel⟩,
    ⟨8, { opcode := 0x7D, descs := [vec 0 64] }, [], on (fun m => sets [(readyBit 8 0,
      1)] { m with engines := [(68, { queue := [{ opcode := 0x7D, descs := [vec 0 64] }] })] }), by decide +kernel⟩,
    ⟨0, 0, { opcode := 0x60, descs := [mat 0 0 8 1, mat 0 4096 8 1] }, [], { oneCopy.m with mem := oneCopy.m.mem ++ [(psaAddr {} 0 4096, 7)] },
      oneCopy, by decide +kernel⟩,
    ⟨8, { opcode := 0x7D, descs := [vec 0 2] }, [], [0, 0], on (fun m =>
      { m with engines := [(68, { flight := [{ opcode := 0x7D, descs := [vec 0 2] }] })] }), by decide +kernel⟩,
    ⟨0, 1, 47, 3, [4], on (fun m => { m with poisonq := [(111, [3, 4])] }), by decide +kernel⟩⟩

theorem witness_KvCommandsRun :
    (∃ (who : Requester) (p : Fin 8) (s : State) (c code op : _), Powered s ∧ MayWrite s.m who (Reg.KV_CMD_CMD p) .seqfwPfHcMi ∧ rd s.m
      (Reg.KV_CMD_STATUS_STATE p) ≠ 1 ∧ kvIdle s.m p = true ∧ (mget s.m.kvs p).inbox = [] ∧ ((c, code, op) ∈ ([(Instr.kvCmdCreate who p, 1,
      kvCreate p), (Instr.kvCmdInc who p, 2, kvRefOp p 0 (rd s.m (Reg.KV_ARG p 0)) (rd s.m (Reg.KV_ARG p 1)) (fun _ => walkOk)),
      (Instr.kvCmdDec who p, 3, kvRefOp p 1 (rd s.m (Reg.KV_ARG p 0)) (rd s.m (Reg.KV_ARG p 1)) (fun _ => walkOk)), (Instr.kvCmdFork who p, 4,
      kvRefOp p 2 (rd s.m (Reg.KV_ARG p 0)) (rd s.m (Reg.KV_ARG p 1)) (fun n m => walkOk (wr (Reg.KV_RES p 0) n m))), (Instr.kvCmdTrunc who p, 5,
      kvRefOp p 3 (rd s.m (Reg.KV_ARG p 0)) (rd s.m (Reg.KV_ARG p 1)) (fun _ => walkOk)), (Instr.kvCmdDrop who p, 6, kvRefOp p 4 (rd s.m
      (Reg.KV_ARG p 0)) (rd s.m (Reg.KV_ARG p 1)) (fun _ => walkOk)), (Instr.kvQuery who p, 7, kvQuery p), (Instr.kvEvict who p, 10,
      kvEvict p)] : List (Instr × Nat × (Mach → Walk)))) ∧ (code = 4 ∨ code = 5 → (∀ n, (fun  (code : Nat) (m0 : Mach) =>
      m0 = { s.m with regs := m0.regs, kvs := m0.kvs } ∧ RegsKept [Reg.KV_CMD_STATUS_STATE p, Reg.KV_CMD_STATUS_REASON p] s.m m0 ∧
      mget m0.kvs p = { mget s.m.kvs p with inbox := [], pending := none, op := .cmd code } ∧ ∀ k, k ≠ p → mget m0.kvs k = mget s.m.kvs k) code n →
      withHandle p (rd s.m (Reg.KV_ARG p 0)) (fun _ m => (some 0, m)) n = (some 0, n)) ∧ anyAbsent s.m p (readHandle s.m p ((rd s.m
      (Reg.KV_ARG p 0)) % 4096)) (splitPtes (readHandle s.m p ((rd s.m (Reg.KV_ARG p 0)) % 4096)) (rd s.m (Reg.KV_ARG p 1))) = false)) ∧
    (∃ (who : Requester) (p : Fin 8) (s : State), Powered s ∧ MayWrite s.m who (Reg.KV_CMD_CMD p) .seqfwPfHcMi ∧ rd s.m
      (Reg.KV_CMD_STATUS_STATE p) ≠ 1 ∧ kvIdle s.m p = true ∧ (mget s.m.kvs p).inbox = []) ∧
    (∃ (who : Requester) (p : Fin 8) (s : State), Powered s ∧ MayWrite s.m who (Reg.KV_CMD_CMD p) .seqfwPfHcMi ∧ rd s.m
      (Reg.KV_CMD_STATUS_STATE p) ≠ 1 ∧ kvIdle s.m p = true ∧ (mget s.m.kvs p).inbox = []) ∧
    (∃ (h : Handle), h.ref < 65535) ∧
    (∃ (h : Handle), 1 < h.ref) :=
  ⟨⟨.mi false, 0, on id, .kvCmdCreate (.mi false) 0, 1, kvCreate 0, rfl, by decide +kernel, by decide +kernel, by decide +kernel, rfl, .head _,
      fun h => absurd h (by decide)⟩,
    ⟨.mi false, 0, on id, by decide +kernel⟩,
    ⟨.pf, 7, on id, by decide +kernel⟩,
    ⟨{ idx := 1, ref := 65534 }, by decide +kernel⟩,
    ⟨{ idx := 1, ref := 2 }, by decide +kernel⟩⟩

theorem witness_KvWalkerGoesOn :
    (∃ (p : Fin 8) (o : EngOp) (rest : List EngOp) (s : State), Powered s ∧ kvIdle s.m p = true ∧ (mget s.m.kvs p).inbox = [] ∧
      (mget s.m.kvs p).pending = none ∧ (engine s.m p 5).queue = o :: rest ∧ kvDecode s.m p o = none ∧ kvPends s.m p o = false ∧ allReady s.m p
      (granulesOf (kvReads o)) = true ∧ writable s.m p (granulesOf (kvWrites o)) = true) ∧
    (∃ (p : Fin 8) (o : EngOp) (rest : List EngOp) (n : Mach) (s : State), Powered s ∧ rd s.m (Reg.TC_RECOV_STATUS_STATE p) ≠ 3 ∧
      (mget s.m.kvs p).journal = none ∧ (mget s.m.kvs p).op = .instr ∧ (engine s.m p 5).flight = o :: rest ∧ (instrWork p o s.m = some (none, n)) ∧
      engine n p 5 = { flight := o :: rest } ∧ (mget n.kvs p).inbox = [] ∧ (mget n.kvs p).pending = none ∧ (mget n.recov p).killing = none ∧
      (∀ g ∈ granulesOf (kvWrites o), g < 2 ^ 14)) ∧
    (∃ (p : Fin 8) (i : Nat) (rest : List Nat) (s : State), Powered s ∧ s.m.bad = [] ∧ (mget s.m.kvs p).zeroing = i :: rest) ∧
    (∃ (p : Fin 8) (s : State), Powered s ∧ (mget s.m.kvs p).building = true ∧ s.m.ldr.trained = true ∧ rd s.m (Reg.TC_RECOV_STATUS_STATE p) ≠ 3 ∧
      (mget s.m.kvs p).journal = none ∧ (mget s.m.kvs p).inbox = [] ∧ (mget s.m.kvs p).pending = none ∧ (mget s.m.kvs p).op = .idle ∧
      (engine s.m p 5).queue = []) ∧
    (∃ (src p : Fin 8) (g : KvMsg) (rest : List KvMsg) (s : State), Powered s ∧ (mget s.m.kvs src).msgs = g :: rest ∧ g.link = 4 ∧ g.part = p.val ∧
      (mget s.m.kvs p).inbox = [] ∧ rd s.m (Reg.TC_RECOV_STATUS_STATE p) ≠ 3 ∧ (mget s.m.kvs p).building = false ∧ kvIdle s.m p = false) ∧
    (∃ (p : Fin 8) (x y : KvRead) (rest : List KvRead) (at0 : Nat) (s : State), Powered s ∧ (mget s.m.kvs p).reads = x :: y :: rest ∧
      x.downAt = some at0 ∧ at0 ≤ now s.m ∧ 1000 * rd s.m (Reg.KV_REMOTE_TIMEOUT p) ≤ now s.m - at0 ∧ (∀ z ∈ y :: rest, z.downAt = none ∧
      z.req ≠ x.req)) :=
  ⟨⟨0, { opcode := 0x6A }, [], on (fun m => { m with engines := [(5, { queue := [{ opcode := 0x6A }] })] }), by decide +kernel⟩,
    ⟨0, { opcode := 0x6A, vals := [1] }, [], ((instrWork 0 { opcode := 0x6A, vals := [1] } oneHandle.m).getD (some 0, {})).2, oneHandle,
      by decide +kernel⟩,
    ⟨0, 3, [4], on (fun m => { m with kvs := [(0, { zeroing := [3, 4] })] }), by decide +kernel⟩,
    ⟨0, on (fun m => { m with ldr := { trained := true }, kvs := [(0, { building := true })] }), by decide +kernel⟩,
    ⟨1, 0, {}, [], on (fun m => { m with kvs := [(0, { op := .instr }), (1, { msgs := [{}] })] }), by decide +kernel⟩,
    ⟨0, { downAt := some 0 }, { req := 1 }, [], 0, on (fun m => sets [(Reg.TIME_NOW, 2000000), (Reg.KV_REMOTE_TIMEOUT 0,
      2000)] { m with kvs := [(0, { reads := [{ downAt := some 0 }, { req := 1 }] })] }), by decide +kernel⟩⟩

theorem witness_ScratchAccessesAndWipes :
    (∃ (who : Requester) (addr : Nat) (data : List Byte) (s : State) (p psa : _), Powered s ∧ awake s.m who = true ∧ s.m.bad = [] ∧ data ≠ [] ∧
      (scrOf s.m addr data.length = some (p, psa)) ∧ isH who = true ∧ scrDown s.m p = false ∧ allFree s.m p (granules psa data.length) = true) ∧
    (∃ (who : Requester) (addr : Nat) (data : List Byte) (s : State) (p psa : _), Powered s ∧ awake s.m who = true ∧ s.m.bad = [] ∧ data ≠ [] ∧
      (scrOf s.m addr data.length = some (p, psa)) ∧ isH who = true ∧ scrDown s.m p = false ∧ allFree s.m p (granules psa data.length) = false) ∧
    (∃ (who : Requester) (addr : Nat) (data : List Byte) (s : State), Powered s ∧ awake s.m who = true ∧ s.m.bad = [] ∧ data ≠ [] ∧
      inSram addr data.length = true ∧ (∃ b, who = .mi b)) ∧
    (∃ (who : Requester) (addr len : Nat) (s : State) (p psa : _), Powered s ∧ awake s.m who = true ∧ isH who = true ∧ s.m.bad = [] ∧ len ≠ 0 ∧
      (scrOf s.m addr len = some (p, psa)) ∧ scrDown s.m p = false) ∧
    (∃ (who : Requester) (addr len : Nat) (s : State), Powered s ∧ awake s.m who = true ∧ isH who = true ∧ s.m.bad = [] ∧ len ≠ 0 ∧
      inSram addr len = true) ∧
    (∃ (p : Fin 8) (s : State), Powered s ∧ rd s.m (Reg.SCR_STATUS_WIPING p) = 1 ∧ (mget s.m.recov p).wipeAt + cyclesNs s.m p 8800 ≤ now s.m ∧ rd s.m
      (Reg.TC_RECOV_STATUS_STATE p) = 3) ∧
    (∃ (p : Fin 8) (s : State), Powered s ∧ rd s.m (Reg.SCR_STATUS_WIPING p) = 1 ∧ (mget s.m.recov p).wipeAt + cyclesNs s.m p 8800 ≤ now s.m ∧ rd s.m
      (Reg.TC_RECOV_STATUS_STATE p) ≠ 3 ∧ (mget s.m.recov p).switch = .none ∧ (mget s.m.recov p).restart = none) ∧
    (∃ (p : Fin 8) (at0 : Nat) (s : State) (who : _), Powered s ∧ (mget s.m.recov p).forensic = some at0 ∧ MayWrite s.m who
      (Reg.SCR_FORENSIC_RELEASE p) .leadMi) ∧
    (∃ (p : Fin 8) (at0 : Nat) (s : State), Powered s ∧ (mget s.m.recov p).forensic = some at0 ∧ at0 + 1000000000 ≤ now s.m) :=
  ⟨⟨.mi false, 0x4000000000, [7], on id, 0, 0, by decide +kernel⟩,
    ⟨.mi false, 0x4000000000, [7], on (fun m => { m with grans := [(0, 1)] }), 0, 0, by decide +kernel⟩,
    ⟨.mi false, 0x4800FFFFFF, [7], on id, rfl, rfl, rfl, by decide, by decide +kernel, _, rfl⟩,
    ⟨.mi true, 0x4000000000, 4, on id, 0, 0, by decide +kernel⟩,
    ⟨.mi true, 0x4800000000, 0x1000000, on id, by decide +kernel⟩,
    ⟨0, on (sets [(Reg.TIME_NOW, 1000000), (Reg.SCR_STATUS_WIPING 0, 1), (Reg.TC_RECOV_STATUS_STATE 0, 3)]), by decide +kernel⟩,
    ⟨0, on (sets [(Reg.TIME_NOW, 1000000), (Reg.SCR_STATUS_WIPING 0, 1)]), by decide +kernel⟩,
    ⟨0, 5, on (fun m => { m with recov := [(0, { forensic := some 5 })] }), .mi true, by decide +kernel⟩,
    ⟨0, 5, on (fun m => sets [(Reg.TIME_NOW, 1000000005)] { m with recov := [(0, { forensic := some 5 })] }), by decide +kernel⟩⟩

theorem witness_HbmAccessesAndUpkeep :
    (∃ (who : Requester) (a : Nat) (s : State) (n : _), Powered s ∧ awake s.m who = true ∧ n ≠ 0 ∧ inHbm s.m a n = true ∧
      masterHbm s.m who a n false = true ∧ inRefresh s.m a n = false ∧ Clean s.m a n) ∧
    (∃ (who : Requester) (a : Nat) (s : State) (n : _), Powered s ∧ awake s.m who = true ∧ n ≠ 0 ∧ inHbm s.m a n = true ∧
      masterHbm s.m who a n false = true ∧ inRefresh s.m a n = true ∧ heldMaster who = true) ∧
    (∃ (who : Requester) (a : Nat) (s : State) (bs : List Byte), Powered s ∧ awake s.m who = true ∧ bs ≠ [] ∧ inHbm s.m a bs.length = true ∧
      masterHbm s.m who a bs.length true = true ∧ loaderOnly s.m a bs.length = false ∧ inRefresh s.m a bs.length = false ∧ Clean s.m a bs.length) ∧
    (∃ (who : Requester) (a : Nat) (s : State) (bs : List Byte), Powered s ∧ awake s.m who = true ∧ bs ≠ [] ∧ inHbm s.m a bs.length = true ∧
      masterHbm s.m who a bs.length true = true ∧ loaderOnly s.m a bs.length = false ∧ inRefresh s.m a bs.length = true ∧ heldMaster who = true) ∧
    (∃ (s : State), Powered s) ∧
    (∃ (s : State), Powered s) ∧
    (∃ (ch : Fin 32) (s : State), Powered s ∧ (mget s.m.chans ch).calDefer ≠ 0 ∧ (calDeferTurns s.m ≤
      (mget s.m.chans ch).calDefer ∨ 1000000 * calDeferMs s.m ≤ now s.m - (mget s.m.chans ch).deferAt)) ∧
    (∃ (ch : Fin 32) (s : State), Powered s ∧ rd s.m (Reg.MEM_STATUS_STATE ch) = 2 ∧ 1000000000 * scrubLimitS s.m ≤ now s.m -
      (mget s.m.chans ch).passAt ∧ rd s.m (Reg.MEM_STATUS_SCRUB_STARVED ch) = 0) :=
  ⟨⟨.mi false, 0, on id, 0xC00000000, by decide +kernel⟩,
    ⟨.mi false, 0, on (sets [(Reg.MEM_STATUS_STATE (hbmChannel {} 0), 3)]), 8, by decide +kernel⟩,
    ⟨.mi false, 0xBFFFFFFFF, on id, [7], by decide +kernel⟩,
    ⟨.dma 0, 0, on (sets [(Reg.MEM_STATUS_STATE (hbmChannel {} 0), 3)]), [7], by decide +kernel⟩,
    ⟨on id, by decide +kernel⟩,
    ⟨on id, by decide +kernel⟩,
    ⟨31, on (fun m => { m with chans := [(31, { calDefer := 16 })] }), by decide +kernel⟩,
    ⟨0, on (sets [(Reg.TIME_NOW, 3600000000000), (Reg.MEM_STATUS_STATE 0, 2)]), by decide +kernel⟩⟩

theorem witness_MarginTestsRun :
    (∃ (s : State), Powered s ∧ applied s.m = true ∧ rd s.m Reg.SAF_MARGIN_CTRL_ENABLE = 1 ∧ s.m.margin.dueAt = none ∧ getD 0 s.m.margin.last
      (rd s.m Reg.SAF_MARGIN_STATUS_NEXT) + marginPeriodNs s.m ≤ now s.m ∧ (rd s.m Reg.SAF_MARGIN_STATUS_NEXT) < 8) ∧
    (∃ (s : State), Powered s ∧ applied s.m = true ∧ rd s.m Reg.SAF_MARGIN_CTRL_ENABLE = 1 ∧ s.m.margin.dueAt = none ∧ getD 0 s.m.margin.last
      (rd s.m Reg.SAF_MARGIN_STATUS_NEXT) + marginPeriodNs s.m ≤ now s.m ∧ 8 ≤ (rd s.m Reg.SAF_MARGIN_STATUS_NEXT) ∧ spareServes s.m
      ((rd s.m Reg.SAF_MARGIN_STATUS_NEXT) - 8) = false) ∧
    (∃ (s : State), Powered s ∧ applied s.m = true ∧ rd s.m Reg.SAF_MARGIN_CTRL_ENABLE = 1 ∧ s.m.margin.dueAt = none ∧ getD 0 s.m.margin.last
      (rd s.m Reg.SAF_MARGIN_STATUS_NEXT) + marginPeriodNs s.m ≤ now s.m ∧ 8 ≤ (rd s.m Reg.SAF_MARGIN_STATUS_NEXT) ∧ spareServes s.m
      ((rd s.m Reg.SAF_MARGIN_STATUS_NEXT) - 8) = true) ∧
    (∃ (at0 : Nat) (s : State), Powered s ∧ rd s.m Reg.SAF_MARGIN_STATUS_RUNNING = 0 ∧ s.m.margin.cool = false ∧ s.m.margin.dueAt = some at0 ∧
      at0 + min 600000000000 (marginPeriodNs s.m) ≤ now s.m) ∧
    (∃ (failed : List (Fin 3)) (age : Int) (s : State), Powered s ∧ rd s.m Reg.SAF_MARGIN_STATUS_RUNNING = 1 ∧ s.m.margin.endAt ≤ now s.m ∧
      (rd s.m Reg.SAF_MARGIN_STATUS_NEXT) < 8 ∧ failed = [] ∧ age ≤ 25) ∧
    (∃ (failed : List (Fin 3)) (s : State), Powered s ∧ rd s.m Reg.SAF_MARGIN_STATUS_RUNNING = 1 ∧ s.m.margin.endAt ≤ now s.m ∧ 8 ≤
      (rd s.m Reg.SAF_MARGIN_STATUS_NEXT) ∧ (rd s.m Reg.SAF_MARGIN_STATUS_NEXT) < 10 ∧ (∃ x ∈ failed, x.val ≠ 1)) :=
  ⟨⟨on (fun m => hasSec 1 0 [] (sets [(Reg.TIME_NOW, 60000000000000), (Reg.SAF_MARGIN_CTRL_ENABLE, 1), (Reg.SAF_MARGIN_STATUS_NEXT, 7)] m)),
      by decide +kernel⟩,
    ⟨on (fun m => hasSec 1 0 [] (sets [(Reg.TIME_NOW, 60000000000000), (Reg.SAF_MARGIN_CTRL_ENABLE, 1), (Reg.SAF_MARGIN_STATUS_NEXT, 8)] m)),
      by decide +kernel⟩,
    ⟨on (fun m => hasSec 1 0 [] (sets [(Reg.TIME_NOW, 60000000000000), (Reg.SAF_MARGIN_CTRL_ENABLE, 1), (Reg.SAF_MARGIN_STATUS_NEXT, 9),
      (Reg.SAF_SPARE_MAP_S1_IN_USE, 1)] m)), by decide +kernel⟩,
    ⟨0, on (fun m => sets [(Reg.TIME_NOW, 600000000000)] { m with margin := { dueAt := some 0 } }), by decide +kernel⟩,
    ⟨[], 25, on (sets [(Reg.SAF_MARGIN_STATUS_RUNNING, 1)]), by decide +kernel⟩,
    ⟨[0], on (sets [(Reg.SAF_MARGIN_STATUS_RUNNING, 1), (Reg.SAF_MARGIN_STATUS_NEXT, 8)]), by decide +kernel⟩⟩

theorem witness_TimeSourcesComeAndGo :
    (∃ (s : State), Powered s) ∧
    (∃ (c : Instr) (x : Nat) (s : State), Powered s ∧ (c = .ptpSourceLost ∧ x = 1 ∨ c = .ppsInLost ∧ x = 2 ∧ ∀ a, s.m.time.lastPps = some a →
      a + 1500000000 ≤ now s.m) ∧ sourcePresent s.m x = true ∧ rd s.m Reg.TIME_STATUS_IN_USE = x ∧ (∀ y ∈ namedSources s.m, y ≠ x →
      sourcePresent s.m y = false)) ∧
    (∃ (rising : Bool) (s : State), Powered s ∧ rdb s.m Reg.TIME_STATUS_ENABLED = true ∧ rising ≠ ppsInFalling s.m ∧ 2 ∈ namedSources s.m ∧
      rdb s.m Reg.TIME_STATUS_PPS_PRESENT = true ∧ (fromSecond ((now s.m : Int) - ppsInDelay s.m)).natAbs ≤ 1000000 ∧
      rd s.m Reg.TIME_STATUS_IN_USE ≠ 2) ∧
    (∃ (rising : Bool) (s : State), Powered s ∧ rdb s.m Reg.TIME_STATUS_ENABLED = true ∧ rising ≠ ppsInFalling s.m ∧ 2 ∈ namedSources s.m ∧
      rdb s.m Reg.TIME_STATUS_PPS_PRESENT = true ∧ (fromSecond ((now s.m : Int) - ppsInDelay s.m)).natAbs ≤ 1000000 ∧
      rd s.m Reg.TIME_STATUS_IN_USE = 2 ∧ tq s.m = 0 ∧ (fromSecond ((now s.m : Int) - ppsInDelay s.m)).natAbs ≤ 10000 ∧ s.m.time.step = none) ∧
    (∃ (rising : Bool) (s : State), Powered s ∧ rdb s.m Reg.TIME_STATUS_ENABLED = true ∧ rising ≠ ppsInFalling s.m ∧ 2 ∈ namedSources s.m ∧
      rdb s.m Reg.TIME_STATUS_PPS_PRESENT = true ∧ 1000000 < (fromSecond ((now s.m : Int) - ppsInDelay s.m)).natAbs ∧ s.m.time.outliers.length < 3) ∧
    (∃ (rising : Bool) (s : State), Powered s ∧ rdb s.m Reg.TIME_STATUS_ENABLED = true ∧ rising ≠ ppsInFalling s.m ∧ 2 ∈ namedSources s.m ∧
      rdb s.m Reg.TIME_STATUS_PPS_PRESENT = false ∧ s.m.time.ppsRun < 3) ∧
    (∃ (s : State), Powered s ∧ rdb s.m Reg.TIME_STATUS_SLEWING = true ∧ s.m.time.offset.natAbs < 10000000) ∧
    (∃ (x : StepPending) (s : State), Powered s ∧ s.m.time.step = some x ∧ x.atTime ≤ now s.m) ∧
    (∃ (r : Nat) (s : State), Powered s ∧ s.m.time.reanchorAt = some r ∧ r ≤ now s.m) :=
  ⟨⟨on id, by decide +kernel⟩,
    ⟨.ptpSourceLost, 1, on (sets [(Reg.TIME_STATUS_PTP_PRESENT, 1), (Reg.TIME_STATUS_IN_USE, 1)]), rfl, .inl ⟨rfl, rfl⟩, by decide +kernel⟩,
    ⟨true, on (sets [(Reg.TIME_STATUS_ENABLED, 1), (Reg.TIME_STATUS_PPS_PRESENT, 1), (Reg.TIME_NOW, 1000000)]), by decide +kernel⟩,
    ⟨true, on (sets [(Reg.TIME_STATUS_ENABLED, 1), (Reg.TIME_STATUS_PPS_PRESENT, 1), (Reg.TIME_STATUS_TQ, 0), (Reg.TIME_STATUS_IN_USE, 2),
      (Reg.TIME_NOW, 999990000)]), by decide +kernel⟩,
    ⟨true, on (sets [(Reg.TIME_STATUS_ENABLED, 1), (Reg.TIME_STATUS_PPS_PRESENT, 1), (Reg.TIME_NOW, 1000001)]), by decide +kernel⟩,
    ⟨true, on (sets [(Reg.TIME_STATUS_ENABLED, 1)]), by decide +kernel⟩,
    ⟨on (sets [(Reg.TIME_STATUS_SLEWING, 1)]), by decide +kernel⟩,
    ⟨{ amount := 5 }, on (fun m => { m with time := { step := some { amount := 5 } } }), by decide +kernel⟩,
    ⟨0, on (fun m => { m with time := { reanchorAt := some 0 } }), by decide +kernel⟩⟩

theorem witness_PtpMessagesAreTaken :
    (∃ (msg : PtpMsg) (s : State) (c : _), Powered s ∧ rdb s.m Reg.TIME_STATUS_ENABLED = true ∧ (msg.layer2 = false ∨ msg.domain ≠ timeDomain s.m ∨
      (msg.port ≠ timePort s.m ∧ (16 ≤ msg.port ∨ masterPort s.m msg.port = false))) ∧ (c ∈ [Instr.ptpSyncRx msg, .ptpFollowUpRx msg,
      .ptpAnnounceRx msg, .ptpPdelayReqRx msg, .ptpPdelayRespRx msg])) ∧
    (∃ (msg : PtpMsg) (s : State), Powered s ∧ rdb s.m Reg.TIME_STATUS_ENABLED = true ∧ msg.layer2 = true ∧ msg.domain = timeDomain s.m ∧
      msg.port = timePort s.m ∧ (s.m.time.master = none ∨ s.m.time.master = some msg.clock ∨ msg.rank < s.m.time.masterRank)) ∧
    (∃ (msg : PtpMsg) (s : State), Powered s ∧ rdb s.m Reg.TIME_STATUS_ENABLED = true ∧ msg.layer2 = true ∧ msg.domain = timeDomain s.m ∧
      msg.port = timePort s.m) ∧
    (∃ (msg : PtpMsg) (s : State) (t1 : _), Powered s ∧ rdb s.m Reg.TIME_STATUS_ENABLED = true ∧ msg.layer2 = true ∧ msg.domain = timeDomain s.m ∧
      msg.port = timePort s.m ∧ s.m.time.pdelayT1 = some t1 ∧ msg.ours = true) ∧
    (∃ (msg : PtpMsg) (s : State), Powered s ∧ rdb s.m Reg.TIME_STATUS_ENABLED = true ∧ msg.layer2 = true ∧ msg.domain = timeDomain s.m ∧
      msg.port = timePort s.m ∧ s.m.time.master = some msg.clock ∧ (s.m.time.pdelayDone = true → s.m.time.pdelay ≤ 800) ∧ msg.twoStep = true) ∧
    (∃ (msg : PtpMsg) (s : State), Powered s ∧ rdb s.m Reg.TIME_STATUS_ENABLED = true ∧ msg.layer2 = true ∧ msg.domain = timeDomain s.m ∧
      msg.port = timePort s.m ∧ s.m.time.master = some msg.clock ∧ (s.m.time.pdelayDone = true → s.m.time.pdelay ≤ 800) ∧
      sourcePresent s.m 1 = true ∧ rd s.m Reg.TIME_STATUS_IN_USE = 1 ∧ tq s.m = 0 ∧ s.m.time.step = none ∧ msg.twoStep = false ∧
      (rxStamp s.m msg.port - (msg.time + msg.corr + s.m.time.pdelay)).natAbs ≤ 10000) ∧
    (∃ (msg : PtpMsg) (s : State) (arr k : _), Powered s ∧ rdb s.m Reg.TIME_STATUS_ENABLED = true ∧ msg.layer2 = true ∧ msg.domain = timeDomain s.m ∧
      msg.port = timePort s.m ∧ s.m.time.master = some msg.clock ∧ (s.m.time.pdelayDone = true → s.m.time.pdelay ≤ 800) ∧
      sourcePresent s.m 1 = true ∧ rd s.m Reg.TIME_STATUS_IN_USE = 1 ∧ tq s.m = 0 ∧ s.m.time.step = none ∧ (s.m.time.pendingSync = some (msg.seq,
      arr, k)) ∧ (arr - (msg.time + k + msg.corr + s.m.time.pdelay)).natAbs ≤ 10000) ∧
    (∃ (port : Fin 16) (s : State), Powered s ∧ rdb s.m Reg.TIME_STATUS_ENABLED = true ∧ masterPort s.m port = true) ∧
    (∃ (s : State), Powered s ∧ rdb s.m Reg.TIME_STATUS_ENABLED = true ∧ timePort s.m ≤ 17) :=
  ⟨⟨{ layer2 := false }, on (sets [(Reg.TIME_STATUS_ENABLED, 1)]), .ptpSyncRx { layer2 := false }, by decide +kernel⟩,
    ⟨{}, on (sets [(Reg.TIME_STATUS_ENABLED, 1)]), by decide +kernel⟩,
    ⟨{}, on (sets [(Reg.TIME_STATUS_ENABLED, 1)]), by decide +kernel⟩,
    ⟨{}, on (fun m => sets [(Reg.TIME_STATUS_ENABLED, 1)] { m with time := { pdelayT1 := some 0 } }), 0, by decide +kernel⟩,
    ⟨{ twoStep := true }, on (fun m => sets [(Reg.TIME_STATUS_ENABLED, 1)] { m with time := { master := some 0 } }), by decide +kernel⟩,
    ⟨{}, on (fun m => sets [(Reg.TIME_STATUS_ENABLED, 1), (Reg.TIME_STATUS_PTP_PRESENT, 1), (Reg.TIME_STATUS_IN_USE, 1), (Reg.TIME_STATUS_TQ,
      0)] { m with time := { master := some 0 } }), by decide +kernel⟩,
    ⟨{}, on (fun m => sets [(Reg.TIME_STATUS_ENABLED, 1), (Reg.TIME_STATUS_PTP_PRESENT, 1), (Reg.TIME_STATUS_IN_USE, 1), (Reg.TIME_STATUS_TQ,
      0)] { m with time := { master := some 0, pendingSync := some (0, 10000, 0) } }), 10000, 0, by decide +kernel⟩,
    ⟨15, on (fun m => hasSec 2 0 (blob 32 [(0xE, 2, 0x8000)]) (sets [(Reg.TIME_STATUS_ENABLED, 1)] m)), by decide +kernel⟩,
    ⟨on (fun m => hasSec 2 0 (blob 32 [(0, 1, 17)]) (sets [(Reg.TIME_STATUS_ENABLED, 1)] m)), by decide +kernel⟩⟩

theorem witness_OutputsPulseAndEdgesAreCaptured :
    (∃ (n : Fin 32) (s : State), Powered s ∧ (mget s.m.trigs n).active.mode = 1 ∧ (mget s.m.trigs n).notBefore ≤ trigDue s.m
      (mget s.m.trigs n).active ∧ (∀ l, (mget s.m.trigs n).lastPulse = some l → l < trigDue s.m (mget s.m.trigs n).active)) ∧
    (∃ (n : Fin 32) (s : State), Powered s ∧ (mget s.m.trigs n).active.mode = 2 ∧ (mget s.m.trigs n).armed = true ∧
      (mget s.m.trigs n).active.start ≤ now s.m) ∧
    (∃ (n : Fin 32) (s : State) (x : _), Powered s ∧ (mget s.m.trigs n).pending = some x ∧ (mget s.m.trigs n).applyAt ≤ now s.m) ∧
    (∃ (n : Fin 32) (s : State) (who : _), Powered s ∧ MayWrite s.m who (Reg.TIME_TRIG_CTRL_COMMIT n) .any ∧ trigValid (trigShadow s.m n) = false) ∧
    (∃ (n : Fin 32) (s : State) (who : _), Powered s ∧ MayWrite s.m who (Reg.TIME_TRIG_CTRL_COMMIT n) .any ∧ trigValid (trigShadow s.m n) = true ∧
      ((mget s.m.trigs n).active.mode = 1 ∨ (trigShadow s.m n).mode = 1)) ∧
    (∃ (n : Fin 32) (s : State) (who : _), Powered s ∧ MayWrite s.m who (Reg.TIME_TRIG_CTRL_COMMIT n) .any ∧ trigValid (trigShadow s.m n) = true ∧
      (mget s.m.trigs n).active.mode ≠ 1 ∧ (trigShadow s.m n).mode ≠ 1) ∧
    (∃ (s : State), Powered s ∧ s.m.time.oldShift = 0 ∧ (ppsOutMode s.m = 1 ∨ (ppsOutMode s.m = 2 ∧ tq s.m = 0)) ∧
      ppsOutOffset s.m ≤ now s.m % second ∧ (∀ l, s.m.lastPpsOut = some l → l + second / 2 ≤ (now s.m / second * second + ppsOutOffset s.m))) ∧
    (∃ (k : Fin 4) (rise : Bool) (s : State), Powered s ∧ (¬ ((rd s.m (Reg.TIME_EVT_CTRL_EDGE k)) = 3 ∨ (rd s.m (Reg.TIME_EVT_CTRL_EDGE k)) = 1 ∧
      rise = true ∨ (rd s.m (Reg.TIME_EVT_CTRL_EDGE k)) = 2 ∧ rise = false))) ∧
    (∃ (k : Fin 4) (rise : Bool) (s : State), Powered s ∧ (((rd s.m (Reg.TIME_EVT_CTRL_EDGE k)) = 3 ∨ (rd s.m (Reg.TIME_EVT_CTRL_EDGE k)) = 1 ∧
      rise = true ∨ (rd s.m (Reg.TIME_EVT_CTRL_EDGE k)) = 2 ∧ rise = false)) ∧ (∃ l, (mget s.m.evts k).last = some l ∧ now s.m < l + 20)) ∧
    (∃ (k : Fin 4) (rise : Bool) (s : State), Powered s ∧ (((rd s.m (Reg.TIME_EVT_CTRL_EDGE k)) = 3 ∨ (rd s.m (Reg.TIME_EVT_CTRL_EDGE k)) = 1 ∧
      rise = true ∨ (rd s.m (Reg.TIME_EVT_CTRL_EDGE k)) = 2 ∧ rise = false)) ∧ (∀ l, (mget s.m.evts k).last = some l → l + 20 ≤ now s.m) ∧ 16 ≤
      (mget s.m.evts k).fifo.length) ∧
    (∃ (k : Fin 4) (rise : Bool) (s : State), Powered s ∧ (((rd s.m (Reg.TIME_EVT_CTRL_EDGE k)) = 3 ∨ (rd s.m (Reg.TIME_EVT_CTRL_EDGE k)) = 1 ∧
      rise = true ∨ (rd s.m (Reg.TIME_EVT_CTRL_EDGE k)) = 2 ∧ rise = false)) ∧ (∀ l, (mget s.m.evts k).last = some l → l + 20 ≤ now s.m) ∧
      (mget s.m.evts k).fifo.length < 16) ∧
    (∃ (who : Requester) (k : Fin 4) (s : State), Powered s ∧ reach s.m who (presented who ((Reg.TIME_EVT_FIFO k).addr + 4)) = .ok
      ((Reg.TIME_EVT_FIFO k).addr + 4)) :=
  ⟨⟨0, on (fun m => { m with trigs := [(0, { active := { mode := 1, rate := 10, width := 8 } })] }), rfl, rfl, by decide +kernel, fun _ h => nomatch
      (show none = some _ from h)⟩,
    ⟨31, on (fun m => { m with trigs := [(31, { active := { mode := 2, width := 8 }, armed := true })] }), by decide +kernel⟩,
    ⟨0, on (fun m => { m with trigs := [(0, { pending := some { mode := 1 } })] }), { mode := 1 }, by decide +kernel⟩,
    ⟨0, on (sets [(Reg.TIME_TRIG_CTRL_MODE 0, 3)]), .mi false, by decide +kernel⟩,
    ⟨0, on (sets [(Reg.TIME_TRIG_CTRL_MODE 0, 1), (Reg.TIME_TRIG_RATE 0, 100000), (Reg.TIME_TRIG_WIDTH 0, 9992), (Reg.TIME_TRIG_PHASE 0, 9999)]),
      .mi false, by decide +kernel⟩,
    ⟨0, on id, .mi false, by decide +kernel⟩,
    ⟨on (fun m => hasSec 2 0 (blob 32 [(0xD, 1, 1)]) m), rfl, rfl, by decide +kernel, by decide +kernel, fun _ h => nomatch
      (show none = some _ from h)⟩,
    ⟨0, true, on (sets [(Reg.TIME_EVT_CTRL_EDGE 0, 2)]), by decide +kernel⟩,
    ⟨0, true, on (fun m => sets [(Reg.TIME_EVT_CTRL_EDGE 0, 3), (Reg.TIME_NOW, 19)] { m with evts := [(0, { last := some 0 })] }), rfl,
      by decide +kernel, _, rfl, by decide +kernel⟩,
    ⟨0, true, on (fun m => sets [(Reg.TIME_EVT_CTRL_EDGE 0, 1)] { m with evts := [(0, { fifo := List.replicate 16 {} })] }), rfl, by decide +kernel,
      (fun _ h => nomatch (show none = some _ from h)), by decide +kernel⟩,
    ⟨3, false, on (fun m => sets [(Reg.TIME_EVT_CTRL_EDGE 3, 2)] { m with evts := [(3, { fifo := List.replicate 15 {} })] }), rfl, by decide +kernel,
      (fun _ h => nomatch (show none = some _ from h)), by decide +kernel⟩,
    ⟨.pf, 3, on id, by decide +kernel⟩⟩

theorem witness_PortsTrainFailAndAreHeld :
    (∃ (s : State), Powered s ∧ s.m.ing.group < 8 ∧ s.m.ing.groupAt + 60000000 ≤ now s.m) ∧
    (∃ (port : Fin 32) (s : State) (p1 p2 prof gear : _), Powered s ∧ (aphyState s.m port = 2 ∨ aphyState s.m port = 4) ∧
      (negotiate s.m port p1 p2 = some (prof, gear))) ∧
    (∃ (port : Fin 32) (s : State), Powered s ∧ aphyState s.m port = 3 ∧ aphyHold s.m port = false) ∧
    (∃ (port : Fin 32) (s : State) (who : _), Powered s ∧ aphyState s.m port = 3 ∧ aphyHold s.m port = false ∧ MayWrite s.m who
      (Reg.ING_APHY_CTRL_RETRAIN port) .any) ∧
    (∃ (port : Fin 32) (s : State) (who h : _), Powered s ∧ MayWrite s.m who (Reg.ING_APHY_CTRL_HOLD port) .any ∧
      (aphyEnabled s.m port = false ∨ aphyHold s.m port = h)) ∧
    (∃ (port : Fin 32) (s : State) (who : _), Powered s ∧ MayWrite s.m who (Reg.ING_APHY_CTRL_HOLD port) .any ∧ aphyEnabled s.m port = true ∧
      aphyHold s.m port = false) ∧
    (∃ (port : Fin 32) (s : State) (who : _), Powered s ∧ MayWrite s.m who (Reg.ING_APHY_CTRL_HOLD port) .any ∧ aphyEnabled s.m port = true ∧
      aphyHold s.m port = true) ∧
    (∃ (port : Fin 32) (s : State) (who : _), Powered s ∧ MayWrite s.m who (Reg.ING_APHY_CCI_CMD_REG port) .any) ∧
    (∃ (port : Fin 32) (s : State) (c rest : _), Powered s ∧ (mget s.m.aphy port).cmds = c :: rest ∧ (mget s.m.aphy port).results.length < 32) ∧
    (∃ (port : Fin 32) (s : State) (c rest : _), Powered s ∧ (mget s.m.aphy port).cmds = c :: rest ∧ (mget s.m.aphy port).results.length < 32) ∧
    (∃ (port : Fin 32) (s : State) (who : _), Powered s ∧ reach s.m who (presented who (Reg.ING_APHY_CCI_RESULT_RDATA port).addr) = .ok
      (Reg.ING_APHY_CCI_RESULT_RDATA port).addr) ∧
    (∃ (port : Fin 16) (s : State), Powered s ∧ rd s.m (Reg.ING_ETH_STATUS_STATE port) = 1) ∧
    (∃ (port : Fin 16) (s : State), Powered s ∧ rd s.m (Reg.ING_ETH_STATUS_STATE port) = 2) ∧
    (∃ (port : Fin 16) (s : State) (who : _), Powered s ∧ MayWrite s.m who (Reg.ING_ETH_CTRL_HOLD port) .any ∧ ethEnabled s.m port = true) ∧
    (∃ (s : State), Powered s ∧ applied s.m = true ∧ s.m.ing.appliedAt + 600000000 ≤ now s.m) ∧
    (∃ (e : Fin 2) (s : State), Powered s ∧ rd s.m (Reg.SAF_ETH_STATUS_STATE e) = 1) ∧
    (∃ (e : Fin 2) (s : State), Powered s ∧ rd s.m (Reg.SAF_ETH_STATUS_STATE e) = 2) :=
  ⟨⟨on (fun m => sets [(Reg.TIME_NOW, 60000000)] { m with ing := { group := 0 } }), by decide +kernel⟩,
    ⟨0, on (fun m => hasSec 3 0 (blob 32 [(0x11, 1, 1)]) (sets [(Reg.ING_APHY_STATUS_STATE 0, 2)] m)), [1], [], 0, 1, by decide +kernel⟩,
    ⟨31, on (sets [(Reg.ING_APHY_STATUS_STATE 31, 3)]), by decide +kernel⟩,
    ⟨0, on (sets [(Reg.ING_APHY_STATUS_STATE 0, 3)]), .pf, by decide +kernel⟩,
    ⟨0, on id, .pf, true, by decide +kernel⟩,
    ⟨0, on (hasSec 3 0 (blob 32 [(0, 4, 1)])), .mi false, by decide +kernel⟩,
    ⟨0, on (fun m => hasSec 3 0 (blob 32 [(0, 4, 1)]) (sets [(Reg.ING_APHY_CTRL_HOLD 0, 1)] m)), .mi false, by decide +kernel⟩,
    ⟨31, on id, .mi false, by decide +kernel⟩,
    ⟨0, on (fun m => { m with aphy := [(0, { cmds := [5], results := List.replicate 31 0 })] }), 5, [], by decide +kernel⟩,
    ⟨0, on (fun m => { m with aphy := [(0, { cmds := [5, 6] })] }), 5, [6], by decide +kernel⟩,
    ⟨0, on id, .mi false, by decide +kernel⟩,
    ⟨15, on (sets [(Reg.ING_ETH_STATUS_STATE 15, 1)]), by decide +kernel⟩,
    ⟨0, on (sets [(Reg.ING_ETH_STATUS_STATE 0, 2)]), by decide +kernel⟩,
    ⟨0, on (hasSec 3 0 (blob 32 [(4, 2, 1)])), .pf, by decide +kernel⟩,
    ⟨on (fun m => hasSec 1 0 [] (sets [(Reg.TIME_NOW, 600000000)] m)), by decide +kernel⟩,
    ⟨1, on (sets [(Reg.SAF_ETH_STATUS_STATE 1, 1)]), by decide +kernel⟩,
    ⟨0, on (sets [(Reg.SAF_ETH_STATUS_STATE 0, 2)]), by decide +kernel⟩⟩

theorem witness_FramesFillTheirSlots :
    (∃ (port : Fin 32) (vc : Fin 16) (s : State) (number dt : _) (data : List Byte) (ok env c : _), Powered s ∧ aphyState s.m port = 3 ∧
      (c ∈ [Instr.csi2FrameStart port vc number 2, .csi2FrameEnd port vc 2,
      .csi2LongPacket port vc dt 2 data ok env,
      .csi2EmbeddedData port vc 2 data, .csi2ShortPacket port vc dt 2])) ∧
    (∃ (port : Fin 32) (s : State) (dt : _), Powered s ∧ aphyState s.m port = 3 ∧ (dt < 4 ∨ 7 < dt)) ∧
    (∃ (port : Fin 32) (vc : Fin 16) (s : State) (dt : _), Powered s ∧ aphyState s.m port = 3 ∧ 4 ≤ dt ∧ dt ≤ 7 ∧ camStream s.m port vc = none) ∧
    (∃ (port : Fin 32) (vc : Fin 16) (s : State) (i number : _), Powered s ∧ aphyState s.m port = 3 ∧ camStream s.m port vc = some i ∧
      strState s.m i = 3 ∧ (mget s.m.streams i).frame = none ∧ number < 65536 ∧ isEarly s.m i (camStamp s.m port (streamEntry s.m i)) = false ∧
      canReserve s.m (strQueue (streamEntry s.m i)) = true ∧ (mget s.m.streams i).pending = none ∧ (mget s.m.isps i).pending = none) ∧
    (∃ (port : Fin 32) (vc : Fin 16) (s : State) (i number : _), Powered s ∧ aphyState s.m port = 3 ∧ camStream s.m port vc = some i ∧
      strState s.m i = 3 ∧ (mget s.m.streams i).frame = none ∧ number < 65536 ∧ isEarly s.m i (camStamp s.m port (streamEntry s.m i)) = true ∧
      strViolLimit (streamEntry s.m i) = 0) ∧
    (∃ (port : Fin 32) (vc : Fin 16) (s : State) (i f : _) (data : List Byte), Powered s ∧ aphyState s.m port = 3 ∧ camStream s.m port vc = some i ∧
      strState s.m i = 3 ∧ (mget s.m.streams i).frame = some f ∧ f.slot.isSome = true ∧ lineType (strDt (streamEntry s.m i)) = true ∧
      data.length = lineBytes (streamEntry s.m i) ∧ f.lines < strHeight (streamEntry s.m i) ∧ inSelfRefresh s.m (f.addr + linesOff
      (streamEntry s.m i) + f.lines * linePitch (streamEntry s.m i)) = false ∧ inSelfRefresh s.m (f.addr + 128 + 8 * f.lines) = false) ∧
    (∃ (port : Fin 32) (vc : Fin 16) (s : State) (i f : _) (data : List Byte), Powered s ∧ aphyState s.m port = 3 ∧ camStream s.m port vc = some i ∧
      strState s.m i = 3 ∧ (mget s.m.streams i).frame = some f ∧ f.slot.isSome = true ∧ f.emb + data.length ≤ strEmb (streamEntry s.m i) ∧
      inSelfRefresh s.m (f.addr + embOff (streamEntry s.m i) + f.emb) = false) ∧
    (∃ (c : Instr) (i : Fin 1024) (extra n : Nat) (f : Frame) (it : Item) (s : State), Powered s ∧ ((∃ port vc, c = .csi2FrameEnd port vc 0 ∧
      aphyState s.m port.val = 3 ∧ camStream s.m port.val vc.val = some i.val ∧ strState s.m i ∈ [3, 4] ∧ extra = 0) ∨ c = .frameCloseTimeout i ∧
      f.stamp + 1000 * strFrameUs (streamEntry s.m i) ≤ now s.m ∧ extra = 2 ^ 20) ∧ (mget s.m.streams i).frame = some f ∧ f.slot = some n ∧ f.gen =
      (mget s.m.streams i).ring.gen ∧ lookup s.m.items f.tag = some it ∧ strCamera (streamEntry s.m i) = true ∧ strHeight
      (streamEntry s.m i) ≤ f.lines ∧ f.bad + f.missing ≤ strBadLimit (streamEntry s.m i) ∧ f.bufBad = false ∧ (∀ b ∈ [5, 14, 16, 18],
      bitOf f.flags b = false) ∧ inSelfRefresh s.m f.addr = false) ∧
    (∃ (port : Fin 16) (fr : List Byte) (s : State), Powered s ∧ rd s.m (Reg.ING_ETH_STATUS_STATE port) = 2 ∧ (fr.length < 64 ∨ crc32 (fr.take
      (fr.length - 4)) ≠ leNat (fr.drop (fr.length - 4)))) ∧
    (∃ (port : Fin 16) (fr : List Byte) (s : State) (vlan p u i f : _), Powered s ∧ rd s.m (Reg.ING_ETH_STATUS_STATE port) = 2 ∧ 64 ≤ fr.length ∧
      crc32 (fr.take (fr.length - 4)) = leNat (fr.drop (fr.length - 4)) ∧ fr.length ≤ le (ethEntry s.m port) 2 2 ∧ slice fr 0 6 = slice
      (ethEntry s.m port) 4 6 ∧ (ethHeader fr = (false, vlan, 0x0800, p)) ∧ readIp4 vlan p = .udp u ∧ classify s.m port u = some i ∧
      strState s.m i = 3 ∧ (mget s.m.streams i).frame = some f ∧ f.slot.isSome = true ∧ le (clsEntry s.m i) 0xA 1 = 1 ∧ bitOf (le
      (clsEntry s.m i) 2 1) 3 = false ∧ le (clsEntry s.m i) 0xC 2 + le (clsEntry s.m i) 0xB 1 ≤ u.data.length ∧ (le u.data (le
      (clsEntry s.m i) 0xC 2) 1) &&& (le (clsEntry s.m i) 0xE 1) = 0 ∧ 128 + f.bytes + (16 + (padTo
      (roundUp u.data.length 16) u.data).length) ≤ strSlotBytes (streamEntry s.m i) ∧ f.stored + 1 < strHeight (streamEntry s.m i) ∧
      inSelfRefresh s.m (f.addr + 128 + f.bytes) = false) ∧
    (∃ (i : Fin 1024) (s : State), Powered s ∧ strCamera (streamEntry s.m i) = false ∧ le (clsEntry s.m i) 0xA 1 = 2 ∧ (strState s.m i ∈ [3, 4]) ∧
      (mget s.m.streams i).slice < (now s.m / second * second + now s.m % second / (1000 * strFrameUs (streamEntry s.m i)) * (1000 * strFrameUs
      (streamEntry s.m i))) ∧ (mget s.m.streams i).sliceHad = true) ∧
    (∃ (i : Fin 1024) (s : State) (t0 : _), Powered s ∧ (mget s.m.streams i).lastStart = some t0 ∧ (strState s.m i ∈ [3, 4]) ∧ canReserve s.m
      (strQueue (streamEntry s.m i)) = true ∧ t0 + 1000 * strFrameUs (streamEntry s.m i) + 500 * strFrameUs (streamEntry s.m i) + 1000 * strJitterUs
      (streamEntry s.m i) ≤ now s.m) ∧
    (∃ (tag : Nat) (it : Item) (s : State), Powered s ∧ lookup s.m.items tag = some it ∧ it.closed = true ∧ it.handed = false ∧ it.fixed = none ∧
      it.range = false) ∧
    (∃ (tag : Nat) (it : Item) (s : State), Powered s ∧ lookup s.m.items tag = some it ∧ it.closed = true ∧ it.handed = false ∧ it.fixed = none ∧
      it.range = true ∧ (mget s.m.rnotes it.part).length < 512) :=
  ⟨⟨0, 0, on (sets [(Reg.ING_APHY_STATUS_STATE 0, 3)]), 0, 0, [], true, {}, .csi2FrameEnd 0 0 2, by decide +kernel⟩,
    ⟨0, on (sets [(Reg.ING_APHY_STATUS_STATE 0, 3)]), 3, by decide +kernel⟩,
    ⟨0, 0, on (sets [(Reg.ING_APHY_STATUS_STATE 0, 3)]), 7, by decide +kernel⟩,
    ⟨0, 0, on (fun m => stream0 [] (sets [(Reg.ING_APHY_STATUS_STATE 0, 3), (Reg.ING_STR_STATUS_STATE 0, 3), (Reg.HOST_Q_STATUS_STATE 0, 1)] m)), 0,
      65535, by decide +kernel⟩,
    ⟨0, 0, on (fun m => stream0 [(32, 4, 1000)] (sets [(Reg.ING_APHY_STATUS_STATE 0, 3), (Reg.ING_STR_STATUS_STATE 0,
      3)] { m with streams := [(0, { accepted := some 0 })] })), 0, 65535, by decide +kernel⟩,
    ⟨0, 0, on (fun m => stream0 [(21, 1, 0x2A), (24, 2, 4), (26, 2, 2)] (sets [(Reg.ING_APHY_STATUS_STATE 0, 3), (Reg.ING_STR_STATUS_STATE 0,
      3)] { m with streams := [(0, { frame := some { slot := some 0, lines := 1 } })] })), 0, { slot := some 0, lines := 1 }, [1, 2, 3, 4],
      by decide +kernel⟩,
    ⟨0, 0, on (fun m => stream0 [(28, 2, 8)] (sets [(Reg.ING_APHY_STATUS_STATE 0, 3), (Reg.ING_STR_STATUS_STATE 0,
      3)] { m with streams := [(0, { frame := some { slot := some 0, emb := 4 } })] })), 0, { slot := some 0, emb := 4 }, [1, 2, 3, 4],
      by decide +kernel⟩,
    ⟨.frameCloseTimeout 0, 0, 2 ^ 20, 3, { slot := some 3 }, {}, on (fun m => stream0 [(32, 4, 1000)] (sets [(Reg.TIME_NOW,
      1000000)] { m with streams := [(0, { frame := some { slot := some 3 } })], items := [(0, {})] })), rfl, .inr ⟨rfl, by decide +kernel, rfl⟩,
      by decide +kernel⟩,
    ⟨0, [], on (sets [(Reg.ING_ETH_STATUS_STATE 0, 2)]), by decide +kernel⟩,
    ⟨0, oneFrame, on (fun m => hasSec 3 0 (blob 0x250 [(0x212, 2, 64)]) (stream0 [(18, 1, 1), (26, 2, 2), (44, 4, 4096), (86, 2, 6000), (90, 1, 1)]
      (sets [(Reg.ING_ETH_STATUS_STATE 0, 2), (Reg.ING_STR_STATUS_STATE 0, 3)] { m with streams := [(0, { frame := some { slot := some 0 } })] }))),
      none, leBytes 46 0x1211100f0e0d0c0b0a09080706050403020100001a00701788130200000a0100000abd661140000000002e000045,
      { sp := 5000, dp := 6000, src := [10, 0, 0, 1], data := leBytes 18 0x1211100f0e0d0c0b0a090807060504030201 }, 0, { slot := some 0 },
      by decide +kernel⟩,
    ⟨0, on (fun m => stream0 [(18, 1, 1), (32, 4, 1000), (90, 1, 2)] (sets [(Reg.ING_STR_STATUS_STATE 0, 3), (Reg.TIME_NOW,
      1000000)] { m with streams := [(0, { sliceHad := true })] })), by decide +kernel⟩,
    ⟨0, on (fun m => stream0 [(32, 4, 1000)] (sets [(Reg.ING_STR_STATUS_STATE 0, 3), (Reg.HOST_Q_STATUS_STATE 0, 1), (Reg.TIME_NOW,
      1500000)] { m with streams := [(0, { lastStart := some 0 })] })), 0, by decide +kernel⟩,
    ⟨3, { closed := true }, on (fun m => { m with items := [(3, { closed := true })] }), by decide +kernel⟩,
    ⟨3, { closed := true, range := true }, on (fun m =>
      { m with items := [(3, { closed := true, range := true })], rnotes := [(0, List.replicate 511 {})] }), by decide +kernel⟩⟩

theorem witness_StreamsAreControlled :
    (∃ (i : Fin 1024) (s : State), Powered s ∧ strViolLimit (streamEntry s.m i) ≠ 0 ∧ strViolLimit (streamEntry s.m i) ≤ rd s.m
      (Reg.ING_STR_STATUS_VIOL_TURN i) ∧ strState s.m i = 3) ∧
    (∃ (i : Fin 1024) (s : State) (who : _), Powered s ∧ MayWrite s.m who (Reg.ING_STR_CTRL_QUAR_FORCE i) .any ∧ (streamEntry? s.m i).isSome = true ∧
      strState s.m i ≠ 4) ∧
    (∃ (i : Fin 1024) (s : State) (who : _), Powered s ∧ strState s.m i = 4 ∧ MayWrite s.m who (Reg.ING_STR_CTRL_QUAR_RELEASE i) .any ∧
      (streamEntry? s.m i).isSome = true) ∧
    (∃ (i : Fin 1024) (s : State), Powered s ∧ strState s.m i = 4 ∧ strSoftRelease (streamEntry s.m i) = false ∧ strQuarTurns (streamEntry s.m i) ≤
      (mget s.m.streams i).clean) ∧
    (∃ (i : Fin 1024) (s : State) (who : _), Powered s ∧ MayWrite s.m who (Reg.ING_STR_CTRL_COMMIT i) .any ∧ (((streamEntry? s.m i).isSome = true ∧
      (rd s.m (Reg.ING_STR_SH_BASE i)) % 4096 = 0 ∧ strRegion (streamEntry s.m i) ≤ (rd s.m (Reg.ING_STR_SH_BASE i)) ∧ (rd s.m
      (Reg.ING_STR_SH_BASE i)) + strSlots (streamEntry s.m i) * strSlotBytes (streamEntry s.m i) ≤ strRegion (streamEntry s.m i) + strRegionBytes
      (streamEntry s.m i) ∧ (mget s.m.streams i).retire = none))) ∧
    (∃ (i : Fin 1024) (s : State) (who : _), Powered s ∧ MayWrite s.m who (Reg.ING_STR_CTRL_COMMIT i) .any ∧ (¬ ((streamEntry? s.m i).isSome = true ∧
      (rd s.m (Reg.ING_STR_SH_BASE i)) % 4096 = 0 ∧ strRegion (streamEntry s.m i) ≤ (rd s.m (Reg.ING_STR_SH_BASE i)) ∧ (rd s.m
      (Reg.ING_STR_SH_BASE i)) + strSlots (streamEntry s.m i) * strSlotBytes (streamEntry s.m i) ≤ strRegion (streamEntry s.m i) + strRegionBytes
      (streamEntry s.m i) ∧ (mget s.m.streams i).retire = none))) ∧
    (∃ (i : Fin 1024) (s : State) (who en : _), Powered s ∧ MayWrite s.m who (Reg.ING_STR_CTRL_ENABLE i) .any ∧ en = true ∧
      enableRefused s.m i = true) ∧
    (∃ (i : Fin 1024) (s : State) (who en : _), Powered s ∧ MayWrite s.m who (Reg.ING_STR_CTRL_ENABLE i) .any ∧ en = true ∧
      enableRefused s.m i = false ∧ rdb s.m (Reg.ING_STR_CTRL_ENABLE i) = en) ∧
    (∃ (i : Fin 1024) (s : State) (who en : _), Powered s ∧ MayWrite s.m who (Reg.ING_STR_CTRL_ENABLE i) .any ∧
      (enableRefused s.m i = false ∨ en = false ∧ (streamEntry? s.m i).isSome = true) ∧ rdb s.m (Reg.ING_STR_CTRL_ENABLE i) ≠ en) ∧
    (∃ (i : Fin 1024) (s : State) (who slot gen : _), Powered s ∧ MayWrite s.m who (Reg.ING_STR_RELEASE_SLOT i) .any ∧ slot < 64 ∧ gen < 2 ∧
      (strCamera (streamEntry s.m i) = true ∨ slotHeld s.m i slot gen = false) ∧ (streamEntry? s.m i).isSome = true) ∧
    (∃ (i : Fin 1024) (s : State) (who slot gen : _), Powered s ∧ MayWrite s.m who (Reg.ING_STR_RELEASE_SLOT i) .any ∧ slot < 64 ∧ gen < 2 ∧
      (streamEntry? s.m i).isSome = true ∧ strCamera (streamEntry s.m i) = false ∧ slotHeld s.m i slot gen = true) ∧
    (∃ (s : State), Powered s ∧ rdb s.m Reg.TIME_TURN_STATUS_RUNNING = true ∧ s.m.ing.lastAdmit + 1000000 ≤ now s.m ∧ (streamNos s.m).length ≤ 64) :=
  ⟨⟨0, on (fun m => stream0 [(70, 1, 1)] (sets [(Reg.ING_STR_STATUS_STATE 0, 3), (Reg.ING_STR_STATUS_VIOL_TURN 0, 1)] m)), by decide +kernel⟩,
    ⟨0, on (stream0 []), .pf, by decide +kernel⟩,
    ⟨0, on (fun m => stream0 [] (sets [(Reg.ING_STR_STATUS_STATE 0, 4)] m)), .pf, by decide +kernel⟩,
    ⟨0, on (fun m => stream0 [(71, 1, 2)] (sets [(Reg.ING_STR_STATUS_STATE 0, 4)] { m with streams := [(0, { clean := 2 })] })), by decide +kernel⟩,
    ⟨0, on (fun m => stream0 [(38, 1, 2), (44, 4, 4096), (68, 1, 0), (64, 4, 12288)] (sets [(Reg.ING_STR_SH_BASE 0, 4096)] m)), .pf,
      by decide +kernel⟩,
    ⟨0, on (fun m => stream0 [(64, 4, 4096)] (sets [(Reg.ING_STR_SH_BASE 0, 1)] m)), .pf, by decide +kernel⟩,
    ⟨1023, on id, .mi false, true, by decide +kernel⟩,
    ⟨0, on (fun m => oneRoutine (hasSec 6 0 (blob 64 [(0, 1, 1)]) (stream0 [(22, 1, 1)] (sets [(Reg.ING_STR_CTRL_ENABLE 0, 1)] m)))), .pf, true,
      by decide +kernel⟩,
    ⟨0, on (fun m => oneRoutine (hasSec 6 0 (blob 64 [(0, 1, 1)]) (stream0 [(22, 1, 1)] m))), .pf, true, by decide +kernel⟩,
    ⟨0, on (stream0 []), .pf, 63, 1, by decide +kernel⟩,
    ⟨0, on (fun m => stream0 [(18, 1, 1)] { m with streams := [(0, { ring := { slots := [(63, true)] } })] }), .pf, 63, 0, by decide +kernel⟩,
    ⟨on (fun m => stream0 [] (sets [(Reg.TIME_TURN_STATUS_RUNNING, 1), (Reg.TIME_NOW, 1000000)] m)), by decide +kernel⟩⟩

theorem witness_ImageJobsRunThroughTheirPipes :
    (∃ (slot : Nat) (s : State), Powered s ∧ slot < ispSlots s.m ∧ bitOf (le (ispSlot s.m slot) 8 8) (cyclePos s.m) = true ∧
      (rd s.m Reg.TIME_TURN_TICK + le (ispSlot s.m slot) 4 4) ≤ now s.m ∧ slot ∉ (mget s.m.pipes (le (ispSlot s.m slot) 0 1)).done ∧ (le
      (ispSlot s.m slot) 2 2) < 512 ∧ (le (ispSlot s.m slot) 0 1) < 8 ∧ oldestWaiting s.m (le (ispSlot s.m slot) 2 2)
      (rd s.m Reg.TIME_TURN_TICK) = none) ∧
    (∃ (slot : Nat) (s : State) (tag : _), Powered s ∧ slot < ispSlots s.m ∧ bitOf (le (ispSlot s.m slot) 8 8) (cyclePos s.m) = true ∧
      (rd s.m Reg.TIME_TURN_TICK + le (ispSlot s.m slot) 4 4) ≤ now s.m ∧ slot ∉ (mget s.m.pipes (le (ispSlot s.m slot) 0 1)).done ∧ (le
      (ispSlot s.m slot) 2 2) < 512 ∧ (le (ispSlot s.m slot) 0 1) < 8 ∧ oldestWaiting s.m (le (ispSlot s.m slot) 2 2)
      (rd s.m Reg.TIME_TURN_TICK) = some tag) ∧
    (∃ (pipe : Fin 8) (i tag plan : Nat) (rest : List (Nat × Nat × Nat)) (it : Item) (s : State) (k : _), Powered s ∧
      (mget s.m.pipes pipe).job = none ∧ ((mget s.m.pipes pipe).wait = (i, tag, plan) :: rest) ∧ plan ≤ now s.m ∧ lookup s.m.items tag = some it ∧
      it.fixed = none ∧ (mget s.m.pipes pipe).out = false ∧ i < 512 ∧ (lineSources s.m it.slotAddr (pExp (((mget s.m.isps i).vers.find? (fun w =>
      w.id == (getD (mget s.m.isps i).active (mget s.m.isps i).bound tag))).getD {}).param) (strHeight (streamEntry s.m i))).isSome = true ∧ ispDest
      (ispEntry s.m i) ≠ 0 ∧ nextOut s.m i (((mget s.m.isps i).vers.find? (fun w => w.id == (getD (mget s.m.isps i).active
      (mget s.m.isps i).bound tag))).getD {}).outB = some k ∧
      (jobStops s.m { stream := i, tag := tag, toHbm := true, slot := k, addr := 4096 } = false)) ∧
    (∃ (pipe : Fin 8) (i tag plan : Nat) (rest : List (Nat × Nat × Nat)) (it : Item) (s : State), Powered s ∧ (mget s.m.pipes pipe).job = none ∧
      ((mget s.m.pipes pipe).wait = (i, tag, plan) :: rest) ∧ plan ≤ now s.m ∧ lookup s.m.items tag = some it ∧ it.fixed = none ∧
      (mget s.m.pipes pipe).out = false ∧ i < 512 ∧ (lineSources s.m it.slotAddr (pExp (((mget s.m.isps i).vers.find? (fun w => w.id == (getD
      (mget s.m.isps i).active (mget s.m.isps i).bound tag))).getD {}).param) (strHeight (streamEntry s.m i))).isSome = true ∧ ispDest
      (ispEntry s.m i) = 0 ∧ writable s.m (strPart (streamEntry s.m i)) (granules (ispCore (ispEntry s.m i) * 2 ^ 25 + (((mget s.m.isps i).vers.find?
      (fun w => w.id == (getD (mget s.m.isps i).active (mget s.m.isps i).bound tag))).getD {}).scr) (tensorBytes (ispEntry s.m i))) = true ∧
      leasedTo s.m (strPart (streamEntry s.m i)) (ispCore (ispEntry s.m i) * 2 ^ 25 + (((mget s.m.isps i).vers.find? (fun w => w.id == (getD
      (mget s.m.isps i).active (mget s.m.isps i).bound tag))).getD {}).scr) (tensorBytes (ispEntry s.m i)) laneD = true ∧
      (jobStops s.m { stream := i, tag := tag } = false)) ∧
    (∃ (pipe : Fin 8) (j : Job) (it : Item) (s : State), Powered s ∧ (mget s.m.pipes pipe).job = some j ∧ j.stream < 512 ∧
      lookup s.m.items j.tag = some it ∧ it.fixed = none ∧ jobStops s.m j = true) ∧
    (∃ (pipe : Fin 8) (j : Job) (it : Item) (s : State) (b : _), Powered s ∧ (mget s.m.pipes pipe).job = some j ∧ j.stream < 512 ∧
      lookup s.m.items j.tag = some it ∧ it.fixed = none ∧ jobStops s.m j = false ∧ (rawBad s.m (streamEntry s.m j.stream) j.raddr
      ((lineSources s.m j.raddr (pExp (((mget s.m.isps j.stream).vers.find? (fun w => w.id == j.ver)).getD {}).param) (strHeight
      (streamEntry s.m j.stream))).getD []) = true ∨ b = true)) ∧
    (∃ (pipe : Fin 8) (j : Job) (it : Item) (s : State), Powered s ∧ (mget s.m.pipes pipe).job = some j ∧ j.stream < 512 ∧
      lookup s.m.items j.tag = some it ∧ it.fixed = none ∧ j.start + 2 * j.dur ≤ now s.m) ∧
    (∃ (pipe : Fin 8) (j : Job) (it : Item) (s : State), Powered s ∧ (mget s.m.pipes pipe).job = some j ∧ j.stream < 512 ∧
      lookup s.m.items j.tag = some it ∧ it.fixed = none ∧ jobStops s.m j = false ∧ rawBad s.m (streamEntry s.m j.stream) j.raddr
      ((lineSources s.m j.raddr (pExp (((mget s.m.isps j.stream).vers.find? (fun w => w.id == j.ver)).getD {}).param) (strHeight
      (streamEntry s.m j.stream))).getD []) = false ∧ j.start + j.dur ≤ now s.m ∧ ((lineSources s.m j.raddr (pExp
      (((mget s.m.isps j.stream).vers.find? (fun w => w.id == j.ver)).getD {}).param) (strHeight (streamEntry s.m j.stream))).getD []) = List.range
      (strHeight (streamEntry s.m j.stream)) ∧ j.tap = false ∧ ispStats (ispEntry s.m j.stream) = 0 ∧ (mget s.m.comps j.part).length < 512) ∧
    (∃ (who : Requester) (i : Fin 1024) (e : List Byte) (s : State), Powered s ∧ i.val < 512 ∧ ispEntry? s.m i = some e ∧ MayWrite s.m who
      (Reg.ISP_STR_CTRL_COMMIT i) .any ∧ (paramOk (shadowParam s.m i) (streamEntry s.m i) e && basesOk s.m e (rd s.m (Reg.ISP_STR_SH_SCR i)) (rd s.m
      (Reg.ISP_STR_SH_OUT i))) = false) ∧
    (∃ (who : Requester) (i : Fin 1024) (e : List Byte) (s : State), Powered s ∧ i.val < 512 ∧ ispEntry? s.m i = some e ∧ MayWrite s.m who
      (Reg.ISP_STR_CTRL_COMMIT i) .any ∧ (paramOk (shadowParam s.m i) (streamEntry s.m i) e && basesOk s.m e (rd s.m (Reg.ISP_STR_SH_SCR i)) (rd s.m
      (Reg.ISP_STR_SH_OUT i))) = true ∧ (mget s.m.isps i).pending = none ∧ 4 ≤ (mget s.m.isps i).vers.length) ∧
    (∃ (who : Requester) (i : Fin 1024) (e : List Byte) (s : State), Powered s ∧ i.val < 512 ∧ ispEntry? s.m i = some e ∧ MayWrite s.m who
      (Reg.ISP_STR_CTRL_COMMIT i) .any ∧ (paramOk (shadowParam s.m i) (streamEntry s.m i) e && basesOk s.m e (rd s.m (Reg.ISP_STR_SH_SCR i)) (rd s.m
      (Reg.ISP_STR_SH_OUT i))) = true ∧ (mget s.m.isps i).pending = none ∧ (mget s.m.isps i).vers.length < 4) ∧
    (∃ (who : Requester) (i : Fin 1024) (e : List Byte) (s : State), Powered s ∧ i.val < 512 ∧ ispEntry? s.m i = some e ∧ MayWrite s.m who
      (Reg.ISP_STR_TAP_ARM i) .any) :=
  ⟨⟨0, on (isp0 [(136, 8, 1)]), by decide +kernel⟩,
    ⟨0, on (fun m => isp0 [(136, 8, 1)] (sets [(Reg.TIME_TURN_TICK, 1), (Reg.TIME_NOW,
      1)] { m with isps := [(0, { waiting := [(3, 0)] })], items := [(3, {})] })), 3, by decide +kernel⟩,
    ⟨0, 0, 3, 0, [], {}, on (fun m => isp0 [(66, 1, 1), (74, 1, 2), (100, 4,
      4096)] { m with pipes := [(0, { wait := [(0, 3, 0)] })], items := [(3, {})], isps := [(0, { held := [(0, 2)] })] }), 1, by decide +kernel⟩,
    ⟨7, 0, 3, 0, [], {}, on (fun m => isp0 [(67, 1, 1), (70, 2, 8), (72, 2, 4)] (sets ((List.range 48).map (fun b => (Reg.SCR_LEASE 0 0 b,
      laneD))) { m with pipes := [(7, { wait := [(0, 3, 0)] })], items := [(3, {})] })), by decide +kernel⟩,
    ⟨0, { tag := 3 }, {}, on (fun m => sets [(Reg.MEM_STATUS_STATE (hbmChannel {} 0),
      3)] { m with pipes := [(0, { job := some { tag := 3 } })], items := [(3, {})] }), by decide +kernel⟩,
    ⟨0, { tag := 3 }, {}, on (fun m => { m with pipes := [(0, { job := some { tag := 3 } })], items := [(3, {})] }), true, rfl, rfl, by decide, rfl,
      rfl, by decide +kernel, .inr rfl⟩,
    ⟨0, { tag := 3, start := 5, dur := 2 }, {}, on (fun m => sets [(Reg.TIME_NOW,
      9)] { m with pipes := [(0, { job := some { tag := 3, start := 5, dur := 2 } })], items := [(3, {})] }), by decide +kernel⟩,
    ⟨0, { tag := 3, start := 5, dur := 2 }, {}, oneJob, rfl, rfl, by decide, rfl, rfl, by decide +kernel, (show rawBad oneJob.m
      (streamEntry oneJob.m 0) 0 ((lineSources oneJob.m 0 1 1).getD []) = false from (show
      (lineSources oneJob.m 0 1 1).getD [] = [0] by decide +kernel) ▸ oneJob_rawOk), by decide +kernel⟩,
    ⟨.pf, 0, ispEntry (isp0 [] {}) 0, on (isp0 []), by decide +kernel⟩,
    ⟨.pf, 0, ispEntry (goodIsp {}) 0, on (fun m => goodIsp { m with isps := [(0, { vers := List.replicate 4 {} })] }), by decide +kernel⟩,
    ⟨.pf, 0, ispEntry (goodIsp {}) 0, on (fun m => goodIsp { m with isps := [(0, { vers := List.replicate 3 {} })] }), by decide +kernel⟩,
    ⟨.pf, 0, ispEntry (isp0 [] {}) 0, on (isp0 []), by decide +kernel⟩⟩

theorem witness_SashLinksTrainAndAlign :
    (∃ (s : State), Powered s) ∧
    (∃ (l : Fin 4) (s : State), Powered s ∧ ((linkState s.m l) = 1 ∨ (linkState s.m l) = 4) ∧ rd s.m (Reg.SASH_STATUS_PHASE l) = 0 ∧
      s.m.serdes = true) ∧
    (∃ (l : Fin 4) (s : State), Powered s ∧ ((linkState s.m l) = 1 ∨ (linkState s.m l) = 4) ∧ rd s.m (Reg.SASH_STATUS_PHASE l) = 0) ∧
    (∃ (l : Fin 4) (s : State) (lane : Fin 8), Powered s ∧ lanesOn s.m l = true ∧ (mget (mget s.m.links l).lanes lane).block = false) ∧
    (∃ (l : Fin 4) (s : State) (lane : Fin 8), Powered s ∧ lanesOn s.m l = true ∧ (mget (mget s.m.links l).lanes lane).block = true ∧ (mget
      (mget s.m.links l).lanes lane).lock = none ∧ rd s.m (Reg.SASH_STATUS_PHASE l) ≠ 2) ∧
    (∃ (l : Fin 4) (s : State) (lane : Fin 8) (k : Cand) (i : Fin 8) (n : BitVec 16), Powered s ∧ lanesOn s.m l = true ∧ (mget
      (mget s.m.links l).lanes lane).block = true ∧ (mget (mget s.m.links l).lanes lane).lock = some k ∧ k.lane = i.val ∧ k.count = n.toNat) ∧
    (∃ (l : Fin 4) (s : State) (lane : Fin 8), Powered s ∧ lanesOn s.m l = true ∧ (mget (mget s.m.links l).lanes lane).block = true ∧
      linkRuns s.m l = true) ∧
    (∃ (l : Fin 4) (s : State) (group : BitVec 64) (package link : Byte) (period : Word) (boxes : List (Nat × Nat × Nat × Nat × Nat)), Powered s ∧
      ((linkState s.m l) = 1 ∨ (linkState s.m l) = 4) ∧ rd s.m (Reg.SASH_STATUS_PHASE l) = 4 ∧
      (helloCheck s.m l group.toNat package.toNat link.toNat period.toNat boxes) ≠ 0 ∧ (mget s.m.links l).serving = []) ∧
    (∃ (l : Fin 4) (s : State) (group : BitVec 64) (package link : Byte) (period session : Word) (boxes : List (Nat × Nat × Nat × Nat × Nat)),
      Powered s ∧ ((linkState s.m l) = 1 ∨ (linkState s.m l) = 4) ∧ rd s.m (Reg.SASH_STATUS_PHASE l) = 4 ∧
      (helloCheck s.m l group.toNat package.toNat link.toNat period.toNat boxes) = 0 ∧ ((mget s.m.links l).known = false ∨ rd s.m
      (Reg.SASH_PEER_SESSION l) = session.toNat) ∧ (mget s.m.links l).fenced = false) ∧
    (∃ (l : Fin 4) (s : State), Powered s ∧ linkRuns s.m l = true) ∧
    (∃ (l : Fin 4) (s : State), Powered s ∧ ((linkState s.m l) = 1 ∨ (linkState s.m l) = 4) ∧
      (mget s.m.links l).attemptAt + retrainLimitNs s.m ≤ now s.m ∧ (mget s.m.links l).serving = []) ∧
    (∃ (l : Fin 4) (s : State) (who : _), Powered s ∧ MayWrite s.m who (Reg.SASH_CTRL_RETRAIN l) .pfHcMi ∧ linkRuns s.m l = true) ∧
    (∃ (l : Fin 4) (s : State) (who : _), Powered s ∧ MayWrite s.m who (Reg.SASH_CTRL_RETRAIN l) .pfHcMi ∧ (linkState s.m l) = 5) ∧
    (∃ (l : Fin 4) (s : State) (who : _), Powered s ∧ MayWrite s.m who (Reg.SASH_CTRL_UNFENCE l) .pfHcMi ∧ (linkState s.m l) = 3) ∧
    (∃ (l : Fin 4) (s : State) (who : _), Powered s ∧ MayWrite s.m who (Reg.SASH_CTRL_HOLD l) .pfHcMi ∧ (linkState s.m l) = 0) ∧
    (∃ (l : Fin 4) (s : State) (who : _), Powered s ∧ MayWrite s.m who (Reg.SASH_CTRL_HOLD l) .pfHcMi ∧ (linkState s.m l) ≠ 0 ∧
      (mget s.m.links l).serving = []) ∧
    (∃ (l : Fin 4) (s : State) (who : _), Powered s ∧ MayWrite s.m who (Reg.SASH_CTRL_HOLD l) .pfHcMi ∧ (linkState s.m l) = 0 ∧ applied s.m = true ∧
      linkEnabled s.m l = true ∧ rd s.m Reg.PAT_STATUS_LIFECYCLE ≠ 2) ∧
    (∃ (l : Fin 4) (s : State), Powered s ∧ (linkState s.m l) ≠ 0 ∧ (linkState s.m l) ≠ 5) ∧
    (∃ (l : Fin 4) (s : State), Powered s ∧ linkRuns s.m l = true ∧ rdb s.m Reg.TIME_TURN_STATUS_RUNNING = true) ∧
    (∃ (l : Fin 4) (s : State), Powered s ∧ linkRuns s.m l = true ∧ (mget s.m.links l).delayAt + 125000000 ≤ now s.m) ∧
    (∃ (l : Fin 4) (s : State), Powered s ∧ linkRuns s.m l = true) ∧
    (∃ (l : Fin 4) (s : State) (t1 : _), Powered s ∧ linkRuns s.m l = true ∧ (mget s.m.links l).delayT1 = some t1) :=
  ⟨⟨on id, by decide +kernel⟩,
    ⟨3, on (sets [(Reg.SASH_STATUS_STATE 3, 4)]), by decide +kernel⟩,
    ⟨0, on (sets [(Reg.SASH_STATUS_STATE 0, 1)]), by decide +kernel⟩,
    ⟨0, on (sets [(Reg.SASH_STATUS_STATE 0, 2)]), 7, by decide +kernel⟩,
    ⟨0, on (fun m => sets [(Reg.SASH_STATUS_STATE 0, 2)] { m with links := [(0, { lanes := [(1, { block := true })] })] }), 1, by decide +kernel⟩,
    ⟨0, on (fun m => sets [(Reg.SASH_STATUS_STATE 0,
      2)] { m with links := [(0, { lanes := [(1, { block := true, lock := some { lane := 7, count := 5 } })] })] }), 1, { lane := 7, count := 5 }, 7,
      5, by decide +kernel⟩,
    ⟨0, on (fun m => sets [(Reg.SASH_STATUS_STATE 0, 3)] { m with links := [(0, { lanes := [(1, { block := true })] })] }), 1, by decide +kernel⟩,
    ⟨0, on (sets [(Reg.SASH_STATUS_STATE 0, 1), (Reg.SASH_STATUS_PHASE 0, 4)]), 1, 0, 0, 0, [], by decide +kernel⟩,
    ⟨0, on (sets [(Reg.SASH_STATUS_STATE 0, 4), (Reg.SASH_STATUS_PHASE 0, 4)]), 0, 0, 0, 0, 5, [], by decide +kernel⟩,
    ⟨0, on (sets [(Reg.SASH_STATUS_STATE 0, 2)]), by decide +kernel⟩,
    ⟨0, on (fun m => hasSec 0xE 0 (blob 96 [(2, 2, 100)]) (sets [(Reg.SASH_STATUS_STATE 0, 1), (Reg.TIME_NOW, 100000000)] m)), by decide +kernel⟩,
    ⟨0, on (sets [(Reg.SASH_STATUS_STATE 0, 2)]), .pf, by decide +kernel⟩,
    ⟨0, on (sets [(Reg.SASH_STATUS_STATE 0, 5)]), .mi false, by decide +kernel⟩,
    ⟨0, on (sets [(Reg.SASH_STATUS_STATE 0, 3)]), .pf, by decide +kernel⟩,
    ⟨0, on (sets [(Reg.SASH_STATUS_STATE 0, 0)]), .pf, by decide +kernel⟩,
    ⟨0, on (sets [(Reg.SASH_STATUS_STATE 0, 2)]), .pf, by decide +kernel⟩,
    ⟨0, on (fun m => hasSec 1 0 [] (hasSec 0xE 0 (blob 96 [(0, 1, 1)]) (sets [(Reg.SASH_STATUS_STATE 0, 0)] m))), .mi true, by decide +kernel⟩,
    ⟨0, on (sets [(Reg.SASH_STATUS_STATE 0, 4)]), by decide +kernel⟩,
    ⟨0, on (sets [(Reg.SASH_STATUS_STATE 0, 2), (Reg.TIME_TURN_STATUS_RUNNING, 1)]), by decide +kernel⟩,
    ⟨0, on (sets [(Reg.SASH_STATUS_STATE 0, 2), (Reg.TIME_NOW, 125000000)]), by decide +kernel⟩,
    ⟨0, on (sets [(Reg.SASH_STATUS_STATE 0, 2)]), by decide +kernel⟩,
    ⟨0, on (fun m => sets [(Reg.SASH_STATUS_STATE 0, 2)] { m with links := [(0, { delayT1 := some 5 })] }), 5, by decide +kernel⟩⟩

theorem witness_SashFramesAreTakenAndAcknowledged :
    (∃ (l : Fin 4) (s : State), Powered s ∧ linkRuns s.m l = true) ∧
    (∃ (l : Fin 4) (s : State) (seq : BitVec 16) (src dest : Fin 8) (b : Bool) (page epoch n : Nat) (i : Fin 16) (data : List Byte) (c : _),
      Powered s ∧ linkRuns s.m l = true ∧ (c ∈ ([Instr.sashFrameRefMsg l seq src dest b page epoch n, .sashFrameRefAck l seq src dest n b,
      .sashFramePageReq l seq src page epoch n, .sashFramePageData l seq n i data, .sashFramePageGone l seq n, .sashFramePageErr l seq n])) ∧
      seq.toNat ≠ (mget s.m.links l).rxSeq) ∧
    (∃ (l : Fin 4) (s : State) (seq : BitVec 16), Powered s ∧ linkRuns s.m l = true ∧ seq.toNat ≠ (mget s.m.links l).rxSeq) ∧
    (∃ (l : Fin 4) (s : State) (seq : BitVec 16) (src dest : Fin 8) (b : Bool) (page epoch n : Nat) (i : Fin 16) (data : List Byte) (c : _),
      Powered s ∧ linkRuns s.m l = true ∧ (c ∈ ([Instr.sashFrameRefMsg l seq src dest b page epoch n, .sashFrameRefAck l seq src dest n b,
      .sashFramePageReq l seq src page epoch n, .sashFramePageData l seq n i data, .sashFramePageGone l seq n, .sashFramePageErr l seq n])) ∧
      seq.toNat = (mget s.m.links l).rxSeq ∧ linkState s.m l = 3) ∧
    (∃ (l : Fin 4) (s : State), Powered s ∧ linkRuns s.m l = true ∧ (mget s.m.links l).unacked ≠ [] ∧ (mget s.m.links l).ackAt + 20000 ≤ now s.m ∧
      (mget s.m.links l).fails ≠ 4) ∧
    (∃ (l : Fin 4) (s : State), Powered s ∧ linkRuns s.m l = true ∧ (mget s.m.links l).unacked ≠ [] ∧ (mget s.m.links l).ackAt + 20000 ≤ now s.m ∧
      (mget s.m.links l).fails = 4) ∧
    (∃ (l : Fin 4) (s : State), Powered s ∧ linkRuns s.m l = true ∧ (mget s.m.links l).queue = [] ∧ (∀ p < 8, kvIdle s.m p = false) ∧ (∀ f ∈
      (mget s.m.links l).unacked, f.kind ≠ SFrame.pageData ∧ f.kind ≠ SFrame.slotData)) ∧
    (∃ (l : Fin 4) (seq : BitVec 16) (s : State) (dest : Fin 8), Powered s ∧ linkState s.m l = 2 ∧ seq.toNat = (mget s.m.links l).rxSeq ∧
      kvIdle s.m dest = false) ∧
    (∃ (l : Fin 4) (seq : BitVec 16) (s : State) (src : Fin 8), Powered s ∧ linkState s.m l = 2 ∧ seq.toNat = (mget s.m.links l).rxSeq ∧
      (mget s.m.kvs src).op = .instr) ∧
    (∃ (l : Fin 4) (seq : BitVec 16) (s : State) (src : Fin 8), Powered s ∧ linkState s.m l = 2 ∧ seq.toNat = (mget s.m.links l).rxSeq ∧
      kvIdle s.m src = false ∧ (mget s.m.links l).serving.length < 32) ∧
    (∃ (l : Fin 4) (seq : BitVec 16) (s : State), Powered s ∧ linkState s.m l = 2 ∧ seq.toNat = (mget s.m.links l).rxSeq ∧ 32 ≤
      (mget s.m.links l).serving.length) ∧
    (∃ (l : Fin 4) (seq : BitVec 16) (s : State) (req : Nat) (r : KvRead) (i : Fin 16), Powered s ∧ linkState s.m l = 2 ∧ seq.toNat =
      (mget s.m.links l).rxSeq ∧ readOf s.m l req = some r ∧ r.frames < 15 ∧ Clean s.m (kvPage s.m (req % 8) r.mirror + 4096 * i) 4096) ∧
    (∃ (l : Fin 4) (seq : BitVec 16) (s : State) (req : Nat) (r : KvRead) (rest : _), Powered s ∧ linkState s.m l = 2 ∧ seq.toNat =
      (mget s.m.links l).rxSeq ∧ readOf s.m l req = some r ∧ (mget s.m.kvs (req % 8)).reads = r :: rest ∧ rest ≠ [] ∧ (∀ y ∈ rest, y.req ≠ req) ∧
      (mget s.m.kvs (req % 8)).fail = none) ∧
    (∃ (l : Fin 4) (seq : BitVec 16) (s : State) (box : Nat), Powered s ∧ linkState s.m l = 2 ∧ seq.toNat = (mget s.m.links l).rxSeq ∧ box < 32 ∧
      (boxAt s.m box).part < 8 ∧ boxOn s.m l box 0 = true) ∧
    (∃ (l : Fin 4) (seq : BitVec 16) (s : State) (box k : Nat), Powered s ∧ linkState s.m l = 2 ∧ seq.toNat = (mget s.m.links l).rxSeq ∧ box < 32 ∧
      (boxAt s.m box).part < 8 ∧ boxOn s.m l box 1 = true ∧ freeInSlot s.m (boxAt s.m box) = some k ∧ Clean s.m ((boxAt s.m box).base + k *
      (boxAt s.m box).bytes + 4096 * (mget s.m.boxes box).frames) 4096 ∧ ((mget s.m.boxes box).frames + 1) * 4096 < (boxAt s.m box).bytes) ∧
    (∃ (l : Fin 4) (seq : BitVec 16) (s : State) (box k : Nat), Powered s ∧ linkState s.m l = 2 ∧ seq.toNat = (mget s.m.links l).rxSeq ∧ box < 32 ∧
      (boxAt s.m box).part < 8 ∧ boxOn s.m l box 1 = true ∧ freeInSlot s.m (boxAt s.m box) = some k ∧ Clean s.m ((boxAt s.m box).base + k *
      (boxAt s.m box).bytes + 4096 * (mget s.m.boxes box).frames) 4096 ∧ (boxAt s.m box).bytes ≤ ((mget s.m.boxes box).frames + 1) * 4096) ∧
    (∃ (l : Fin 4) (box : Fin 32) (k : Nat) (s : State), Powered s ∧ linkState s.m l = 2 ∧ boxOn s.m l box 0 = true ∧ (boxAt s.m box).part < 8 ∧
      (mget s.m.boxes box).used.find? (fun i => !(mget s.m.boxes box).sent.contains i) = some k ∧ (mget s.m.boxes box).grants ≠ 0 ∧ Clean s.m
      ((boxAt s.m box).base + k * (boxAt s.m box).bytes) (boxAt s.m box).bytes ∧ le (readMem s.m ((boxAt s.m box).base + k * (boxAt s.m box).bytes)
      (boxAt s.m box).bytes) ((boxAt s.m box).bytes - 4) 4 = crc32c ((readMem s.m ((boxAt s.m box).base + k * (boxAt s.m box).bytes)
      (boxAt s.m box).bytes).take ((boxAt s.m box).bytes - 4))) ∧
    (∃ (l : Fin 4) (box : Fin 32) (k : Nat) (s : State), Powered s ∧ linkState s.m l = 2 ∧ boxOn s.m l box 0 = true ∧ (boxAt s.m box).part < 8 ∧
      (mget s.m.boxes box).used.find? (fun i => !(mget s.m.boxes box).sent.contains i) = some k ∧ (mget s.m.boxes box).grants ≠ 0 ∧ Clean s.m
      ((boxAt s.m box).base + k * (boxAt s.m box).bytes) (boxAt s.m box).bytes ∧ le (readMem s.m ((boxAt s.m box).base + k * (boxAt s.m box).bytes)
      (boxAt s.m box).bytes) ((boxAt s.m box).bytes - 4) 4 ≠ crc32c ((readMem s.m ((boxAt s.m box).base + k * (boxAt s.m box).bytes)
      (boxAt s.m box).bytes).take ((boxAt s.m box).bytes - 4))) :=
  ⟨⟨0, on (sets [(Reg.SASH_STATUS_STATE 0, 2)]), by decide +kernel⟩,
    ⟨0, on (sets [(Reg.SASH_STATUS_STATE 0, 2)]), 1, 0, 0, true, 0, 0, 0, 0, [], .sashFramePageGone 0 1 0, by decide +kernel⟩,
    ⟨0, on (sets [(Reg.SASH_STATUS_STATE 0, 2)]), 0xFFFF, by decide +kernel⟩,
    ⟨0, on (sets [(Reg.SASH_STATUS_STATE 0, 3)]), 0, 0, 0, true, 0, 0, 0, 0, [], .sashFramePageGone 0 0 0, by decide +kernel⟩,
    ⟨0, on (fun m => sets [(Reg.SASH_STATUS_STATE 0, 2), (Reg.TIME_NOW, 20000)] { m with links := [(0, { unacked := [{}], fails := 3 })] }),
      by decide +kernel⟩,
    ⟨0, on (fun m => sets [(Reg.SASH_STATUS_STATE 0, 2), (Reg.TIME_NOW, 20000)] { m with links := [(0, { unacked := [{}], fails := 4 })] }),
      by decide +kernel⟩,
    ⟨0, on (sets ((Reg.SASH_STATUS_STATE 0, 2) :: (List.range 8).map (fun p => (Reg.TC_RECOV_STATUS_STATE p, 3)))), by decide +kernel⟩,
    ⟨0, 0, on (sets [(Reg.SASH_STATUS_STATE 0, 2), (Reg.TC_RECOV_STATUS_STATE 5, 3)]), 5, by decide +kernel⟩,
    ⟨0, 0, on (fun m => sets [(Reg.SASH_STATUS_STATE 0, 2)] { m with kvs := [(5, { op := .instr })] }), 5, by decide +kernel⟩,
    ⟨0, 0, on (fun m => sets [(Reg.SASH_STATUS_STATE 0,
      2)] { m with kvs := [(5, { op := .instr })], links := [(0, { serving := List.replicate 31 {} })] }), 5, by decide +kernel⟩,
    ⟨0, 0, on (fun m => sets [(Reg.SASH_STATUS_STATE 0, 2)] { m with links := [(0, { serving := List.replicate 32 {} })] }), by decide +kernel⟩,
    ⟨0, 0, on (fun m => sets [(Reg.SASH_STATUS_STATE 0, 2)] { m with kvs := [(0, { reads := [{ frames := 14 }] })] }), 0, { frames := 14 }, 15,
      by decide +kernel⟩,
    ⟨0, 0, on (fun m => sets [(Reg.SASH_STATUS_STATE 0, 2)] { m with kvs := [(0, { reads := [{}, { req := 8 }] })] }), 0, {}, [{ req := 8 }],
      by decide +kernel⟩,
    ⟨0, 0, on (fun m => hasSec 0xE 0 (blob 128 [(1, 1, 1)]) (sets [(Reg.SASH_STATUS_STATE 0, 2)] m)), 0, by decide +kernel⟩,
    ⟨0, 0, on (fun m => hasSec 0xE 0 (blob 128 [(1, 1, 1), (0x60, 1, 1), (0x63, 1, 2), (0x64, 4, 8192)]) (sets [(Reg.SASH_STATUS_STATE 0,
      2)] { m with boxes := [(0, { used := [0] })] })), 0, 1, by decide +kernel⟩,
    ⟨0, 0, on (fun m => hasSec 0xE 0 (blob 128 [(1, 1, 1), (0x60, 1, 1), (0x63, 1, 2), (0x64, 4, 8192)]) (sets [(Reg.SASH_STATUS_STATE 0,
      2)] { m with boxes := [(0, { frames := 1 })] })), 0, 0, by decide +kernel⟩,
    ⟨0, 0, 1, on (fun m => hasSec 0xE 0 (blob 128 [(1, 1, 1), (0x63, 1, 2), (0x64, 4, 64)]) (holds 124 (leBytes 4 0x5a0b0531)
      (sets [(Reg.SASH_STATUS_STATE 0, 2)] { m with boxes := [(0, { used := [1], grants := 1 })] }))), by decide +kernel⟩,
    ⟨0, 0, 1, on (fun m => hasSec 0xE 0 (blob 128 [(1, 1, 1), (0x63, 1, 2), (0x64, 4, 64)]) (sets [(Reg.SASH_STATUS_STATE 0,
      2)] { m with boxes := [(0, { used := [0, 1], sent := [0], grants := 1 })] })), by decide +kernel⟩⟩

theorem witness_IslandMemoryErrorsAreFatal :
    ∃ (s : State), Powered s :=
  ⟨on id, by decide +kernel⟩

theorem witness_TheIslandVotesAndTheSafeStateHolds :
    (∃ (s : State), Powered s) ∧
    (∃ (s : State) (level : Bool), Powered s ∧ s.m.saf.islandUp = true ∧ level = (!s.m.saf.latchA && !s.m.saf.latchB)) ∧
    (∃ (s : State) (level : Bool), Powered s ∧ s.m.saf.islandUp = true ∧ level ≠ (!s.m.saf.latchA && !s.m.saf.latchB)) ∧
    (∃ (s : State), Powered s ∧ s.m.saf.islandUp = true ∧ s.m.saf.halted = false ∧ pairMode s.m = false) ∧
    (∃ (s : State) (odd : Option (Fin 3)), Powered s ∧ s.m.saf.islandUp = true ∧ s.m.saf.halted = false ∧ (odd = none ∨ pairMode s.m = true)) ∧
    (∃ (s : State) (t0 : _), Powered s ∧ s.m.saf.islandUp = true ∧ s.m.saf.halted = false ∧ s.m.saf.wdogLast = some t0 ∧
      (s.m.saf.wdogFresh = true ∨ 50000 ≤ now s.m - t0) ∧ now s.m - t0 ≤ 150000) ∧
    (∃ (s : State) (t0 : _), Powered s ∧ s.m.saf.islandUp = true ∧ s.m.saf.halted = false ∧ s.m.saf.wdogLast = some t0 ∧ (s.m.saf.wdogFresh = false ∧
      now s.m - t0 < 50000 ∨ 150000 < now s.m - t0)) ∧
    (∃ (s : State) (t0 : _), Powered s ∧ s.m.saf.islandUp = true ∧ s.m.saf.halted = false ∧ s.m.saf.wdogLast = some t0 ∧ t0 + 150000 < now s.m) ∧
    (∃ (s : State) (k : _), Powered s ∧ s.m.saf.odd = some k) ∧
    (∃ (s : State), Powered s ∧ debugOpen s.m = true ∧ s.m.saf.halted = false ∧ s.m.saf.islandUp = true) ∧
    (∃ (s : State), Powered s ∧ debugOpen s.m = true) ∧
    (∃ (s : State), Powered s ∧ debugOpen s.m = true ∧ s.m.saf.replay.length < 256) ∧
    (∃ (s : State), Powered s ∧ debugOpen s.m = true ∧ 256 ≤ s.m.saf.replay.length) ∧
    (∃ (s : State), Powered s ∧ debugOpen s.m = true ∧ s.m.saf.halted = true) ∧
    (∃ (s : State), Powered s ∧ debugOpen s.m = true ∧ s.m.saf.halted = true ∧ pairMode s.m = false) ∧
    (∃ (who : Requester) (s : State), Powered s ∧ MayWrite s.m who Reg.HOST_SAF_REQUEST_ACTION .pfHc) ∧
    (∃ (who : Requester) (s : State) (action : Byte), Powered s ∧ MayWrite s.m who Reg.HOST_SAF_REQUEST_ACTION .pfHc ∧ action ≠ 1 ∧ action ≠ 2) ∧
    (∃ (who : Requester) (s : State) (token : BitVec 16), Powered s ∧ MayWrite s.m who Reg.HOST_SAF_REQUEST_ACTION .pfHc ∧ ((exitMode s.m = 1 ∧
      rd s.m Reg.SAF_STATUS_EXIT_TOKEN = token.toNat ∧ ∀ k ∈ s.m.saf.causes, mayExit s.m k = true))) ∧
    (∃ (who : Requester) (s : State) (token : BitVec 16), Powered s ∧ MayWrite s.m who Reg.HOST_SAF_REQUEST_ACTION .pfHc ∧ (¬ (exitMode s.m = 1 ∧
      rd s.m Reg.SAF_STATUS_EXIT_TOKEN = token.toNat ∧ ∀ k ∈ s.m.saf.causes, mayExit s.m k = true))) ∧
    (∃ (s : State) (x : _), Powered s ∧ s.m.saf.exit = some x ∧ x.tested = false ∧ x.at0 + 2000000 ≤ now s.m) ∧
    (∃ (s : State) (x n : _), Powered s ∧ s.m.saf.exit = some x ∧ x.tested = true ∧ x.turns = some n ∧ exitTurns s.m ≤ n ∧
      now s.m ≤ rd s.m Reg.TIME_TURN_TICK + 2 ∧ (∀ k ∈ s.m.saf.causes, mayExit s.m k = true)) :=
  ⟨⟨on id, by decide +kernel⟩,
    ⟨on id, false, by decide +kernel⟩,
    ⟨on id, true, by decide +kernel⟩,
    ⟨on id, by decide +kernel⟩,
    ⟨on id, none, by decide +kernel⟩,
    ⟨on (fun m => sets [(Reg.TIME_NOW, 150000)] { m with saf := { wdogLast := some 0 } }), 0, by decide +kernel⟩,
    ⟨on (fun m => sets [(Reg.TIME_NOW, 49999)] { m with saf := { wdogLast := some 0, wdogFresh := false } }), 0, by decide +kernel⟩,
    ⟨on (fun m => sets [(Reg.TIME_NOW, 150001)] { m with saf := { wdogLast := some 0 } }), 0, by decide +kernel⟩,
    ⟨on (fun m => { m with saf := { odd := some 2 } }), 2, by decide +kernel⟩,
    ⟨on (sets [(Reg.PAT_STATUS_DEBUG_SESSION, 1)]), by decide +kernel⟩,
    ⟨on (sets [(Reg.PAT_STATUS_DEBUG_SESSION, 1)]), by decide +kernel⟩,
    ⟨on (fun m => sets [(Reg.PAT_STATUS_DEBUG_SESSION, 1)] { m with saf := { replay := List.replicate 255 (0, 0) } }), by decide +kernel⟩,
    ⟨on (fun m => sets [(Reg.PAT_STATUS_DEBUG_SESSION, 1)] { m with saf := { replay := List.replicate 256 (0, 0) } }), by decide +kernel⟩,
    ⟨on (fun m => sets [(Reg.PAT_STATUS_DEBUG_SESSION, 1)] { m with saf := { halted := true } }), by decide +kernel⟩,
    ⟨on (fun m => sets [(Reg.PAT_STATUS_DEBUG_SESSION, 1)] { m with saf := { halted := true } }), by decide +kernel⟩,
    ⟨.pf, on id, by decide +kernel⟩,
    ⟨.pf, on id, 3, by decide +kernel⟩,
    ⟨.pf, on (fun m => hasSec 0x11 0 (blob 16 [(5, 1, 1)]) { m with saf := { causes := [.hostRequest] } }), 0, by decide +kernel⟩,
    ⟨.pf, on (hasSec 0x11 0 (blob 16 [(5, 1, 1)])), 0, by decide +kernel⟩,
    ⟨on (fun m => sets [(Reg.TIME_NOW, 2000000)] { m with saf := { exit := some { at0 := 0 } } }), { at0 := 0 }, by decide +kernel⟩,
    ⟨on (fun m => hasSec 0x11 0 (blob 16 [(6, 1,
      2)]) { m with saf := { causes := [.hostRequest], exit := some { at0 := 0, tested := true, turns := some 2 } } }),
      { at0 := 0, tested := true, turns := some 2 }, 2, by decide +kernel⟩⟩

theorem witness_GridsReachTheCallerAndThePartnerItsItems :
    (∃ (partner : Bool) (tag : Nat) (g : GridMsg) (rest : List GridMsg) (s : State), Powered s ∧ (takeGrid partner tag s.m.grids = some (g, rest)) ∧
      (lookup s.m.items tag = none ∨ ∃ it, lookup s.m.items tag = some it ∧ it.verdict.isSome = true)) ∧
    (∃ (partner : Bool) (tag : Nat) (g : GridMsg) (rest : List GridMsg) (s : State) (it : _), Powered s ∧ (takeGrid partner tag s.m.grids = some (g,
      rest)) ∧ lookup s.m.items tag = some it ∧ it.verdict = none ∧ it.fixed = none) ∧
    (∃ (partner : Bool) (tag : Nat) (g : GridMsg) (rest : List GridMsg) (s : State) (it : _), Powered s ∧ (takeGrid partner tag s.m.grids = some (g,
      rest)) ∧ lookup s.m.items tag = some it ∧ it.verdict = none ∧ it.fixed = none ∧ inSafe s.m = false ∧ s.m.saf.latchA = false ∧
      s.m.saf.latchB = false ∧ (if partner then (mget s.m.saf.caller tag).main else (mget s.m.saf.caller tag).partner) = none) ∧
    (∃ (partner : Bool) (tag : Nat) (g : GridMsg) (rest : List GridMsg) (s : State) (it a b : _), Powered s ∧ (takeGrid partner tag s.m.grids = some
      (g, rest)) ∧ lookup s.m.items tag = some it ∧ it.verdict = none ∧ it.fixed = none ∧ inSafe s.m = false ∧ s.m.saf.latchA = false ∧
      s.m.saf.latchB = false ∧ ((partner = true ∧ (mget s.m.saf.caller tag).main = some a ∧ b = g.data) ∨ (partner = false ∧ a = g.data ∧
      (mget s.m.saf.caller tag).partner = some b)) ∧ (compareCells ((callerProfile s.m (tagStream tag)).getD []) a b).2.2 = false ∧ (compareCells
      ((callerProfile s.m (tagStream tag)).getD []) a b).2.1 ≤ le ((callerProfile s.m (tagStream tag)).getD []) 6 2) ∧
    (∃ (partner : Bool) (tag : Nat) (g : GridMsg) (rest : List GridMsg) (s : State) (it a b : _), Powered s ∧ (takeGrid partner tag s.m.grids = some
      (g, rest)) ∧ lookup s.m.items tag = some it ∧ it.verdict = none ∧ it.fixed = none ∧ inSafe s.m = false ∧ s.m.saf.latchA = false ∧
      s.m.saf.latchB = false ∧ ((partner = true ∧ (mget s.m.saf.caller tag).main = some a ∧ b = g.data) ∨ (partner = false ∧ a = g.data ∧
      (mget s.m.saf.caller tag).partner = some b)) ∧ ((compareCells ((callerProfile s.m (tagStream tag)).getD []) a b).2.2 = true ∨ le
      ((callerProfile s.m (tagStream tag)).getD []) 6 2 < (compareCells ((callerProfile s.m (tagStream tag)).getD []) a b).2.1) ∧ getD 0 s.m.saf.runs
      (tagStream tag) + 1 < rejectRun s.m) ∧
    (∃ (i : Nat) (s : State), Powered s ∧ getD 0 s.m.saf.runs i ≠ 0 ∧ rejectRun s.m ≤ getD 0 s.m.saf.runs i ∧ i ∉ s.m.saf.raised) ∧
    (∃ (a : Alive) (s : State), Powered s ∧ s.m.saf.aliveDue = some a ∧ s.m.saf.islandUp = true ∧ s.m.saf.halted = false) ∧
    (∃ (e : Fin 2) (frame : List Byte) (s : State), Powered s ∧ rd s.m (Reg.SAF_ETH_STATUS_STATE e) = 2 ∧ (ethHeader frame).2.2.1 ≠ 0x0806 ∧
      (ethHeader frame).2.2.1 ≠ 0x88F7) ∧
    (∃ (s : State) (dev : Int), Powered s ∧ (dev.natAbs ≤ 100 ∨ rd s.m Reg.PTN_STATUS_STATE ≠ 1)) ∧
    (∃ (s : State) (dev : Int), Powered s ∧ 100 < dev.natAbs ∧ rd s.m Reg.PTN_STATUS_STATE = 1) ∧
    (∃ (s : State), Powered s ∧ rd s.m Reg.PTN_STATUS_STATE = 1) ∧
    (∃ (s : State), Powered s ∧ rd s.m Reg.PTN_STATUS_STATE = 2 ∧ s.m.saf.ptnWipeAt + 36409 ≤ now s.m) ∧
    (∃ (s : State) (k rest : _), Powered s ∧ s.m.lane = k :: rest ∧ k.index ≠ 0xFFFFFFFF ∧ (ptnEntry s.m
      (tagStream k.tag) = none ∨ 2 ≤ rd s.m Reg.PTN_STATUS_STATE)) ∧
    (∃ (s : State) (k rest x : _), Powered s ∧ s.m.lane = k :: rest ∧ ptnEntry s.m (tagStream k.tag) = some x ∧
      lookup s.m.saf.ptnIn k.tag = some true ∧ (mget s.m.rnotes 8).length < 512 ∧ k.index ≠ 0xFFFFFFFF ∧ rd s.m Reg.PTN_STATUS_STATE < 2) ∧
    (∃ (s : State) (k rest x : _), Powered s ∧ s.m.lane = k :: rest ∧ ptnEntry s.m (tagStream k.tag) = some x ∧
      lookup s.m.saf.ptnIn k.tag = some true ∧ (mget s.m.rnotes 8).length < 512 ∧ k.index = 0xFFFFFFFF) :=
  ⟨⟨false, 3, { tag := 3 }, [], on (fun m => { m with grids := [{ tag := 3 }] }), rfl, rfl, .inl rfl⟩,
    ⟨true, 3, { tag := 3, partner := true }, [{ tag := 3 }], on (fun m =>
      { m with grids := [{ tag := 3 }, { tag := 3, partner := true }], items := [(3, {})] }), {}, by decide +kernel⟩,
    ⟨false, 3, { tag := 3 }, [], noSafe (fun m => { m with grids := [{ tag := 3 }], items := [(3, {})] }), {}, by decide +kernel⟩,
    ⟨false, 3, { tag := 3, data := [1] }, [], noSafe (fun m =>
      { m with grids := [{ tag := 3, data := [1] }], items := [(3, {})], saf := { m.saf with caller := [(3, { partner := some [1] })] } }), {}, [1],
      [1], by decide +kernel⟩,
    ⟨true, 3, { tag := 3, partner := true, data := [200] }, [], noSafe (fun m => hasSec 0x11 0 (blob 16 [(4, 1,
      3)]) { m with grids := [{ tag := 3, partner := true, data := [200] }], items := [(3, {})], saf := { m.saf with caller := [(3, { main := some [1] })], runs := [(0, 1)] } }),
      {}, [1], [200], by decide +kernel⟩,
    ⟨0, on (fun m => hasSec 0x11 0 (blob 16 [(4, 1, 3)]) { m with saf := { runs := [(0, 3)] } }), by decide +kernel⟩,
    ⟨{}, on (fun m => { m with saf := { aliveDue := some {} } }), by decide +kernel⟩,
    ⟨1, [], on (sets [(Reg.SAF_ETH_STATUS_STATE 1, 2)]), by decide +kernel⟩,
    ⟨on (sets [(Reg.PTN_STATUS_STATE, 1)]), -100, by decide +kernel⟩,
    ⟨on (sets [(Reg.PTN_STATUS_STATE, 1)]), 101, by decide +kernel⟩,
    ⟨on (sets [(Reg.PTN_STATUS_STATE, 1)]), by decide +kernel⟩,
    ⟨on (sets [(Reg.PTN_STATUS_STATE, 2), (Reg.TIME_NOW, 36409)]), by decide +kernel⟩,
    ⟨on (fun m => { m with lane := [{ tag := 3 }] }), { tag := 3 }, [], by decide +kernel⟩,
    ⟨on (fun m => hasSec 0xB 0 (blob 96 [(0, 2, 1)]) (sets [(Reg.PTN_STATUS_STATE,
      1)] { m with lane := [{ tag := 3 }], saf := { ptnIn := [(3, true)] } })), { tag := 3 }, [], (ptnEntry (hasSec 0xB 0 (blob 96 [(0, 2,
      1)]) {}) 0).getD [], by decide +kernel⟩,
    ⟨on (fun m => hasSec 0xB 0 (blob 96 [(0, 2,
      1)]) { m with lane := [{ tag := 3, index := 0xFFFFFFFF }], saf := { ptnIn := [(3, true)] }, rnotes := [(8, List.replicate 511 {})] }),
      { tag := 3, index := 0xFFFFFFFF }, [], (ptnEntry (hasSec 0xB 0 (blob 96 [(0, 2, 1)]) {}) 0).getD [], by decide +kernel⟩⟩

theorem witness_FunctionsAndTheLinkComeAndGo :
    (∃ (gen width : Nat) (s : State), Powered s ∧ s.m.perst = false ∧ s.m.pe = false ∧ 1 ≤ gen ∧ gen ≤ 5 ∧ (width ∈ [1, 2, 4, 8, 16])) ∧
    (∃ (s : State), Powered s ∧ s.m.pe = true ∧ s.m.endpoint = true) ∧
    (∃ (s : State), Powered s ∧ s.m.pe = true ∧ s.m.endpoint = true) ∧
    (∃ (v : Fin 64) (s : State), Powered s ∧ fnReach s.m v = true) ∧
    (∃ (v : Fin 64) (s : State), Powered s ∧ fnReach s.m v = true ∧ (mget s.m.funcs v).msixPending = []) ∧
    (∃ (v : Fin 64) (s : State), Powered s ∧ (mget s.m.funcs v).resetting = true ∧ rd s.m Reg.HOST_VF_RESETTING < 2 ^ 64) ∧
    (∃ (s : State) (v : Fin 64), Powered s ∧ v.val ≠ 0 ∧ s.m.pe = true ∧ fnExists s.m v = true ∧ (mget s.m.funcs v).resetting = false ∧ ((fun
      (v : Nat) => ∀ q ∈ ringsOf s.m v, (mget s.m.rings q).fetched = [] ∧ (mget s.m.rings q).spill = []) v)) ∧
    (∃ (s : State), Powered s ∧ (∀ v ∈ (0 :: liveVfs s.m), (fun  (v : Nat) => ∀ q ∈ ringsOf s.m v, (mget s.m.rings q).fetched = [] ∧
      (mget s.m.rings q).spill = []) v) ∧ s.m.pe = true ∧ s.m.endpoint = true) ∧
    (∃ (s : State), Powered s ∧ (∀ v ∈ (0 :: liveVfs s.m), (fun  (v : Nat) => ∀ q ∈ ringsOf s.m v, (mget s.m.rings q).fetched = [] ∧
      (mget s.m.rings q).spill = []) v) ∧ s.m.pe = true) ∧
    (∃ (s : State), Powered s ∧ (∀ x ∈ s.m.rings, ∀ d ∈ x.2.fetched, d.started = true → d.opcode < 6)) ∧
    (∃ (s : State), Powered s) :=
  ⟨⟨5, 16, on (fun m => { m with pe := false }), by decide +kernel⟩,
    ⟨on id, by decide +kernel⟩,
    ⟨on id, by decide +kernel⟩,
    ⟨63, on (sets [(Reg.HOST_STATUS_VF_ENABLE, 1), (Reg.HOST_STATUS_NUMVFS, 63)]), by decide +kernel⟩,
    ⟨0, on id, by decide +kernel⟩,
    ⟨0, on (fun m => { m with funcs := [(0, { resetting := true })] }), by decide +kernel⟩,
    ⟨on (sets [(Reg.HOST_STATUS_VF_ENABLE, 1), (Reg.HOST_STATUS_NUMVFS, 63)]), 63, by decide +kernel⟩,
    ⟨on (fun m => host0 m), by decide +kernel⟩,
    ⟨on (fun m => host0 { m with endpoint := false }), by decide +kernel⟩,
    ⟨on (fun m => { m with rings := [(0, { fetched := [{ started := true, opcode := 3 }] })] }), by decide +kernel⟩,
    ⟨on id, by decide +kernel⟩⟩

theorem witness_RingsIndicesAndLocksFollowTheirWrites :
    (∃ (who : Requester) (q : Nat) (v : Word) (s : State), Powered s ∧ q < 65536 ∧ hasQueue s.m q = true ∧ MayWrite s.m who
      (Reg.HOST_Q_CTRL_ENABLE q) .queueOwner ∧ v.getLsbD 0 = true ∧ qState s.m q = 0 ∧ enableError (wr (Reg.HOST_Q_CTRL_SIZE_LOG2 q)
      (bitsAt v.toNat 1 5) s.m) q = 0) ∧
    (∃ (who : Requester) (q : Nat) (v : Word) (s : State), Powered s ∧ q < 65536 ∧ hasQueue s.m q = true ∧ MayWrite s.m who
      (Reg.HOST_Q_CTRL_ENABLE q) .queueOwner ∧ v.getLsbD 0 = true ∧ qState s.m q = 0 ∧ enableError (wr (Reg.HOST_Q_CTRL_SIZE_LOG2 q)
      (bitsAt v.toNat 1 5) s.m) q ≠ 0) ∧
    (∃ (who : Requester) (q : Nat) (v : Word) (s : State), Powered s ∧ q < 65536 ∧ hasQueue s.m q = true ∧ MayWrite s.m who
      (Reg.HOST_Q_CTRL_ENABLE q) .queueOwner ∧ v.getLsbD 0 = false ∧ qKind s.m q ≠ 2 ∧ (qState s.m q = 1 ∨ qState s.m q = 3)) ∧
    (∃ (who : Requester) (q : Nat) (v : Word) (s : State), Powered s ∧ q < 65536 ∧ hasQueue s.m q = true ∧ qState s.m q ≠ 0 ∧ qKind s.m q = 2 ∧
      MayWrite s.m who (Reg.HOST_Q_PROD q) .queueOwner ∧ ((qHeld s.m q ≤ fromCons s.m q v ∧ fromCons s.m q v ≤ qSize s.m q))) ∧
    (∃ (who : Requester) (q : Nat) (v : Word) (s : State), Powered s ∧ q < 65536 ∧ hasQueue s.m q = true ∧ qState s.m q ≠ 0 ∧ qKind s.m q = 2 ∧
      MayWrite s.m who (Reg.HOST_Q_PROD q) .queueOwner ∧ (¬ (qHeld s.m q ≤ fromCons s.m q v ∧ fromCons s.m q v ≤ qSize s.m q))) ∧
    (∃ (who : Requester) (q : Nat) (v : Word) (s : State), Powered s ∧ q < 65536 ∧ hasQueue s.m q = true ∧ qState s.m q ≠ 0 ∧ qKind s.m q ≠ 2 ∧
      MayWrite s.m who (Reg.HOST_Q_CONS q) .queueOwner ∧ fromCons s.m q v ≤ qHeld s.m q ∧ (mget s.m.rings q).spill = []) ∧
    (∃ (who : Requester) (q : Nat) (v : Word) (s : State), Powered s ∧ q < 65536 ∧ hasQueue s.m q = true ∧ qState s.m q ≠ 0 ∧ qKind s.m q ≠ 2 ∧
      MayWrite s.m who (Reg.HOST_Q_CONS q) .queueOwner ∧ qHeld s.m q < fromCons s.m q v) ∧
    (∃ (q : Nat) (fails : Fin 3) (r : Rec) (rest : List Rec) (s : State), Powered s ∧ q < 65536 ∧ (takeDecided q s.m.decided = some (r, rest)) ∧
      r.queue = q ∧ r.orphan = false ∧ ringHeld s.m q = false ∧ (mget s.m.rings q).lost = false ∧ (mget s.m.rings q).spill = [] ∧ (r.kind ≠ 0 ∨
      (fails = 0 ∧ ∀ p < 8, kvPages s.m p = 0)) ∧ qHeld s.m q < qSize s.m q ∧ reachable s.m q = true) ∧
    (∃ (q : Nat) (fails : Fin 3) (r : Rec) (rest : List Rec) (s : State), Powered s ∧ q < 65536 ∧ (takeDecided q s.m.decided = some (r, rest)) ∧
      r.queue = q ∧ r.orphan = false ∧ ringHeld s.m q = false ∧ (mget s.m.rings q).lost = false ∧ (mget s.m.rings q).spill = [] ∧ (r.kind ≠ 0 ∨
      (fails = 0 ∧ ∀ p < 8, kvPages s.m p = 0)) ∧ qSize s.m q ≤ qHeld s.m q) ∧
    (∃ (q at0 : Nat) (s : State), Powered s ∧ (mget s.m.rings q).firstPlaced = some at0 ∧ rdb s.m (Reg.HOST_Q_IRQ_IRQ_EN q) = true ∧
      at0 + 1000 * rd s.m (Reg.HOST_Q_IRQ_TIME q) ≤ now s.m) ∧
    (∃ (who : Requester) (n : Fin 1024) (s : State), Powered s ∧ MayWrite s.m who (Reg.LOCK_CMD_CMD n) .any ∧ lockMine s.m (ownerCode who) n = false) ∧
    (∃ (who : Requester) (n : Fin 1024) (s : State), Powered s ∧ MayWrite s.m who (Reg.LOCK_CMD_CMD n) .any ∧ lockMine s.m (ownerCode who) n = true ∧
      (rd s.m (Reg.LOCK_STATE_HOLDER n)) = 0) ∧
    (∃ (who : Requester) (n : Fin 1024) (s : State), Powered s ∧ MayWrite s.m who (Reg.LOCK_CMD_CMD n) .any ∧ lockMine s.m (ownerCode who) n = true ∧
      (rd s.m (Reg.LOCK_STATE_HOLDER n)) ≠ 0) ∧
    (∃ (who : Requester) (n : Fin 1024) (s : State), Powered s ∧ MayWrite s.m who (Reg.LOCK_CMD_CMD n) .any ∧ lockMine s.m (ownerCode who) n = true ∧
      (rd s.m (Reg.LOCK_STATE_HOLDER n)) = reqCode who) ∧
    (∃ (who : Requester) (n : Fin 1024) (s : State), Powered s ∧ MayWrite s.m who (Reg.LOCK_CMD_CMD n) .any ∧ lockMine s.m (ownerCode who) n = true ∧
      (rd s.m (Reg.LOCK_STATE_HOLDER n)) ≠ reqCode who) ∧
    (∃ (who : Requester) (s : State), Powered s ∧ MayWrite s.m who Reg.HOST_HC_CTRL_RESET .any) :=
  ⟨⟨.pf, 0, 9, on host0, by decide +kernel⟩,
    ⟨.pf, 0, 1, on host0, by decide +kernel⟩,
    ⟨.pf, 0, 0, on (fun m => host0 (sets [(Reg.HOST_Q_STATUS_STATE 0, 3)] m)), by decide +kernel⟩,
    ⟨.pf, 0, 1, on (fun m => host0 (sets [(Reg.HOST_Q_STATUS_STATE 0, 1), (Reg.HOST_Q_CFG_KIND 0, 2)] m)), by decide +kernel⟩,
    ⟨.pf, 0, 2, on (fun m => host0 (sets [(Reg.HOST_Q_STATUS_STATE 0, 1), (Reg.HOST_Q_CFG_KIND 0, 2)] m)), by decide +kernel⟩,
    ⟨.pf, 0, 2, on (fun m => host0 (sets [(Reg.HOST_Q_STATUS_STATE 0, 1), (Reg.HOST_Q_PROD 0, 2)] m)), by decide +kernel⟩,
    ⟨.pf, 0, 1, on (fun m => host0 (sets [(Reg.HOST_Q_STATUS_STATE 0, 1)] m)), by decide +kernel⟩,
    ⟨0, 0, {}, [], on (fun m => host0 { m with decided := [{}] }), by decide +kernel⟩,
    ⟨0, 0, { kind := 1 }, [{ queue := 1 }], on (fun m => host0 (sets [(Reg.HOST_Q_PROD 0,
      1)] { m with decided := [{ kind := 1 }, { queue := 1 }] })), by decide +kernel⟩,
    ⟨0, 0, on (fun m => sets [(Reg.HOST_Q_IRQ_IRQ_EN 0, 1), (Reg.HOST_Q_IRQ_TIME 0, 5), (Reg.TIME_NOW,
      5000)] { m with rings := [(0, { firstPlaced := some 0 })] }), by decide +kernel⟩,
    ⟨.pf, 1023, on host0, by decide +kernel⟩,
    ⟨.pf, 1023, on (hasSec 0xD 0 (blob 1088 [(1087, 1, 1)])), by decide +kernel⟩,
    ⟨.pf, 1023, on (fun m => hasSec 0xD 0 (blob 1088 [(1087, 1, 1)]) (sets [(Reg.LOCK_STATE_HOLDER 1023, 5)] m)), by decide +kernel⟩,
    ⟨.pf, 1023, on (fun m => hasSec 0xD 0 (blob 1088 [(1087, 1, 1)]) (sets [(Reg.LOCK_STATE_HOLDER 1023, 1)] m)), by decide +kernel⟩,
    ⟨.pf, 1023, on (fun m => hasSec 0xD 0 (blob 1088 [(1087, 1, 1)]) (sets [(Reg.LOCK_STATE_HOLDER 1023, 5)] m)), by decide +kernel⟩,
    ⟨.mi false, on id, by decide +kernel⟩⟩

theorem witness_DescriptorsAreFetchedAndRun :
    (∃ (q : Nat) (s : State), Powered s ∧ q < 65536 ∧ mayFetch s.m q = true ∧ qCompletion s.m q ≠ q ∧ qInHbm s.m q = false) ∧
    (∃ (q : Nat) (s : State), Powered s ∧ q < 65536 ∧ mayFetch s.m q = true ∧ qCompletion s.m q ≠ q ∧ qInHbm s.m q = true ∧ inRefresh s.m
      ((mget s.m.rings q).base + (rd s.m (Reg.HOST_Q_CONS q)) % 2 ^ (mget s.m.rings q).k * 64) 64 = false ∧ Clean s.m ((mget s.m.rings q).base +
      (rd s.m (Reg.HOST_Q_CONS q)) % 2 ^ (mget s.m.rings q).k * 64) 64) ∧
    (∃ (q : Nat) (s : State), Powered s ∧ q < 65536 ∧ mayFetch s.m q = true ∧ qCompletion s.m q ≠ q) ∧
    (∃ (q : Nat) (d : Desc) (s : State) (lba k r c : _), Powered s ∧ nextDesc s.m q = some d ∧ d.ring = q ∧ d.cancelled = false ∧
      (c ∈ [(Instr.descCopyIn q, 1), (.descCopyOut q, 2), (.descCopyHbm q, 3), (.work q, 4), (.descNop q, 5), (.descNvmeRead q lba k, 6),
      (.descNvmeWrite q lba k, 7), (.descNvmeFlush q lba, 8)]) ∧ d.opcode = c.2 ∧ descError s.m d = some r) ∧
    (∃ (q : Nat) (d : Desc) (s : State), Powered s ∧ nextDesc s.m q = some d ∧ d.ring = q ∧ d.cancelled = false ∧ (d.opcode = 0 ∨ 9 ≤ d.opcode)) ∧
    (∃ (q : Nat) (d : Desc) (s : State), Powered s ∧ nextDesc s.m q = some d ∧ d.ring = q ∧ d.cancelled = false ∧ descError s.m d = none ∧
      d.opcode = 5) ∧
    (∃ (q : Nat) (d : Desc) (s : State) (c : _), Powered s ∧ nextDesc s.m q = some d ∧ d.ring = q ∧ d.cancelled = false ∧ descError s.m d = none ∧
      (c ∈ [(Instr.descCopyIn q, 1), (.descCopyOut q, 2), (.descCopyHbm q, 3)]) ∧ d.opcode = c.2 ∧ dmaBusy s.m < 8) ∧
    (∃ (q : Nat) (d : Desc) (s : State), Powered s ∧ nextDesc s.m q = some d ∧ d.ring = q ∧ d.cancelled = false ∧ descError s.m d = none ∧
      d.opcode = 4 ∧ roleRefuses (partRole s.m (rd s.m (Reg.HOST_Q_CFG_PARTITION q))) (bitsAt d.c 8 2) = true) ∧
    (∃ (q : Nat) (d : Desc) (s : State) (r : _), Powered s ∧ nextDesc s.m q = some d ∧ d.ring = q ∧ d.cancelled = false ∧ descError s.m d = none ∧
      d.opcode = 4 ∧ roleRefuses (partRole s.m (rd s.m (Reg.HOST_Q_CFG_PARTITION q))) (bitsAt d.c 8 2) = false ∧ routineAt s.m (rd s.m
      (Reg.HOST_Q_CFG_PARTITION q)) (d.c % 256) = some r ∧ r.cls ≠ 0 ∧ schedMode s.m (rd s.m (Reg.HOST_Q_CFG_PARTITION q)) ≠ 0 ∧ (mget s.m.recov
      (rd s.m (Reg.HOST_Q_CFG_PARTITION q))).work.length < 64) ∧
    (∃ (q : Nat) (d : Desc) (s : State) (lba k c : _), Powered s ∧ nextDesc s.m q = some d ∧ d.ring = q ∧ d.cancelled = false ∧
      descError s.m d = none ∧ (c ∈ [(Instr.descNvmeRead q lba k, 6), (.descNvmeWrite q lba k, 7), (.descNvmeFlush q lba, 8)]) ∧ d.opcode = c.2 ∧
      nvmeReady s.m = false) ∧
    (∃ (q : Nat) (d : Desc) (s : State) (lba k c n : _), Powered s ∧ nextDesc s.m q = some d ∧ d.ring = q ∧ d.cancelled = false ∧
      descError s.m d = none ∧ (c ∈ [(Instr.descNvmeRead q lba k, 6), (.descNvmeWrite q lba k, 7), (.descNvmeFlush q lba, 8)]) ∧ d.opcode = c.2 ∧
      nvmeReady s.m = true ∧ lba = some n ∧ (n = 512 ∨ n = 4096) ∧ d.bytes % n = 0 ∧ d.nvmeBad = false ∧ (d.opcode = 8 ∨ d.nvmeNext < d.bytes)) ∧
    (∃ (q : Nat) (d : Desc) (s : State), Powered s ∧ d.ring = q ∧ d.cancelled = false ∧ (mget s.m.rings q).fetched.find? (fun d =>
      d.started && decide (1 ≤ d.opcode) && decide (d.opcode ≤ 3)) = some d ∧ burstHeld s.m d = false ∧ d.opcode = 1 ∧ busMaster s.m
      (qOwner s.m q) = true ∧ Clean s.m (d.b + d.done) (min 4096 (d.bytes - d.done))) ∧
    (∃ (q : Nat) (d : Desc) (s : State), Powered s ∧ d.ring = q ∧ d.cancelled = false ∧ (mget s.m.rings q).fetched.find? (fun d =>
      d.started && decide (1 ≤ d.opcode) && decide (d.opcode ≤ 3)) = some d ∧ burstHeld s.m d = false ∧ d.opcode = 1) ∧
    (∃ (q : Nat) (d : Desc) (s : State), Powered s ∧ d.ring = q ∧ d.cancelled = false ∧ (mget s.m.rings q).fetched.find? (fun d =>
      d.started && decide (1 ≤ d.opcode) && decide (d.opcode ≤ 3)) = some d ∧ burstHeld s.m d = false ∧ d.opcode = 2 ∧ busMaster s.m
      (qOwner s.m q) = true ∧ Clean s.m (d.b + d.done) (min 4096 (d.bytes - d.done))) ∧
    (∃ (q : Nat) (d : Desc) (s : State), Powered s ∧ d.ring = q ∧ d.cancelled = false ∧ (mget s.m.rings q).fetched.find? (fun d =>
      d.started && decide (1 ≤ d.opcode) && decide (d.opcode ≤ 3)) = some d ∧ burstHeld s.m d = false ∧ d.opcode = 3 ∧ Clean s.m (d.b + d.done)
      (min 4096 (d.bytes - d.done)) ∧ Clean s.m (d.a + d.done) (min 4096 (d.bytes - d.done))) ∧
    (∃ (q : Nat) (d : Desc) (s : State) (off len : _) (status : BitVec 15), Powered s ∧ d.ring = q ∧ d.cancelled = false ∧
      (mget s.m.rings q).fetched.find? (fun d => d.started && decide (6 ≤ d.opcode)) = some d ∧ (d.nvmeOpen = [(off, len)]) ∧ d.nvmeBad = false ∧
      d.bytes ≤ d.nvmeNext ∧ (d.opcode = 8 ∨ inRefresh s.m (d.b + off) len = false) ∧ status ≠ 0) ∧
    (∃ (q : Nat) (d : Desc) (s : State) (off len : _), Powered s ∧ d.ring = q ∧ d.cancelled = false ∧ (mget s.m.rings q).fetched.find? (fun d =>
      d.started && decide (6 ≤ d.opcode)) = some d ∧ (d.nvmeOpen = [(off, len)]) ∧ d.nvmeBad = false ∧ d.bytes ≤ d.nvmeNext ∧
      (d.opcode = 8 ∨ inRefresh s.m (d.b + off) len = false) ∧ d.opcode ≠ 6) ∧
    (∃ (q : Nat) (d : Desc) (s : State) (off len : _), Powered s ∧ d.ring = q ∧ d.cancelled = false ∧ (mget s.m.rings q).fetched.find? (fun d =>
      d.started && decide (6 ≤ d.opcode)) = some d ∧ (d.nvmeOpen = [(off, len)]) ∧ d.nvmeBad = false ∧ d.bytes ≤ d.nvmeNext ∧
      (d.opcode = 8 ∨ inRefresh s.m (d.b + off) len = false) ∧ d.opcode = 6 ∧ Clean s.m (d.b + off) len) :=
  ⟨⟨0, on (fun m => host0 (sets [(Reg.HOST_Q_STATUS_STATE 0, 1), (Reg.HOST_Q_STATUS_STATE 1, 1), (Reg.HOST_Q_CFG_KIND 0, 2), (Reg.HOST_Q_PROD 0,
      1)] m)), by decide +kernel⟩,
    ⟨0, on (fun m => host0 (sets [(Reg.HOST_Q_STATUS_STATE 0, 1), (Reg.HOST_Q_STATUS_STATE 1, 1), (Reg.HOST_Q_CFG_KIND 0, 2), (Reg.HOST_Q_PROD 0, 1),
      (Reg.HOST_Q_CFG_LOCATION 0, 1)] m)), by decide +kernel⟩,
    ⟨0, on (fun m => host0 (sets [(Reg.HOST_Q_STATUS_STATE 0, 1), (Reg.HOST_Q_STATUS_STATE 1, 1), (Reg.HOST_Q_CFG_KIND 0, 2), (Reg.HOST_Q_PROD 0,
      1)] m)), by decide +kernel⟩,
    ⟨0, { opcode := 5, reserved := true }, fetched0 { opcode := 5, reserved := true } [], none, 0, Reason.badDesc, (.descNop 0, 5),
      by decide +kernel⟩,
    ⟨0, { opcode := 9 }, fetched0 { opcode := 9 } [], by decide +kernel⟩,
    ⟨0, { opcode := 5 }, fetched0 { opcode := 5 } [], by decide +kernel⟩,
    ⟨0, { opcode := 1, bytes := 65536 }, fetched0 { opcode := 1, bytes := 65536 } [], (.descCopyIn 0, 1), by decide +kernel⟩,
    ⟨0, { opcode := 4, bytes := 64, c := 0x10000 }, fetched0 { opcode := 4, bytes := 64, c := 0x10000 } [(Reg.HOST_Q_CFG_WORK 0, 1)],
      by decide +kernel⟩,
    ⟨0, { opcode := 4, bytes := 64, c := 0x10000 },
      { fetched0 { opcode := 4, bytes := 64, c := 0x10000 } [(Reg.HOST_Q_CFG_WORK 0, 1)] with m := fullRoutine (fetched0 { opcode := 4, bytes := 64, c := 0x10000 } [(Reg.HOST_Q_CFG_WORK 0, 1)]).m },
      (routineAt (fullRoutine {}) 0 0).getD {}, by decide +kernel⟩,
    ⟨0, { opcode := 6, bytes := 512 }, fetched0 { opcode := 6, bytes := 512 } [(Reg.HOST_Q_CFG_STORAGE 0, 1)], none, 0, (.descNvmeRead 0 none 0, 6),
      by decide +kernel⟩,
    ⟨0, { opcode := 6, bytes := 512 }, fetched0 { opcode := 6, bytes := 512 } [(Reg.HOST_Q_CFG_STORAGE 0, 1), (Reg.HOST_STATUS_NVME_READY, 1)],
      some 512, 0, (.descNvmeRead 0 (some 512) 0, 6), 512, by decide +kernel⟩,
    ⟨0, { opcode := 1, bytes := 64, started := true }, fetched0 { opcode := 1, bytes := 64, started := true } [], by decide +kernel⟩,
    ⟨0, { opcode := 1, bytes := 64, started := true }, fetched0 { opcode := 1, bytes := 64, started := true } [], by decide +kernel⟩,
    ⟨0, { opcode := 2, bytes := 64, started := true }, fetched0 { opcode := 2, bytes := 64, started := true } [], by decide +kernel⟩,
    ⟨0, { opcode := 3, bytes := 64, b := 4096, started := true }, fetched0 { opcode := 3, bytes := 64, b := 4096, started := true } [],
      by decide +kernel⟩,
    ⟨0, { opcode := 7, bytes := 512, started := true, nvmeOpen := [(0, 512)], nvmeNext := 512 },
      fetched0 { opcode := 7, bytes := 512, started := true, nvmeOpen := [(0, 512)], nvmeNext := 512 } [], 0, 512, 1, by decide +kernel⟩,
    ⟨0, { opcode := 8, started := true, nvmeOpen := [(0, 0)] }, fetched0 { opcode := 8, started := true, nvmeOpen := [(0, 0)] } [], 0, 0,
      by decide +kernel⟩,
    ⟨0, { opcode := 6, bytes := 512, started := true, nvmeOpen := [(0, 512)], nvmeNext := 512 },
      fetched0 { opcode := 6, bytes := 512, started := true, nvmeOpen := [(0, 512)], nvmeNext := 512 } [], 0, 512, by decide +kernel⟩⟩

theorem witness_HangsKillsRescuesAndResetsRun :
    (∃ (s : State), Powered s ∧ s.m.ldr.alter = .pending ∧ (∀ p ∈ s.m.ldr.altNamed, p < 8 ∧ alterReady s.m p = true)) ∧
    (∃ (who : Requester) (p : Fin 8) (s : State), Powered s ∧ rd s.m (Reg.TC_RECOV_STATUS_STATE p) ≠ 3 ∧ MayWrite s.m who (Reg.TC_HB_WRITE p) .seqfw) ∧
    (∃ (p : Fin 8) (s : State), Powered s ∧ rd s.m (Reg.TC_RECOV_STATUS_STATE p) ≠ 3 ∧ (mget s.m.recov p).hbLast ≠ 0 ∧
      (mget s.m.recov p).hbLast + 100000 ≤ now s.m ∧ ((mget s.m.seqs p).run = none ∨ (mget s.m.seqs p).waiting = none)) ∧
    (∃ (p : Fin 8) (s : State), Powered s ∧ rd s.m (Reg.TC_RECOV_STATUS_STATE p) ≠ 3 ∧ (mget s.m.recov p).hbLast ≠ 0 ∧
      (mget s.m.recov p).hbLast + 100000 ≤ now s.m ∧ (mget s.m.seqs p).run.isSome = true ∧ (mget s.m.seqs p).waiting.isSome = true) ∧
    (∃ (p : Fin 8) (s : State), Powered s ∧ rd s.m (Reg.TC_RECOV_STATUS_STATE p) ≠ 3 ∧ rdb s.m (Reg.TC_HB_STATUS_WATCHED p) = true ∧
      (mget s.m.recov p).hbLast + 300000 ≤ now s.m ∧ (mget s.m.recov p).killing ≠ some .hang ∧ flightEmpty s.m p = false) ∧
    (∃ (p : Fin 8) (s : State), Powered s ∧ rd s.m (Reg.TC_RECOV_STATUS_STATE p) ≠ 3 ∧ (mget s.m.recov p).killing = some .hang ∧ rd s.m
      (Reg.TC_RECOV_STATUS_STATE p) = 1 ∧ (mget s.m.recov p).killAt + 20000 ≤ now s.m ∧ flightEmpty s.m p = false) ∧
    (∃ (p : Fin 8) (s : State), Powered s ∧ rd s.m (Reg.TC_RECOV_STATUS_STATE p) = 2 ∧ (mget s.m.recov p).rescueAt + (((mget s.m.recov p).rescue.map
      (rescueNs s.m p)).sum) ≤ now s.m ∧ (((mget s.m.recov p).rescue.map (rescueNs s.m p)).sum) ≤ 250000 ∧ (mget s.m.recov p).killing.isSome = true) ∧
    (∃ (p : Fin 8) (s : State), Powered s ∧ rd s.m (Reg.TC_RECOV_STATUS_STATE p) = 2 ∧ (mget s.m.recov p).rescueAt + 250000 ≤ now s.m ∧
      (mget s.m.recov p).killing.isSome = true ∧ (mget s.m.recov p).rescue.Nodup) ∧
    (∃ (who : Requester) (p : Fin 8) (s : State), Powered s ∧ MayWrite s.m who (Reg.TC_RECOV_CTRL_RESET p) .pfHcMi ∧
      rdb s.m Reg.PWR_STATUS_SHUTDOWN = true) ∧
    (∃ (who : Requester) (p : Fin 8) (s : State), Powered s ∧ MayWrite s.m who (Reg.TC_RECOV_CTRL_RESET p) .pfHcMi ∧
      rdb s.m Reg.PWR_STATUS_SHUTDOWN = false ∧ (rd s.m (Reg.TC_RECOV_STATUS_STATE p)) = 3) ∧
    (∃ (who : Requester) (p : Fin 8) (s : State), Powered s ∧ MayWrite s.m who (Reg.TC_RECOV_CTRL_RESET p) .pfHcMi ∧
      rdb s.m Reg.PWR_STATUS_SHUTDOWN = false ∧ (rd s.m (Reg.TC_RECOV_STATUS_STATE p)) ≠ 3 ∧ (mget s.m.recov p).killing.isSome = true) ∧
    (∃ (who : Requester) (p : Fin 8) (s : State), Powered s ∧ MayWrite s.m who (Reg.TC_RECOV_CTRL_RESET p) .pfHcMi ∧
      rdb s.m Reg.PWR_STATUS_SHUTDOWN = false ∧ (rd s.m (Reg.TC_RECOV_STATUS_STATE p)) ≠ 3 ∧ (mget s.m.recov p).killing = none ∧
      flightEmpty s.m p = false) ∧
    (∃ (who : Requester) (p : Fin 8) (s : State), Powered s ∧ MayWrite s.m who (Reg.TC_RECOV_CTRL_RESET p) .pfHcMi ∧
      rdb s.m Reg.PWR_STATUS_SHUTDOWN = false ∧ (rd s.m (Reg.TC_RECOV_STATUS_STATE p)) ≠ 3 ∧ (mget s.m.recov p).killing = none ∧
      flightEmpty s.m p = true ∧ forensicDue s.m = false) ∧
    (∃ (p : Fin 8) (s : State), Powered s ∧ rdb s.m Reg.PWR_STATUS_SHUTDOWN = false ∧ rd s.m (Reg.TC_RECOV_STATUS_STATE p) = 3 ∧
      (mget s.m.recov p).resetAt + cyclesNs s.m p (8800 + 16384) ≤ now s.m ∧ (mget s.m.recov p).cause ≤ 5) :=
  ⟨⟨on (fun m => { m with ldr := { m.ldr with alter := .pending, altNamed := [0] }, turns := [(0, { begun := true })] }), by decide +kernel⟩,
    ⟨.seqfw 0, 0, on id, by decide +kernel⟩,
    ⟨0, on (fun m => sets [(Reg.TIME_NOW, 200000)] { m with recov := [(0, { hbLast := 1 })] }), by decide +kernel⟩,
    ⟨0, on (fun m => sets [(Reg.TIME_NOW,
      200000)] { m with recov := [(0, { hbLast := 1 })], seqs := [(0, { run := some {}, waiting := some (0, 0) })] }), by decide +kernel⟩,
    ⟨0, on (fun m => sets [(Reg.TIME_NOW, 300000), (Reg.TC_HB_STATUS_WATCHED 0, 1)] { m with engines := [(0, { flight := [{}] })] }),
      by decide +kernel⟩,
    ⟨0, on (fun m => sets [(Reg.TIME_NOW, 20000), (Reg.TC_RECOV_STATUS_STATE 0,
      1)] { m with recov := [(0, { killing := some .hang })], engines := [(0, { flight := [{}] })] }), by decide +kernel⟩,
    ⟨0, on (fun m => sets [(Reg.TC_RECOV_STATUS_STATE 0, 2)] { m with recov := [(0, { killing := some .host })] }), by decide +kernel⟩,
    ⟨0, on (fun m => sets [(Reg.TIME_NOW, 250000), (Reg.TC_RECOV_STATUS_STATE 0,
      2)] { m with recov := [(0, { killing := some .host, rescue := [3] })] }), by decide +kernel⟩,
    ⟨.pf, 0, on (sets [(Reg.PWR_STATUS_SHUTDOWN, 1)]), by decide +kernel⟩,
    ⟨.pf, 0, on (sets [(Reg.TC_RECOV_STATUS_STATE 0, 3)]), by decide +kernel⟩,
    ⟨.pf, 0, on (fun m => { m with recov := [(0, { killing := some .hang })] }), by decide +kernel⟩,
    ⟨.pf, 0, on (fun m => { m with engines := [(0, { flight := [{}] })] }), by decide +kernel⟩,
    ⟨.pf, 0, on id, by decide +kernel⟩,
    ⟨0, on (sets [(Reg.TIME_NOW, 1000000000), (Reg.TC_RECOV_STATUS_STATE 0, 3)]), by decide +kernel⟩⟩

theorem witness_BestEffortWorkTakesItsTurns :
    (∃ (p : Fin 8) (s : State) (c : _), Powered s ∧ (mget s.m.recov p).be = some c ∧ beMay s.m p true = true) ∧
    (∃ (p : Fin 8) (s : State) (i rest x : _), Powered s ∧ (mget s.m.recov p).be = none ∧ beMay s.m p false = true ∧
      (mget s.m.turns p).beDue = i :: rest ∧ routineAt s.m p i = some x) ∧
    (∃ (p : Fin 8) (s : State) (d rest x : _), Powered s ∧ (mget s.m.recov p).be = none ∧ beMay s.m p false = true ∧ (mget s.m.turns p).beDue = [] ∧
      (mget s.m.recov p).work = d :: rest ∧ routineAt s.m p (d.c % 256) = some x) ∧
    (∃ (p : Fin 8) (s : State) (c : _), Powered s ∧ (mget s.m.recov p).be = some c ∧ (mget s.m.recov p).switch = .clearing ∧ schedMode s.m p = 1 ∧
      (mget s.m.recov p).requested + switchIn s.m p false ≤ now s.m) ∧
    (∃ (p : Fin 8) (s : State), Powered s ∧ requestPoint s.m p ≤ now s.m ∧ (mget s.m.recov p).switch = .none ∧ ((mget s.m.seqs p).run = none ∨ (∃ x,
      (mget s.m.seqs p).run = some x ∧ x.kind = 0) ∨ (mget s.m.recov p).be = none)) ∧
    (∃ (p : Fin 8) (s : State) (c x : _), Powered s ∧ requestPoint s.m p ≤ now s.m ∧ (mget s.m.recov p).switch = .none ∧
      (mget s.m.recov p).be = some c ∧ (mget s.m.seqs p).run = some x ∧ x.kind ≠ 0) ∧
    (∃ (p : Fin 8) (s : State) (c x : _), Powered s ∧ (mget s.m.recov p).be = some c ∧ (mget s.m.seqs p).run = some x ∧
      (mget s.m.recov p).switch = .draining ∧ flightEmpty s.m p = true ∧ (mget s.m.recov p).killing = none ∧ (mget s.m.seqs p).ended = true ∧
      drained s.m p = true) ∧
    (∃ (p : Fin 8) (s : State) (c x : _), Powered s ∧ (mget s.m.recov p).be = some c ∧ (mget s.m.seqs p).run = some x ∧
      (mget s.m.recov p).switch = .draining ∧ flightEmpty s.m p = true ∧ (mget s.m.recov p).killing = none ∧
      ((mget s.m.seqs p).ended = false ∨ drained s.m p = false) ∧ c.desc.any (·.cancelled) = true) ∧
    (∃ (p : Fin 8) (s : State) (c x : _), Powered s ∧ (mget s.m.recov p).be = some c ∧ (mget s.m.seqs p).run = some x ∧
      (mget s.m.recov p).switch = .draining ∧ flightEmpty s.m p = true ∧ (mget s.m.recov p).killing = none ∧
      ((mget s.m.seqs p).ended = false ∨ drained s.m p = false) ∧ c.desc.any (·.cancelled) = false) ∧
    (∃ (p : Fin 8) (s : State) (c : _), Powered s ∧ (mget s.m.recov p).be = some c ∧ (mget s.m.recov p).switch = .saving ∧
      (mget s.m.turns p).pendWin = false) ∧
    (∃ (p : Fin 8) (s : State) (c : _), Powered s ∧ (mget s.m.recov p).be = some c ∧ (mget s.m.recov p).switch = .savingLc ∧ c.saved.isSome = true) ∧
    (∃ (p : Fin 8) (s : State) (c : _), Powered s ∧ (mget s.m.recov p).be = some c ∧ (mget s.m.recov p).switch = .savingLc ∧ c.saved = none) ∧
    (∃ (p : Fin 8) (s : State) (c : _) (n n' : Mach), Powered s ∧ (mget s.m.recov p).switch = .restoring ∧ (mget s.m.recov p).be = some c ∧
      c.saved = some (takeLight n p) ∧ c.image = takeImage n' p ∧ c.image.bad = []) ∧
    (∃ (p : Fin 8) (s : State) (c : _) (n n' : Mach), Powered s ∧ (mget s.m.recov p).switch = .restoring ∧ (mget s.m.recov p).be = some c ∧
      c.saved = some (takeLight n p) ∧ c.image = takeImage n' p) ∧
    (∃ (p : Fin 8) (s : State) (n' : Mach), Powered s ∧ (mget s.m.recov p).switch = .restoringLc ∧ (mget s.m.recov p).lcImage = some
      (takeImage n' p) ∧ (takeImage n' p).bad = [] ∧ Memory.wf n'.mem = true ∧ coresPer n' = coresPer s.m) ∧
    (∃ (p : Fin 8) (s : State) (n' : Mach), Powered s ∧ (mget s.m.recov p).switch = .restoringLc ∧ (mget s.m.recov p).lcImage = some
      (takeImage n' p)) :=
  ⟨⟨0, on (fun m =>
      fullRoutine { m with turns := [(0, { phase := .open, waiting := false, gticks := [(1000000, 1)] })], recov := [(0, { be := some {} })] }), {},
      by decide +kernel⟩,
    ⟨0, on (fun m => fullRoutine { m with turns := [(0, { phase := .open, waiting := false, gticks := [(1000000, 1)], beDue := [0] })] }), 0, [],
      (routineAt (fullRoutine {}) 0 0).getD {}, by decide +kernel⟩,
    ⟨0, on (fun m =>
      fullRoutine { m with turns := [(0, { phase := .open, waiting := false, gticks := [(1000000, 1)] })], recov := [(0, { work := [{ bytes := 64 }] })] }),
      { bytes := 64 }, [], (routineAt (fullRoutine {}) 0 0).getD {}, by decide +kernel⟩,
    ⟨0, on (fun m => hasSec 7 0 (blob 1280 [(0, 2, 1), (70, 1, 1), (76, 4, 64), (80, 4, 1088), (192, 1, 1)]) (sets [(Reg.TIME_NOW,
      1000000)] { m with recov := [(0, { be := some {}, switch := .clearing })] })), {}, by decide +kernel⟩,
    ⟨0, on (sets [(Reg.TIME_NOW, 1000000000)]), by decide +kernel⟩,
    ⟨0, on (fun m => sets [(Reg.TIME_NOW, 1000000000)] { m with recov := [(0, { be := some {} })], seqs := [(0, { run := some { kind := 1 } })] }),
      {}, { kind := 1 }, by decide +kernel⟩,
    ⟨0, on (fun m => { m with recov := [(0, { be := some {}, switch := .draining })], seqs := [(0, { run := some { kind := 1 }, ended := true })] }),
      {}, { kind := 1 }, by decide +kernel⟩,
    ⟨0, on (fun m =>
      { m with recov := [(0, { be := some { desc := some { cancelled := true } }, switch := .draining })], seqs := [(0, { run := some { kind := 2 } })] }),
      { desc := some { cancelled := true } }, { kind := 2 }, by decide +kernel⟩,
    ⟨0, on (fun m => { m with recov := [(0, { be := some {}, switch := .draining })], seqs := [(0, { run := some { kind := 1 } })] }), {},
      { kind := 1 }, by decide +kernel⟩,
    ⟨0, on (fun m => { m with recov := [(0, { be := some {}, switch := .saving })] }), {}, by decide +kernel⟩,
    ⟨0, on (fun m => { m with recov := [(0, { be := some { saved := some {} }, switch := .savingLc })] }), { saved := some {} }, by decide +kernel⟩,
    ⟨0, on (fun m => { m with recov := [(0, { be := some {}, switch := .savingLc })] }), {}, by decide +kernel⟩,
    ⟨0, on (fun m => { m with recov := [(0, { be := some { saved := some (takeLight {} 0), image := takeImage {} 0 }, switch := .restoring })] }),
      { saved := some (takeLight {} 0), image := takeImage {} 0 }, {}, {}, by decide +kernel⟩,
    ⟨0, on (fun m =>
      { m with recov := [(0, { be := some { saved := some (takeLight {} 0), image := takeImage { mem := [(64, 7)], bad := [(8, 0)] } 0 }, switch := .restoring })] }),
      { saved := some (takeLight {} 0), image := takeImage { mem := [(64, 7)], bad := [(8, 0)] } 0 }, {}, { mem := [(64, 7)], bad := [(8, 0)] },
      by decide +kernel⟩,
    ⟨0, on (fun m => { m with recov := [(0, { lcImage := some (takeImage {} 0), switch := .restoringLc })] }), {}, by decide +kernel⟩,
    ⟨0, on (fun m => { m with recov := [(0, { lcImage := some (takeImage {} 0), switch := .restoringLc })] }), {}, by decide +kernel⟩⟩

theorem witness_PowerKeepsToItsCap :
    (∃ (parts : List (Nat × Nat × Nat)) (s : State), Powered s ∧ parts.length ≤ 8) ∧
    (∃ (s : State) (u : _), Powered s ∧ applied s.m = true ∧ s.m.power.ctlAt + 100000 ≤ now s.m ∧ (1000 * rd s.m Reg.PWR_CAP) <
      (rd s.m Reg.PWR_POWER_CTL) ∧ (lowerOrder s.m).find? (eligible s.m true) = some u) ∧
    (∃ (s : State), Powered s ∧ applied s.m = true ∧ s.m.power.ctlAt + 100000 ≤ now s.m ∧ (1000 * rd s.m Reg.PWR_CAP) < (rd s.m Reg.PWR_POWER_CTL) ∧
      (lowerOrder s.m).find? (eligible s.m true) = none) ∧
    (∃ (s : State), Powered s ∧ applied s.m = true ∧ s.m.power.ctlAt + 100000 ≤ now s.m ∧ (rd s.m Reg.PWR_POWER_CTL) ≤ (1000 * rd s.m Reg.PWR_CAP) ∧
      (1000 * rd s.m Reg.PWR_CAP) ≤ (rd s.m Reg.PWR_POWER_CTL) + capHystMw s.m) ∧
    (∃ (s : State) (u : _), Powered s ∧ applied s.m = true ∧ s.m.power.ctlAt + 100000 ≤ now s.m ∧ (rd s.m Reg.PWR_POWER_CTL) + capHystMw s.m <
      (1000 * rd s.m Reg.PWR_CAP) ∧ (lowerOrder s.m).reverse.find? (eligible s.m false) = some u) ∧
    (∃ (s : State), Powered s ∧ applied s.m = true ∧ s.m.power.ctlAt + 100000 ≤ now s.m ∧ (rd s.m Reg.PWR_POWER_CTL) + capHystMw s.m <
      (1000 * rd s.m Reg.PWR_CAP) ∧ (lowerOrder s.m).reverse.find? (eligible s.m false) = none) ∧
    (∃ (who : Requester) (v : Word) (s : State), Powered s ∧ MayWrite s.m who Reg.PWR_CAP .pfHcMi ∧ ((v.toNat % 512) < 75 ∨ capMax s.m <
      (v.toNat % 512))) ∧
    (∃ (who : Requester) (v : Word) (s : State), Powered s ∧ MayWrite s.m who Reg.PWR_CAP .pfHcMi ∧ 75 ≤ (v.toNat % 512) ∧
      (v.toNat % 512) ≤ capMax s.m) ∧
    (∃ (s : State) (t0 : _), Powered s ∧ rdb s.m Reg.PWR_STATUS_CAP_HOLD = false ∧ s.m.power.above = some t0 ∧ t0 + capGraceNs s.m ≤ now s.m) ∧
    (∃ (s : State), Powered s ∧ rdb s.m Reg.PWR_STATUS_CAP_HOLD = true ∧ rdb s.m Reg.PWR_STATUS_CAP_UNMET = false ∧ s.m.power.above.isSome = true ∧
      s.m.power.heldAt + capGraceNs s.m ≤ now s.m) ∧
    (∃ (s : State) (t0 : _), Powered s ∧ rdb s.m Reg.PWR_STATUS_CAP_HOLD = true ∧ s.m.power.under = some t0 ∧ t0 + capGraceNs s.m ≤ now s.m) ∧
    (∃ (s : State) (d : _), Powered s ∧ s.m.power.hcChange = some d ∧ d < 4 ∧ (if rdb s.m Reg.PWR_STATUS_FORCED_SLOW then 3 else max
      (rd s.m Reg.PWR_HC_POINT_CAP_LEVEL) (rd s.m Reg.PWR_HC_POINT_THERM_LEVEL)) = d ∧ s.m.power.hcChangeAt +
      (if d < rd s.m Reg.PWR_HC_POINT_POINT then rampNs (hcMv d - hcMv (rd s.m Reg.PWR_HC_POINT_POINT)) true else 0) ≤ now s.m) ∧
    (∃ (p : Fin 8) (s : State) (d : _), Powered s ∧ (mget s.m.pparts p).change = some d ∧ d < 8 ∧ (mget s.m.pparts p).changeAt + (if d < (rd s.m
      (Reg.PWR_PART_STATUS_POINT p)) then rampNs (50 * ((rd s.m (Reg.PWR_PART_STATUS_POINT p)) - d)) true else 0) ≤ now s.m ∧ (pointDue s.m p) = d) ∧
    (∃ (p : Fin 8) (s : State) (d : _), Powered s ∧ (mget s.m.pparts p).change = some d ∧ d < 8 ∧ (mget s.m.pparts p).changeAt + (if d < (rd s.m
      (Reg.PWR_PART_STATUS_POINT p)) then rampNs (50 * ((rd s.m (Reg.PWR_PART_STATUS_POINT p)) - d)) true else 0) ≤ now s.m ∧ (pointDue s.m p) ≠ d ∧
      (pointDue s.m p) < 8 ∧ rd s.m (Reg.TC_RECOV_STATUS_STATE p) ≠ 3 ∧ marginRuns s.m p = false ∧ rdb s.m Reg.PWR_STATUS_SHUTDOWN = false) ∧
    (∃ (p : Fin 8) (s : State) (w : _), Powered s ∧ w ∈ (mget s.m.pparts p).wins ∧ w.opened + 1000 * (w.lead - 6) ≤ now s.m ∧ rdb s.m
      (Reg.PWR_PART_STATUS_LIGHT p) = true) ∧
    (∃ (p : Fin 8) (s : State), Powered s ∧ (mget s.m.pparts p).wins.any (winCloses s.m) = true ∧ rdb s.m (Reg.PWR_PART_STATUS_LIGHT p) = false) :=
  ⟨⟨[(850, 1000, 5)], on id, by decide +kernel⟩,
    ⟨on (fun m => hasSec 1 0 [] (sets [(Reg.TIME_NOW, 100000), (Reg.PWR_POWER_CTL, 1)] m)), 8, by decide +kernel⟩,
    ⟨on (fun m => hasSec 1 0 [] (sets [(Reg.TIME_NOW, 100000), (Reg.PWR_POWER_CTL, 1), (Reg.PWR_HC_POINT_CAP_LEVEL, 3)] m)), by decide +kernel⟩,
    ⟨on (fun m => hasSec 1 0 [] (sets [(Reg.TIME_NOW, 100000)] m)), by decide +kernel⟩,
    ⟨on (fun m => hasSec 1 0 [] (sets [(Reg.TIME_NOW, 100000), (Reg.PWR_CAP, 75), (Reg.PWR_PART_STATUS_CAP_LEVEL 0, 1)] m)), 0, by decide +kernel⟩,
    ⟨on (fun m => hasSec 1 0 [] (sets [(Reg.TIME_NOW, 100000), (Reg.PWR_CAP, 75)] m)), by decide +kernel⟩,
    ⟨.pf, 74, on id, by decide +kernel⟩,
    ⟨.pf, 75, on id, by decide +kernel⟩,
    ⟨on (fun m => { m with power := { above := some 0 } }), 0, by decide +kernel⟩,
    ⟨on (fun m => sets [(Reg.PWR_STATUS_CAP_HOLD, 1)] { m with power := { above := some 0 } }), by decide +kernel⟩,
    ⟨on (fun m => sets [(Reg.PWR_STATUS_CAP_HOLD, 1)] { m with power := { under := some 0 } }), 0, by decide +kernel⟩,
    ⟨on (fun m => sets [(Reg.PWR_HC_POINT_CAP_LEVEL, 1)] { m with power := { hcChange := some 1 } }), 1, by decide +kernel⟩,
    ⟨0, on (fun m => sets [(Reg.PWR_PART_STATUS_CAP_LEVEL 0, 7)] { m with pparts := [(0, { change := some 7 })] }), 7, by decide +kernel⟩,
    ⟨0, on (fun m => sets [(Reg.PWR_PART_STATUS_CAP_LEVEL 0, 1)] { m with pparts := [(0, { change := some 0 })] }), 0, by decide +kernel⟩,
    ⟨0, on (fun m => sets [(Reg.PWR_PART_STATUS_LIGHT 0, 1)] { m with pparts := [(0, { wins := [{ lead := 6 }] })] }), { lead := 6 },
      by decide +kernel⟩,
    ⟨0, on (fun m => sets [(Reg.TIME_NOW, 1006000)] { m with pparts := [(0, { wins := [{ lead := 6 }] })] }), by decide +kernel⟩⟩

theorem witness_MarginsTemperaturesAndLimitsAct :
    (∃ (p : Fin 8) (s : State), Powered s ∧ (trimOff s.m p = true ∨ (mget s.m.pparts p).exhaust.isSome = true)) ∧
    (∃ (p : Fin 8) (slack : Int) (s : State), Powered s ∧ trimOff s.m p = false ∧ (mget s.m.pparts p).exhaust = none ∧ slack < 5) ∧
    (∃ (p : Fin 8) (slack : Int) (s : State), Powered s ∧ trimOff s.m p = false ∧ (mget s.m.pparts p).exhaust = none ∧ 5 ≤ slack ∧ slack < 20) ∧
    (∃ (p : Fin 8) (slack : Int) (s : State), Powered s ∧ trimOff s.m p = false ∧ (mget s.m.pparts p).exhaust = none ∧ 20 ≤ slack ∧ slack < 40) ∧
    (∃ (p : Fin 8) (slack : Int) (s : State), Powered s ∧ trimOff s.m p = false ∧ (mget s.m.pparts p).exhaust = none ∧ 40 ≤ slack ∧
      (mget s.m.pparts p).fine = none) ∧
    (∃ (p : Fin 8) (slack : Int) (s : State) (t0 : _), Powered s ∧ trimOff s.m p = false ∧ (mget s.m.pparts p).exhaust = none ∧ 40 ≤ slack ∧
      (mget s.m.pparts p).fine = some t0) ∧
    (∃ (p : Fin 8) (s : State) (t0 : _), Powered s ∧ (mget s.m.pparts p).exhaust = some t0 ∧ t0 + 1000000000 ≤ now s.m) ∧
    (∃ (readings : List (Int × Bool)) (s : State), Powered s ∧ readings.length ≤ 64) ∧
    (∃ (i : Fin 64) (st : Fin 2) (u : Fin 10) (w : Fin 11) (p : Fin 8) (mv cur : Nat) (temp lim : Int) (s : State) (c : _), Powered s ∧ (c ∈ (fun
      (holds : Bool) => ([(.overTemp i temp holds, 8), (.stackOverTemp st temp holds, 9), (.railUnder u mv holds, 10), (.railOver w mv holds, 11),
      (.overcurrent p cur holds, 12), (.supply temp lim holds, 13)] : List (Instr × Nat))) true) ∧ c.2 ∉ s.m.power.conds ∧ c.2 = 10 ∧ u.val < 8 ∧
      rdb s.m (Reg.PWR_PART_STATUS_CHANGING u) = true) ∧
    (∃ (i : Fin 64) (st : Fin 2) (u : Fin 10) (w : Fin 11) (p : Fin 8) (mv cur : Nat) (temp lim : Int) (s : State) (c : _), Powered s ∧ (c ∈ (fun
      (holds : Bool) => ([(.overTemp i temp holds, 8), (.stackOverTemp st temp holds, 9), (.railUnder u mv holds, 10), (.railOver w mv holds, 11),
      (.overcurrent p cur holds, 12), (.supply temp lim holds, 13)] : List (Instr × Nat))) true) ∧ c.2 ∉ s.m.power.conds ∧ (c.2 = 10 → u.val < 8 →
      rdb s.m (Reg.PWR_PART_STATUS_CHANGING u) = false)) ∧
    (∃ (i : Fin 64) (st : Fin 2) (u : Fin 10) (w : Fin 11) (p : Fin 8) (mv cur : Nat) (temp lim : Int) (s : State) (c : _), Powered s ∧ (c ∈ (fun
      (holds : Bool) => ([(.overTemp i temp holds, 8), (.stackOverTemp st temp holds, 9), (.railUnder u mv holds, 10), (.railOver w mv holds, 11),
      (.overcurrent p cur holds, 12), (.supply temp lim holds, 13)] : List (Instr × Nat))) false) ∧ c.2 ∉ s.m.power.conds) ∧
    (∃ (i : Fin 64) (st : Fin 2) (u : Fin 10) (w : Fin 11) (p : Fin 8) (mv cur : Nat) (temp lim : Int) (s : State) (c : _), Powered s ∧ (c ∈ (fun
      (holds : Bool) => ([(.overTemp i temp holds, 8), (.stackOverTemp st temp holds, 9), (.railUnder u mv holds, 10), (.railOver w mv holds, 11),
      (.overcurrent p cur holds, 12), (.supply temp lim holds, 13)] : List (Instr × Nat))) false) ∧ c.2 ∈ s.m.power.conds) ∧
    (∃ (s : State), Powered s ∧ rdb s.m Reg.PWR_STATUS_SHUTDOWN = true) ∧
    (∃ (s : State), Powered s ∧ rdb s.m Reg.PWR_STATUS_SHUTDOWN = false ∧ 14 ∉ s.m.power.conds) ∧
    (∃ (s : State) (t0 : _), Powered s ∧ rdb s.m Reg.PWR_STATUS_FORCED_SLOW = true ∧ 8 ∉ s.m.power.conds ∧ 9 ∉ s.m.power.conds ∧
      s.m.power.heat = some t0 ∧ t0 + 1000000000 ≤ now s.m) :=
  ⟨⟨0, on (fun m => { m with pparts := [(0, { exhaust := some 0 })] }), by decide +kernel⟩,
    ⟨0, 4, on id, by decide +kernel⟩,
    ⟨0, 5, on id, by decide +kernel⟩,
    ⟨0, 20, on id, by decide +kernel⟩,
    ⟨0, 40, on id, by decide +kernel⟩,
    ⟨0, 40, on (fun m => { m with pparts := [(0, { fine := some 0 })] }), 0, by decide +kernel⟩,
    ⟨0, on (fun m => sets [(Reg.TIME_NOW, 1000000000)] { m with pparts := [(0, { exhaust := some 0 })] }), 0, by decide +kernel⟩,
    ⟨[(50, true)], on id, by decide +kernel⟩,
    ⟨0, 0, 0, 0, 0, 500, 0, 0, 0, on (sets [(Reg.PWR_PART_STATUS_CHANGING 0, 1)]), (.railUnder 0 500 true, 10), by decide +kernel⟩,
    ⟨0, 0, 0, 0, 0, 500, 0, 110, 0, on id, (.overTemp 0 110 true, 8), by decide +kernel⟩,
    ⟨0, 0, 0, 0, 0, 500, 0, 90, 0, on id, (.overTemp 0 90 false, 8), by decide +kernel⟩,
    ⟨0, 0, 0, 0, 0, 500, 0, 90, 0, on (fun m => { m with power := { conds := [8] } }), (.overTemp 0 90 false, 8), by decide +kernel⟩,
    ⟨on (sets [(Reg.PWR_STATUS_SHUTDOWN, 1)]), by decide +kernel⟩,
    ⟨on id, by decide +kernel⟩,
    ⟨on (fun m => sets [(Reg.PWR_STATUS_FORCED_SLOW, 1), (Reg.TIME_NOW, 1000000000)] { m with power := { heat := some 0 } }), 0, by decide +kernel⟩⟩

end Sys2Proof.Tests
end

/-!
PROOFS. The fuses (R2, R55, R76, R77, R80): which commands can change them, and that none unblows one.
-/

namespace Sys2Proof.Machine

/-- The four commands that are more than an effect on the part: PORST_n's two edges, and the two that blow fuses. -/
def WholeState (c : Instr) : Prop :=
  c = .porstAssert ∨ (∃ b t v f, c = .porstRelease b t v f) ∨ (∃ l, c = .firstTurnTick l) ∨ ∃ d e, c = .mbxReadComplete d e

/-- An answered Block Read is an effect on the part, whatever its bytes. -/
theorem run_of_smbusRead {c : Instr} {s : State} (g : Mach → List Byte) (h : exec c s = smbusRead g s) : ∃ f, exec c s = s.run f :=
  ⟨fun m => emit (if smbusUp m then .smbus (g m) else .smbusNack) m, h.trans rfl⟩

/-- Every other command is an effect on the part alone. -/
theorem wholeState_or_run (c : Instr) (s : State) : WholeState c ∨ ∃ f, exec c s = s.run f := by
  cases c
  case porstAssert => exact .inl (.inl rfl)
  case porstRelease b t v f => exact .inl (.inr (.inl ⟨b, t, v, f, rfl⟩))
  case firstTurnTick l => exact .inl (.inr (.inr (.inl ⟨l, rfl⟩)))
  case mbxReadComplete d e => exact .inl (.inr (.inr (.inr ⟨d, e, rfl⟩)))
  case smbusReadPatId => exact .inr (run_of_smbusRead (fun m => leBytes 4 (regWord m Reg.PAT_ID_PART.addr)) rfl)
  case smbusReadUid => exact .inr (run_of_smbusRead (fun m => leBytes 8 (rd m Reg.PAT_UID)) rfl)
  case smbusReadPatStatus => exact .inr (run_of_smbusRead (fun m => leBytes 4 (regWord m Reg.PAT_STATUS_STATE.addr)) rfl)
  case smbusReadSafStatus => exact .inr (run_of_smbusRead (fun m => leBytes 4 (regWord m Reg.SAF_STATUS_STATE.addr)) rfl)
  case smbusReadPower => exact .inr (run_of_smbusRead (fun m => leBytes 4 (regWord m Reg.PWR_POWER.addr)) rfl)
  all_goals
    right
    unfold exec
    dsimp only
    exact ⟨_, rfl⟩

/-! ### What each of the four does to the fuses -/

/-- PORST_n low leaves the fuses. -/
theorem porstAssert_fuses {s t : State} (h : exec .porstAssert s = .next t) : t.fuses = s.fuses := by
  cases h; rfl

/-- PORST_n high leaves the fuses. -/
theorem porstRelease_fuses {b : Fin 4} {e v : Bool} {f : Option Nat} {s t : State} (h : exec (.porstRelease b e v f) s = .next t) :
    t.fuses = s.fuses := by
  change execPorstRelease b e v f s = _ at h
  unfold execPorstRelease at h
  split at h
  · cases h; rfl
  · split at h <;> cases h <;> rfl

/-- The first turn tick leaves the fuses or advances the security version (R55). -/
theorem firstTurnTick_fuses {l : List (Nat × Nat)} {s t : State} (h : exec (.firstTurnTick l) s = .next t) :
    t.fuses = s.fuses ∨ t.fuses = advanceSv s.m s.fuses := by
  change execFirstTurnTick l s = _ at h
  unfold execFirstTurnTick at h
  split at h
  · cases h; exact .inl rfl
  · cases h; exact .inr rfl

/-- A mailbox read leaves the fuses or blows those of an accepted request (R80). -/
theorem mbxReadComplete_fuses {d : Option (List Byte)} {e : LoadEnv} {s t : State} (h : exec (.mbxReadComplete d e) s = .next t) :
    t.fuses = s.fuses ∨ ∃ c, t.fuses = blowFuse c s.fuses := by
  change execMbxReadComplete d e s = _ at h
  unfold execMbxReadComplete at h
  split at h
  · cases h; exact .inl rfl
  · cases h
    unfold mbxFuses
    dsimp only
    split
    · split
      · exact .inr ⟨_, rfl⟩
      · exact .inl rfl
    · exact .inl rfl

/-! ### Growth -/

theorem Fuses.grown_refl (f : Fuses) : f.grown f := ⟨Nat.le_refl _, Nat.le_refl _, fun _ h => h, rfl, rfl, rfl, rfl⟩

/-- ADVANCE_SV only raises the count (R55). -/
theorem advanceSv_grown (m : Mach) (f : Fuses) : f.grown (advanceSv m f) := by
  unfold advanceSv
  split
  · exact ⟨Nat.le_max_left _ _, Nat.le_refl _, fun _ h => h, rfl, rfl, rfl, rfl⟩
  · exact f.grown_refl

/-- A fuse request raises the lifecycle or adds a revocation (R80). -/
theorem blowFuse_grown (c : List Byte) (f : Fuses) : f.grown (blowFuse c f) := by
  unfold blowFuse
  dsimp only
  split
  · exact ⟨Nat.le_refl _, Nat.le_max_left _ _, fun _ h => h, rfl, rfl, rfl, rfl⟩
  · exact ⟨Nat.le_refl _, Nat.le_max_left _ _, fun _ h => h, rfl, rfl, rfl, rfl⟩
  · split
    · exact f.grown_refl
    · exact ⟨Nat.le_refl _, Nat.le_refl _, fun _ h => List.mem_cons_of_mem _ h, rfl, rfl, rfl, rfl⟩
  · exact f.grown_refl

/-- No command unblows a fuse. -/
theorem exec_grown {c : Instr} {s t : State} (h : exec c s = .next t) : s.fuses.grown t.fuses := by
  have kept : t.fuses = s.fuses → s.fuses.grown t.fuses := fun e => e ▸ s.fuses.grown_refl
  rcases wholeState_or_run c s with (rfl | ⟨b, e, v, f, rfl⟩ | ⟨l, rfl⟩ | ⟨d, e, rfl⟩) | ⟨f, hf⟩
  · exact kept (porstAssert_fuses h)
  · exact kept (porstRelease_fuses h)
  · rcases firstTurnTick_fuses h with e | e
    · exact kept e
    · exact e ▸ advanceSv_grown s.m s.fuses
  · rcases mbxReadComplete_fuses h with e | ⟨c, e⟩
    · exact kept e
    · exact e ▸ blowFuse_grown c s.fuses
  · rw [hf, run_next] at h
    cases h
    exact kept rfl

/-- Settles O7: the front command blows fuses or leaves them, and so does the idle step. -/
theorem fusesOnlyGrow : Obligations.FusesOnlyGrow := by
  intro s t h
  unfold step at h
  split at h
  · cases h
    unfold State.idle
    split <;> exact s.fuses.grown_refl
  · next rest _ => exact exec_grown (s := { s with pending := rest }) h

end Sys2Proof.Machine

/-!
PROOFS. PORST_n (R15, R535, R543, R677, R678): the part before its first release, in reset, and as the boot ROM leaves it.
-/

namespace Sys2Proof.Machine

/-! ### The part in reset -/

/-- A register file that lists nothing reads its reset values (R15). -/
theorem rd_of_regs_nil {m : Mach} (h : m.regs = []) (f : Fld) : rd m f = f.reset := by
  unfold rd; rw [h]; rfl

/-- A memory that lists nothing reads zero (notes/assumptions/1.md). -/
theorem rb_of_mem_nil {m : Mach} (h : m.mem = []) (a : Nat) : rb m a = 0 := by
  unfold rb; rw [h]; rfl

/-- Settles O9: the reset state lists no register, so every field reads its reset value. -/
theorem resetStateAsTheSpecGives : Obligations.ResetStateAsTheSpecGives := by
  have hreg : ∀ f : Fld, rd State.reset.m f = f.reset := rd_of_regs_nil rfl
  exact ⟨rfl, by decide, wf_reset, rfl, rfl, hreg, hreg _, hreg _, hreg _⟩

/-! ### The straps and the fuses shown (R2, R76, R81) -/

/-- The part as the boot ROM finds it: powered, the fuses shown, the straps taken, and no cause of the safe state held yet. -/
def strapped (f : Fuses) (bootsel : Fin 4) (m : Mach) : Mach :=
  { m with powered := true } |> showFuses f |> wr Reg.PAT_BOOT_BOOTSEL bootsel |> modLdr (fun l => { l with releasedAt := now m })
    |> modSaf (fun x => { x with causes := [] })

/-- The first act of the boot ROM: the safe state, and a lifecycle of RETURNED as its second cause. -/
def bootSafe (m : Mach) : Mach :=
  let n := enterSafe .notStarted m
  if rd n Reg.PAT_STATUS_LIFECYCLE = 2 then enterSafe .lifecycle n else n

/-- The boot ROM, its voter test passed: straps, safe state, loader. -/
theorem bootRom_passed (f : Fuses) (b : Fin 4) (flash : Option Nat) (m : Mach) :
    bootRom f b true flash m = startLoader flash (bootSafe (strapped f b m)) := by
  unfold bootRom
  rw [if_pos rfl]
  exact congrArg (startLoader flash) rfl

theorem strapped_powered (f : Fuses) (b : Fin 4) (m : Mach) : (strapped f b m).powered = true := rfl
theorem strapped_endpoint (f : Fuses) (b : Fin 4) (m : Mach) : (strapped f b m).endpoint = m.endpoint := rfl
theorem strapped_causes (f : Fuses) (b : Fin 4) (m : Mach) : (strapped f b m).saf.causes = [] := rfl

theorem rd_strapped_bootsel (f : Fuses) (b : Fin 4) (m : Mach) : rd (strapped f b m) Reg.PAT_BOOT_BOOTSEL = b := by
  simp only [strapped, rd_modSaf, rd_modLdr, rd_wr_same]
  exact Nat.mod_eq_of_lt b.isLt

/-- A field other than BOOTSEL reads what the fuses show. -/
theorem rd_strapped {g : Fld} (f : Fuses) (b : Fin 4) (m : Mach) (h : g.key ≠ Reg.PAT_BOOT_BOOTSEL.key) :
    rd (strapped f b m) g = rd (showFuses f { m with powered := true }) g := by
  simp only [strapped, rd_modSaf, rd_modLdr, rd_wr_other _ _ h]

theorem rd_showFuses_uid (f : Fuses) (m : Mach) (h : f.uid < 2 ^ 64) : rd (showFuses f m) Reg.PAT_UID = f.uid :=
  (rd_wr_same _ _ _).trans (Nat.mod_eq_of_lt h)

theorem rd_showFuses_sv (f : Fuses) (m : Mach) (h : f.sv ≤ 64) : rd (showFuses f m) Reg.PAT_SV_FUSED = f.sv := by
  simp only [showFuses, showRevoked]
  rw [rd_wr_other _ _ (by decide), rd_wrb_other _ _ (by decide), rd_wr_other _ _ (by decide), rd_wr_other _ _ (by decide), rd_wr_same]
  exact Nat.mod_eq_of_lt (Nat.lt_of_le_of_lt h (by decide))

theorem rd_showFuses_lifecycle (f : Fuses) (m : Mach) : rd (showFuses f m) Reg.PAT_STATUS_LIFECYCLE = min 2 f.lifecycle := by
  simp only [showFuses, showRevoked]
  rw [rd_wr_other _ _ (by decide), rd_wrb_other _ _ (by decide), rd_wr_other _ _ (by decide), rd_wr_other _ _ (by decide),
    rd_wr_other _ _ (by decide), rd_wr_same]
  exact Nat.mod_eq_of_lt (Nat.lt_of_le_of_lt (Nat.min_le_left _ _) (by decide))

/-! ### The safe state of the boot ROM (R506, R535) -/

theorem rd_bootSafe {f : Fld} (h : f.beyond) (m : Mach) : rd (bootSafe m) f = rd m f := by
  unfold bootSafe
  dsimp only
  split
  · rw [rd_enterSafe h, rd_enterSafe h]
  · exact rd_enterSafe h _ m

theorem bootSafe_powered (m : Mach) : (bootSafe m).powered = m.powered := by
  unfold bootSafe; dsimp only; split <;> simp

theorem bootSafe_endpoint (m : Mach) : (bootSafe m).endpoint = m.endpoint := by
  unfold bootSafe; dsimp only; split <;> simp

/-- The boot ROM leaves the part in the safe state, and NOT_STARTED stands first where no cause was held. -/
theorem bootSafe_safe {m : Mach} (h : m.saf.causes = []) :
    inSafe (bootSafe m) = true ∧ (bootSafe m).saf.causes.head? = some .notStarted := by
  obtain ⟨hsafe, -, -, hcauses, -⟩ := enterSafe_safe .notStarted m
  replace hcauses : (enterSafe .notStarted m).saf.causes = [.notStarted] := by rw [hcauses, h]; rfl
  unfold bootSafe
  dsimp only
  split
  · obtain ⟨hsafe', -, -, hcauses', -⟩ := enterSafe_safe .lifecycle (enterSafe .notStarted m)
    exact ⟨hsafe', by rw [hcauses', hcauses]; rfl⟩
  · exact ⟨hsafe, by rw [hcauses]; rfl⟩

/-! ### The loader's start (R46 to R48) -/

/-- The fields that the loader's start may write. -/
def loaderStartFields : List Fld :=
  [Reg.PAT_STATUS_STATE, Reg.PAT_BOOT_SFDP_FOUND, Reg.PAT_BOOT_PRIMARY_FAILED, Reg.PAT_BOOT_SECONDARY_FAILED, Reg.PAT_ERROR_CODE,
   Reg.PAT_ERROR_SECTION, Reg.PAT_ERR_OFFSET, Reg.PAT_ERROR_COUNT]

theorem loadErr_kept {fs : List Fld} {m n : Mach} (x : LoadFail) (h : RegsKept fs m n)
    (hfs : ∀ f ∈ [Reg.PAT_ERROR_CODE, Reg.PAT_ERROR_SECTION, Reg.PAT_ERR_OFFSET, Reg.PAT_ERROR_COUNT], f ∈ fs) :
    RegsKept fs m (loadErr x n) := by
  simp only [List.forall_mem_cons] at hfs
  obtain ⟨hcode, hsect, hoff, hcount, -⟩ := hfs
  exact (((h.put _ _ hcode).put _ _ hsect).put _ _ hoff).bump _ hcount

/-- No flash answers: the failure is reported, and both copies count as failed (R47, R83). -/
def noFlash (m : Mach) : Mach :=
  m |> loadErr ⟨Ld.flashIo, 0, 0xFF⟩ |> wrb Reg.PAT_BOOT_PRIMARY_FAILED true |> wrb Reg.PAT_BOOT_SECONDARY_FAILED true

theorem noFlash_kept (m : Mach) : RegsKept loaderStartFields m (noFlash m) := by
  have herr : RegsKept loaderStartFields m (loadErr ⟨Ld.flashIo, 0, 0xFF⟩ m) := loadErr_kept _ (RegsKept.refl _ m) (by decide)
  exact (herr.putb Reg.PAT_BOOT_PRIMARY_FAILED true (by decide)).putb Reg.PAT_BOOT_SECONDARY_FAILED true (by decide)

theorem awaitMailbox_kept {fs : List Fld} {m n : Mach} (h : RegsKept fs m n) (hf : Reg.PAT_STATUS_STATE ∈ fs) :
    RegsKept fs m (awaitMailbox n) := RegsKept.of_regs rfl (h.put Reg.PAT_STATUS_STATE 7 hf)

theorem modLdr_kept (fs : List Fld) (g : Loader → Loader) (m : Mach) : RegsKept fs m (modLdr g m) := fun f _ => rd_modLdr g m f

theorem modLdr_endpoint (g : Loader → Loader) (m : Mach) : (modLdr g m).endpoint = m.endpoint := rfl
theorem noFlash_endpoint (m : Mach) : (noFlash m).endpoint = m.endpoint := by
  simp [noFlash, loadErr, wrb, inc, addTo]

/-- The loader's start by BOOTSEL and by what SFDP finds. -/
theorem startLoader_cases (flash : Option Nat) (m : Mach) :
    let n := modLdr (fun l => { l with flashHalf := flash }) m
    (rd m Reg.PAT_BOOT_BOOTSEL = 1 ∧ startLoader flash m = awaitMailbox n) ∨
    (rd m Reg.PAT_BOOT_BOOTSEL ≠ 1 ∧ flash ≠ none ∧
      startLoader flash m = (n |> wrb Reg.PAT_BOOT_SFDP_FOUND true |> modLdr (fun l => { l with copy := 1 }) |> wr Reg.PAT_STATUS_STATE 1)) ∨
    (rd m Reg.PAT_BOOT_BOOTSEL = 0 ∧ flash = none ∧ startLoader flash m = awaitMailbox (noFlash n)) ∨
    (rd m Reg.PAT_BOOT_BOOTSEL ≠ 1 ∧ rd m Reg.PAT_BOOT_BOOTSEL ≠ 0 ∧ flash = none ∧
      startLoader flash m = wr Reg.PAT_STATUS_STATE 6 (noFlash n)) := by
  intro n
  have hn : rd (noFlash n) Reg.PAT_BOOT_BOOTSEL = rd m Reg.PAT_BOOT_BOOTSEL := noFlash_kept n _ (by decide)
  unfold noFlash at hn ⊢
  unfold startLoader
  dsimp only
  rw [rd_modLdr]
  by_cases h1 : rd m Reg.PAT_BOOT_BOOTSEL = 1
  · rw [if_pos h1]
    exact .inl ⟨h1, rfl⟩
  · rw [if_neg h1]
    cases flash with
    | some k => exact .inr (.inl ⟨h1, by simp, rfl⟩)
    | none =>
      rw [if_neg (by simp), hn]
      by_cases h0 : rd m Reg.PAT_BOOT_BOOTSEL = 0
      · rw [if_pos h0]
        exact .inr (.inr (.inl ⟨h0, rfl, rfl⟩))
      · rw [if_neg h0]
        exact .inr (.inr (.inr ⟨h1, h0, rfl, rfl⟩))

/-- The loader's start writes its own fields alone. -/
theorem startLoader_kept (flash : Option Nat) (m : Mach) : RegsKept loaderStartFields m (startLoader flash m) := by
  have hl := modLdr_kept loaderStartFields (fun l => { l with flashHalf := flash }) m
  have hn := hl.trans (noFlash_kept _)
  have hstate : Reg.PAT_STATUS_STATE ∈ loaderStartFields := by decide
  rcases startLoader_cases flash m with ⟨-, e⟩ | ⟨-, -, e⟩ | ⟨-, -, e⟩ | ⟨-, -, -, e⟩ <;> rw [e]
  · exact awaitMailbox_kept hl hstate
  · exact ((hl.putb Reg.PAT_BOOT_SFDP_FOUND true (by decide)).trans (modLdr_kept _ _ _)).put _ _ hstate
  · exact awaitMailbox_kept hn hstate
  · exact hn.put _ _ hstate

theorem startLoader_powered (flash : Option Nat) (m : Mach) : (startLoader flash m).powered = m.powered := by
  rcases startLoader_cases flash m with ⟨-, e⟩ | ⟨-, -, e⟩ | ⟨-, -, e⟩ | ⟨-, -, -, e⟩ <;> rw [e] <;>
    simp [awaitMailbox, noFlash, loadErr, wrb, inc, addTo]

theorem startLoader_saf (flash : Option Nat) (m : Mach) : (startLoader flash m).saf = m.saf := by
  rcases startLoader_cases flash m with ⟨-, e⟩ | ⟨-, -, e⟩ | ⟨-, -, e⟩ | ⟨-, -, -, e⟩ <;> rw [e] <;>
    simp [awaitMailbox, noFlash, loadErr, wrb, inc, addTo]

/-- The endpoint completes its start-up where the mailbox is the source (R48). -/
theorem startLoader_endpoint (flash : Option Nat) (m : Mach) :
    (startLoader flash m).endpoint = true ↔
      m.endpoint = true ∨ rd m Reg.PAT_BOOT_BOOTSEL = 1 ∨ (rd m Reg.PAT_BOOT_BOOTSEL = 0 ∧ flash = none) := by
  rcases startLoader_cases flash m with ⟨h1, e⟩ | ⟨h1, hf, e⟩ | ⟨h0, hf, e⟩ | ⟨h1, h0, hf, e⟩ <;> rw [e]
  · simp [awaitMailbox, h1]
  · simp [h1, hf, wrb, modLdr_endpoint]
  · simp [awaitMailbox, h0, hf]
  · simp [h1, h0, modLdr_endpoint, noFlash_endpoint]

/-! ### The two edges of PORST_n -/

/-- A part in reset with TEST_EN low and the voter test passed: the boot ROM runs. -/
theorem exec_porstRelease_passed {s : State} (b : Fin 4) (flash : Option Nat) (hp : s.m.powered = false) (ht : s.m.ldr.testHold = false) :
    exec (.porstRelease b false true flash) s = .next { s with m := startLoader flash (bootSafe (strapped s.fuses b s.m)) } := by
  change execPorstRelease b false true flash s = _
  unfold execPorstRelease
  simp only [hp, ht, Bool.false_eq_true, or_self, if_false, bootRom_passed]

/-- A part in reset with TEST_EN high stays in reset (R678). -/
theorem exec_porstRelease_test {s : State} (b : Fin 4) (v : Bool) (flash : Option Nat) (hp : s.m.powered = false)
    (ht : s.m.ldr.testHold = false) :
    exec (.porstRelease b true v flash) s = .next { s with m := modLdr (fun l => { l with testHold := true }) s.m } := by
  change execPorstRelease b true v flash s = _
  unfold execPorstRelease
  simp only [hp, ht, Bool.false_eq_true, or_self, if_false, if_true]

/-- What the boot ROM leaves behind, its voter test passed. -/
theorem booted {f : Fuses} (hs : f.sound) (hu : f.uid < 2 ^ 64) (b : Fin 4) (flash : Option Nat) (m : Mach) :
    let t := startLoader flash (bootSafe (strapped f b m))
    t.powered = true ∧ rd t Reg.PAT_BOOT_BOOTSEL = b.val ∧ rd t Reg.PAT_STATUS_LIFECYCLE = min 2 f.lifecycle ∧
      rd t Reg.PAT_SV_FUSED = f.sv ∧ rd t Reg.PAT_UID = f.uid ∧ inSafe t = true ∧ t.saf.causes.head? = some .notStarted ∧
      (t.endpoint = true ↔ m.endpoint = true ∨ b = 1 ∨ (b = 0 ∧ flash = none)) := by
  intro t
  obtain ⟨hsv, -, -⟩ := hs
  obtain ⟨hsafe, hhead⟩ := bootSafe_safe (strapped_causes f b m)
  have kept : ∀ g : Fld, g.beyond → g.key ∉ loaderStartFields.map Fld.key → rd t g = rd (strapped f b m) g :=
    fun g hg hk => (startLoader_kept flash _ g hk).trans (rd_bootSafe hg _)
  refine ⟨?_, ?_, ?_, ?_, ?_, ?_, ?_, ?_⟩
  · rw [startLoader_powered, bootSafe_powered, strapped_powered]
  · rw [kept _ (by decide) (by decide), rd_strapped_bootsel]
  · rw [kept _ (by decide) (by decide), rd_strapped _ _ _ (by decide), rd_showFuses_lifecycle]
  · rw [kept _ (by decide) (by decide), rd_strapped _ _ _ (by decide), rd_showFuses_sv _ _ hsv]
  · rw [kept _ (by decide) (by decide), rd_strapped _ _ _ (by decide), rd_showFuses_uid _ _ hu]
  · unfold inSafe
    rw [startLoader_kept flash _ _ (by decide)]
    exact hsafe
  · rw [startLoader_saf]; exact hhead
  · rw [startLoader_endpoint, bootSafe_endpoint, strapped_endpoint, rd_bootSafe (by decide), rd_strapped_bootsel]
    simp only [Fin.ext_iff]
    exact Iff.rfl

/-- Settles O10: PORST_n low leaves empty lists, and its release runs the boot ROM or, under TEST_EN, holds the part. -/
theorem powerOnResetAndRelease : Obligations.PowerOnResetAndRelease := by
  unfold Obligations.PowerOnResetAndRelease
  refine ⟨fun s => ?_, fun b flash s hp ht hs hu => ?_, fun b v flash s hp ht => ?_⟩
  · exact ⟨_, rfl, rfl, rfl, rfl, rd_of_regs_nil rfl, rb_of_mem_nil rfl, rfl, rfl, rfl, rfl, rfl⟩
  · exact ⟨_, exec_porstRelease_passed b flash hp ht, rfl, rfl, booted hs hu b flash s.m⟩
  · exact ⟨_, exec_porstRelease_test b v flash hp ht, rfl, rfl, hp, rfl, rfl⟩

end Sys2Proof.Machine

/-!
PROOFS. Register accesses through the table (R12 to R17, R35 to R37): what a read answers and changes, what a write of the fields changes, and
the latches and holding values of pairs.
-/

namespace Sys2Proof.Machine

/-- A command that is an effect on the part completes in a powered part with what the effect gives. -/
theorem completes_run {c : Instr} {s : State} {f : Mach → Mach} {P : Mach → Prop} (hp : Powered s) (h : exec c s = s.run f) (hP : P (f s.m)) :
    Completes c s P :=
  ⟨{ s with m := f s.m }, h.trans (run_powered f hp), rfl, rfl, hP⟩

/-! ### What an output leaves as it was -/

theorem regFind_emit (o : Output) (m : Mach) (a : Nat) : regFind (emit o m) a = regFind m a := rfl

/-! ### An access that reaches an address -/

theorem writersAt_none {m : Mach} {a : Nat} (h : regFind m a = none) : writersAt m a = .any := by
  unfold writersAt; rw [h]

theorem writersAt_some {m : Mach} {a b : Nat} {r : RegRow} (h : regFind m a = some (r, b)) : writersAt m a = r.wr := by
  unfold writersAt; rw [h]

/-- A write by a requester that reaches the address and may write there is performed (R35, R37). -/
theorem writeAt_ok {w : Requester} {addr a : Nat} {k : Nat → Writers} {act : Nat → Mach → Mach} {m : Mach} (h : reach m w addr = .ok a)
    (hs : inSaf a = true → mayWrite m w .mi a = true) (hw : mayWrite m w (k a) a = true) : writeAt w addr k act m = act a m := by
  have hsaf : (inSaf a && !mayWrite m w .mi a) = false := by
    cases hin : inSaf a
    · rfl
    · rw [hs hin]; rfl
  unfold writeAt
  simp [h, hsaf, hw]

/-- A read of an aligned address that the requester reaches answers the word there, and does what reading it does. -/
theorem registerRead_completes {who : Requester} {addr a : Nat} {s : State} {P : Mach → Prop} (hp : Powered s) (hal : addr % 4 = 0)
    (hr : reach s.m who addr = .ok a) (hP : P (readActs who a (emit (.readData who (readWord s.m who a)) s.m))) :
    Completes (.rcRegisterRead who false addr) s P := by
  have he : exec (.rcRegisterRead who false addr) s = s.run (fun m =>
    if addr % 4 ≠ 0 then m else readAt who addr (readWord m who) (readActs who) m) := rfl
  refine completes_run hp he ?_
  rw [if_neg (fun k => k hal), readAt_ok hr]
  exact hP

/-- A write of an aligned address that the requester reaches and may write is a write of the register there. -/
theorem registerWrite_completes {who : Requester} {addr a : Nat} {v : Word} {s : State} {P : Mach → Prop} (hp : Powered s) (hal : addr % 4 = 0)
    (hr : reach s.m who addr = .ok a) (hs : inSaf a = true → mayWrite s.m who .mi a = true) (hw : mayWrite s.m who (writersAt s.m a) a = true)
    (hP : P (writeReg who v a s.m)) : Completes (.registerWrite who false addr v) s P := by
  have he : exec (.registerWrite who false addr v) s = s.run (fun m =>
    if addr % 4 ≠ 0 then m else writeAt who addr (writersAt m) (writeReg who v) m) := rfl
  refine completes_run hp he ?_
  rw [if_neg (fun k => k hal), writeAt_ok hr hs hw]
  exact hP

/-! ### An address that holds no register (R13) -/

theorem readWord_none {m : Mach} {a : Nat} (who : Requester) (h : regFind m a = none) : readWord m who a = 0 := by
  unfold readWord; rw [h]; exact ite_self 0

theorem readActs_none {m : Mach} {a : Nat} (who : Requester) (h : regFind m a = none) : readActs who a m = m := by
  unfold readActs; rw [h]

theorem writeReg_none {m : Mach} {a : Nat} (who : Requester) (v : Word) (h : regFind m a = none) : writeReg who v a m = m := by
  unfold writeReg; rw [h]; exact ite_self m

/-! ### Reading a register (R14, R16) -/

/-- A register's read answers what the table gives, unless it is a camera's result word. -/
theorem readWord_some {m : Mach} {a b : Nat} {r : RegRow} (who : Requester) (hq : noQueue m a = false) (h : regFind m a = some (r, b))
    (hcci : r.base ≠ (Reg.ING_APHY_CCI_RESULT_RDATA 0).addr) : readWord m who a = regValue m who a := by
  unfold readWord; simp [hq, h, hcci]

/-- A register's read changes what R14 and R17 say, unless it takes an entry of a queue. -/
theorem readActs_some {m : Mach} {a b : Nat} {r : RegRow} (who : Requester) (h : regFind m a = some (r, b))
    (hevt : r.base ≠ (Reg.TIME_EVT_FIFO 0).addr ∨ a = b) (hcci : r.base ≠ (Reg.ING_APHY_CCI_RESULT_RDATA 0).addr) :
    readActs who a m = regReadAct who a m := by
  have hpop : ¬ (r.base = (Reg.TIME_EVT_FIFO 0).addr ∧ a ≠ b) := fun ⟨e, n⟩ => hevt.elim (fun k => k e) n
  unfold readActs
  rw [h]
  dsimp only
  rw [if_neg hpop, if_neg hcci]

theorem regValue_single {m : Mach} {a b : Nat} {r : RegRow} (who : Requester) (h : regFind m a = some (r, b)) (hp : r.pair = false) :
    regValue m who a = rowValue (timed b m) r b := by
  unfold regValue; simp [h, hp]

/-- The `rc` fields of a register go back to their reset values when it is read. -/
def clearRc (b : Nat) (f : FieldSpec) (m : Mach) : Mach := if f.access = .rc then clr (f.at b) m else m

theorem regReadAct_single {m : Mach} {a b : Nat} {r : RegRow} (who : Requester) (h : regFind m a = some (r, b)) (hp : r.pair = false) :
    regReadAct who a m = forEach r.fields (clearRc b) m := by
  unfold regReadAct; simp only [h, hp, Bool.false_eq_true, if_false]; rfl

theorem clearRc_only_regs (b : Nat) (f : FieldSpec) (m : Mach) : clearRc b f m = { m with regs := (clearRc b f m).regs } := by
  unfold clearRc; split <;> rfl

/-- Clearing leaves every field but the `rc` fields listed. -/
theorem rd_forEach_clearRc {b : Nat} {g : Fld} (l : List FieldSpec) (m : Mach) (h : ∀ f ∈ l, f.access = .rc → g.key ≠ (f.at b).key) :
    rd (forEach l (clearRc b) m) g = rd m g := by
  refine forEach_rd l _ g m fun f hf n => ?_
  unfold clearRc
  split
  · next hrc => exact rd_wr_other _ _ (h f hf hrc)
  · rfl

/-! ### Writing a register (R14) -/

/-- A row that is none of `actRows` takes a write field by field. -/
theorem writeActs_fields {who : Requester} {r : RegRow} {b : Nat} {v : Word} {m : Mach} (h : r.base ∉ actRows) :
    writeActs who r b v m = writeFields r b v.toNat m := by
  simp only [actRows, List.mem_cons, List.not_mem_nil, or_false, not_or] at h
  simp [writeActs, h]

/-- A write of a register that is no pair and has no action of its own writes its fields. -/
theorem writeReg_single {who : Requester} {r : RegRow} {a b : Nat} {v : Word} {m : Mach} (hq : noQueue m a = false)
    (h : regFind m a = some (r, b)) (hp : r.pair = false) (hact : r.base ∉ actRows) : writeReg who v a m = writeFields r b v.toNat m := by
  unfold writeReg; simp [hq, h, hp, writeActs_fields hact]

/-- The fields of a row that a write changes. -/
def RegRow.written (r : RegRow) (b : Nat) : List Fld := (r.fields.filter (fun f => f.access = .rw ∨ f.access = .w1c)).map (·.at b)

theorem FieldSpec.key_at (f : FieldSpec) (b : Nat) : (f.at b).key = b * 64 + f.lo := rfl

theorem writeField_only_regs (b v : Nat) (f : FieldSpec) (m : Mach) : writeField b v f m = { m with regs := (writeField b v f m).regs } := by
  unfold writeField; split <;> rfl

/-- Writing a field leaves every other field. -/
theorem rd_writeField_other {b : Nat} {f : FieldSpec} {g : Fld} (v : Nat) (m : Mach) (h : g.key ≠ (f.at b).key) :
    rd (writeField b v f m) g = rd m g := by
  unfold writeField
  split
  · exact rd_wr_other _ _ h
  · exact rd_wr_other _ _ h
  · rfl

/-- An `rw` field takes its bits of the value. -/
theorem rd_writeField_rw {f : FieldSpec} (b v : Nat) (m : Mach) (h : f.access = .rw) :
    rd (writeField b v f m) (f.at b) = bitsAt v f.lo f.width := by
  unfold writeField
  rw [h]
  exact (rd_wr_same _ _ _).trans (Nat.mod_mod _ _)

/-- A `w1c` field loses the bits that are written 1. -/
theorem rd_writeField_w1c {b : Nat} {f : FieldSpec} (v : Nat) {m : Mach} (h : f.access = .w1c) (hw : rd m (f.at b) < 2 ^ f.width) :
    rd (writeField b v f m) (f.at b) = rd m (f.at b) - (rd m (f.at b) &&& bitsAt v f.lo f.width) := by
  unfold writeField
  rw [h]
  exact (rd_wr_same _ _ _).trans (Nat.mod_eq_of_lt (Nat.lt_of_le_of_lt (Nat.sub_le _ _) hw))

/-- Writing a register's fields leaves a field that is none of them. -/
theorem rd_forEach_writeField_other {b : Nat} {g : Fld} (v : Nat) (l : List FieldSpec) (m : Mach) (h : ∀ f ∈ l, g.key ≠ (f.at b).key) :
    rd (forEach l (writeField b v) m) g = rd m g :=
  forEach_rd l _ g m fun f hf n => rd_writeField_other v n (h f hf)

/-- Where the fields of a register begin at different bits, each reads behind the register's write what its own write gives. -/
theorem rd_forEach_writeField {b : Nat} {f : FieldSpec} {x : Nat} (v : Nat) (l : List FieldSpec) (m : Mach) (hn : (l.map (fun f => f.lo)).Nodup)
    (hf : f ∈ l) (hx : ∀ n, rd n (f.at b) = rd m (f.at b) → rd (writeField b v f n) (f.at b) = x) :
    rd (forEach l (writeField b v) m) (f.at b) = x := by
  induction l generalizing m with
  | nil => cases hf
  | cons e l ih =>
    obtain ⟨hne, hn⟩ := List.nodup_cons.mp hn
    have differ : ∀ d ∈ l, d.lo ≠ e.lo := fun d hd k => hne (List.mem_map.mpr ⟨d, hd, k⟩)
    rw [forEach_cons]
    rcases List.mem_cons.mp hf with rfl | hf
    · have kept : rd (forEach l (writeField b v) (writeField b v f m)) (f.at b) = rd (writeField b v f m) (f.at b) :=
        rd_forEach_writeField_other v l _ fun d hd => Fld.key_ne_of_lo rfl (differ d hd).symm
      rw [kept, hx m rfl]
    · have kept : rd (writeField b v e m) (f.at b) = rd m (f.at b) := rd_writeField_other v m (Fld.key_ne_of_lo rfl (differ f hf))
      exact ih _ hn hf fun n h => hx n (h.trans kept)

/-- A register's write changes registers alone, and of these only its `rw` and `w1c` fields. -/
theorem writeFields_onlyRegs (r : RegRow) (b v : Nat) (m : Mach) : OnlyRegs (r.written b) m (writeFields r b v m) := by
  refine ⟨regs_only_forEach _ _ _ (writeField_only_regs b v), fun g hg => forEach_rd _ _ g m fun f hf n => ?_⟩
  by_cases hw : f.access = .rw ∨ f.access = .w1c
  · have hmem : (f.at b) ∈ r.written b := List.mem_map.mpr ⟨f, List.mem_filter.mpr ⟨hf, by simpa using hw⟩, rfl⟩
    exact rd_writeField_other v n fun e => hg (e ▸ List.mem_map_of_mem hmem)
  · unfold writeField
    split
    · next h => exact absurd (.inl h) hw
    · next h => exact absurd (.inr h) hw
    · rfl

/-- Settles O11: the address without a register, the single register read, and the register written field by field. -/
theorem registerReadsAndWrites : Obligations.RegisterReadsAndWrites := by
  unfold Obligations.RegisterReadsAndWrites
  refine ⟨fun who addr a s hp hal hr hfind => ⟨?_, fun v hsaf => ?_⟩,
    fun who addr a b r s hp hal hr hfind hq hpair hcci hevt => ?_,
    fun who addr a b r v s hp hal hr hfind hq hpair hact hmay hsaf hnodup _ => ?_⟩
  · refine registerRead_completes hp hal hr ?_
    rw [readWord_none who hfind, readActs_none who ((regFind_emit _ _ _).trans hfind)]
    rfl
  · refine registerWrite_completes hp hal hr (fun h => absurd h (by simp [hsaf])) (by rw [writersAt_none hfind]; rfl) ?_
    exact writeReg_none who v hfind
  · refine registerRead_completes hp hal hr ?_
    rw [readWord_some who hq hfind hcci, regValue_single who hfind hpair,
      readActs_some who ((regFind_emit _ _ _).trans hfind) (.inl hevt) hcci, regReadAct_single who ((regFind_emit _ _ _).trans hfind) hpair,
      regs_only_forEach _ _ _ (clearRc_only_regs b)]
    exact ⟨rfl, rfl, fun g hg => rd_forEach_clearRc r.fields _ hg⟩
  · refine registerWrite_completes hp hal hr hsaf (by rw [writersAt_some hfind]; exact hmay) ?_
    rw [writeReg_single hq hfind hpair hact]
    refine ⟨fun f hf hrw => ?_, fun f hf hw1c hlt => ?_, writeFields_onlyRegs r b v.toNat s.m⟩
    · exact rd_forEach_writeField _ _ _ hnodup hf fun n _ => rd_writeField_rw b _ n hrw
    · refine rd_forEach_writeField _ _ _ hnodup hf fun n hn => ?_
      rw [rd_writeField_w1c _ hw1c (hn.symm ▸ hlt), hn]

/-! ### The halves of a pair (R17) -/

theorem halfOf_pair {m : Mach} {a b : Nat} {r : RegRow} (h : regFind m a = some (r, b)) (hp : r.pair = true) : halfOf m a = some (a != b) := by
  unfold halfOf; simp [h, hp]

/-- A read of a half that the requester reaches answers the word there, and does what reading it does. -/
theorem readHalf_ok {who : Requester} {addr a b : Nat} {r : RegRow} {m : Mach} {hi : Bool} (hr : reach m who addr = .ok a)
    (hd : deviceOf who addr = a) (h : regFind m a = some (r, b)) (hp : r.pair = true) (hhi : (a != b) = hi) :
    readHalf hi who addr m = readActs who a (emit (.readData who (readWord m who a)) m) := by
  unfold readHalf
  rw [hd, halfOf_pair h hp, hhi, if_pos rfl, readAt_ok hr]

/-- A write of a half that the requester reaches and may write is a write of that half. -/
theorem writeHalf_ok {who : Requester} {addr a b : Nat} {r : RegRow} {v : Word} {m : Mach} {hi : Bool} (hr : reach m who addr = .ok a)
    (hd : deviceOf who addr = a) (h : regFind m a = some (r, b)) (hp : r.pair = true) (hhi : (a != b) = hi) (hq : noQueue m a = false)
    (hs : inSaf a = true → mayWrite m who .mi a = true) (hw : mayWrite m who r.wr a = true) :
    writeHalf hi who addr v m = writePair who r b hi v.toNat m := by
  unfold writeHalf
  rw [hd, halfOf_pair h hp, hhi, if_pos rfl, writeAt_ok hr hs (by rw [writersAt_some h]; exact hw)]
  unfold writeReg
  simp [hq, h, hp, hhi]

theorem regValue_lo {m : Mach} {b : Nat} {r : RegRow} (who : Requester) (h : regFind m b = some (r, b)) (hp : r.pair = true) :
    regValue m who b = rowValue (timed b m) r b % 2 ^ 32 := by
  unfold regValue; simp [h, hp]

theorem regValue_hi {m : Mach} {b : Nat} {r : RegRow} (who : Requester) (h : regFind m (b + 4) = some (r, b)) (hp : r.pair = true) :
    regValue m who (b + 4) = (lookup m.latches (latchKey who b)).getD (rowValue (timed b m) r b / 2 ^ 32) := by
  unfold regValue; simp [h, hp]

/-- Reading the lower half fills the requester's latch with the upper one. -/
theorem regReadAct_lo {m : Mach} {b : Nat} {r : RegRow} (who : Requester) (h : regFind m b = some (r, b)) (hp : r.pair = true) :
    regReadAct who b m =
      { m with latches := insertKey (eraseKey m.latches (latchKey who b)) (latchKey who b) (rowValue m r b / 2 ^ 32) } := by
  unfold regReadAct; simp [h, hp]

/-- Reading the upper half empties the requester's latch. -/
theorem regReadAct_hi {m : Mach} {b : Nat} {r : RegRow} (who : Requester) (h : regFind m (b + 4) = some (r, b)) (hp : r.pair = true) :
    regReadAct who (b + 4) m = { m with latches := eraseKey m.latches (latchKey who b) } := by
  unfold regReadAct; simp [h, hp]

/-- A pair with an `rw` field takes its lower half as the requester's holding value. -/
theorem writePair_lo {r : RegRow} (who : Requester) (b v : Nat) (m : Mach) (h : ∃ f ∈ r.fields, f.access = .rw) :
    writePair who r b false v m = { m with holds := insertKey (eraseKey m.holds (latchKey who b)) (latchKey who b) v } := by
  obtain ⟨f, hf, hrw⟩ := h
  have hall : ¬ r.fields.all (fun f => f.access != .rw) = true := fun k => by simpa [hrw] using List.all_eq_true.mp k f hf
  unfold writePair
  simp only [if_neg hall, Bool.not_false, if_true]

/-- A pair of one `rw` field takes both halves with the write of its upper one. -/
theorem writePair_hi {r : RegRow} {f : FieldSpec} (who : Requester) (b v : Nat) (m : Mach) (hf : r.fields = [f]) (hrw : f.access = .rw) :
    writePair who r b true v m = writeField b (v * 2 ^ 32 + (lookup m.holds (latchKey who b)).getD (rowValue m r b % 2 ^ 32)) f
      { m with holds := eraseKey m.holds (latchKey who b) } := by
  unfold writePair writeFields
  simp [hf, hrw]

/-- What is held under a key after it has been emptied and filled. -/
theorem lookup_refill {α : Type} (l : List (Nat × α)) (k : Nat) (v : α) :
    lookup (insertKey (eraseKey l k) k v) k = some v ∧ ∀ j, j ≠ k → lookup (insertKey (eraseKey l k) k v) j = lookup l j :=
  ⟨lookup_insertKey_same _ _ _ (lookup_eraseKey_same l k),
    fun _ hj => (lookup_insertKey_other _ v hj).trans (lookup_eraseKey_other l hj)⟩

/-- Settles O12: each half of a pair, read and written. -/
theorem pairsLatchAndHold : Obligations.PairsLatchAndHold := by
  unfold Obligations.PairsLatchAndHold
  have lower : ∀ b : Nat, (b != b) = false := fun b => bne_self_eq_false b
  have upper : ∀ b : Nat, (b + 4 != b) = true := fun b => by simp
  refine ⟨fun who addr b r s hp hr hd hfind hpair hq hcci => ?_, fun who addr b r s hp hr hd hfind hpair hq hcci hevt => ?_,
    fun who addr b r v s hp hr hd hfind hpair hq hmay hsaf hrw => ?_,
    fun who addr b r f v s hp hr hd hfind hpair hq hmay hsaf hf hrw => ?_⟩
  · have he : exec (.pairLoRead who addr) s = s.run (readHalf false who addr) := rfl
    refine completes_run hp he ?_
    rw [readHalf_ok hr hd hfind hpair (lower b), readWord_some who hq hfind hcci, regValue_lo who hfind hpair,
      readActs_some who ((regFind_emit _ _ _).trans hfind) (.inr rfl) hcci, regReadAct_lo who ((regFind_emit _ _ _).trans hfind) hpair]
    obtain ⟨hsame, hother⟩ := lookup_refill s.m.latches (latchKey who b) (rowValue s.m r b / 2 ^ 32)
    exact ⟨rfl, hsame, rfl, rfl, rfl, hother⟩
  · have he : exec (.pairHiRead who addr) s = s.run (readHalf true who addr) := rfl
    refine completes_run hp he ?_
    rw [readHalf_ok hr hd hfind hpair (upper b), readWord_some who hq hfind hcci, regValue_hi who hfind hpair,
      readActs_some who ((regFind_emit _ _ _).trans hfind) (.inl hevt) hcci, regReadAct_hi who ((regFind_emit _ _ _).trans hfind) hpair]
    exact ⟨rfl, lookup_eraseKey_same _ _, rfl, rfl, rfl, fun k hk => lookup_eraseKey_other _ hk⟩
  · have he : exec (.pairLoWrite who addr v) s = s.run (writeHalf false who addr v) := rfl
    refine completes_run hp he ?_
    rw [writeHalf_ok hr hd hfind hpair (lower b) hq hsaf hmay, writePair_lo who b _ _ hrw]
    exact ⟨rfl, lookup_refill s.m.holds (latchKey who b) v.toNat⟩
  · have he : exec (.pairHiWrite who addr v) s = s.run (writeHalf true who addr v) := rfl
    refine completes_run hp he ?_
    rw [writeHalf_ok hr hd hfind hpair (upper b) hq hsaf hmay, writePair_hi who b _ _ hf hrw]
    refine ⟨rd_writeField_rw b _ _ hrw, ?_, fun g hg => ?_, ?_⟩
    · rw [writeField_only_regs]; exact lookup_eraseKey_same _ _
    · exact rd_writeField_other _ _ (by simpa using hg)
    · rw [writeField_only_regs]

end Sys2Proof.Machine

/-!
PROOFS. The fuses (R55, R77, R80): which commands change them, and that sound fuses stay sound.
-/

namespace Sys2Proof.Machine

/-! ### What each of the two commands does to the fuses -/

/-- Advancing the security version changes the count alone (R55). -/
theorem advanceSv_only_sv (m : Mach) (f : Fuses) : advanceSv m f = { f with sv := (advanceSv m f).sv } := by
  unfold advanceSv; split <;> rfl

/-- A fuse request changes the lifecycle and the revocations alone (R80). -/
theorem blowFuse_only (c : List Byte) (f : Fuses) :
    blowFuse c f = { f with lifecycle := (blowFuse c f).lifecycle, revoked := (blowFuse c f).revoked } := by
  unfold blowFuse
  dsimp only
  split
  · rfl
  · rfl
  · split <;> rfl
  · rfl

/-- A mailbox read changes fuses only where the running command is FUSE_REQUEST and its container passes (R80). -/
theorem mbxReadComplete_fuses_passed {d : Option (List Byte)} {e : LoadEnv} {s t : State} (h : exec (.mbxReadComplete d e) s = .next t) :
    t.fuses = s.fuses ∨
      ∃ c, s.m.ldr.cmd = 7 ∧ mbxVerdict s.fuses e.nvmePresent c s.m = none ∧ t.fuses = blowFuse c s.fuses := by
  change execMbxReadComplete d e s = _ at h
  unfold execMbxReadComplete at h
  split at h
  · cases h; exact .inl rfl
  · cases h
    unfold mbxFuses
    dsimp only
    split
    · next c _ =>
      split
      · next hpass => exact .inr ⟨c, hpass.1, hpass.2, rfl⟩
      · exact .inl rfl
    · exact .inl rfl

/-- Every command but FIRST_TURN_TICK and MBX_READ_COMPLETE leaves the fuses (R55, R80). -/
theorem exec_fuses_kept {c : Instr} {s t : State} (h : exec c s = .next t) (hfirst : ∀ l, c ≠ .firstTurnTick l)
    (hmbx : ∀ d e, c ≠ .mbxReadComplete d e) : t.fuses = s.fuses := by
  rcases wholeState_or_run c s with (rfl | ⟨b, e, v, f, rfl⟩ | ⟨l, rfl⟩ | ⟨d, e, rfl⟩) | ⟨f, hf⟩
  · exact porstAssert_fuses h
  · exact porstRelease_fuses h
  · exact absurd rfl (hfirst l)
  · exact absurd rfl (hmbx d e)
  · rw [hf, run_next] at h
    cases h
    rfl

/-- Settles O8: the two commands that work on the fuses, and every other one. -/
theorem onlyTwoCommandsBlowFuses : Obligations.OnlyTwoCommandsBlowFuses := by
  intro c s t h
  refine ⟨exec_fuses_kept h, ?_, ?_⟩
  · rintro ⟨l, rfl⟩
    rcases firstTurnTick_fuses h with e | e
    · rw [e]
    · rw [e]; exact advanceSv_only_sv s.m s.fuses
  · rintro ⟨d, e, rfl⟩
    rcases mbxReadComplete_fuses_passed h with k | ⟨c, hcmd, -, k⟩
    · exact ⟨by rw [k], fun _ => k⟩
    · exact ⟨by rw [k]; exact blowFuse_only c s.fuses, fun hne => absurd hcmd hne⟩

/-! ### Soundness (R55, R77, R80) -/

/-- Of two checks in a row that pass, each passes. -/
theorem orElse_none {a b : Verdict} (h : (a <|> b) = none) : a = none ∧ b = none := by
  cases a
  · exact ⟨rfl, h⟩
  · cases h

theorem need_none {ok : Bool} {code off sect : Nat} (h : need ok code off sect = none) : ok = true := by
  cases ok
  · cases h
  · rfl

/-- ADVANCE_SV blows at most 64 security-version fuses (R55). -/
theorem advanceSv_sound {m : Mach} {f : Fuses} (h : f.sound) : (advanceSv m f).sound := by
  obtain ⟨hsv, hslots, hleft⟩ := h
  unfold advanceSv
  split
  · exact ⟨Nat.max_le.mpr ⟨hsv, Nat.min_le_left _ _⟩, hslots, hleft⟩
  · exact ⟨hsv, hslots, hleft⟩

/-- The action and the argument of a fuse request (R80). -/
def fuseAction (c : List Byte) : Nat := le (((sectionsOf c).head?.map (·.bytes)).getD []) 8 1
def fuseArg (c : List Byte) : Nat := le (((sectionsOf c).head?.map (·.bytes)).getD []) 9 1

/-- A request to revoke a slot passes only where another customer slot stays unrevoked (R80). -/
theorem checkFuse_leaves_key {f : Fuses} {x : LoadSource} {c : List Byte} {m : Mach} (h : checkFuse f x c m = none)
    (hact : fuseAction c = 3) : ∃ k ∈ [1, 2, 3], k ≠ fuseArg c ∧ k ∉ f.revoked := by
  unfold checkFuse at h
  dsimp only at h
  obtain ⟨-, h⟩ := orElse_none h
  obtain ⟨-, h⟩ := orElse_none h
  obtain ⟨-, h⟩ := orElse_none h
  obtain ⟨-, h⟩ := orElse_none h
  obtain ⟨harg, -⟩ := orElse_none h
  replace harg := need_none harg
  rw [if_pos (show le _ 8 1 = 3 from hact)] at harg
  simp only [Bool.and_eq_true, List.any_eq_true] at harg
  obtain ⟨-, k, hk, hne, hrev⟩ := harg
  exact ⟨k, hk, by simpa [fuseArg] using hne, by simpa using hrev⟩

/-- A fuse request that passed keeps the fuses sound (R80). -/
theorem blowFuse_sound {f : Fuses} {x : LoadSource} {c : List Byte} {m : Mach} (h : f.sound) (hpass : checkFuse f x c m = none) :
    (blowFuse c f).sound := by
  have key := checkFuse_leaves_key hpass
  obtain ⟨hsv, hslots, hleft⟩ := h
  unfold blowFuse
  dsimp only
  split
  · exact ⟨hsv, hslots, hleft⟩
  · exact ⟨hsv, hslots, hleft⟩
  · next hact =>
    split
    · exact ⟨hsv, hslots, hleft⟩
    · next hnew =>
      obtain ⟨k, hk, hne, hrev⟩ := key hact
      have hslot : fuseArg c < 4 := Nat.lt_of_not_le fun hge => hnew (.inr hge)
      refine ⟨hsv, fun j hj => ?_, k, hk, fun hmem => ?_⟩
      · rcases List.mem_cons.mp hj with rfl | hj
        · exact hslot
        · exact hslots j hj
      · rcases List.mem_cons.mp hmem with e | hmem
        · exact hne e
        · exact hrev hmem
  · exact ⟨hsv, hslots, hleft⟩

/-- No command makes sound fuses unsound. -/
theorem exec_sound {c : Instr} {s t : State} (hs : s.fuses.sound) (h : exec c s = .next t) : t.fuses.sound := by
  by_cases hfirst : ∃ l, c = .firstTurnTick l
  · obtain ⟨l, rfl⟩ := hfirst
    rcases firstTurnTick_fuses h with e | e <;> rw [e]
    · exact hs
    · exact advanceSv_sound hs
  · by_cases hmbx : ∃ d e, c = .mbxReadComplete d e
    · obtain ⟨d, e, rfl⟩ := hmbx
      rcases mbxReadComplete_fuses_passed h with k | ⟨c, hcmd, hpass, k⟩ <;> rw [k]
      · exact hs
      · unfold mbxVerdict at hpass
        rw [hcmd] at hpass
        exact blowFuse_sound hs hpass
    · rw [exec_fuses_kept h (fun l e => hfirst ⟨l, e⟩) (fun d e k => hmbx ⟨d, e, k⟩)]
      exact hs

/-- Settles O6: the front command keeps sound fuses sound, and the idle step leaves them. -/
theorem soundFusesStaySound : Obligations.SoundFusesStaySound := by
  intro s t hs h
  unfold step at h
  split at h
  · cases h
    unfold State.idle
    split <;> exact hs
  · next rest _ => exact exec_sound (s := { s with pending := rest }) hs h

end Sys2Proof.Machine

/-!
PROOFS. The debug port and the boundary scan (R78, R79, R692).
-/

namespace Sys2Proof.Machine

/-- A command whose meaning is an effect on the part completes in a powered part with what the effect gives. -/
theorem completes_effect {c : Instr} {s : State} {f : Mach → Mach} {P : Mach → Prop} (o : Out) (hp : Powered s) (hc : exec c s = o)
    (ho : o = s.run f) (hP : P (f s.m)) : Completes c s P :=
  completes_run hp (hc.trans ho) hP

/-! ### The challenge and its answer (R78) -/

/-- Whether a response passes does not depend on the challenge that the loader holds. -/
theorem authOk_modLdr (f : Fuses) (g : Loader → Loader) (m : Mach) (c slot : Nat) (key : List Byte) (r sig : Nat) :
    authOk f (modLdr g m) c slot key r sig = authOk f m c slot key r sig := rfl

/-- A response that passes opens the session for its slot. -/
theorem debugAuth_passed {slot : Nat} {key : List Byte} {r sig c : Nat} {s : State} {P : Mach → Prop} (hp : Powered s)
    (hc : s.m.ldr.challenge = some c) (ha : authOk s.fuses s.m c slot key r sig = true)
    (hP : P (s.m |> modLdr (fun l => { l with challenge := none }) |> wrb Reg.PAT_STATUS_DEBUG_SESSION true
      |> modLdr (fun l => { l with sessionSlot := slot }))) :
    Completes (.debugAuthResponse slot key r sig) s P := by
  refine completes_effect (execDebugAuthResponse slot key r sig s) hp rfl rfl ?_
  simpa only [hc, authOk_modLdr, ha, if_true] using hP

/-- A response that does not pass is logged, and the hold starts. -/
theorem debugAuth_failed {slot : Nat} {key : List Byte} {r sig c : Nat} {s : State} {P : Mach → Prop} (hp : Powered s)
    (hc : s.m.ldr.challenge = some c) (ha : authOk s.fuses s.m c slot key r sig = false)
    (hP : P (s.m |> modLdr (fun l => { l with challenge := none }) |> debugRec
      |> modLdr (fun l => { l with hold := some (now s.m) }))) :
    Completes (.debugAuthResponse slot key r sig) s P := by
  refine completes_effect (execDebugAuthResponse slot key r sig s) hp rfl rfl ?_
  simp only [hc, authOk_modLdr, ha, Bool.false_eq_true, if_false]
  exact hP

/-- A failed attempt leaves a record, and no trace in a register that no record writes. -/
theorem debugRec_logged (m : Mach) :
    Logged 0x5C m (debugRec m) ∧ (∀ f : Fld, f.unlogged → rd (debugRec m) f = rd m f) ∧ (debugRec m).ldr = m.ldr := by
  have h : debugRec m = logErr { path := pathIsland (draw 8 m).2 0, source := 0x5C, detail := leBytes 4 (draw 8 m).1 } (draw 8 m).2 := rfl
  rw [h]
  exact ⟨logged_congr rfl rfl rfl (logged_logErr _ _), fun f hf => (rd_logErr hf _ _).trans (rd_draw 8 m f), logErr_ldr _ _⟩

/-- A hold that began 1 s ago is over. -/
theorem hold_over {t0 : Nat} {m : Mach} (hh : m.ldr.hold = some t0) (ht : t0 + 1000000000 ≤ now m) :
    m.ldr.hold.any (fun t => decide (t + 1000000000 ≤ now m)) = true := by
  rw [hh, Option.any_some]
  exact decide_eq_true ht

theorem debugHold_ends {s : State} (hp : Powered s) (h : s.m.ldr.hold.any (fun t => decide (t + 1000000000 ≤ now s.m)) = true) :
    Completes .debugRetryHoldExpiry s (fun t => t = { s.m with ldr := { s.m.ldr with hold := none } }) := by
  refine completes_effect (execDebugRetryHoldExpiry s) hp rfl rfl ?_
  rw [if_pos h]
  rfl

/-- A free value fits its width. -/
theorem draw_lt (w : Nat) (m : Mach) : (draw w m).1 < 2 ^ w := Nat.mod_lt _ (Nat.pow_pos (by decide))

/-- Settles O21: each command of the two ports by its meaning, the two that log or enter the safe state by the laws of those. -/
theorem debugPortAuthenticates : Obligations.DebugPortAuthenticates := by
  unfold Obligations.DebugPortAuthenticates
  refine ⟨fun s hp hh hi => ?_, fun slot key r sig c s hp hc => ⟨fun ha => ?_, fun ha => ?_⟩, fun t0 s hp hh ht => ?_, fun s hp => ?_,
    fun s hp => ?_, fun s hp => ⟨?_, ?_, ?_⟩⟩
  · refine completes_effect (execDebugChallengeRead s) hp rfl rfl ?_
    have hopen : ¬ (s.m.ldr.hold.isSome ∨ !s.m.saf.islandUp) := by simp [hh, hi]
    rw [if_neg hopen]
    exact ⟨rfl, rfl, _, draw_lt 384 s.m, rfl, rfl⟩
  · refine debugAuth_passed hp hc ha ⟨(rd_modLdr _ _ _).trans (rd_wr_same _ _ _), rfl, fun f hf => ?_, memKept_of_mem rfl⟩
    exact (rd_modLdr _ _ f).trans ((regsKept_wr f hf).trans (rd_modLdr _ _ f))
  · obtain ⟨hlog, hregs, hldr⟩ := debugRec_logged (modLdr (fun l => { l with challenge := none }) s.m)
    refine debugAuth_failed hp hc ha ⟨?_, logged_congr rfl rfl rfl (hlog.congr (modLdr_log _ _)), fun f hf => ?_⟩
    · rw [modLdr_ldr, hldr]
      rfl
    · exact (rd_modLdr _ _ f).trans (hregs f hf)
  · exact debugHold_ends hp (hold_over hh ht)
  · refine completes_effect (execDebugSessionClose s) hp rfl rfl ⟨(rd_modLdr _ _ _).trans (rd_wr_same _ _ _), fun f hf => ?_, memKept_of_mem rfl⟩
    exact (rd_modLdr _ _ f).trans (regsKept_wr f hf)
  · refine completes_effect (execJtagExtest s) hp rfl rfl ⟨(entered_enterSafe .extest s.m).congr rfl rfl, rfl, fun f hf => ?_⟩
    exact (rd_modLdr _ _ f).trans (rd_enterSafe hf _ _)
  · exact completes_effect (execJtagIdcode s) hp rfl rfl rfl
  · exact completes_effect (execJtagBypass s) hp rfl rfl rfl
  · exact completes_effect (execJtagSamplePreload s) hp rfl rfl ⟨rfl, rfl, _, rfl⟩

end Sys2Proof.Machine

/-!
PROOFS. The loader's shared operations: what an MSI-X signal, a reported failure and the end of a mailbox command change, and what the apply of
a base pattern shows (R55, R83, R85, R86).
-/

namespace Sys2Proof.Machine

/-! ### Conditional and named effects -/

/-- What an effect keeps, it keeps where it depends on a condition. -/
theorem whenB_keeps {β : Type} (g : Mach → β) (b : Bool) (f : Mach → Mach) (m : Mach) (h : g (f m) = g m) : g (whenB b f m) = g m := by
  cases b
  · rfl
  · exact h

/-! ### The signal of the mailbox (R86) -/

@[simp] theorem mbxSignal_regs (m : Mach) : (mbxSignal m).regs = m.regs := sendMsix_regs 0 0 m
@[simp] theorem mbxSignal_mem (m : Mach) : (mbxSignal m).mem = m.mem := sendMsix_mem 0 0 m
@[simp] theorem mbxSignal_ldr (m : Mach) : (mbxSignal m).ldr = m.ldr := sendMsix_ldr 0 0 m
@[simp] theorem mbxSignal_rd (m : Mach) (f : Fld) : rd (mbxSignal m) f = rd m f := rd_sendMsix 0 0 m f
@[simp] theorem mbxSignal_endpoint (m : Mach) : (mbxSignal m).endpoint = m.endpoint := by
  unfold mbxSignal sendMsix; dsimp only; split
  · split <;> rfl
  · rfl

/-- A signal that waits leaves Bus Master Enable as it was. -/
theorem busMaster_sendMsix (v vec o : Nat) (m : Mach) : busMaster (sendMsix v vec m) o = busMaster m o := by
  unfold sendMsix; dsimp only; split
  · split
    · rfl
    · unfold busMaster
      by_cases h : o - 1 = v
      · subst h; rw [show (modFunc (o - 1) _ m).funcs = mmod m.funcs (o - 1) _ from rfl, mget_mmod_same]
      · rw [show (modFunc v _ m).funcs = mmod m.funcs v _ from rfl, mget_mmod_other _ _ h]
  · rfl

@[simp] theorem mbxSignal_busMaster (m : Mach) (o : Nat) : busMaster (mbxSignal m) o = busMaster m o := busMaster_sendMsix 0 0 o m

/-! ### A failure is reported (R83) -/

/-- The fields in which a failure is reported. -/
def errorFields : List Fld := [Reg.PAT_ERROR_CODE, Reg.PAT_ERROR_SECTION, Reg.PAT_ERR_OFFSET, Reg.PAT_ERROR_COUNT]

theorem loadErr_ldr (x : LoadFail) (m : Mach) : (loadErr x m).ldr = m.ldr := rfl

theorem loadErr_regsKept (x : LoadFail) (m : Mach) : RegsKept errorFields m (loadErr x m) :=
  loadErr_kept x (RegsKept.refl _ m) fun _ h => h

/-- Every field but those of the report reads as before. -/
theorem rd_loadErr {f : Fld} (h : f.key ∉ errorFields.map Fld.key) (x : LoadFail) (m : Mach) : rd (loadErr x m) f = rd m f :=
  loadErr_regsKept x m f h

theorem rd_loadErr_code {x : LoadFail} (h : x.code < 256) (m : Mach) : rd (loadErr x m) Reg.PAT_ERROR_CODE = x.code := by
  unfold loadErr
  rw [rd_inc_other _ (by decide), rd_wr_other _ _ (by decide), rd_wr_other _ _ (by decide), rd_wr_same]
  exact Nat.mod_eq_of_lt h

/-! ### A mailbox command ends (R85, R86) -/

theorem mbxEnd_mem (code : Nat) (m : Mach) : (mbxEnd code m).mem = m.mem := by unfold mbxEnd; rw [mbxSignal_mem]; rfl
theorem mbxEnd_endpoint (code : Nat) (m : Mach) : (mbxEnd code m).endpoint = m.endpoint := by unfold mbxEnd; rw [mbxSignal_endpoint]; rfl
theorem mbxEnd_ldr (code : Nat) (m : Mach) : (mbxEnd code m).ldr = { m.ldr with cmd := 0, store := [] } := by
  unfold mbxEnd; rw [mbxSignal_ldr]; rfl

theorem rd_mbxEnd_state (code : Nat) (m : Mach) : rd (mbxEnd code m) Reg.PAT_MBX_STATUS_STATE = if code = 0 then 4 else 5 := by
  unfold mbxEnd
  rw [mbxSignal_rd, rd_modLdr, rd_wr_other _ _ (by decide), rd_wr_same]
  split <;> rfl

theorem rd_mbxEnd_result {code : Nat} (h : code < 256) (m : Mach) : rd (mbxEnd code m) Reg.PAT_MBX_STATUS_RESULT = code := by
  unfold mbxEnd
  rw [mbxSignal_rd, rd_modLdr, rd_wr_same]
  exact Nat.mod_eq_of_lt h

/-- The fields that the end of a command writes. -/
def endFields : List Fld := [Reg.PAT_MBX_STATUS_STATE, Reg.PAT_MBX_STATUS_RESULT]

/-- The end of a command writes its state and its result. -/
theorem mbxEnd_kept {fs : List Fld} (hfs : ∀ f ∈ endFields, f ∈ fs) (code : Nat) (m : Mach) : RegsKept fs m (mbxEnd code m) := by
  simp only [endFields, List.forall_mem_cons] at hfs
  obtain ⟨hstate, hresult, -⟩ := hfs
  exact RegsKept.of_regs (mbxSignal_regs _) (((RegsKept.refl fs m).put _ _ hstate).put _ _ hresult)

theorem rd_mbxEnd {f : Fld} (h : f.key ∉ endFields.map Fld.key) (code : Nat) (m : Mach) : rd (mbxEnd code m) f = rd m f :=
  mbxEnd_kept (fun _ hf => hf) code m f h

theorem mbxFail_mem (x : LoadFail) (m : Mach) : (mbxFail x m).mem = m.mem := mbxEnd_mem _ _

theorem mbxFail_ldr (x : LoadFail) (m : Mach) : (mbxFail x m).ldr = { m.ldr with cmd := 0, store := [] } := by
  unfold mbxFail; rw [mbxEnd_ldr, loadErr_ldr]

/-- A command that fails shows its code in its result and in the report. -/
theorem mbxFail_shows {x : LoadFail} (h0 : x.code ≠ 0) (h : x.code < 256) (m : Mach) :
    rd (mbxFail x m) Reg.PAT_MBX_STATUS_STATE = 5 ∧ rd (mbxFail x m) Reg.PAT_MBX_STATUS_RESULT = x.code ∧
      rd (mbxFail x m) Reg.PAT_ERROR_CODE = x.code := by
  unfold mbxFail
  exact ⟨by rw [rd_mbxEnd_state, if_neg h0], rd_mbxEnd_result h _, by rw [rd_mbxEnd (by decide), rd_loadErr_code h]⟩

theorem mbxFail_kept (x : LoadFail) (m : Mach) : RegsKept (endFields ++ errorFields) m (mbxFail x m) :=
  (loadErr_kept x (RegsKept.refl _ m) fun _ h => List.mem_append_right _ h).trans (mbxEnd_kept (fun _ h => List.mem_append_left _ h) _ _)

theorem mbxStop_mem (x : LoadFail) (m : Mach) : (mbxStop x m).mem = m.mem := by
  unfold mbxStop
  rw [mbxFail_mem, modLdr_mem, whenB_keeps Mach.mem _ _ _ (modLdr_mem _ _), whenB_keeps Mach.mem _ _ _ (wr_mem _ _ _),
    whenB_keeps Mach.mem _ _ _ (wr_mem _ _ _)]

/-! ### What the apply of a base pattern shows (R55) -/

/-- The last act of an apply: the status of the pattern, and the endpoint. -/
def showPattern (source : Nat) (c : List Byte) (first : Bool) (us : Nat) (m : Mach) : Mach :=
  m |> wr Reg.PAT_STATUS_STATE 4 |> wr Reg.PAT_STATUS_SOURCE source |> wr Reg.PAT_STATUS_KEY_SLOT (if keySlot c = 0xFF then 0 else keySlot c)
    |> wrb Reg.PAT_STATUS_VENDOR_KEY (keySlot c == 0xFF) |> wr Reg.PAT_PATTERN_ID (hPatternId c) |> wr Reg.PAT_SV_PATTERN (hSv c)
    |> whenB first (wr Reg.PAT_BOOT_APPLY_US us) |> refreshSafe |> (fun m => { m with endpoint := true })

theorem applyBase_shows (source : Nat) (c : List Byte) (nvme : Bool) (m : Mach) :
    ∃ first us n, applyBase source c nvme m = showPattern source c first us n := ⟨_, _, _, rfl⟩

/-- A field that neither the safe state nor the time to apply writes, behind the last act of an apply. -/
theorem rd_showPattern {f : Fld} (h : f.beyond) (hus : f.key ≠ Reg.PAT_BOOT_APPLY_US.key) (source : Nat) (c : List Byte) (first : Bool) (us : Nat)
    (m : Mach) : rd (showPattern source c first us m) f =
      rd (m |> wr Reg.PAT_STATUS_STATE 4 |> wr Reg.PAT_STATUS_SOURCE source |> wr Reg.PAT_STATUS_KEY_SLOT (if keySlot c = 0xFF then 0 else keySlot c)
        |> wrb Reg.PAT_STATUS_VENDOR_KEY (keySlot c == 0xFF) |> wr Reg.PAT_PATTERN_ID (hPatternId c) |> wr Reg.PAT_SV_PATTERN (hSv c)) f := by
  unfold showPattern
  refine Eq.trans (rd_congr (m := refreshSafe _) rfl f) ?_
  rw [rd_refreshSafe h, whenB_keeps (fun m => rd m f) _ _ _ (rd_wr_other _ _ hus)]

theorem le_lt (bs : List Byte) (off n : Nat) : le bs off n < 256 ^ n := by
  unfold le
  refine Nat.lt_of_lt_of_le (leNat_lt _) (Nat.pow_le_pow_right (by decide) ?_)
  rw [List.length_take]
  exact Nat.min_le_left _ _

/-- An applied base pattern is shown with its source and its identifier, and the endpoint is up. -/
theorem applyBase_status {source : Nat} (hs : source < 4) (c : List Byte) (nvme : Bool) (m : Mach) :
    rd (applyBase source c nvme m) Reg.PAT_STATUS_STATE = 4 ∧ rd (applyBase source c nvme m) Reg.PAT_STATUS_SOURCE = source ∧
      rd (applyBase source c nvme m) Reg.PAT_PATTERN_ID = hPatternId c ∧ (applyBase source c nvme m).endpoint = true := by
  obtain ⟨first, us, n, h⟩ := applyBase_shows source c nvme m
  rw [h]
  refine ⟨?_, ?_, ?_, rfl⟩
  · rw [rd_showPattern (by decide) (by decide), rd_wr_other _ _ (by decide), rd_wr_other _ _ (by decide), rd_wrb_other _ _ (by decide),
      rd_wr_other _ _ (by decide), rd_wr_other _ _ (by decide), rd_wr_same]
    rfl
  · rw [rd_showPattern (by decide) (by decide), rd_wr_other _ _ (by decide), rd_wr_other _ _ (by decide), rd_wrb_other _ _ (by decide),
      rd_wr_other _ _ (by decide), rd_wr_same]
    exact Nat.mod_eq_of_lt hs
  · rw [rd_showPattern (by decide) (by decide), rd_wr_other _ _ (by decide), rd_wr_same]
    exact Nat.mod_eq_of_lt (le_lt c 0x20 8)

end Sys2Proof.Machine

/-!
PROOFS. The mailbox: its commands begin (R69, R74, R80, R85 to R90), and its containers take effect (R70, R71, R80, R86 to R88).
-/

namespace Sys2Proof.Machine

/-! ### A command begins (R74, R85) -/

/-- A command that its writer may give is what the mailbox does with its code. -/
theorem mailbox_completes {who : Requester} {n : Nat} {c : Instr} {s : State} {P : Mach → Prop} (hp : Powered s)
    (hw : MayWrite s.m who Reg.PAT_MBX_CMD_CMD .pfMi) (hc : exec c s = mbxWrite who n s) (hP : P (mbxCommand n s.m)) : Completes c s P := by
  refine completes_effect (mbxWrite who n s) hp hc rfl ?_
  rw [hw.ok]
  exact hP

/-- No command runs where the mailbox's state is none of 1, 2 and 3. -/
theorem mbxBusy_idle {m : Mach} (h : rd m Reg.PAT_MBX_STATUS_STATE ∉ [1, 2, 3]) : mbxBusy m = false := by
  simp only [List.mem_cons, List.not_mem_nil, or_false, not_or] at h
  obtain ⟨h1, h2, h3⟩ := h
  have hout : ¬ (1 ≤ mbxState m ∧ mbxState m ≤ 3) := by unfold mbxState; omega
  unfold mbxBusy
  rw [← Bool.decide_and]
  exact decide_eq_false hout

/-- A full load, an alteration, a store or a fuse request that finds its conditions is not refused (R74, R85, R90). -/
theorem mbxRefusal_none {m : Mach} {n : Nat} (hn : n < 8)
    (h1 : n = 1 → rd m Reg.PAT_STATUS_STATE ∈ [6, 7] ∧ rd m Reg.PAT_BOOT_BOOTSEL < 2) (h2 : n = 2 → m.ldr.alter ≠ .resetting)
    (h3 : n = 3 → m.ldr.alter = .none ∧ rd m Reg.PAT_STATUS_STATE ∉ [1, 2, 3, 4]) : mbxRefusal m n = none := by
  unfold mbxRefusal
  dsimp only
  split
  · obtain ⟨hst, hsel⟩ := h1 rfl
    exact if_pos ⟨by simpa using hst, hsel⟩
  · exact if_neg (h2 rfl)
  · obtain ⟨halter, hst⟩ := h3 rfl
    simp only [List.mem_cons, List.not_mem_nil, or_false, not_or] at hst
    have hload : loading m = false := by
      unfold loading
      rw [← Bool.decide_and]
      exact decide_eq_false (by omega)
    exact if_neg (by simp [halter, hload])
  · exact if_neg (by omega)

/-- An undefined code is refused (R90). -/
theorem mbxRefusal_undefined {n : Nat} (h : 8 ≤ n) (m : Mach) : mbxRefusal m n = some Ld.badCommand := by
  unfold mbxRefusal
  dsimp only
  split
  · omega
  · omega
  · omega
  · exact if_pos h

/-- What the mailbox holds of a command that it has accepted. -/
def mbxBegun (n : Nat) (m : Mach) : Mach :=
  m |> wr Reg.PAT_MBX_STATUS_STATE 1
    |> modLdr (fun l => { l with cmd := n, cmdLen := rd m Reg.PAT_MBX_LEN, prev := rd m Reg.PAT_STATUS_STATE,
                                 alter := if n = 3 then .staging else l.alter })
    |> whenB (n == 1) (wr Reg.PAT_STATUS_STATE 1) |> mbxSignal

theorem mbxBegun_ldr (n : Nat) (m : Mach) : (mbxBegun n m).ldr = { m.ldr with
    cmd := n, cmdLen := rd m Reg.PAT_MBX_LEN, prev := rd m Reg.PAT_STATUS_STATE, alter := if n = 3 then .staging else m.ldr.alter } := by
  unfold mbxBegun
  rw [mbxSignal_ldr, whenB_keeps Mach.ldr _ _ _ (wr_ldr _ _ _)]
  rfl

theorem mbxBegun_mem (n : Nat) (m : Mach) : (mbxBegun n m).mem = m.mem := by
  unfold mbxBegun
  rw [mbxSignal_mem, whenB_keeps Mach.mem _ _ _ (wr_mem _ _ _)]
  rfl

theorem mbxBegun_busMaster (n o : Nat) (m : Mach) : busMaster (mbxBegun n m) o = busMaster m o := by
  unfold mbxBegun
  rw [mbxSignal_busMaster, whenB_keeps (busMaster · o) _ _ _ rfl]
  rfl

theorem rd_mbxBegun_state (n : Nat) (m : Mach) : rd (mbxBegun n m) Reg.PAT_MBX_STATUS_STATE = 1 := by
  unfold mbxBegun
  rw [mbxSignal_rd, whenB_keeps (fun m => rd m Reg.PAT_MBX_STATUS_STATE) _ _ _ (rd_wr_other _ _ (by decide)), rd_modLdr, rd_wr_same]
  rfl

/-- LOAD_FULL shows that its container is being read; every other command leaves the pattern's status. -/
theorem rd_mbxBegun_status (n : Nat) (m : Mach) :
    rd (mbxBegun n m) Reg.PAT_STATUS_STATE = if n = 1 then 1 else rd m Reg.PAT_STATUS_STATE := by
  unfold mbxBegun
  rw [mbxSignal_rd]
  by_cases h : n = 1
  · subst h
    exact (rd_wr_same _ _ _).trans rfl
  · rw [if_neg h, show (n == 1) = false from beq_false_of_ne h, whenB_false, rd_modLdr, rd_wr_other _ _ (by decide)]

theorem mbxBegun_kept (n : Nat) (m : Mach) : RegsKept [Reg.PAT_MBX_STATUS_STATE, Reg.PAT_STATUS_STATE] m (mbxBegun n m) := by
  have hstate := (RegsKept.refl [Reg.PAT_MBX_STATUS_STATE, Reg.PAT_STATUS_STATE] m).put Reg.PAT_MBX_STATUS_STATE 1 (by simp)
  refine RegsKept.of_regs (mbxSignal_regs _) (RegsKept.when (hstate.trans (modLdr_kept _ _ _)) fun _ => ?_)
  exact (RegsKept.refl _ _).put _ _ (by simp)

/-- A command that is not refused begins to read, where its length and Bus Master Enable let it. -/
theorem mbxCommand_begins {n : Nat} {m : Mach} (h0 : n ≠ 0) (h4 : n ≠ 4) (hidle : rd m Reg.PAT_MBX_STATUS_STATE ∉ [1, 2, 3])
    (hok : mbxRefusal m n = none) (hlen : rd m Reg.PAT_MBX_LEN % 64 = 0) (hbm : busMaster m 1 = true) : mbxCommand n m = mbxBegun n m := by
  have hgo : ¬ ((mbxBegun n m).ldr.cmdLen % 64 ≠ 0 ∨ !busMaster (mbxBegun n m) 1) := by
    rw [mbxBegun_ldr, mbxBegun_busMaster, hbm]
    simp [hlen]
  unfold mbxCommand
  rw [if_neg h0, if_neg h4, mbxBusy_idle hidle, if_neg Bool.false_ne_true, hok]
  exact if_neg hgo

/-- CANCEL_ALTER discards a pending alteration, and ends where no other command runs. -/
theorem cancelAlter_pending {m : Mach} (hidle : rd m Reg.PAT_MBX_STATUS_STATE ∉ [1, 2, 3]) (h : m.ldr.alter = .pending) :
    mbxCommand 4 m =
      (m |> modLdr (fun l => { l with alter := .none, altSecs := [], altNamed := [] }) |> wrb Reg.PAT_STATUS_ALTER_PENDING false |> mbxEnd 0) := by
  have hbusy : mbxBusy (m |> modLdr (fun l => { l with alter := .none, altSecs := [], altNamed := [] })
      |> wrb Reg.PAT_STATUS_ALTER_PENDING false) = false :=
    mbxBusy_idle (by rw [rd_wrb_other _ _ (by decide), rd_modLdr]; exact hidle)
  unfold mbxCommand cancelAlter
  rw [if_neg (by decide), if_pos rfl]
  dsimp only
  rw [if_pos h, hbusy, if_neg Bool.false_ne_true]

theorem mbxCommand_undefined {n : Nat} {m : Mach} (hn : 8 ≤ n) (hidle : rd m Reg.PAT_MBX_STATUS_STATE ∉ [1, 2, 3]) :
    mbxCommand n m = mbxFail ⟨Ld.badCommand, 0, 0xFF⟩ m := by
  unfold mbxCommand
  rw [if_neg (by omega), if_neg (by omega), mbxBusy_idle hidle, if_neg Bool.false_ne_true, mbxRefusal_undefined hn]

/-- Settles O17: the six commands that read a container, CANCEL_ALTER, and the undefined codes. -/
theorem mailboxCommandsBegin : Obligations.MailboxCommandsBegin := by
  unfold Obligations.MailboxCommandsBegin
  refine ⟨fun who n c s hp hw hmem hidle hlen hbm h1 h2 h3 => ?_, fun who s hp hw hidle halter => ?_, fun who cmd s hp hw hidle => ?_⟩
  · have hcode : exec c s = mbxWrite who n s ∧ n ≠ 0 ∧ n ≠ 4 ∧ n < 8 := by
      simp only [List.mem_cons, List.not_mem_nil, or_false, Prod.mk.injEq] at hmem
      rcases hmem with ⟨rfl, rfl⟩ | ⟨rfl, rfl⟩ | ⟨rfl, rfl⟩ | ⟨rfl, rfl⟩ | ⟨rfl, rfl⟩ | ⟨rfl, rfl⟩ <;>
        exact ⟨rfl, by decide, by decide, by decide⟩
    obtain ⟨hexec, hn0, hn4, hn8⟩ := hcode
    refine mailbox_completes hp hw hexec ?_
    rw [mbxCommand_begins hn0 hn4 hidle (mbxRefusal_none hn8 h1 h2 h3) hlen hbm]
    refine ⟨rd_mbxBegun_state n s.m, ?_, ?_, ?_, rd_mbxBegun_status n s.m, mbxBegun_kept n s.m, memKept_of_mem (mbxBegun_mem n s.m)⟩ <;>
      rw [mbxBegun_ldr]
  · refine mailbox_completes (n := 4) hp hw rfl ?_
    rw [cancelAlter_pending hidle halter]
    refine ⟨by rw [mbxEnd_ldr]; rfl, ?_, rd_mbxEnd_state 0 _, rd_mbxEnd_result (by decide) _, ?_, memKept_of_mem (mbxEnd_mem 0 _)⟩
    · rw [rd_mbxEnd (by decide)]
      exact rd_wr_same _ _ _
    · refine RegsKept.trans ?_ (mbxEnd_kept (by simp [endFields]) 0 _)
      exact (modLdr_kept _ _ _).putb _ _ (by simp)
  · refine mailbox_completes (n := 8 + cmd) hp hw rfl ?_
    rw [mbxCommand_undefined (by omega) hidle]
    obtain ⟨hstate, hresult, hcode⟩ := mbxFail_shows (x := ⟨Ld.badCommand, 0, 0xFF⟩) (by decide) (by decide) s.m
    exact ⟨hstate, hresult, hcode, by rw [mbxFail_ldr], memKept_of_mem (mbxFail_mem _ _), mbxFail_kept _ _⟩

end Sys2Proof.Machine

/-!
PROOFS. Containers that have been read: those of mailbox commands (R70, R71, R80, R86 to R88) and those of the flash (R46, R47, R52, R53).
-/

namespace Sys2Proof.Machine

/-! ### What a mailbox read returns -/

/-- Bytes of the wanted number are taken as they are. -/
theorem padTo_length (bs : List Byte) : padTo bs.length bs = bs := by
  unfold padTo slice
  simp [zeros]

theorem mbxBytes_some {m : Mach} {c : List Byte} (hbm : busMaster m 1 = true) (hlen : c.length = m.ldr.cmdLen) :
    mbxBytes m (some c) = some c := by
  unfold mbxBytes
  rw [if_pos hbm, Option.map_some, ← hlen, padTo_length]

/-- A read that failed returns nothing. -/
theorem mbxBytes_none (m : Mach) : mbxBytes m none = none := by
  unfold mbxBytes; split <;> rfl

/-- The fuses behind a container that has passed: those of a fuse request are blown (R80). -/
theorem mbxFuses_passed {f : Fuses} {nvme : Bool} {c : List Byte} {m : Mach} (hb : mbxBytes m (some c) = some c)
    (hv : mbxVerdict f nvme c m = none) : mbxFuses (some c) nvme f m = if m.ldr.cmd = 7 then blowFuse c f else f := by
  unfold mbxFuses
  rw [hb]
  simp [hv]

theorem mbxReads_of {m : Mach} (hp : m.powered = true) (hst : rd m Reg.PAT_MBX_STATUS_STATE = 1) (hr : m.ldr.reload = false) :
    mbxReads m = true := by
  unfold mbxReads mbxState; simp [hp, hst, hr]

/-- A container that has passed does what its command says, with the fuses that its request blows. -/
theorem exec_mbxReadComplete_passed {c : List Byte} {env : LoadEnv} {s : State} (hp : Powered s) (hst : rd s.m Reg.PAT_MBX_STATUS_STATE = 1)
    (hr : s.m.ldr.reload = false) (hb : mbxBytes s.m (some c) = some c) (hv : mbxVerdict s.fuses env.nvmePresent c s.m = none) :
    let f := if s.m.ldr.cmd = 7 then blowFuse c s.fuses else s.fuses
    exec (.mbxReadComplete (some c) env) s = .next { s with fuses := f, m := mbxPass f env.nvmePresent c s.m } := by
  change execMbxReadComplete (some c) env s = _
  unfold execMbxReadComplete
  rw [if_neg (by simp [hp, mbxReads_of hp hst hr])]
  simp only [mbxFuses_passed hb hv, hb, hv]

/-- Of every command but a fuse request, the container leaves the fuses. -/
theorem mbxReadComplete_completes {c : List Byte} {env : LoadEnv} {s : State} {P : Mach → Prop} (hp : Powered s)
    (hst : rd s.m Reg.PAT_MBX_STATUS_STATE = 1) (hr : s.m.ldr.reload = false) (hb : mbxBytes s.m (some c) = some c)
    (hv : mbxVerdict s.fuses env.nvmePresent c s.m = none) (hcmd : s.m.ldr.cmd ≠ 7) (hP : P (mbxPass s.fuses env.nvmePresent c s.m)) :
    Completes (.mbxReadComplete (some c) env) s P := by
  have h := exec_mbxReadComplete_passed hp hst hr hb hv
  simp only [if_neg hcmd] at h
  exact ⟨_, h, rfl, rfl, hP⟩

/-- A read that failed stops the command (R86). -/
theorem mbxReadComplete_failed {env : LoadEnv} {s : State} {P : Mach → Prop} (hp : Powered s) (hst : rd s.m Reg.PAT_MBX_STATUS_STATE = 1)
    (hr : s.m.ldr.reload = false) (hP : P (mbxStop ⟨Ld.mbxIo, 0, 0xFF⟩ s.m)) : Completes (.mbxReadComplete none env) s P := by
  have h : exec (.mbxReadComplete none env) s = .next { s with m := mbxStop ⟨Ld.mbxIo, 0, 0xFF⟩ s.m } := by
    change execMbxReadComplete none env s = _
    unfold execMbxReadComplete mbxFuses
    rw [if_neg (by simp [hp, mbxReads_of hp hst hr])]
    simp only [mbxBytes_none]
  exact ⟨_, h, rfl, rfl, hP⟩

/-! ### What a container that has passed does -/

theorem mbxPass_alter {m : Mach} (h : m.ldr.cmd = 3) (f : Fuses) (nvme : Bool) (c : List Byte) : mbxPass f nvme c m = stageAlter c m := by
  unfold mbxPass; simp only [h]

theorem mbxPass_fuse {m : Mach} (h : m.ldr.cmd = 7) (f : Fuses) (nvme : Bool) (c : List Byte) :
    mbxPass f nvme c m = mbxEnd 0 (showRevoked f m) := by
  unfold mbxPass; simp only [h]

theorem mbxPass_store {m : Mach} (h : m.ldr.cmd = 5 ∨ m.ldr.cmd = 6) (f : Fuses) (nvme : Bool) (c : List Byte) :
    mbxPass f nvme c m = beginStore c m := by
  unfold mbxPass; rcases h with h | h <;> simp only [h]

/-- Exactly the bytes stored have changed where the ECC words are whole, whatever happens beside memory. -/
theorem stored_of_writeMem {a : Nat} {bs : List Byte} {m n t : Mach} (hc : Clean m a bs.length) (hn : n.mem = (writeMem a bs m).mem)
    (ht : t.mem = n.mem) : Stored a bs m t := fun x => by
  rw [← rb_writeMem a bs m hc.1 x]
  unfold rb
  rw [ht, hn]

/-- A staged alteration stands in the staging area, and is pending (R70, R71). -/
theorem stageAlter_pending {c : List Byte} {m : Mach} (h : Clean m (stagingBase m) c.length) :
    Stored (stagingBase m) c m (stageAlter c m) ∧ (stageAlter c m).ldr.alter = .pending ∧ (stageAlter c m).ldr.altSecs = sectionsOf c ∧
      rd (stageAlter c m) Reg.PAT_STATUS_ALTER_PENDING = 1 ∧ rd (stageAlter c m) Reg.PAT_MBX_STATUS_STATE = 4 ∧
      RegsKept [Reg.PAT_STATUS_ALTER_PENDING, Reg.PAT_MBX_STATUS_STATE, Reg.PAT_MBX_STATUS_RESULT] m (stageAlter c m) := by
  unfold stageAlter
  dsimp only
  refine ⟨stored_of_writeMem h rfl (mbxEnd_mem 0 _), by rw [mbxEnd_ldr]; rfl, by rw [mbxEnd_ldr]; rfl, ?_, rd_mbxEnd_state 0 _, ?_⟩
  · rw [rd_mbxEnd (by decide)]
    exact rd_wr_same _ _ _
  · refine RegsKept.trans ?_ (mbxEnd_kept (by simp [endFields]) 0 _)
    exact ((RegsKept.of_regs (writeMem_regs _ _ _) (RegsKept.refl _ _)).trans (modLdr_kept _ _ _)).putb _ _ (by simp)

/-- A store begins with the first flash operation of its copy (R88). -/
theorem beginStore_starts (c : List Byte) (m : Mach) :
    rd (beginStore c m) Reg.PAT_MBX_STATUS_STATE = 3 ∧ (beginStore c m).ldr.store = c ∧
      (beginStore c m).out = .flashOp (m.ldr.cmd - 4) :: m.out ∧ (beginStore c m).mem = m.mem := by
  unfold beginStore
  refine ⟨?_, rfl, rfl, rfl⟩
  rw [rd_emit, rd_modLdr, rd_wrb_other _ _ (by decide), rd_wr_same]
  rfl

/-- Behind an apply the command ends, or waits for its blobs; the pattern's status stays (R61). -/
theorem endApply_keeps (m : Mach) :
    (∀ f : Fld, f.key ∉ endFields.map Fld.key → rd (endApply m) f = rd m f) ∧ (endApply m).endpoint = m.endpoint ∧ (endApply m).mem = m.mem := by
  unfold endApply
  split
  · refine ⟨fun f hf => rd_wr_other _ _ fun e => hf ?_, rfl, rfl⟩
    rw [e]
    exact List.mem_map_of_mem (List.mem_cons_self ..)
  · exact ⟨fun f hf => rd_mbxEnd hf 0 m, mbxEnd_endpoint 0 m, mbxEnd_mem 0 m⟩

/-! ### Commands that stop, flash operations -/

/-- A command that stops shows its code as one that fails. -/
theorem mbxStop_shows {x : LoadFail} (h0 : x.code ≠ 0) (h : x.code < 256) (m : Mach) :
    rd (mbxStop x m) Reg.PAT_MBX_STATUS_STATE = 5 ∧ rd (mbxStop x m) Reg.PAT_MBX_STATUS_RESULT = x.code ∧
      rd (mbxStop x m) Reg.PAT_ERROR_CODE = x.code := mbxFail_shows h0 h _

/-- A STORE whose operation has ended goes on, or ends, or fails (R88). -/
theorem flashOperation_completes {b : Option (List Byte)} {s : State} {P : Mach → Prop} (hp : Powered s)
    (hst : rd s.m Reg.PAT_MBX_STATUS_STATE = 3)
    (hP : P (match b with
      | none => emit (.flashOp (s.m.ldr.cmd - 4)) s.m
      | some b => if b = s.m.ldr.store then mbxEnd 0 s.m else mbxFail ⟨Ld.flashIo, 0, 0xFF⟩ s.m)) :
    Completes (.flashOperationComplete b) s P := by
  refine completes_effect (execFlashOperationComplete b s) hp rfl rfl ?_
  rw [if_neg (by unfold mbxState; omega)]
  cases b <;> exact hP

/-- The second read of a RELOAD_FULL that passes applies the pattern (R87). -/
theorem reloadSecondRead_completes {c : List Byte} {env : LoadEnv} {s : State} {P : Mach → Prop} (hp : Powered s)
    (hst : rd s.m Reg.PAT_MBX_STATUS_STATE = 1) (hr : s.m.ldr.reload = true) (hb : mbxBytes s.m (some c) = some c)
    (hv : mbxVerdict s.fuses env.nvmePresent c s.m = none) (hP : P (endApply (applyBase 3 c env.nvmePresent s.m))) :
    Completes (.reloadSecondReadComplete (some c) env) s P := by
  refine completes_effect (execReloadSecondReadComplete (some c) env s) hp rfl rfl ?_
  rw [if_neg (by simp [mbxState, hst, hr])]
  simp only [hb, hv]
  exact hP

/-- Settles O18: the read that fails, the container that passes by its command, the flash operations, and RELOAD_FULL's second read. -/
theorem mailboxContainersTakeEffect : Obligations.MailboxContainersTakeEffect := by
  unfold Obligations.MailboxContainersTakeEffect
  refine ⟨fun env s hp hst hr => ?_, fun c env s hp hst hr hbm hlen hv => ⟨fun hcmd hclean => ?_, fun hcmd => ?_, fun hcmd => ?_⟩,
    fun s hp hst => ⟨?_, ?_, ?_⟩, fun c env s hp hst hr hbm hlen hv => ?_⟩
  · obtain ⟨hstate, hresult, hcode⟩ := mbxStop_shows (x := ⟨Ld.mbxIo, 0, 0xFF⟩) (by decide) (by decide) s.m
    exact mbxReadComplete_failed hp hst hr ⟨hstate, hresult, hcode, memKept_of_mem (mbxStop_mem _ _)⟩
  · refine mbxReadComplete_completes hp hst hr (mbxBytes_some hbm hlen) hv (by omega) ?_
    rw [mbxPass_alter hcmd]
    exact stageAlter_pending hclean
  · refine mbxReadComplete_completes hp hst hr (mbxBytes_some hbm hlen) hv (by omega) ?_
    rw [mbxPass_store hcmd]
    obtain ⟨hstate, hstore, hout, hmem⟩ := beginStore_starts c s.m
    exact ⟨hstate, hstore, hout, memKept_of_mem hmem⟩
  · have h := exec_mbxReadComplete_passed hp hst hr (mbxBytes_some hbm hlen) hv
    simp only [if_pos hcmd, mbxPass_fuse hcmd] at h
    exact ⟨_, h, rfl, rfl, rd_mbxEnd_state 0 _, memKept_of_mem (mbxEnd_mem 0 _)⟩
  · exact flashOperation_completes hp hst rfl
  · refine flashOperation_completes hp hst ?_
    dsimp only
    rw [if_pos rfl]
    exact ⟨rd_mbxEnd_state 0 _, rd_mbxEnd_result (by decide) _, mbxEnd_kept (fun _ h => h) 0 _⟩
  · refine completes_effect (execFlashOperationTimeout s) hp rfl rfl ?_
    rw [if_pos (by exact hst)]
    obtain ⟨hstate, hresult, -⟩ := mbxFail_shows (x := ⟨Ld.flashIo, 0, 0xFF⟩) (by decide) (by decide) s.m
    exact ⟨hstate, hresult⟩
  · refine reloadSecondRead_completes hp hst hr (mbxBytes_some hbm hlen) hv ?_
    obtain ⟨hkept, hep, -⟩ := endApply_keeps (applyBase 3 c env.nvmePresent s.m)
    rw [hkept _ (by decide), hkept _ (by decide), hkept _ (by decide), hep]
    exact applyBase_status (by decide) c _ s.m

/-! ### Flash copies (R46, R47, R52, R83) -/

/-- The copy being read fails with a code: the report, and what comes behind the primary copy. -/
theorem copyFails_primary {x : LoadFail} {m : Mach} (hx : x.code < 256) (h : m.ldr.copy = 1) :
    let t := copyFails x m
    rd t Reg.PAT_ERROR_CODE = x.code ∧ rd t Reg.PAT_BOOT_PRIMARY_FAILED = 1 ∧ t.ldr.copy = 2 ∧ rd t Reg.PAT_STATUS_STATE = 1 ∧ MemKept m t := by
  have ht : copyFails x m = (loadErr x m |> wrb Reg.PAT_BOOT_PRIMARY_FAILED true |> modLdr (fun l => { l with copy := 2 })
      |> wr Reg.PAT_STATUS_STATE 1) := by
    unfold copyFails
    exact if_pos h
  intro t
  rw [show t = _ from ht]
  refine ⟨?_, ?_, rfl, rd_wr_same _ _ _, memKept_of_mem rfl⟩
  · rw [rd_wr_other _ _ (by decide), rd_modLdr, rd_wrb_other _ _ (by decide), rd_loadErr_code hx]
  · rw [rd_wr_other _ _ (by decide), rd_modLdr]
    exact rd_wr_same _ _ _

theorem rd_awaitMailbox (m : Mach) (f : Fld) : rd (awaitMailbox m) f = rd (wr Reg.PAT_STATUS_STATE 7 m) f := rd_congr rfl f

/-- Behind the secondary copy the loader waits for the mailbox, or stands still. -/
theorem copyFails_secondary {x : LoadFail} {m : Mach} (hx : x.code < 256) (h : m.ldr.copy = 2) :
    let t := copyFails x m
    rd t Reg.PAT_ERROR_CODE = x.code ∧ rd t Reg.PAT_BOOT_SECONDARY_FAILED = 1 ∧ t.ldr.copy = 0 ∧
      rd t Reg.PAT_STATUS_STATE = (if rd m Reg.PAT_BOOT_BOOTSEL = 0 then 7 else 6) ∧ MemKept m t := by
  obtain ⟨n, hn⟩ : ∃ n, n = (loadErr x m |> wrb Reg.PAT_BOOT_SECONDARY_FAILED true |> modLdr (fun l => { l with copy := 0 })) := ⟨_, rfl⟩
  have hcode : rd n Reg.PAT_ERROR_CODE = x.code := by
    rw [hn, rd_modLdr, rd_wrb_other _ _ (by decide), rd_loadErr_code hx]
  have hsel : rd n Reg.PAT_BOOT_BOOTSEL = rd m Reg.PAT_BOOT_BOOTSEL := by
    rw [hn, rd_modLdr, rd_wrb_other _ _ (by decide), rd_loadErr (by decide)]
  have hfailed : rd n Reg.PAT_BOOT_SECONDARY_FAILED = 1 := by
    rw [hn, rd_modLdr]
    exact rd_wr_same _ _ _
  have hcopy : n.ldr.copy = 0 := by rw [hn]; rfl
  have hmem : n.mem = m.mem := by rw [hn]; rfl
  have ht : copyFails x m = if rd n Reg.PAT_BOOT_BOOTSEL = 0 then awaitMailbox n else wr Reg.PAT_STATUS_STATE 6 n := by
    unfold copyFails
    dsimp only
    rw [if_neg (by rw [loadErr_ldr, h]; decide), hn]
    rfl
  intro t
  rw [show t = _ from ht, hsel]
  split
  · refine ⟨?_, ?_, hcopy, (rd_awaitMailbox n _).trans (rd_wr_same _ _ _), memKept_of_mem hmem⟩
    · rw [rd_awaitMailbox, rd_wr_other _ _ (by decide), hcode]
    · rw [rd_awaitMailbox, rd_wr_other _ _ (by decide), hfailed]
  · refine ⟨?_, ?_, hcopy, rd_wr_same _ _ _, memKept_of_mem hmem⟩
    · rw [rd_wr_other _ _ (by decide), hcode]
    · rw [rd_wr_other _ _ (by decide), hfailed]

theorem flashReads_of {m : Mach} (hst : rd m Reg.PAT_STATUS_STATE = 1) (h : m.ldr.copy = 1 ∨ m.ldr.copy = 2) : flashReads m = true := by
  unfold flashReads; rcases h with h | h <;> simp [hst, h]

/-- A copy that has been read fails or is applied by its verdict (R53). -/
theorem containerRead_completes {c : List Byte} {env : LoadEnv} {s : State} {P : Mach → Prop} (hp : Powered s) (hf : flashReads s.m = true)
    (hP : P (match checkBase s.fuses { kind := 1, half := s.m.ldr.flashHalf } true env.nvmePresent c s.m with
      | some x => copyFails x s.m
      | none => applyBase s.m.ldr.copy c env.nvmePresent s.m)) : Completes (.containerReadComplete c env) s P := by
  refine completes_effect (execContainerReadComplete c env s) hp rfl rfl ?_
  rw [if_neg (by simp [hf])]
  exact hP

/-- A read that does not end and a copy that does not pass do the same, each with its code. -/
theorem flashCopy_fails {c : Instr} {code : Nat} {s : State} {P : Mach → Prop} (hp : Powered s) (hf : flashReads s.m = true)
    (hc : c = .flashReadTimeout ∧ code = 0x13 ∨ ∃ bytes env x, c = .containerReadComplete bytes env ∧ code = x.code ∧ code < 256 ∧
      checkBase s.fuses { kind := 1, half := s.m.ldr.flashHalf } true env.nvmePresent bytes s.m = some x)
    (hP : ∀ x : LoadFail, x.code < 256 → x.code = code → P (copyFails x s.m)) : Completes c s P := by
  rcases hc with ⟨rfl, rfl⟩ | ⟨bytes, env, x, rfl, rfl, hlt, hv⟩
  · refine completes_effect (execFlashReadTimeout s) hp rfl rfl ?_
    rw [if_pos hf]
    exact hP _ (by decide) rfl
  · refine containerRead_completes hp hf ?_
    rw [hv]
    exact hP x hlt rfl

/-- Settles O19: the copy that passes is applied, and the one that fails gives way. -/
theorem flashCopiesAreReadInOrder : Obligations.FlashCopiesAreReadInOrder := by
  unfold Obligations.FlashCopiesAreReadInOrder
  refine ⟨fun c env s hp hst hcopy hv => ?_, fun c code s hp hst hc => ⟨fun hcopy => ?_, fun hcopy => ?_⟩⟩
  · refine containerRead_completes hp (flashReads_of hst hcopy) ?_
    rw [hv]
    exact applyBase_status (by omega) c _ s.m
  · refine flashCopy_fails hp (flashReads_of hst (.inl hcopy)) hc fun x hlt hx => ?_
    rw [← hx]
    exact copyFails_primary hlt hcopy
  · refine flashCopy_fails hp (flashReads_of hst (.inr hcopy)) hc fun x hlt hx => ?_
    rw [← hx]
    exact copyFails_secondary hlt hcopy

end Sys2Proof.Machine

/-!
PROOFS. From the apply of a base pattern to the first turn (R55, R60 to R63, R460, R535).
-/

namespace Sys2Proof.Machine

theorem modSaf_kept (fs : List Fld) (g : Safety → Safety) (m : Mach) : RegsKept fs m (modSaf g m) := fun f _ => rd_modSaf g m f

/-! ### HBM training (R460) -/

/-- Channels that have started their life read 2, and so does one that had done so before. -/
theorem rd_startChans (l : List Nat) (ch : Nat) (m : Mach) (h : ch ∈ l ∨ rd m (Reg.MEM_STATUS_STATE ch) = 2) :
    rd (forEach l startChan m) (Reg.MEM_STATUS_STATE ch) = 2 := by
  induction l generalizing m with
  | nil => exact h.resolve_left (by simp)
  | cons k l ih =>
    refine ih _ ?_
    have hk : rd (startChan k m) (Reg.MEM_STATUS_STATE ch) = rd (wr (Reg.MEM_STATUS_STATE k) 2 m) (Reg.MEM_STATUS_STATE ch) := rd_modChan _ _ _ _
    rw [hk]
    by_cases hck : ch = k
    · subst hck
      exact .inr (rd_wr_same _ _ _)
    · rcases h with h | h
      · exact .inl ((List.mem_cons.mp h).resolve_left hck)
      · right
        by_cases he : (Reg.MEM_STATUS_STATE ch).key = (Reg.MEM_STATUS_STATE k).key
        · unfold Fld.key Reg.MEM_STATUS_STATE at he
          dsimp only at he
          omega
        · rw [rd_wr_other _ _ he, h]

theorem startChan_kept {fs : List Fld} {ch : Nat} (h : Reg.MEM_STATUS_STATE ch ∈ fs) (m : Mach) : RegsKept fs m (startChan ch m) :=
  ((RegsKept.refl fs m).put _ 2 h).trans fun f _ => rd_modChan _ _ _ f

/-! ### HOSTFW and the preload (R60 to R63) -/

theorem endApply_passed (m : Mach) : (endApply m).ldr.passed = m.ldr.passed := by
  unfold endApply
  split
  · rfl
  · rw [mbxEnd_ldr]

/-- The end of a mailbox command behind its last blob leaves memory and the blobs that have passed. -/
theorem blobRead_keeps (m : Mach) : (blobRead m).mem = m.mem ∧ (blobRead m).ldr.passed = m.ldr.passed := by
  obtain ⟨-, -, hmem⟩ := endApply_keeps m
  unfold blobRead
  split
  · exact ⟨hmem, endApply_passed m⟩
  · exact ⟨rfl, rfl⟩

/-- A blob whose digest is right is stored, and counts as passed (R61). -/
theorem preloadBlob_completes {i : Nat} {b : List Byte} {s : State} {P : Mach → Prop} (hp : Powered s) (ht : s.m.ldr.trained = true)
    (hd : s.m.ldr.hostfwDone = true) (hst : rd s.m Reg.PAT_STATUS_STATE ∈ [4, 5]) (hn : nextBlob s.m = some i)
    (hlen : b.length = le (preload s.m i) 0x18 8) (hsha : sha384 b = beNat (slice (preload s.m i) 0x20 48))
    (hP : P (s.m |> writeMem (le (preload s.m i) 0x10 8) b |> modLdr (fun l => { l with passed := i :: l.passed }) |> blobRead)) :
    Completes (.preloadBlobChecked i (some b)) s P := by
  have hst' : ¬ (rd s.m Reg.PAT_STATUS_STATE ≠ 4 ∧ rd s.m Reg.PAT_STATUS_STATE ≠ 5) := by
    simp only [List.mem_cons, List.not_mem_nil, or_false] at hst
    omega
  refine completes_effect (execPreloadBlobChecked i (some b) s) hp rfl rfl ?_
  dsimp only
  rw [if_neg (by simp [ht, hd, hst', hn]), ← hlen, padTo_length, if_pos hsha]
  exact hP

/-! ### The first turn tick (R55, R62, R538) -/

theorem rd_leaveSafe {f : Fld} (h : f.beyond) (m : Mach) : rd (leaveSafe m) f = rd m f := by
  unfold leaveSafe
  rw [rd_refreshSafe h, rd_wrb_other _ _ (h.ne (by decide)), rd_wrb_other _ _ (h.ne (by decide)), rd_modSaf]

/-- The end of NOT_STARTED writes no register beyond the safe state's. -/
theorem rd_startExit {f : Fld} (h : f.beyond) (m : Mach) : rd (startExit m) f = rd m f := by
  unfold startExit
  split
  · rfl
  · dsimp only
    split
    · exact rd_leaveSafe h m
    · rw [rd_refreshSafe h, rd_modSaf]

/-- The reaction to a Partner engine held off writes no register beyond the safe state's. -/
theorem rd_partnerHeldOff {f : Fld} (h : f.beyond) (m : Mach) : rd (partnerHeldOff m) f = rd m f := by
  unfold partnerHeldOff
  split
  · rfl
  · dsimp only
    split
    · rw [rd_enterSafe h, rd_modSaf]
    · rw [rd_refreshSafe h, rd_modSaf]

/-- Behind the first turn tick turns run, and PAT_STATUS says so. -/
theorem firstTurn_runs (failed : List (Nat × Nat)) (m : Mach) :
    rd (firstTurn failed m) Reg.PAT_STATUS_STATE = 5 ∧ rdb (firstTurn failed m) Reg.TIME_TURN_STATUS_RUNNING = true := by
  unfold firstTurn
  dsimp only
  refine ⟨?_, ?_⟩
  · rw [rd_partnerHeldOff (by decide), rd_startExit (by decide), rd_modSaf, rd_wr_same]
    rfl
  · unfold rdb
    rw [rd_partnerHeldOff (by decide), rd_startExit (by decide), rd_modSaf, rd_wr_other _ _ (by decide)]
    exact rdb_wrb_same _ _ _ (by decide)

/-- The first turn tick, when due, blows its fuses and shows them. -/
theorem exec_firstTurnTick_due {failed : List (Nat × Nat)} {s : State} (hp : Powered s) (h : firstDue s.m = true) :
    exec (.firstTurnTick failed) s = .next { s with
      fuses := advanceSv s.m s.fuses, m := s.m |> firstTurn failed |> wr Reg.PAT_SV_FUSED (advanceSv s.m s.fuses).sv } := by
  change execFirstTurnTick failed s = _
  unfold execFirstTurnTick
  exact if_neg (by simp [hp, h])

/-- Settles O20: each step from the start-up tests to the first turn tick, with what it leaves. -/
theorem startupReachesTheFirstTurn : Obligations.StartupReachesTheFirstTurn := by
  unfold Obligations.StartupReachesTheFirstTurn
  refine ⟨fun s hp ha ht => ?_, fun s hp ha ht hch => ?_, fun ch s hp ha ht hst hnow => ?_, fun good s hp ht hd hc => ?_,
    fun i b s hp ht hd hst hn hlen hsha hc => ?_, fun failed s hp hdue => ?_⟩
  · refine completes_effect (execStartupTestsComplete [] s) hp rfl rfl ?_
    rw [if_neg (by simp [ha, ht])]
    exact ⟨rfl, rd_wr_same _ _ _, (modSaf_kept _ _ _).putb _ _ (by simp), rfl⟩
  · have hgo : ¬ (!applied s.m ∨ s.m.ldr.trained ∨ (List.range 32).any (fun ch => rd s.m (Reg.MEM_STATUS_STATE ch) == 4)) := by
      simpa [ha, ht] using hch
    refine completes_effect (execHbmTrainingComplete s) hp rfl rfl ?_
    rw [if_neg hgo]
    refine ⟨rfl, fun ch hlt => ?_, ?_, memKept_of_mem ?_⟩
    · rw [rd_modLdr]
      exact rd_startChans _ ch s.m (.inl (List.mem_range.mpr hlt))
    · refine RegsKept.trans (RegsKept.each _ startChan (RegsKept.refl _ s.m) fun ch hmem k => ?_) (modLdr_kept _ _ _)
      exact startChan_kept (List.mem_map_of_mem hmem) k
    · rw [modLdr_mem]
      exact forEach_keeps Mach.mem _ startChan (fun _ _ _ => rfl) s.m
  · have hgo : ¬ (!applied s.m ∨ s.m.ldr.trained ∨ rd s.m (Reg.MEM_STATUS_STATE ch) ≠ 1 ∨ now s.m < s.m.ing.appliedAt + 290000000) := by
      rintro (h | h | h | h)
      · rw [ha] at h
        cases h
      · rw [ht] at h
        cases h
      · exact h hst
      · exact Nat.not_lt.mpr hnow h
    have hbeyond : ∀ ch : Fin 32, (Reg.MEM_STATUS_STATE ch).beyond := by decide
    refine completes_effect (execHbmTrainingTimeout ch s) hp rfl rfl ?_
    rw [if_neg hgo]
    refine ⟨(entered_fatal .hbmTrain _ _).from rfl, ?_⟩
    rw [rd_fatal (hbeyond ch), rd_wr_same]
    rfl
  · refine completes_effect (execHostfwCopyChecked good s) hp rfl rfl ?_
    rw [if_neg (by simp [ht, hd])]
    cases good
    · exact ⟨rfl, rfl, rfl, fun h => absurd h (by decide), fun _ => memKept_of_mem rfl⟩
    · exact ⟨rfl, rfl, writeMem_regs _ _ _, fun _ => stored_of_writeMem hc rfl rfl, fun h => absurd h (by decide)⟩
  · refine preloadBlob_completes hp ht hd hst hn hlen hsha ?_
    obtain ⟨hmem, hpassed⟩ := blobRead_keeps (s.m |> writeMem (le (preload s.m i) 0x10 8) b |> modLdr (fun l => { l with passed := i :: l.passed }))
    refine ⟨stored_of_writeMem hc rfl hmem, ?_⟩
    rw [hpassed]
    exact List.mem_cons_self ..
  · obtain ⟨hstate, hrun⟩ := firstTurn_runs failed s.m
    refine ⟨_, exec_firstTurnTick_due hp hdue, rfl, ?_, ?_, rfl, rd_wr_same _ _ _⟩
    · rw [rd_wr_other _ _ (by decide), hstate]
    · rw [rdb_wr_other _ _ (by decide), hrun]

end Sys2Proof.Machine

/-!
PROOFS. A state in which a partition reset that finds bad instruction memory does not show HALTED (R493, R620). The statement leaves the tag
of a waiting item unbounded, and the register addresses of a large enough stream number reach other blocks: ISP_STR_STATUS of
stream 0x137FC10 is the word SAF_SUSPECT[0]. HALTED is set, the partition's waiting items fail, and the end of that stream's item
writes WAITING over it.
-/

namespace Sys2Proof.Machine

/-- A stream number that no part has, whose ISP status stands at the address of SAF_SUSPECT[0]. -/
def farStream : Nat := 0x137FC10

/-- The tag of that stream's first item. -/
def farTag : Nat := farStream * 2 ^ 22

/-- WAITING of the tag's stream and HALTED of PART[0] are one field of the register file. -/
theorem rd_halted_eq_waiting (m : Mach) : rd m (Reg.SAF_SUSPECT_HALTED 0) = rd m (Reg.ISP_STR_STATUS_WAITING (tagStream farTag)) := rfl

/-- PART[0] at the end of a reset, with that item waiting for its routine. -/
def farWaits : State :=
  { m := wr Reg.TIME_NOW 1000000000 (wr (Reg.TC_RECOV_STATUS_STATE 0) 3
      { powered := true, items := [(farTag, {})], recov := [(0, { first := [{ tag := farTag }] })] }) }

/-- WAITING of the tag's stream behind an answer, where it is a next state. -/
def waitingBehind : Out → Option Nat
  | .next t => some (rd t.m (Reg.ISP_STR_STATUS_WAITING (tagStream farTag)))
  | _ => none

/-- The reset ends with bad instruction memory: the item fails, and nothing waits in its stream. -/
theorem farWaits_none_waits : waitingBehind (exec (.partitionResetComplete 0 true false) farWaits) = some 0 := by decide +kernel

/-- The state meets what the statement asks of the end of a reset. -/
theorem farWaits_resetEnds : Powered farWaits ∧ rdb farWaits.m Reg.PWR_STATUS_SHUTDOWN = false ∧ rd farWaits.m (Reg.TC_RECOV_STATUS_STATE 0) = 3 ∧
    (mget farWaits.m.recov 0).resetAt + cyclesNs farWaits.m 0 (8800 + 16384) ≤ now farWaits.m ∧ (mget farWaits.m.recov 0).cause ≤ 5 := by
  decide +kernel

/-- Refutes O57: behind a reset that found bad instruction memory, failing an item whose stream number has no bound writes over HALTED. -/
theorem not_hangsKillsRescuesAndResetsRun : ¬ Obligations.HangsKillsRescuesAndResetsRun := by
  unfold Obligations.HangsKillsRescuesAndResetsRun
  rintro ⟨-, -, -, -, hreset⟩
  obtain ⟨hp, hshut, hstate, htime, hcause⟩ := farWaits_resetEnds
  obtain ⟨t, hexec, -, -, -, -, -, hhalted, -⟩ := hreset 0 true false farWaits hp hshut hstate htime hcause
  have hone : rd t.m (Reg.SAF_SUSPECT_HALTED 0) = 1 := hhalted rfl
  have hwaits := farWaits_none_waits
  rw [hexec] at hwaits
  have hzero : rd t.m (Reg.SAF_SUSPECT_HALTED 0) = 0 := (rd_halted_eq_waiting t.m).trans (Option.some.inj hwaits)
  omega

end Sys2Proof.Machine

/-!
PROOFS. Deadlines (R105, R106, R513, R628 to R631): the fault of a partition too far behind the grid, and the item past its deadline.
-/

namespace Sys2Proof.Machine

/-! ### Reactions (R513) -/

/-- Entering the safe state leaves the conditions of R513 to those that hold them. -/
theorem enterSafe_condDeadline (c : Cause) (m : Mach) : (enterSafe c m).saf.condDeadline = m.saf.condDeadline := by
  unfold enterSafe
  dsimp only
  split
  · rw [refreshSafe_saf]; rfl
  · rw [logErr_saf, refreshSafe_saf]; rfl

/-- A reaction writes no register beyond those of the log and of the safe state. -/
theorem rd_react {f : Fld} (h : f.beyond) (code : Nat) (c : Cause) (r : LogRec) (m : Mach) : rd (react code c r m) f = rd m f := by
  unfold react
  dsimp only
  split
  · rw [rd_enterSafe h, rd_logErr h.unlogged]
  · rw [rd_refreshSafe h, rd_logErr h.unlogged]

theorem react_turns (code : Nat) (c : Cause) (r : LogRec) (m : Mach) : (react code c r m).turns = m.turns := by
  unfold react
  dsimp only
  split <;> simp

theorem react_condDeadline (code : Nat) (c : Cause) (r : LogRec) (m : Mach) :
    (react code c r m).saf.condDeadline = m.saf.condDeadline := by
  unfold react
  dsimp only
  split
  · rw [enterSafe_condDeadline, logErr_saf]
  · rw [refreshSafe_saf, logErr_saf]

/-- Reaction SAFE enters the safe state. -/
theorem entered_react (c : Cause) (r : LogRec) (m : Mach) : Entered c m (react 2 c r m) := by
  have h : Entered c m (enterSafe c (logErr r m)) := (entered_enterSafe c (logErr r m)).from (by rw [logErr_saf])
  unfold react
  dsimp only
  rwa [if_pos rfl]

/-! ### The partitions' turns -/

theorem mget_modTurn_same (p : Nat) (f : PTurn → PTurn) (m : Mach) : mget (modTurn p f m).turns p = f (mget m.turns p) := mget_mmod_same _ _ _
theorem mget_modTurn_other {p q : Nat} (f : PTurn → PTurn) (m : Mach) (h : q ≠ p) : mget (modTurn p f m).turns q = mget m.turns q :=
  mget_mmod_other _ _ h

/-! ### The fault of R106 -/

/-- A partition raises the fault of its episode: its mark, its status bit and its count, and the condition of R513. -/
def raiseDeadline (p : Nat) (m : Mach) : Mach :=
  let m := m |> modTurn p (fun t => { t with deadlined := true }) |> wrb (Reg.TC_TURN_STATUS_DEADLINE p) true |> inc (Reg.TC_CNT_DEADLINE p)
  { m with saf := { m.saf with condDeadline := true } }

/-- The record of the fault, for a grid tick at `g`. -/
def deadlineRec (p g : Nat) (m : Mach) : LogRec := { path := pathPartElem m p 6, source := 0x4B, detail := leBytes 8 (now m - g) }

theorem reactDeadline_congr {m n : Mach} (h : n.ldr = m.ldr) : reactDeadline n = reactDeadline m := by
  unfold reactDeadline secLe sec secOf
  rw [h]

/-- A partition that is too far behind its grid tick raises the fault and reacts as REACT_DEADLINE says. -/
theorem deadlineFault_completes {p : Fin 8} {g n : Nat} {rest : List (Nat × Nat)} {s : State} {P : Mach → Prop} (hp : Powered s)
    (hg : (mget s.m.turns p).gticks = (g, n) :: rest) (hb : (mget s.m.turns p).begun = true) (hd : (mget s.m.turns p).deadlined = false)
    (hlag : g + lagLimitNs s.m < now s.m)
    (hP : P (react (reactDeadline s.m) .deadline (deadlineRec p g (raiseDeadline p s.m)) (raiseDeadline p s.m))) :
    Completes (.deadlineFault p) s P := by
  rw [← reactDeadline_congr (show (raiseDeadline p s.m).ldr = s.m.ldr from rfl)] at hP
  refine completes_effect (execDeadlineFault p s) hp rfl rfl ?_
  dsimp only
  rw [hg]
  dsimp only
  rw [if_neg (by simp [hb, hd, hlag])]
  exact hP

theorem rd_raiseDeadline_status (p : Fin 8) (m : Mach) : rd (raiseDeadline p m) (Reg.TC_TURN_STATUS_DEADLINE p) = 1 := by
  have hne : ∀ p : Fin 8, (Reg.TC_TURN_STATUS_DEADLINE p).key ≠ (Reg.TC_CNT_DEADLINE p).key := by decide
  exact (rd_inc_other _ (hne p)).trans (rd_wr_same _ _ _)

theorem rd_raiseDeadline_count (p : Fin 8) (m : Mach) :
    rd (raiseDeadline p m) (Reg.TC_CNT_DEADLINE p) = min (2 ^ 32 - 1) (rd m (Reg.TC_CNT_DEADLINE p) + 1) := by
  have hne : ∀ p : Fin 8, (Reg.TC_CNT_DEADLINE p).key ≠ (Reg.TC_TURN_STATUS_DEADLINE p).key := by decide
  refine (rd_inc_same _ _).trans ?_
  rw [rd_wrb_other _ _ (hne p), rd_modTurn]
  rfl

theorem raiseDeadline_regsKept (p : Nat) (m : Mach) :
    RegsKept [Reg.TC_TURN_STATUS_DEADLINE p, Reg.TC_CNT_DEADLINE p] m (raiseDeadline p m) :=
  ((RegsKept.refl _ m).putb (Reg.TC_TURN_STATUS_DEADLINE p) true (by simp)).bump (Reg.TC_CNT_DEADLINE p) (by simp)

/-! ### The decision of an item's record (R628) -/

theorem detEvent_only_regs (p cause : Nat) (pc : Option Nat) (m : Mach) :
    detEvent p cause pc m = { m with regs := (detEvent p cause pc m).regs } := by
  unfold detEvent
  cases pc with
  | none => rfl
  | some a => dsimp only; split <;> rfl

/-- The record that an item's decision adds. -/
def decidedRec (t : Nat) (it : Item) (m : Mach) : Rec :=
  { queue := it.queue, kind := 0, tag := t, fixed := finalOf it (it.fixed.getD {}), itemFlags := it.itemFlags, ispFlags := it.ispFlags,
    stamp := it.stamp, stampTq := it.stampTq, decided := now m, decidedTq := tq m, turn := rd m (Reg.TC_TURN_NUMBER it.part), orphan := it.orphan }

/-- A decision by time is counted (R665). -/
def countDecision (t : Nat) (it : Item) (m : Mach) : Mach :=
  if decidedByTime m t (finalOf it (it.fixed.getD {})).status then detEvent it.part 6 none m else m

/-- A record joins those decided, and its item leaves. -/
def joinDecided (t : Nat) (it : Item) (r : Rec) (m : Mach) : Mach :=
  let m := { m with decided := m.decided ++ [r], items := eraseKey m.items t,
                    isps := mmod m.isps it.stream (fun x => { x with held := x.held.filter (fun h => h.2 != t) }) }
  if r.fixed.status = .failedDeadline then { m with deadlined := t :: m.deadlined } else m

/-- An item that is decided leaves its version and its raw slot, unless a job still takes them. -/
def leaveSlots (t : Nat) (it : Item) (m : Mach) : Mach :=
  let m := if inPipe m t then m else unbindIsp t m
  if it.hasSlot && !it.range && it.closed && !inPipe m t then freeSlot it.stream it.slot it.gen m else m

theorem decideItem_some {t : Nat} {it : Item} {m : Mach} (h : lookup m.items t = some it) :
    decideItem t m = leaveSlots t it (joinDecided t it (decidedRec t it m) (countDecision t it m)) := by
  unfold decideItem
  rw [h]
  rfl

theorem countDecision_only_regs (t : Nat) (it : Item) (m : Mach) :
    countDecision t it m = { m with regs := (countDecision t it m).regs } := by
  unfold countDecision
  split
  · exact detEvent_only_regs ..
  · rfl

theorem joinDecided_keeps (t : Nat) (it : Item) (r : Rec) (m : Mach) :
    (joinDecided t it r m).decided = m.decided ++ [r] ∧ (joinDecided t it r m).mem = m.mem := by
  unfold joinDecided
  dsimp only
  split <;> exact ⟨rfl, rfl⟩

theorem leaveSlots_keeps (t : Nat) (it : Item) (m : Mach) :
    (leaveSlots t it m).decided = m.decided ∧ (leaveSlots t it m).mem = m.mem := by
  obtain ⟨n, hn⟩ : ∃ n, n = (if inPipe m t then m else unbindIsp t m) := ⟨_, rfl⟩
  have hkeeps : n.decided = m.decided ∧ n.mem = m.mem := by
    rw [hn]
    split <;> exact ⟨rfl, rfl⟩
  unfold leaveSlots
  dsimp only
  rw [← hn]
  split <;> exact hkeeps

/-- A decision adds the item's record to those decided, and writes no memory. -/
theorem decideItem_adds {t : Nat} {it : Item} {m : Mach} (h : lookup m.items t = some it) :
    (decideItem t m).decided = m.decided ++ [decidedRec t it m] ∧ (decideItem t m).mem = m.mem := by
  obtain ⟨hleave, hleavem⟩ := leaveSlots_keeps t it (joinDecided t it (decidedRec t it m) (countDecision t it m))
  obtain ⟨hjoin, hjoinm⟩ := joinDecided_keeps t it (decidedRec t it m) (countDecision t it m)
  rw [decideItem_some h, hleave, hleavem, hjoin, hjoinm, countDecision_only_regs]
  exact ⟨rfl, rfl⟩

/-- A decision takes no record back, and writes no memory. -/
theorem decideItem_keeps (t : Nat) (m : Mach) : (∀ r ∈ m.decided, r ∈ (decideItem t m).decided) ∧ (decideItem t m).mem = m.mem := by
  cases h : lookup m.items t with
  | none => unfold decideItem; rw [h]; exact ⟨fun _ hr => hr, rfl⟩
  | some it =>
    obtain ⟨hdecided, hmem⟩ := decideItem_adds h
    exact ⟨fun r hr => by rw [hdecided]; exact List.mem_append_left _ hr, hmem⟩

theorem decideFrom_keeps (n t : Nat) (m : Mach) : (∀ r ∈ m.decided, r ∈ (decideFrom n t m).decided) ∧ (decideFrom n t m).mem = m.mem := by
  induction n generalizing t m with
  | zero => exact ⟨fun _ hr => hr, rfl⟩
  | succ n ih =>
    unfold decideFrom
    split
    · obtain ⟨hfrom, hfromm⟩ := ih (tagSucc t) (decideItem t m)
      obtain ⟨hitem, hitemm⟩ := decideItem_keeps t m
      exact ⟨fun r hr => hfrom r (hitem r hr), hfromm.trans hitemm⟩
    · exact ⟨fun _ hr => hr, rfl⟩

/-- What can be decided from an item on is decided: its record joins where it is decidable, and else nothing changes. -/
theorem tryDecide_cases {t : Nat} {it : Item} {m : Mach} (h : lookup m.items t = some it) :
    (tryDecide t m = m ∨ decidedRec t it m ∈ (tryDecide t m).decided) ∧ (tryDecide t m).mem = m.mem := by
  refine ⟨?_, (decideFrom_keeps _ t m).2⟩
  unfold tryDecide decideFrom
  split
  · obtain ⟨hdecided, -⟩ := decideItem_adds h
    refine .inr ((decideFrom_keeps _ _ _).1 _ ?_)
    rw [hdecided]
    exact List.mem_append_right _ (List.mem_singleton_self _)
  · exact .inl rfl

/-! ### An item's status (R628, R630) -/

theorem lookup_modItem_same {t : Nat} {it : Item} {m : Mach} (f : Item → Item) (h : lookup m.items t = some it) :
    lookup (modItem t f m).items t = some (f it) := by
  unfold modItem
  rw [h]
  exact lookup_insertKey_same _ _ _ (lookup_eraseKey_same _ _)

theorem modItem_mem (t : Nat) (f : Item → Item) (m : Mach) : (modItem t f m).mem = m.mem := by
  unfold modItem
  split <;> rfl

/-- A verdict changes no status but OK and LATE (R523). -/
theorem finalOf_failed {it : Item} {f : Fixed} (hok : f.status ≠ .ok) (hlate : f.status ≠ .late) : finalOf it f = f := by
  unfold finalOf
  exact if_neg fun h => h.2.elim hok hlate

/-- An item without a status gets the one that it fails with, and memory stays. -/
theorem failItem_gotStatus {t : Nat} {it : Item} {m : Mach} {st : Status} (reason : Nat) (h : lookup m.items t = some it)
    (hfixed : it.fixed = none) (hok : st ≠ .ok) (hlate : st ≠ .late) :
    GotStatus t st reason (failItem t st reason m) ∧ (failItem t st reason m).mem = m.mem := by
  obtain ⟨f, hf⟩ : ∃ f : Fixed, f = { status := st, reason := reason } := ⟨_, rfl⟩
  have hit := lookup_modItem_same (fun it => { it with fixed := some f }) h
  obtain ⟨hcases, hmem⟩ := tryDecide_cases hit
  have hfail : failItem t st reason m = tryDecide t (modItem t (fun it => { it with fixed := some f }) m) := by
    unfold failItem fixItem
    rw [h, ← hf]
    dsimp only
    rw [if_neg (by simp [hfixed])]
  rw [hfail]
  refine ⟨?_, hmem.trans (modItem_mem _ _ _)⟩
  rcases hcases with hsame | hdecided
  · rw [hsame]
    exact .inl ⟨_, f, hit, rfl, by rw [hf], by rw [hf]⟩
  · refine .inr ⟨_, hdecided, rfl, ?_⟩
    have hfinal : (decidedRec t { it with fixed := some f } (modItem t (fun it => { it with fixed := some f }) m)).fixed = f :=
      finalOf_failed (by rw [hf]; exact hok) (by rw [hf]; exact hlate)
    rw [hfinal, hf]
    exact ⟨rfl, rfl⟩

/-- A latency-critical item without a status fails at its deadline. -/
theorem itemDeadline_completes {tag : Nat} {it : Item} {s : State} {P : Mach → Prop} (hp : Powered s) (h : lookup s.m.items tag = some it)
    (hlc : it.lc = true) (hfixed : it.fixed = none) (hdue : it.deadline ≤ now s.m)
    (hP : P (failItem tag .failedDeadline 0x8E s.m)) : Completes (.itemDeadline tag) s P := by
  refine completes_effect (execItemDeadline tag s) hp rfl rfl ?_
  rw [h]
  dsimp only
  rw [if_pos (by simp [hlc, hfixed, hdue])]
  exact hP

/-- Settles O26: the fault once in its episode, and the item past its deadline. -/
theorem deadlinesAreKept : Obligations.DeadlinesAreKept := by
  unfold Obligations.DeadlinesAreKept
  refine ⟨fun p g n rest s hp hg hb hd hlag => ?_, fun tag it s hp h hlc hfixed hdue => ?_⟩
  · have hstatus : ∀ p : Fin 8, (Reg.TC_TURN_STATUS_DEADLINE p).beyond := by decide
    have hcount : ∀ p : Fin 8, (Reg.TC_CNT_DEADLINE p).beyond := by decide
    refine deadlineFault_completes hp hg hb hd hlag ⟨?_, ?_, ?_, ?_, fun hsafe => ?_, fun f hf hkey => ?_⟩
    · rw [react_turns]
      exact congrArg PTurn.deadlined (mget_modTurn_same p (fun t => { t with deadlined := true }) s.m)
    · rw [rd_react (hstatus p), rd_raiseDeadline_status]
    · rw [rd_react (hcount p), rd_raiseDeadline_count]
    · rw [react_condDeadline]
      rfl
    · rw [hsafe]
      exact (entered_react _ _ _).from rfl
    · rw [rd_react hf, raiseDeadline_regsKept p s.m f hkey]
  · obtain ⟨hgot, hmem⟩ := failItem_gotStatus 0x8E h hfixed (st := .failedDeadline) (by decide) (by decide)
    exact itemDeadline_completes hp h hlc hfixed hdue ⟨memKept_of_mem hmem, hgot⟩

end Sys2Proof.Machine

/-!
PROOFS. Grid ticks (R91 to R94, R105, R109): what a tick leaves of the turn registers, the partitions' grid ticks, memory and the items.
-/

namespace Sys2Proof.Machine

/-! ### What a tick's work on the units leaves (R176, R177, R527, R659) -/

/-- The part without what a tick's work on the units may touch: registers, what leaves the part, free values, the island's and the power
unit's own state, the channels, the streams and the pipes. -/
def Mach.beyondUnits (m : Mach) : Mach := { m with regs := [], out := [], draws := 0, saf := {}, power := {}, chans := [], streams := [], pipes := [] }

theorem wr_beyondUnits (f : Fld) (v : Nat) (m : Mach) : (wr f v m).beyondUnits = m.beyondUnits := rfl
theorem wrb_beyondUnits (f : Fld) (b : Bool) (m : Mach) : (wrb f b m).beyondUnits = m.beyondUnits := rfl

theorem modStream_beyondUnits (i : Nat) (f : Stream → Stream) (m : Mach) : (modStream i f m).beyondUnits = m.beyondUnits := by
  unfold modStream syncStream
  simp only [wr_beyondUnits, wrb_beyondUnits]
  rfl

theorem modPipe_beyondUnits (i : Nat) (f : Pipe → Pipe) (m : Mach) : (modPipe i f m).beyondUnits = m.beyondUnits := rfl

theorem setStrState_beyondUnits (i x : Nat) (m : Mach) : (setStrState i x m).beyondUnits = m.beyondUnits := by
  unfold setStrState
  simp only [wr_beyondUnits]

theorem latchAlive_beyondUnits (t : Nat) (m : Mach) : (latchAlive t m).beyondUnits = m.beyondUnits := by
  unfold latchAlive
  cases rdb m Reg.TIME_TURN_STATUS_RUNNING <;> rfl

theorem takeCap_beyondUnits (m : Mach) : (takeCap m).beyondUnits = m.beyondUnits := by
  unfold takeCap
  split
  · rfl
  · rw [wrb_beyondUnits, wr_beyondUnits]; rfl

theorem streamTick_beyondUnits (i : Nat) (m : Mach) : (streamTick i m).beyondUnits = m.beyondUnits := by
  unfold streamTick
  dsimp only
  split
  · rw [setStrState_beyondUnits, wr_beyondUnits, modStream_beyondUnits]
  · rw [wr_beyondUnits, modStream_beyondUnits]

theorem turnRows_beyondUnits (m : Mach) : (turnRows m).beyondUnits = m.beyondUnits := by
  refine forEach_keeps Mach.beyondUnits _ _ (fun l _ n => ?_) m
  split <;> rfl

/-! ### What it leaves of the registers of TIME -/

/-- A field of PAT or TIME: their blocks lie below the sensor ingress (R36). -/
abbrev Fld.central (f : Fld) : Prop := f.key < 0x7F01000000 * 64

theorem Fld.central.ne {f g : Fld} (h : f.central) (hg : 0x7F01000000 ≤ g.addr) : f.key ≠ g.key := by
  have hkey : g.key = g.addr * 64 + g.lo := rfl
  omega

theorem rd_modPipe {g : Fld} (h : g.central) (i : Nat) (f : Pipe → Pipe) (m : Mach) : rd (modPipe i f m) g = rd m g := by
  have hbusy : 0x7F01000000 ≤ (Reg.ISP_PIPE_STATUS_BUSY i).addr := by simp only [Reg.ISP_PIPE_STATUS_BUSY]; omega
  unfold modPipe
  exact (rd_wrb_other _ _ (h.ne hbusy)).trans rfl

/-- The status word of a stream lies in the sensor ingress. -/
theorem Fld.central.ne_strStatus {f : Fld} (h : f.central) (i : Nat) (k : Fld) (hk : k.addr = (Reg.ING_STR_STATUS_STATE i).addr) :
    f.key ≠ k.key := by
  simp only [Reg.ING_STR_STATUS_STATE] at hk
  exact h.ne (by omega)

theorem rd_modStream {g : Fld} (h : g.central) (i : Nat) (f : Stream → Stream) (m : Mach) : rd (modStream i f m) g = rd m g := by
  unfold modStream syncStream
  dsimp only
  rw [rd_wrb_other _ _ (h.ne_strStatus i (Reg.ING_STR_STATUS_FRAME_OPEN i) rfl),
    rd_wrb_other _ _ (h.ne_strStatus i (Reg.ING_STR_STATUS_RETIRING i) rfl), rd_wr_other _ _ (h.ne_strStatus i (Reg.ING_STR_STATUS_HELD i) rfl)]
  rfl

theorem rd_setStrState {g : Fld} (h : g.central) (i x : Nat) (m : Mach) : rd (setStrState i x m) g = rd m g := by
  unfold setStrState
  dsimp only
  rw [rd_wr_other _ _ (h.ne (by decide)), rd_wr_other _ _ (h.ne (by decide)), rd_wr_other _ _ (h.ne_strStatus i (Reg.ING_STR_STATUS_STATE i) rfl)]

theorem rd_streamTick {g : Fld} (h : g.central) (i : Nat) (m : Mach) : rd (streamTick i m) g = rd m g := by
  have hviol := h.ne_strStatus i (Reg.ING_STR_STATUS_VIOL_TURN i) rfl
  unfold streamTick
  dsimp only
  split
  · rw [rd_setStrState h, rd_wr_other _ _ hviol, rd_modStream h]
  · rw [rd_wr_other _ _ hviol, rd_modStream h]

theorem rd_takeCap {g : Fld} (h : g.central) (m : Mach) : rd (takeCap m) g = rd m g := by
  unfold takeCap
  split
  · rfl
  · rw [rd_wrb_other _ _ (h.ne (by decide)), rd_wr_other _ _ (h.ne (by decide)), rd_modPower]

theorem rd_turnRows (g : Fld) (m : Mach) : rd (turnRows m) g = rd m g := by
  refine forEach_rd _ _ g m fun l _ n => ?_
  split <;> rfl

theorem latchAlive_regs (t : Nat) (m : Mach) : (latchAlive t m).regs = m.regs := by
  unfold latchAlive
  cases rdb m Reg.TIME_TURN_STATUS_RUNNING <;> rfl

/-! ### The parts of a tick -/

/-- What every grid tick at `t` does to the units, before and after the first turn. -/
def tickUnits (t : Nat) (m : Mach) : Mach :=
  let m := m |> latchAlive t |> wr Reg.TIME_TURN_TICK t |> modTime (fun x => { x with lastTick := t })
  { m with chans := m.chans.map (fun c => (c.1, { c.2 with ceTurn := 0 })) }
    |> forEach (List.range 8) (fun n => modPipe n (fun p => { p with done := [] })) |> forEach (streamNos m) streamTick |> takeCap

/-- A partition has one more grid tick to take. -/
def addTick (t n p : Nat) (m : Mach) : Mach := modTurn p (fun x => { x with gticks := x.gticks ++ [(t, n)] }) m

/-- What a grid tick does with its turn number, once turns run: the number, the pipes' place in the cycle, and the partitions' grid ticks. -/
def tickTurn (t n : Nat) (m : Mach) : Mach :=
  m |> wr Reg.TIME_TURN_NUMBER n
    |> whenB (cycleTurns m != 0) (forEach (List.range 8) (fun i => wr (Reg.ISP_PIPE_STATUS_CYCLE_POS i) (cyclePos m)))
    |> forEach (List.range 8) (addTick t n)

theorem tickUnits_beyondUnits (t : Nat) (m : Mach) :
    (tickUnits t m).beyondUnits = (modTime (fun x => { x with lastTick := t }) m).beyondUnits := by
  have hlatch := congrArg (modTime fun x => { x with lastTick := t }) (latchAlive_beyondUnits t m)
  unfold tickUnits
  dsimp only
  rw [takeCap_beyondUnits, forEach_keeps Mach.beyondUnits _ _ (fun i _ n => streamTick_beyondUnits i n),
    forEach_keeps Mach.beyondUnits _ _ (fun i _ n => modPipe_beyondUnits i _ n)]
  exact hlatch

theorem rd_tickUnits {g : Fld} (h : g.central) (t : Nat) (m : Mach) : rd (tickUnits t m) g = rd (wr Reg.TIME_TURN_TICK t m) g := by
  unfold tickUnits
  dsimp only
  rw [rd_takeCap h, forEach_rd _ _ g _ (fun i _ n => rd_streamTick h i n), forEach_rd _ _ g _ (fun i _ n => rd_modPipe h i _ n)]
  exact rd_congr (congrArg (fun r => setD 0 r Reg.TIME_TURN_TICK.key (t % 2 ^ 64)) (latchAlive_regs t m)) g

/-- The turns are changed one partition at a time. -/
theorem mget_addTicks (t n p : Nat) (l : List Nat) (hl : l.Nodup) (m : Mach) : (mget (forEach l (addTick t n) m).turns p).gticks =
    if p ∈ l then (mget m.turns p).gticks ++ [(t, n)] else (mget m.turns p).gticks := by
  induction l generalizing m with
  | nil => simp
  | cons q l ih =>
    obtain ⟨hq, hl⟩ := List.nodup_cons.mp hl
    rw [forEach_cons, ih hl]
    by_cases hpq : p = q
    · subst hpq
      rw [if_neg hq, if_pos (List.mem_cons_self ..)]
      rw [addTick, mget_modTurn_same]
    · rw [addTick, mget_modTurn_other _ _ hpq]
      simp [hpq]

/-- What the work on the units leaves: the partitions' turns, the items, memory and the loader, with the tick as the time unit's last. -/
theorem tickUnits_keeps (t : Nat) (m : Mach) : (tickUnits t m).turns = m.turns ∧ (tickUnits t m).items = m.items ∧
    (tickUnits t m).mem = m.mem ∧ (tickUnits t m).ldr = m.ldr ∧ (tickUnits t m).time.lastTick = t := by
  have h := tickUnits_beyondUnits t m
  exact ⟨congrArg (fun n => n.turns) h, congrArg (fun n => n.items) h, congrArg (fun n => n.mem) h, congrArg (fun n => n.ldr) h,
    congrArg (fun n => n.time.lastTick) h⟩

/-- The pipes' place in the cycle is a matter of registers. -/
theorem cyclePositions_only_regs (b : Bool) (v : Nat) (m : Mach) :
    whenB b (forEach (List.range 8) (fun i => wr (Reg.ISP_PIPE_STATUS_CYCLE_POS i) v)) m =
      { m with regs := (whenB b (forEach (List.range 8) (fun i => wr (Reg.ISP_PIPE_STATUS_CYCLE_POS i) v)) m).regs } := by
  cases b
  · rfl
  · exact regs_only_forEach _ _ m fun _ _ => rfl

theorem tickTurn_keeps (t n : Nat) (m : Mach) : (tickTurn t n m).items = m.items ∧ (tickTurn t n m).mem = m.mem ∧
    (tickTurn t n m).ldr = m.ldr := by
  unfold tickTurn
  rw [forEach_keeps Mach.items _ (addTick t n) (fun _ _ _ => rfl), forEach_keeps Mach.mem _ (addTick t n) (fun _ _ _ => rfl),
    forEach_keeps Mach.ldr _ (addTick t n) (fun _ _ _ => rfl), cyclePositions_only_regs]
  exact ⟨rfl, rfl, rfl⟩

theorem rd_tickTurn {g : Fld} (h : g.central) (t n : Nat) (m : Mach) : rd (tickTurn t n m) g = rd (wr Reg.TIME_TURN_NUMBER n m) g := by
  have hcycle : ∀ i v k, rd (wr (Reg.ISP_PIPE_STATUS_CYCLE_POS i) v k) g = rd k g := fun i v k =>
    rd_wr_other _ _ (h.ne (by simp only [Reg.ISP_PIPE_STATUS_CYCLE_POS]; omega))
  unfold tickTurn
  rw [forEach_rd _ (addTick t n) g _ (fun p _ k => rd_modTurn p _ k g)]
  cases cycleTurns m != 0
  · rfl
  · exact forEach_rd _ _ g _ fun i _ k => hcycle i _ k

/-- Each of the eight partitions has the new tick behind those that it has still to take (R93). -/
theorem tickTurn_gticks (t n : Nat) (m : Mach) {p : Nat} (hp : p < 8) :
    (mget (tickTurn t n m).turns p).gticks = (mget m.turns p).gticks ++ [(t, n)] := by
  unfold tickTurn
  rw [mget_addTicks _ _ _ _ List.nodup_range, if_pos (List.mem_range.mpr hp), cyclePositions_only_regs]
  rfl

theorem secOf_congr {m n : Mach} (h : n.ldr = m.ldr) (type inst : Nat) : secOf n type inst = secOf m type inst := by unfold secOf; rw [h]

theorem partnerTick_absent {m : Mach} (h : secOf m 0xB 0 = none) (b : Bool) : partnerTick b m = m := by
  unfold partnerTick
  rw [if_pos (.inl (by rw [h]; rfl))]

theorem tickAt_none (t : Nat) (failed : List (Nat × Nat)) (m : Mach) : tickAt t none failed m = tickUnits t m := rfl

/-- A tick of a turn that runs, without a Partner engine and without a failed test. -/
theorem tickAt_some (t n : Nat) {m : Mach} (h : secOf m 0xB 0 = none) :
    tickAt t (some n) [] m = turnRows (exitTick (tickTurn t n (tickUnits t m))) := by
  obtain ⟨-, -, -, hunits, -⟩ := tickUnits_keeps t m
  obtain ⟨-, -, hturn⟩ := tickTurn_keeps t n (tickUnits t m)
  have hsec : secOf (tickTurn t n (tickUnits t m)) 0xB 0 = none := by rw [secOf_congr hturn, secOf_congr hunits, h]
  unfold tickAt
  dsimp only
  rw [forEach_nil]
  exact congrArg (fun k => turnRows (exitTick k)) (partnerTick_absent hsec _)

/-- The rows sent and the turns counted at the end of a tick leave the registers, the partitions' turns, the items and memory. -/
theorem tickEnd_keeps (m : Mach) : (turnRows (exitTick m)).turns = m.turns ∧ (turnRows (exitTick m)).items = m.items ∧
    (turnRows (exitTick m)).mem = m.mem ∧ ∀ g, rd (turnRows (exitTick m)) g = rd m g := by
  have h := turnRows_beyondUnits (exitTick m)
  exact ⟨congrArg (fun n => n.turns) h, congrArg (fun n => n.items) h, congrArg (fun n => n.mem) h, fun g => rd_turnRows g _⟩

/-- A tick before the first turn: its time is shown, and nothing carries it. -/
theorem tickAt_none_shows (t : Nat) (failed : List (Nat × Nat)) (m : Mach) :
    let k := tickAt t none failed m
    rd k Reg.TIME_TURN_TICK = t % 2 ^ 64 ∧ k.time.lastTick = t ∧ rd k Reg.TIME_TURN_NUMBER = rd m Reg.TIME_TURN_NUMBER ∧
      k.items = m.items ∧ k.mem = m.mem := by
  obtain ⟨-, hitems, hmem, -, hlast⟩ := tickUnits_keeps t m
  intro k
  rw [show k = _ from tickAt_none t failed m]
  refine ⟨?_, hlast, ?_, hitems, hmem⟩
  · rw [rd_tickUnits (by decide), rd_wr_same]
    rfl
  · rw [rd_tickUnits (by decide), rd_wr_other _ _ (by decide)]

/-- A tick of a turn that runs: its time and number are shown, and the eight partitions have it to take. -/
theorem tickAt_some_carries (t n : Nat) {m : Mach} (h : secOf m 0xB 0 = none) :
    let k := tickAt t (some n) [] m
    rd k Reg.TIME_TURN_TICK = t % 2 ^ 64 ∧ rd k Reg.TIME_TURN_NUMBER = n % 2 ^ 32 ∧
      (∀ p < 8, (mget k.turns p).gticks = (mget m.turns p).gticks ++ [(t, n)]) ∧ k.items = m.items ∧ k.mem = m.mem := by
  obtain ⟨hturns, hitems, hmem, -, -⟩ := tickUnits_keeps t m
  obtain ⟨hitems', hmem', -⟩ := tickTurn_keeps t n (tickUnits t m)
  obtain ⟨hendt, hendi, hendm, hendr⟩ := tickEnd_keeps (tickTurn t n (tickUnits t m))
  intro k
  rw [show k = _ from tickAt_some t n h, hendi, hendm, hendt, hendr, hendr]
  refine ⟨?_, ?_, fun p hp => ?_, hitems'.trans hitems, hmem'.trans hmem⟩
  · rw [rd_tickTurn (by decide), rd_wr_other _ _ (by decide), rd_tickUnits (by decide), rd_wr_same]
    rfl
  · rw [rd_tickTurn (by decide), rd_wr_same]
    rfl
  · rw [tickTurn_gticks t n _ hp, hturns]

/-! ### The grid tick -/

/-- The tick behind a re-anchor ends the re-anchoring (R94). -/
def endReanchor (anchor : Bool) (m : Mach) : Mach :=
  whenB anchor (fun m => m |> wrb Reg.TIME_TURN_STATUS_REANCHOR_PENDING false |> wrb Reg.TIME_TURN_STATUS_REANCHORED true
    |> modTime (fun x => { x with gridAnchor := none, gridShift := 0 })) m

theorem endReanchor_keeps (anchor : Bool) (m : Mach) : (endReanchor anchor m).turns = m.turns ∧ (endReanchor anchor m).items = m.items ∧
    (endReanchor anchor m).mem = m.mem ∧ (endReanchor anchor m).ldr = m.ldr ∧
    rd (endReanchor anchor m) Reg.TIME_TURN_NUMBER = rd m Reg.TIME_TURN_NUMBER := by
  cases anchor
  · exact ⟨rfl, rfl, rfl, rfl, rfl⟩
  · refine ⟨rfl, rfl, rfl, rfl, ?_⟩
    unfold endReanchor
    rw [whenB_true, rd_modTime, rd_wrb_other _ _ (by decide), rd_wrb_other _ _ (by decide)]

/-- A grid tick that is due and is not the first turn tick is taken at its time. -/
theorem gridTick_completes {failed : List (Nat × Nat)} {s : State} {P : Mach → Prop} {run : Bool} (hp : Powered s) (ha : applied s.m = true)
    (hper : periodNs s.m ≠ 0) (hdue : (nextTick s.m).2 ≤ now s.m) (hrun : rdb s.m Reg.TIME_TURN_STATUS_RUNNING = run)
    (hfirst : run = false → firstReady s.m = false)
    (hP : P (tickAt (nextTick s.m).2 (if run then some ((gridTurn s.m + 1) % 2 ^ 32) else none) failed (endReanchor (nextTick s.m).1
      (whenB run (fun m => m |> callerDeadline (gridTurn s.m) |> endTurn (gridTurn s.m) (nextTick s.m).2) s.m)))) :
    Completes (.gridTick failed) s P := by
  refine completes_effect (execGridTick failed s) hp rfl rfl ?_
  obtain ⟨⟨anchor, t⟩, hnext⟩ : ∃ x, nextTick s.m = x := ⟨_, rfl⟩
  rw [hnext] at hdue hP ⊢
  dsimp only at hdue hP ⊢
  have hfirst' : ¬ (!run ∧ firstReady s.m) := by
    cases run
    · simp [hfirst rfl]
    · simp
  rw [if_neg (by simp [ha, hper, hdue]), hrun, if_neg hfirst']
  exact hP

/-- No item of the turn lacks its verdict: the Caller's deadline rejects none (R522). -/
theorem callerDeadline_decided {m : Mach} (n : Nat) (h : ∀ x ∈ m.items, x.2.safety = true → x.2.verdict.isSome = true ∨ x.2.turnOf = none) :
    callerDeadline n m = m := by
  have hnone : m.items.filter (fun x => x.2.safety && x.2.verdict.isNone &&
      x.2.turnOf.any (fun t => decide ((n + 2 ^ 32 - t) % 2 ^ 32 < 2 ^ 31))) = [] := by
    refine List.filter_eq_nil_iff.mpr fun x hx hlacks => ?_
    simp only [Bool.and_eq_true] at hlacks
    obtain ⟨⟨hsafety, hverdict⟩, hturn⟩ := hlacks
    rcases h x hx hsafety with hsome | hnone
    · simp [Option.isSome_iff_ne_none.mp hsome] at hverdict
    · simp [hnone] at hturn
  unfold callerDeadline
  rw [hnone]
  rfl

/-- A turn's end marks its items, and changes no status. -/
theorem endTurn_fixed (n t : Nat) (m : Mach) :
    (endTurn n t m).items.map (fun x => (x.1, x.2.fixed)) = m.items.map (fun x => (x.1, x.2.fixed)) := by
  unfold endTurn
  rw [List.map_map]
  refine List.map_congr_left fun x _ => ?_
  dsimp only [Function.comp]
  split <;> rfl

/-- Settles O23: the tick before the first turn, and the tick that carries a turn. -/
theorem gridTicksCarryTheTurns : Obligations.GridTicksCarryTheTurns := by
  unfold Obligations.GridTicksCarryTheTurns
  refine ⟨fun failed s hp ha hper hdue hrun hfirst => ?_, fun s hp ha hper hdue hrun hsec hverdicts => ?_⟩
  · refine gridTick_completes hp ha hper hdue hrun (fun _ => hfirst) ?_
    rw [if_neg (by decide), whenB_false]
    obtain ⟨-, hitems, hmem, -, hnum⟩ := endReanchor_keeps (nextTick s.m).1 s.m
    obtain ⟨htick, hlast, hnum', hitems', hmem'⟩ := tickAt_none_shows (nextTick s.m).2 failed (endReanchor (nextTick s.m).1 s.m)
    exact ⟨htick, hlast, hnum'.trans hnum, memKept_of_mem (hmem'.trans hmem), hitems'.trans hitems⟩
  · refine gridTick_completes hp ha hper hdue hrun (fun h => absurd h (by decide)) ?_
    rw [if_pos rfl, whenB_true, callerDeadline_decided _ hverdicts]
    obtain ⟨hturns, hitems, hmem, hldr, -⟩ := endReanchor_keeps (nextTick s.m).1 (endTurn (gridTurn s.m) (nextTick s.m).2 s.m)
    obtain ⟨htick, hnum, hgticks, hitems', hmem'⟩ := tickAt_some_carries (nextTick s.m).2 ((gridTurn s.m + 1) % 2 ^ 32)
      ((secOf_congr hldr _ _).trans hsec)
    refine ⟨htick, hnum.trans (Nat.mod_mod _ _), fun p hlt => ?_, memKept_of_mem (hmem'.trans hmem), ?_⟩
    · rw [hgticks p hlt, hturns]
      rfl
    · rw [hitems', hitems, endTurn_fixed]

end Sys2Proof.Machine

/-!
PROOFS. Partition ticks (R93, R95, R102 to R104, R112): the turn that a tick begins, in a partition with nothing else in hand.
-/

namespace Sys2Proof.Machine

/-! ### What the steps of a tick leave -/

/-- What a tick decides of a turn. -/
def PTurn.decisions (t : PTurn) : PTurn := { begun := t.begun, tick := t.tick, grid := t.grid, quick := t.quick, gticks := t.gticks, phase := t.phase }

/-- What a partition may have in hand at its tick beside its turn. -/
def Recov.inHand (r : Recov) : Recov :=
  { be := r.be, switch := r.switch, events := r.events, toRetire := r.toRetire, nextCauses := r.nextCauses, first := r.first, lcImage := r.lcImage }

/-- The registers that tell whether a partition runs. -/
def runFields (p : Nat) : List Fld := [Reg.TC_RECOV_STATUS_STATE p, Reg.SAF_SUSPECT_HALTED p]

/-- Those, and the registers of a turn's number and lag. -/
def turnFields (p : Nat) : List Fld := [Reg.TC_TURN_NUMBER p, Reg.TC_TURN_LAG p] ++ runFields p

/-- The other registers that a partition tick writes, beside those of the log and the safe state. -/
def tickFields (p : Nat) : List Fld :=
  [Reg.TC_TURN_STATUS_MODE p, Reg.TC_TURN_STATUS_DEADLINE p, Reg.TC_TURN_STATUS_TEST_DEFERRED p, Reg.TC_TURN_STATUS_TEST_OVERDUE p,
   Reg.TC_TURN_LAG_MAX p, Reg.TC_TURN_LC_END p, Reg.TC_CNT_LATE_TURNS p, Reg.TC_CNT_QS_TURNS p, Reg.TC_CNT_QS_SKIPPED p,
   Reg.TC_SCHED_CNT_LAPSED p, Reg.TC_DET_CNT p 7, Reg.TC_RECOV_STATUS_RESTARTS p, Reg.TC_SEQ_FIFO_LEVEL_PCOMP p, Reg.TC_SEQ_FIFO_LEVEL_RITEM p,
   Reg.SAF_MARGIN_STATUS_RUNNING, Reg.SAF_MARGIN_STATUS_WAITING_TEMP, Reg.SCR_STATUS_WSCRUB p, Reg.SCR_STATUS_ASCRUB p] ++
  (List.range 4).map (fun j => Reg.MEM_STATUS_CALIBRATING (4 * p + j))

theorem turnFields_ne : ∀ p : Fin 8, ∀ f ∈ tickFields p, ∀ g ∈ turnFields p, g.key ≠ f.key := by decide
theorem runFields_sub (p : Nat) : ∀ g ∈ runFields p, g ∈ turnFields p := fun _ hg => List.mem_append_right _ hg
theorem runFields_ne : ∀ p : Fin 8, ∀ f ∈ [Reg.TC_TURN_NUMBER p, Reg.TC_TURN_LAG p], ∀ g ∈ runFields p, g.key ≠ f.key := by decide
theorem turnFields_beyond : ∀ p : Fin 8, ∀ g ∈ turnFields p, g.beyond := by decide

/-- The partition's turn, what it has in hand, what waits for it, and the registers listed are as they were. -/
structure Undisturbed (fs : List Fld) (p : Nat) (m k : Mach) : Prop where
  regs : ∀ g ∈ fs, rd k g = rd m g
  turn : (mget k.turns p).decisions = (mget m.turns p).decisions
  hand : (mget k.recov p).inHand = (mget m.recov p).inHand
  comps : mget k.comps p = mget m.comps p
  rnotes : mget k.rnotes p = mget m.rnotes p

theorem Undisturbed.refl (fs : List Fld) (p : Nat) (m : Mach) : Undisturbed fs p m m := ⟨fun _ _ => rfl, rfl, rfl, rfl, rfl⟩

theorem Undisturbed.trans {fs : List Fld} {p : Nat} {m n k : Mach} (h : Undisturbed fs p m n) (h' : Undisturbed fs p n k) :
    Undisturbed fs p m k :=
  ⟨fun g hg => (h'.regs g hg).trans (h.regs g hg), h'.turn.trans h.turn, h'.hand.trans h.hand, h'.comps.trans h.comps, h'.rnotes.trans h.rnotes⟩

theorem Undisturbed.mono {fs gs : List Fld} {p : Nat} {m k : Mach} (h : Undisturbed fs p m k) (hsub : ∀ g ∈ gs, g ∈ fs) :
    Undisturbed gs p m k := ⟨fun g hg => h.regs g (hsub g hg), h.turn, h.hand, h.comps, h.rnotes⟩

/-- Another register is written. -/
theorem Undisturbed.put {fs : List Fld} {p : Nat} {m n : Mach} (h : Undisturbed fs p m n) (f : Fld) (v : Nat) (hf : ∀ g ∈ fs, g.key ≠ f.key) :
    Undisturbed fs p m (wr f v n) :=
  h.trans ⟨fun g hg => rd_wr_other _ _ (hf g hg), rfl, rfl, rfl, rfl⟩

/-- What a turn holds beside the tick's decisions changes. -/
theorem Undisturbed.changeTurn {fs : List Fld} {p : Nat} {m n : Mach} (h : Undisturbed fs p m n) (f : PTurn → PTurn)
    (hf : ∀ t, (f t).decisions = t.decisions) : Undisturbed fs p m (modTurn p f n) :=
  h.trans ⟨fun _ _ => rfl, by rw [mget_modTurn_same, hf], rfl, rfl, rfl⟩

/-- What a partition's recovery holds beside what is in hand changes. -/
theorem Undisturbed.changeRecov {fs : List Fld} {p : Nat} {m n : Mach} (h : Undisturbed fs p m n) (f : Recov → Recov)
    (hf : ∀ r, (f r).inHand = r.inHand) : Undisturbed fs p m (modRecov p f n) := by
  have hsame : mget (modRecov p f n).recov p = f (mget n.recov p) := mget_mmod_same _ _ _
  exact h.trans ⟨fun _ _ => rfl, rfl, by rw [hsame, hf], rfl, rfl⟩

theorem Undisturbed.when {fs : List Fld} {p : Nat} {m n : Mach} (h : Undisturbed fs p m n) (c : Bool) {f : Mach → Mach}
    (hf : Undisturbed fs p n (f n)) : Undisturbed fs p m (whenB c f n) := by
  cases c
  · exact h
  · exact h.trans hf

theorem Undisturbed.ite {fs : List Fld} {p : Nat} {m n k : Mach} {c : Prop} [Decidable c] (hn : Undisturbed fs p m n) (hk : Undisturbed fs p m k) :
    Undisturbed fs p m (if c then n else k) := by
  split
  · exact hn
  · exact hk

theorem Undisturbed.each {α : Type} {fs : List Fld} {p : Nat} {m n : Mach} (h : Undisturbed fs p m n) (l : List α) (f : α → Mach → Mach)
    (hf : ∀ a ∈ l, ∀ k, Undisturbed fs p k (f a k)) : Undisturbed fs p m (forEach l f n) := by
  induction l generalizing n with
  | nil => exact h
  | cons a l ih => exact ih (h.trans (hf a (List.mem_cons_self ..) n)) fun b hb => hf b (List.mem_cons_of_mem _ hb)

/-- The safe state's registers follow the conditions. -/
theorem Undisturbed.refresh {p : Fin 8} {m n : Mach} (h : Undisturbed (turnFields p) p m n) : Undisturbed (turnFields p) p m (refreshSafe n) :=
  h.trans ⟨fun g hg => rd_refreshSafe (turnFields_beyond p g hg) n, by rw [refreshSafe_turns], by rw [refreshSafe_recov], by rw [refreshSafe_comps],
    by rw [refreshSafe_rnotes]⟩

/-- One of the other registers of a tick is written. -/
theorem Undisturbed.tick {p : Fin 8} {m n : Mach} (h : Undisturbed (turnFields p) p m n) (f : Fld) (v : Nat) (hf : f ∈ tickFields p) :
    Undisturbed (turnFields p) p m (wr f v n) := h.put f v (turnFields_ne p f hf)

/-! ### The steps -/

section
variable {p : Fin 8} {m n : Mach} (h : Undisturbed (turnFields p) p m n)
include h

theorem Undisturbed.overdue (k : Nat) : Undisturbed (turnFields p) p m (turnOverdue p k n) := by
  unfold turnOverdue syncDeferred
  refine Undisturbed.tick ?_ (Reg.TC_TURN_STATUS_TEST_DEFERRED p) _ (by simp [tickFields])
  exact h.changeTurn _ fun _ => rfl

theorem Undisturbed.mode : Undisturbed (turnFields p) p m (turnMode p n) := by
  unfold turnMode
  exact h.tick (Reg.TC_TURN_STATUS_MODE p) _ (by simp [tickFields])

theorem Undisturbed.endsDeadline : Undisturbed (turnFields p) p m (endDeadline p n) := by
  have hmark := (h.changeTurn (fun t => { t with deadlined := false }) fun _ => rfl).tick (Reg.TC_TURN_STATUS_DEADLINE p)
    (b2n false) (by simp [tickFields])
  unfold endDeadline
  dsimp only
  refine Undisturbed.ite (Undisturbed.refresh ?_) hmark
  exact ⟨hmark.regs, hmark.turn, hmark.hand, hmark.comps, hmark.rnotes⟩

theorem Undisturbed.margin : Undisturbed (turnFields p) p m (marginBegin p n) := by
  have hmark := h.changeTurn (fun t => { t with margin := false }) fun _ => rfl
  unfold marginBegin
  dsimp only
  refine Undisturbed.ite hmark (Undisturbed.ite ?_ (hmark.tick Reg.SAF_MARGIN_STATUS_WAITING_TEMP _ (by simp [tickFields])))
  refine Undisturbed.changeTurn ?_ _ fun _ => rfl
  refine Undisturbed.tick (Undisturbed.tick ?_ Reg.SAF_MARGIN_STATUS_RUNNING _ (by simp [tickFields]))
    Reg.SAF_MARGIN_STATUS_WAITING_TEMP _ (by simp [tickFields])
  exact ⟨hmark.regs, hmark.turn, hmark.hand, hmark.comps, hmark.rnotes⟩

theorem Undisturbed.busy : Undisturbed (turnFields p) p m (windowBusy p true n) := by
  have hdraw : Undisturbed (turnFields p) p m (draw 6 n).2 := h.trans ⟨fun _ _ => rfl, rfl, rfl, rfl, rfl⟩
  unfold windowBusy
  refine Undisturbed.each (Undisturbed.tick (Undisturbed.tick hdraw (Reg.SCR_STATUS_WSCRUB p) _ (by simp [tickFields]))
    (Reg.SCR_STATUS_ASCRUB p) _ (by simp [tickFields])) _ _ fun j hj k => ?_
  exact (Undisturbed.refl _ _ k).tick (Reg.MEM_STATUS_CALIBRATING (4 * p + j)) _
    (List.mem_append_right _ (List.mem_map_of_mem (f := fun j => Reg.MEM_STATUS_CALIBRATING (4 * p + j)) hj))

end

/-! ### A partition with nothing in hand -/

/-- A partition runs, and has nothing in hand at its tick beside its turn. -/
structure NothingInHand (p : Nat) (m : Mach) : Prop where
  runs : rd m (Reg.TC_RECOV_STATUS_STATE p) = 0
  alive : halted m p = false
  comps : mget m.comps p = []
  rnotes : mget m.rnotes p = []
  be : (mget m.recov p).be = none
  switch : (mget m.recov p).switch = .none
  events : (mget m.recov p).events = []
  retire : (mget m.recov p).toRetire = []
  causes : 4 ∉ (mget m.recov p).nextCauses
  first : (mget m.recov p).first = []
  image : (mget m.recov p).lcImage = none

theorem NothingInHand.of_undisturbed {p : Nat} {m k : Mach} (h : NothingInHand p m) (hk : Undisturbed (runFields p) p m k) : NothingInHand p k where
  runs := (hk.regs _ (by simp [runFields])).trans h.runs
  alive := by
    have hread := hk.regs (Reg.SAF_SUSPECT_HALTED p) (by simp [runFields])
    have halive := h.alive
    unfold halted rdb at halive ⊢
    rw [hread, halive]
  comps := hk.comps.trans h.comps
  rnotes := hk.rnotes.trans h.rnotes
  be := (congrArg Recov.be hk.hand).trans h.be
  switch := (congrArg Recov.switch hk.hand).trans h.switch
  events := (congrArg Recov.events hk.hand).trans h.events
  retire := (congrArg Recov.toRetire hk.hand).trans h.retire
  causes := (congrArg Recov.nextCauses hk.hand).symm ▸ h.causes
  first := (congrArg Recov.first hk.hand).trans h.first
  image := (congrArg Recov.lcImage hk.hand).trans h.image

/-- Where nothing waits, no item fails with it. -/
theorem failWaiting_nothing {p : Fin 8} {m : Mach} (h : NothingInHand p m) (gone : Nat → Bool) (st : Status) (reason : Nat) :
    Undisturbed (turnFields p) p m (failWaiting p gone st reason m) := by
  have hnone : (((mget m.recov p).first ++ mget m.comps p ++ mget m.rnotes p).map (·.tag)).filter gone = [] := by
    rw [h.first, h.comps, h.rnotes]
    rfl
  have hall : ∀ x : List Notice, x.filter (fun n => !([] : List Nat).contains n.tag) = x := by simp
  have hkeep : (fun x : List Notice => x.filter (fun n => !([] : List Nat).contains n.tag)) = id := funext hall
  unfold failWaiting
  dsimp only
  rw [hnone, hkeep, forEach_nil]
  have hlists : Undisturbed (turnFields p) p m { m with comps := mmod m.comps p id, rnotes := mmod m.rnotes p id } :=
    ⟨fun _ _ => rfl, rfl, rfl, mget_mmod_same _ _ _, mget_mmod_same _ _ _⟩
  refine Undisturbed.changeRecov ?_ _ fun r => by rw [hall]
  unfold syncFifo
  exact (hlists.tick (Reg.TC_SEQ_FIFO_LEVEL_PCOMP p) _ (by simp [tickFields])).tick (Reg.TC_SEQ_FIFO_LEVEL_RITEM p) _ (by simp [tickFields])

/-- Where no context is open, none is pre-empted. -/
theorem beginPreempt_none {p : Nat} {m : Mach} (h : (mget m.recov p).be = none) : beginPreempt p m = m := by
  unfold beginPreempt
  dsimp only
  rw [h]

/-- Where nothing is in hand, a tick begins no reset. -/
theorem tickResets_nothing {p : Nat} {m : Mach} (h : NothingInHand p m) : tickResets p m = m := by
  unfold tickResets
  dsimp only
  rw [h.events]
  unfold stepEvents
  rw [h.retire]
  dsimp only
  rw [if_neg (by simp [h.causes])]

/-! ### The window (R95) -/

/-- Where no image waits to be restored, the window opens and nothing else is decided. -/
theorem beginWindow_opens {p : Fin 8} {m : Mach} (h : (mget m.recov p).lcImage = none) :
    Undisturbed (turnFields p) p (modTurn p (fun t => { t with phase := .window }) m) (beginWindow p m) := by
  unfold beginWindow
  dsimp only
  rw [h, Option.isSome_none, whenB_false]
  refine Undisturbed.busy (Undisturbed.margin ?_)
  refine Undisturbed.tick ?_ (Reg.TC_TURN_STATUS_TEST_OVERDUE p) _ (by simp [tickFields])
  exact ⟨fun _ _ => rfl, by rw [mget_modTurn_same, mget_modTurn_same]; rfl, rfl, rfl, rfl⟩

/-! ### The parts of a partition tick (R93, R102 to R104) -/

/-- What a tick counts of the turn that ends. -/
def countTurn (p : Nat) (late : Bool) (m : Mach) : Mach :=
  let t := mget m.turns p
  m |> turnOverdue p (rd m (Reg.TC_TURN_NUMBER p))
    |> whenB t.begun (fun m => m |> wr (Reg.TC_TURN_LC_END p) (min 0xFFFFFFFF (t.lcEnd - t.tick))
      |> whenB late (inc (Reg.TC_CNT_LATE_TURNS p)) |> addTo (Reg.TC_SCHED_CNT_LAPSED p) t.beDue.length
      |> forEach t.beDue (fun _ => detEvent p 7 none))

/-- The number and the lag of the turn that begins. -/
def showTurn (p n lag : Nat) (m : Mach) : Mach := m |> wr (Reg.TC_TURN_NUMBER p) n |> wr (Reg.TC_TURN_LAG p) (min 0x3FFFFFFF lag)

/-- The largest lag and the number of quickstep turns so far. -/
def countLag (p most lag : Nat) (m : Mach) : Mach :=
  m |> wr (Reg.TC_TURN_LAG_MAX p) (max most (min 0x3FFFFFFF lag)) |> whenB (decide (0 < lag)) (inc (Reg.TC_CNT_QS_TURNS p))

/-- The turn that begins, with its routines. -/
def openTurn (p at0 g : Nat) (quick : Bool) (rest : List (Nat × Nat)) (m : Mach) : Mach :=
  let lc := lcDue m p
  modTurn p (fun t => { t with
    begun := true, tick := at0, grid := g, ext := 0, lcEnd := at0, phase := .idle, quick := quick, lcTodo := lc,
    lcDone := lc.isEmpty, beDue := beStreams m p quick, gticks := rest, pendWin := true, waiting := blobWaits m p }) m

/-- The turn's mode, and the limits that begin again with it. -/
def tickModes (p : Nat) (quick : Bool) (m : Mach) : Mach :=
  m |> turnMode p |> modRecov p (fun r => { r with retries := 0 }) |> wr (Reg.TC_RECOV_STATUS_RESTARTS p) 0 |> whenB (!quick) (endDeadline p)

/-- The items that a quickstep turn skips. -/
def tickSkips (p : Nat) (quick : Bool) (m : Mach) : Mach :=
  let waits := (((mget m.recov p).first ++ mget m.comps p ++ mget m.rnotes p).filter (fun c => !tagLc m c.tag)).length
  if quick then m |> addTo (Reg.TC_CNT_QS_SKIPPED p) waits
      |> failWaiting p (fun t => !tagLc m t) .skippedQuickstep Reason.quickstep
    else m

/-- What a tick does behind them: the items of a HALTED partition, a pre-emption, resets, and the window. -/
def tickEnds (p : Nat) (m : Mach) : Mach :=
  let m := if halted m p then failWaiting p (fun _ => true) .failedFault Reason.halted m else m
  let m := m |> beginPreempt p |> tickResets p
  if preempting m p ∨ rd m (Reg.TC_RECOV_STATUS_STATE p) = 3 then m else beginWindow p m

/-- A tick begins its turn where its time has come and the partition is free for it. -/
theorem partitionTick_completes {p : Fin 8} {g n : Nat} {rest : List (Nat × Nat)} {s : State} {P : Mach → Prop} {late : Bool} {at0 : Nat}
    (hp : Powered s) (hg : (mget s.m.turns p).gticks = (g, n) :: rest) (hshut : rdb s.m Reg.PWR_STATUS_SHUTDOWN = false)
    (hdue : plannedTick s.m p ≤ now s.m) (hstate : rd s.m (Reg.TC_RECOV_STATUS_STATE p) = 0)
    (hlast : (mget s.m.turns p).begun = true → (mget s.m.turns p).lcDone = true ∧ (mget s.m.turns p).phase = .open)
    (hkill : (mget s.m.recov p).killing = none) (hrestart : (mget s.m.recov p).restart = none) (hreplay : (mget s.m.recov p).replayRun = none)
    (hlate : late = ((mget s.m.turns p).begun && decide (plannedTick s.m p < (mget s.m.turns p).lcEnd)))
    (hat : at0 = if late then now s.m else atTick s.m (plannedTick s.m p))
    (hP : ∀ k, k = (s.m |> countTurn p late |> showTurn p n (at0 - g) |> countLag p (rd s.m (Reg.TC_TURN_LAG_MAX p)) (at0 - g)
      |> openTurn p at0 g (decide (0 < at0 - g)) rest |> tickModes p (decide (0 < at0 - g)) |> tickSkips p (decide (0 < at0 - g)) |> tickEnds p) →
      P k) : Completes (.partitionTick p) s P := by
  refine completes_effect (execPartitionTick p s) hp rfl rfl ?_
  dsimp only
  rw [hg]
  dsimp only
  have hfree : ¬ (rdb s.m Reg.PWR_STATUS_SHUTDOWN ∨ now s.m < plannedTick s.m p ∨
      ((mget s.m.turns p).begun ∧ (!(mget s.m.turns p).lcDone ∨ (mget s.m.turns p).phase ≠ .open)) ∨ rd s.m (Reg.TC_RECOV_STATUS_STATE p) ≠ 0 ∨
      (mget s.m.recov p).killing.isSome ∨ (mget s.m.recov p).restart.isSome ∨ (mget s.m.recov p).replayRun.isSome) := by
    have hover : ¬ ((mget s.m.turns p).begun ∧ (!(mget s.m.turns p).lcDone ∨ (mget s.m.turns p).phase ≠ .open)) := by
      rintro ⟨hbegun, hopen⟩
      simp [hlast hbegun] at hopen
    simp only [hshut, hstate, hkill, hrestart, hreplay, hover, Nat.not_lt.mpr hdue]
    decide
  rw [if_neg hfree]
  subst hlate hat
  exact hP _ rfl

/-! ### What each part leaves -/

theorem countTurn_undisturbed (p : Fin 8) (late : Bool) (m : Mach) : Undisturbed (turnFields p) p m (countTurn p late m) := by
  have htick : ∀ (f : Fld) (v : Nat) (k : Mach), f ∈ tickFields p → Undisturbed (turnFields p) p k (wr f v k) := fun f v k hf =>
    (Undisturbed.refl _ _ k).tick f v hf
  unfold countTurn
  dsimp only
  refine Undisturbed.when ((Undisturbed.refl _ _ m).overdue _) _ (Undisturbed.each (Undisturbed.tick (Undisturbed.when ?_ _ ?_)
    (Reg.TC_SCHED_CNT_LAPSED p) _ (by simp [tickFields])) _ _ fun _ _ k => htick (Reg.TC_DET_CNT p 7) _ k (by simp [tickFields]))
  · exact htick (Reg.TC_TURN_LC_END p) _ _ (by simp [tickFields])
  · exact htick (Reg.TC_CNT_LATE_TURNS p) _ _ (by simp [tickFields])

theorem countLag_undisturbed (p : Fin 8) (most lag : Nat) (m : Mach) : Undisturbed (turnFields p) p m (countLag p most lag m) := by
  unfold countLag
  refine Undisturbed.when (Undisturbed.tick (Undisturbed.refl _ _ m) (Reg.TC_TURN_LAG_MAX p) _ (by simp [tickFields])) _ ?_
  exact Undisturbed.tick (Undisturbed.refl _ _ _) (Reg.TC_CNT_QS_TURNS p) _ (by simp [tickFields])

/-- The number and the lag are shown, and the partition runs as before. -/
theorem showTurn_shows (p : Fin 8) {n : Nat} (lag : Nat) (m : Mach) (hn : n < 2 ^ 32) :
    rd (showTurn p n lag m) (Reg.TC_TURN_NUMBER p) = n ∧ rd (showTurn p n lag m) (Reg.TC_TURN_LAG p) = min 0x3FFFFFFF lag ∧
      Undisturbed (runFields p) p m (showTurn p n lag m) := by
  have hne : ∀ p : Fin 8, (Reg.TC_TURN_NUMBER p).key ≠ (Reg.TC_TURN_LAG p).key := by decide
  have hlag : min 0x3FFFFFFF lag < 2 ^ 30 := by omega
  unfold showTurn
  refine ⟨?_, ?_, ?_⟩
  · rw [rd_wr_other _ _ (hne p), rd_wr_same]
    exact Nat.mod_eq_of_lt hn
  · rw [rd_wr_same]
    exact Nat.mod_eq_of_lt hlag
  · exact ((Undisturbed.refl _ _ m).put (Reg.TC_TURN_NUMBER p) n (runFields_ne p _ (by simp))).put (Reg.TC_TURN_LAG p) _ (runFields_ne p _ (by simp))

/-- The turn that begins has the tick's decisions. -/
theorem openTurn_decides (p at0 g : Nat) (quick : Bool) (rest : List (Nat × Nat)) (m : Mach) :
    (mget (openTurn p at0 g quick rest m).turns p).decisions = { begun := true, tick := at0, grid := g, quick := quick, gticks := rest } := by
  unfold openTurn
  dsimp only
  rw [mget_modTurn_same]
  rfl

/-- With the turn nothing comes into hand. -/
theorem NothingInHand.opened {p : Nat} {m : Mach} (h : NothingInHand p m) (at0 g : Nat) (quick : Bool) (rest : List (Nat × Nat)) :
    NothingInHand p (openTurn p at0 g quick rest m) :=
  ⟨h.runs, h.alive, h.comps, h.rnotes, h.be, h.switch, h.events, h.retire, h.causes, h.first, h.image⟩

theorem tickModes_undisturbed (p : Fin 8) (quick : Bool) (m : Mach) : Undisturbed (turnFields p) p m (tickModes p quick m) := by
  unfold tickModes
  refine Undisturbed.when ?_ _ (Undisturbed.refl _ _ _).endsDeadline
  refine Undisturbed.tick ?_ (Reg.TC_RECOV_STATUS_RESTARTS p) _ (by simp [tickFields])
  exact (Undisturbed.refl _ _ m).mode.changeRecov _ fun _ => rfl

theorem tickSkips_undisturbed {p : Fin 8} {m : Mach} (h : NothingInHand p m) (quick : Bool) :
    Undisturbed (turnFields p) p m (tickSkips p quick m) := by
  unfold tickSkips
  dsimp only
  refine Undisturbed.ite ?_ (Undisturbed.refl _ _ m)
  have hcount : ∀ w, Undisturbed (turnFields p) p m (addTo (Reg.TC_CNT_QS_SKIPPED p) w m) := fun w =>
    (Undisturbed.refl _ _ m).tick _ _ (by simp [tickFields])
  exact (hcount _).trans (failWaiting_nothing (h.of_undisturbed ((hcount _).mono (runFields_sub p))) _ _ _)

/-- With nothing in hand, the window is all that follows. -/
theorem tickEnds_opens {p : Fin 8} {m : Mach} (h : NothingInHand p m) : tickEnds p m = beginWindow p m := by
  have hpre : preempting m p = false := by
    unfold preempting
    dsimp only
    rw [h.switch]
    rfl
  unfold tickEnds
  dsimp only
  rw [h.alive, if_neg Bool.false_ne_true, beginPreempt_none h.be, tickResets_nothing h, hpre, h.runs,
    if_neg (show ¬ (false = true ∨ (0 : Nat) = 3) by decide)]

/-- The turn's window is open. -/
def inWindow (p : Nat) (m : Mach) : Mach := modTurn p (fun t => { t with phase := .window }) m

theorem inWindow_decides (p : Nat) (m : Mach) :
    (mget (inWindow p m).turns p).decisions = { (mget m.turns p).decisions with phase := .window } := by
  rw [inWindow, mget_modTurn_same]
  rfl

theorem Undisturbed.window {fs : List Fld} {p : Nat} {m k : Mach} (h : Undisturbed fs p m k) : Undisturbed fs p (inWindow p m) (inWindow p k) :=
  ⟨h.regs, by rw [inWindow_decides, inWindow_decides, h.turn], h.hand, h.comps, h.rnotes⟩

/-- Behind the begin of its turn, a partition with nothing in hand comes to its window, and nothing else is decided. -/
theorem tickRest_opens {p : Fin 8} {m : Mach} (h : NothingInHand p m) (quick : Bool) :
    Undisturbed (turnFields p) p (inWindow p m) (m |> tickModes p quick |> tickSkips p quick |> tickEnds p) := by
  have hmodes := tickModes_undisturbed p quick m
  have hmid := hmodes.trans (tickSkips_undisturbed (h.of_undisturbed (hmodes.mono (runFields_sub p))) quick)
  have hquiet := h.of_undisturbed (hmid.mono (runFields_sub p))
  show Undisturbed _ _ _ (tickEnds p (tickSkips p quick (tickModes p quick m)))
  rw [tickEnds_opens hquiet]
  exact hmid.window.trans (beginWindow_opens hquiet.image)

/-- A tick of a partition with nothing in hand: number and lag are shown, and the turn has the tick's decisions and its window open. -/
theorem tick_opens_turn {p : Fin 8} {n : Nat} {m k : Mach} {late quick : Bool} {lag most at0 g : Nat} {rest : List (Nat × Nat)}
    (h : NothingInHand p m) (hn : n < 2 ^ 32)
    (hk : k = (m |> countTurn p late |> showTurn p n lag |> countLag p most lag |> openTurn p at0 g quick rest |> tickModes p quick
      |> tickSkips p quick |> tickEnds p)) :
    rd k (Reg.TC_TURN_NUMBER p) = n ∧ rd k (Reg.TC_TURN_LAG p) = min 0x3FFFFFFF lag ∧
      (mget k.turns p).decisions = { begun := true, tick := at0, grid := g, quick := quick, gticks := rest, phase := .window } := by
  have hcount := countTurn_undisturbed p late m
  obtain ⟨hnumber, hlag, hshow⟩ := showTurn_shows p lag (countTurn p late m) hn
  have hmost := countLag_undisturbed p most lag (showTurn p n lag (countTurn p late m))
  have hquiet := h.of_undisturbed (((hcount.mono (runFields_sub p)).trans hshow).trans (hmost.mono (runFields_sub p)))
  have hrest := tickRest_opens (hquiet.opened at0 g quick rest) quick
  generalize countLag p most lag (showTurn p n lag (countTurn p late m)) = c at hk hmost hrest
  have hread : ∀ f ∈ turnFields p, rd k f = rd (showTurn p n lag (countTurn p late m)) f := fun f hf => by
    rw [hk, hrest.regs f hf, ← hmost.regs f hf]
    rfl
  refine ⟨(hread _ (by simp [turnFields])).trans hnumber, (hread _ (by simp [turnFields])).trans hlag, ?_⟩
  rw [hk, hrest.turn, inWindow_decides, openTurn_decides]

/-- Settles O24: the tick taken at its planned time, and the window that it opens. -/
theorem partitionTurnsOpen : Obligations.PartitionTurnsOpen := by
  unfold Obligations.PartitionTurnsOpen
  intro p g n rest s hp hg hn hshut hdue hstate hlast halive hcomps hrnotes hrecov
  obtain ⟨hkill, hrestart, hreplay, hbe, hswitch, hevents, hretire, hcauses, hfirst, himage⟩ := hrecov
  intro at0
  obtain ⟨late, hlate⟩ : ∃ late, late = ((mget s.m.turns p).begun && decide (plannedTick s.m p < (mget s.m.turns p).lcEnd)) := ⟨_, rfl⟩
  have hat : at0 = if late then now s.m else atTick s.m (plannedTick s.m p) := by
    rw [hlate]
    simp only [Bool.and_eq_true, decide_eq_true_eq]
    rfl
  clear_value at0
  refine partitionTick_completes hp hg hshut hdue hstate hlast hkill hrestart hreplay hlate hat fun k hk => ?_
  obtain ⟨hnumber, hlag, hturn⟩ := tick_opens_turn
    ⟨hstate, halive, hcomps, hrnotes, hbe, hswitch, hevents, hretire, hcauses, hfirst, himage⟩ hn hk
  have hquick : decide (0 < at0 - g) = decide (g < at0) := decide_eq_decide.mpr Nat.sub_pos_iff_lt
  exact ⟨hnumber, hlag, congrArg PTurn.begun hturn, congrArg PTurn.tick hturn, congrArg PTurn.grid hturn, congrArg PTurn.gticks hturn,
    (congrArg PTurn.quick hturn).trans hquick, congrArg PTurn.phase hturn⟩

end Sys2Proof.Machine

/-!
PROOFS. The image pipeline (R201 to R206, R221, R224, R225, R231): slots that are taken, jobs that start and end, commits and taps.
-/

namespace Sys2Proof.Machine

/-! ### What the end of an item leaves (R161, R205, R226, R628) -/

/-- The part without what the decision of items and the end of their jobs may touch beside the pipe: registers, the items and their records,
the streams of ingress and pipeline, and what holds granules. -/
def Mach.beyondItems (m : Mach) : Mach :=
  { m with regs := [], items := [], decided := [], deadlined := [], streams := [], isps := [], grans := [] }

theorem beyondItems_of_regs {m n : Mach} (h : n = { m with regs := n.regs }) : n.beyondItems = m.beyondItems := by
  rw [h]
  rfl

theorem modItem_beyondItems (t : Nat) (f : Item → Item) (m : Mach) : (modItem t f m).beyondItems = m.beyondItems := by
  unfold modItem
  split <;> rfl

theorem wr_beyondItems (f : Fld) (v : Nat) (m : Mach) : (wr f v m).beyondItems = m.beyondItems := rfl
theorem wrb_beyondItems (f : Fld) (b : Bool) (m : Mach) : (wrb f b m).beyondItems = m.beyondItems := rfl

theorem freeSlot_beyondItems (i slot gen : Nat) (m : Mach) : (freeSlot i slot gen m).beyondItems = m.beyondItems := by
  unfold freeSlot syncStream
  simp only [wr_beyondItems, wrb_beyondItems]
  rfl

theorem syncIsp_beyondItems (i : Nat) (m : Mach) : (syncIsp i m).beyondItems = m.beyondItems := by
  unfold syncIsp
  simp only [wr_beyondItems, wrb_beyondItems]
  rfl

theorem unbindIsp_beyondItems (t : Nat) (m : Mach) : (unbindIsp t m).beyondItems = m.beyondItems := syncIsp_beyondItems _ _

theorem joinDecided_beyondItems (t : Nat) (it : Item) (r : Rec) (m : Mach) : (joinDecided t it r m).beyondItems = m.beyondItems := by
  unfold joinDecided
  dsimp only
  split <;> rfl

theorem leaveSlots_beyondItems (t : Nat) (it : Item) (m : Mach) : (leaveSlots t it m).beyondItems = m.beyondItems := by
  obtain ⟨n, hn⟩ : ∃ n, n = (if inPipe m t then m else unbindIsp t m) := ⟨_, rfl⟩
  have hkeeps : n.beyondItems = m.beyondItems := by
    rw [hn]
    split
    · rfl
    · exact unbindIsp_beyondItems t m
  unfold leaveSlots
  dsimp only
  rw [← hn]
  split
  · exact (freeSlot_beyondItems ..).trans hkeeps
  · exact hkeeps

theorem decideItem_beyondItems (t : Nat) (m : Mach) : (decideItem t m).beyondItems = m.beyondItems := by
  cases h : lookup m.items t with
  | none => unfold decideItem; rw [h]
  | some it =>
    rw [decideItem_some h, leaveSlots_beyondItems, joinDecided_beyondItems]
    exact beyondItems_of_regs (countDecision_only_regs t it m)

theorem decideFrom_beyondItems (n t : Nat) (m : Mach) : (decideFrom n t m).beyondItems = m.beyondItems := by
  induction n generalizing t m with
  | zero => rfl
  | succ n ih =>
    unfold decideFrom
    split
    · exact (ih _ _).trans (decideItem_beyondItems t m)
    · rfl

theorem failItem_beyondItems (t : Nat) (st : Status) (reason : Nat) (m : Mach) : (failItem t st reason m).beyondItems = m.beyondItems := by
  unfold failItem fixItem
  split
  · rfl
  · split
    · rfl
    · exact (decideFrom_beyondItems ..).trans (modItem_beyondItems ..)

/-! ### Counters that the end of an item leaves -/

/-- A counter in the upper half of its 32 bytes, below the partitions' registers: the pipes' and streams' status words, which follow the items,
stand in lower halves, whatever the stream's number. -/
abbrev Fld.inUpperHalf (f : Fld) : Prop := f.lo < 64 ∧ f.addr < 0x7F10000000 ∧ 16 ≤ f.addr % 32

theorem Fld.inUpperHalf.ne {f g : Fld} (h : f.inUpperHalf) (hg : decide (g.lo < 64) = true)
    (ha : 0x7F10000000 ≤ g.addr ∨ g.addr % 32 < 16) : f.key ≠ g.key := by
  obtain ⟨hlo, hbelow, hupper⟩ := h
  exact Fld.key_ne_of_addr (of_decide_eq_true hg) hlo (by omega)

section
variable {f : Fld} (h : f.inUpperHalf)
include h

theorem rd_freeSlot (i slot gen : Nat) (m : Mach) : rd (freeSlot i slot gen m) f = rd m f := by
  have hne : ∀ g : Fld, decide (g.lo < 64) = true → g.addr = 0x7F01100000 + i * 0x40 → f.key ≠ g.key := fun g hg ha => h.ne hg (by omega)
  unfold freeSlot syncStream
  dsimp only
  rw [rd_wrb_other _ _ (hne _ rfl rfl), rd_wrb_other _ _ (hne _ rfl rfl), rd_wr_other _ _ (hne _ rfl rfl)]
  rfl

theorem rd_syncIsp (i : Nat) (m : Mach) : rd (syncIsp i m) f = rd m f := by
  have hne : ∀ g : Fld, decide (g.lo < 64) = true → (g.addr = 0x7F02010004 + i * 0x40 ∨ g.addr = 0x7F02010008 + i * 0x40) → f.key ≠ g.key :=
    fun g hg ha => h.ne hg (by omega)
  unfold syncIsp
  dsimp only
  rw [rd_wrb_other _ _ (hne _ rfl (.inr rfl)), rd_wr_other _ _ (hne _ rfl (.inl rfl)), rd_wr_other _ _ (hne _ rfl (.inl rfl))]
  rfl

theorem rd_unbindIsp (t : Nat) (m : Mach) : rd (unbindIsp t m) f = rd m f := rd_syncIsp h _ _

theorem rd_countDecision (t : Nat) (it : Item) (m : Mach) : rd (countDecision t it m) f = rd m f := by
  unfold countDecision
  split
  · exact rd_inc_other _ (h.ne rfl (.inl (by simp only [Reg.TC_DET_CNT]; omega)))
  · rfl

theorem rd_leaveSlots (t : Nat) (it : Item) (m : Mach) : rd (leaveSlots t it m) f = rd m f := by
  obtain ⟨n, hn⟩ : ∃ n, n = (if inPipe m t then m else unbindIsp t m) := ⟨_, rfl⟩
  have hkeeps : rd n f = rd m f := by
    rw [hn]
    split
    · rfl
    · exact rd_unbindIsp h t m
  unfold leaveSlots
  dsimp only
  rw [← hn]
  split
  · exact (rd_freeSlot h ..).trans hkeeps
  · exact hkeeps

omit h in
theorem joinDecided_regs (t : Nat) (it : Item) (r : Rec) (m : Mach) : (joinDecided t it r m).regs = m.regs := by
  unfold joinDecided
  dsimp only
  split <;> rfl

theorem rd_decideItem (t : Nat) (m : Mach) : rd (decideItem t m) f = rd m f := by
  cases hit : lookup m.items t with
  | none => unfold decideItem; rw [hit]
  | some it => rw [decideItem_some hit, rd_leaveSlots h, rd_congr (joinDecided_regs ..), rd_countDecision h]

theorem rd_decideFrom (n t : Nat) (m : Mach) : rd (decideFrom n t m) f = rd m f := by
  induction n generalizing t m with
  | zero => rfl
  | succ n ih =>
    unfold decideFrom
    split
    · exact (ih _ _).trans (rd_decideItem h t m)
    · rfl

theorem rd_failItem (t : Nat) (st : Status) (reason : Nat) (m : Mach) : rd (failItem t st reason m) f = rd m f := by
  unfold failItem fixItem
  split
  · rfl
  · split
    · rfl
    · exact (rd_decideFrom h ..).trans (rd_modItem ..)

end

/-! ### Granules (R354) -/

/-- The part without what holding and freeing granules touches. -/
def Mach.beyondGrans (m : Mach) : Mach := { m with regs := [], grans := [] }

theorem holdGrans_beyondGrans (gs : List Nat) (p : Nat) (n : Nat → Mach → Nat) (m : Mach) :
    (forEach gs (fun g k => setHolds p g (n g k) k) m).beyondGrans = m.beyondGrans :=
  forEach_keeps Mach.beyondGrans gs (fun g k => setHolds p g (n g k) k) (fun _ _ _ => rfl) m

theorem jobRelease_beyondGrans (j : Job) (m : Mach) : (jobRelease j m).beyondGrans = m.beyondGrans :=
  holdGrans_beyondGrans (jobGranules m j) j.part (fun g k => granHolds k j.part g / 2 * 2) m

theorem reserveGrans_beyondGrans (gs : List Nat) (p : Nat) (m : Mach) : (forEach gs (reserveGran p) m).beyondGrans = m.beyondGrans :=
  holdGrans_beyondGrans gs p (fun g k => granHolds k p g / 2 * 2 + 1) m

/-- The word of SCR_HELD that shows a granule lies in its partition's scratch block. -/
theorem rd_setHolds {f : Fld} {p : Nat} (h : f.key < (0x7F10081800 + p * 0x1000000) * 64) (gn n : Nat) (m : Mach) :
    rd (setHolds p gn n m) f = rd m f := by
  refine (rd_wrb_other _ _ ?_).trans rfl
  simp only [Fld.key, Reg.SCR_HELD] at h ⊢
  omega

theorem rd_jobRelease {f : Fld} (h : f.inUpperHalf) (j : Job) (m : Mach) : rd (jobRelease j m) f = rd m f := by
  obtain ⟨hlo, hbelow, -⟩ := h
  exact forEach_rd _ _ f m fun g _ k => rd_setHolds (by unfold Fld.key; omega) g _ k

/-! ### A job is over (R161, R203, R224) -/

/-- What a job holds is free again: its pipe, its granules, its raw slot and its version. -/
def freeJob (n : Nat) (j : Job) (m : Mach) : Mach :=
  m |> jobRelease j |> modPipe n (fun p => { p with job := none, lastEnd := now m }) |> syncRunning j.stream
    |> freeRaw j |> unbindIsp j.tag

/-- The tap that a job has taken is over. -/
def endTap (j : Job) (tapDone : Bool) (m : Mach) : Mach :=
  if j.tap then
    m |> wrb (Reg.ISP_STR_TAP_ARMED j.stream) false |> whenB tapDone (wrb (Reg.ISP_STR_TAP_DONE j.stream) true)
  else m

theorem jobOver_eq (n : Nat) (j : Job) (tapDone : Bool) (m : Mach) : jobOver n j tapDone m = endTap j tapDone (freeJob n j m) := rfl


theorem modPipe_job (n : Nat) (f : Pipe → Pipe) (m : Mach) : mget (modPipe n f m).pipes n = f (mget m.pipes n) := mget_mmod_same _ _ _

theorem freeSlot_items (i slot gen : Nat) (m : Mach) : (freeSlot i slot gen m).items = m.items := by
  unfold freeSlot syncStream wrb
  simp only [wr_items]

theorem unbindIsp_items (t : Nat) (m : Mach) : (unbindIsp t m).items = m.items := by
  unfold unbindIsp syncIsp wrb
  simp only [wr_items]

theorem modItem_items_congr {m n : Mach} (h : n.items = m.items) (t : Nat) (f : Item → Item) : (modItem t f n).items = (modItem t f m).items := by
  unfold modItem
  rw [h]
  split
  · exact h
  · rfl

theorem freeJob_items (n : Nat) (j : Job) (m : Mach) : (freeJob n j m).items = (modItem j.tag (fun it => { it with hasSlot := false }) m).items := by
  have hrel : (jobRelease j m).items = m.items := by
    have h := congrArg Mach.items (jobRelease_beyondGrans j m)
    exact h
  unfold freeJob freeRaw
  rw [unbindIsp_items, freeSlot_items]
  refine modItem_items_congr ?_ _ _
  unfold syncRunning modPipe wrb
  simp only [wr_items]
  exact hrel

theorem endTap_only_regs (j : Job) (tapDone : Bool) (m : Mach) : endTap j tapDone m = { m with regs := (endTap j tapDone m).regs } := by
  unfold endTap wrb wr
  split
  · cases tapDone <;> rfl
  · rfl

/-- Behind the end of its job an item is as before, without its raw slot. -/
theorem lookup_jobOver {j : Job} {it : Item} {m : Mach} (n : Nat) (tapDone : Bool) (h : lookup m.items j.tag = some it) :
    lookup (jobOver n j tapDone m).items j.tag = some { it with hasSlot := false } := by
  have hitems : (jobOver n j tapDone m).items = (freeJob n j m).items := by
    rw [jobOver_eq, endTap_only_regs]
  rw [hitems, freeJob_items]
  exact lookup_modItem_same _ h

/-- Beyond the items and what holds granules, the end of a job changes its pipe alone. -/
theorem jobOver_beyondItems (n : Nat) (j : Job) (tapDone : Bool) (m : Mach) :
    (jobOver n j tapDone m).beyondItems = { m.beyondItems with pipes := mmod m.pipes n (fun p => { p with job := none, lastEnd := now m }) } := by
  rw [jobOver_eq, beyondItems_of_regs (endTap_only_regs ..)]
  unfold freeJob freeRaw
  dsimp only
  rw [unbindIsp_beyondItems, freeSlot_beyondItems, modItem_beyondItems]
  unfold syncRunning modPipe
  dsimp only
  rw [wrb_beyondItems, wrb_beyondItems]
  have hrel := jobRelease_beyondGrans j m
  have hpipes : (jobRelease j m).pipes = m.pipes := by
    have h := congrArg Mach.pipes hrel
    exact h
  have hbeyond : (jobRelease j m).beyondItems = m.beyondItems := by
    have h := congrArg Mach.beyondItems hrel
    exact h
  rw [hpipes]
  exact congrArg (fun k : Mach => { k with pipes := mmod m.pipes n (fun p => { p with job := none, lastEnd := now m }) }) hbeyond

theorem rd_jobOver {f : Fld} (h : f.inUpperHalf) (n : Nat) (j : Job) (tapDone : Bool) (m : Mach) : rd (jobOver n j tapDone m) f = rd m f := by
  have hfree : rd (freeJob n j m) f = rd m f := by
    unfold freeJob freeRaw syncRunning modPipe
    dsimp only
    rw [rd_unbindIsp h, rd_freeSlot h, rd_modItem, rd_wrb_other _ _ (h.ne rfl (.inr (by simp only [Reg.ISP_STR_STATUS_JOB_RUNNING]; omega))),
      rd_wrb_other _ _ (h.ne rfl (.inr (by simp only [Reg.ISP_PIPE_STATUS_BUSY]; omega)))]
    exact rd_jobRelease h j m
  rw [jobOver_eq]
  unfold endTap
  split
  · have harmed : f.key ≠ (Reg.ISP_STR_TAP_ARMED j.stream).key := h.ne rfl (.inr (by simp only [Reg.ISP_STR_TAP_ARMED]; omega))
    have hdone : f.key ≠ (Reg.ISP_STR_TAP_DONE j.stream).key := h.ne rfl (.inr (by simp only [Reg.ISP_STR_TAP_DONE]; omega))
    refine (whenB_keeps (fun k => rd k f) _ _ _ (rd_wrb_other _ _ hdone)).trans ?_
    rw [rd_wrb_other _ _ harmed, hfree]
  · exact hfree

/-! ### A job fails its item (R202, R203, R221) -/

/-- A job that fails is over, its item has the status and the reason, and memory, the log and the counters stay. -/
theorem jobFail_fails {j : Job} {it : Item} {m : Mach} {st : Status} (n reason flags : Nat) (h : lookup m.items j.tag = some it)
    (hfixed : it.fixed = none) (hok : st ≠ .ok) (hlate : st ≠ .late) :
    let t := jobFail n j st reason flags m
    (mget t.pipes n).job = none ∧ GotStatus j.tag st reason t ∧
      t.mem = m.mem ∧ t.log = m.log ∧ ∀ f : Fld, f.inUpperHalf → rd t f = rd m f := by
  have hbeyond : (jobFail n j st reason flags m).beyondItems =
      { m.beyondItems with pipes := mmod m.pipes n (fun p => { p with job := none, lastEnd := now m }) } := by
    unfold jobFail setIspFlags
    dsimp only
    rw [failItem_beyondItems, modItem_beyondItems, jobOver_beyondItems]
  have hpipes : (jobFail n j st reason flags m).pipes = mmod m.pipes n (fun p => { p with job := none, lastEnd := now m }) := by
    have h := congrArg Mach.pipes hbeyond
    exact h
  have hmem : (jobFail n j st reason flags m).mem = m.mem := by
    have h := congrArg Mach.mem hbeyond
    exact h
  have hlog : (jobFail n j st reason flags m).log = m.log := by
    have h := congrArg Mach.log hbeyond
    exact h
  have hit := lookup_modItem_same (fun it => { it with ispFlags := it.ispFlags ||| (j.flags ||| flags) }) (lookup_jobOver n false h)
  intro t
  refine ⟨?_, (failItem_gotStatus reason hit hfixed hok hlate).1, hmem, hlog, fun f hf => ?_⟩
  · rw [show t.pipes = _ from hpipes, mget_mmod_same]
  · change rd (failItem j.tag st reason (modItem j.tag _ (jobOver n j false m))) f = _
    rw [rd_failItem hf, rd_modItem, rd_jobOver hf]

theorem Fld.inUpperHalf.unlogged {f : Fld} (h : f.inUpperHalf) : f.unlogged := by
  obtain ⟨hlo, hbelow, -⟩ := h
  have hkey : f.key < 0x7F20000000 * 64 := by unfold Fld.key; omega
  have hseq : 0x7F20000000 * 64 < Reg.SAF_LOG_SEQ.key := by decide
  have hfatal : 0x7F20000000 * 64 < Reg.SAF_LAST_FATAL_SEQ.key := by decide
  exact ⟨.inl (by omega), by omega, by omega⟩

theorem inc_only_regs (f : Fld) (m : Mach) : inc f m = { m with regs := (inc f m).regs } := by
  unfold inc addTo wr
  rfl

/-- A job that fails with a record and counters: over, with its item's status, the record in front of the log, and the counters as counted. -/
theorem jobFail_logged {j : Job} {it : Item} {m n : Mach} {st : Status} {r : LogRec} (pipe reason flags : Nat)
    (hn : n = { logErr r m with regs := n.regs }) (h : lookup m.items j.tag = some it) (hfixed : it.fixed = none)
      (hok : st ≠ .ok) (hlate : st ≠ .late) :
    let t := jobFail pipe j st reason flags n
    ((mget t.pipes pipe).job = none ∧ GotStatus j.tag st reason t) ∧ Logged r.source m t ∧ ∀ f : Fld, f.inUpperHalf → rd t f = rd n f := by
  have hitems : n.items = m.items := by rw [hn]; exact logErr_items r m
  have hlog : n.log = (logErr r m).log := by rw [hn]
  obtain ⟨hjob, hstatus, -, hkept, hread⟩ := jobFail_fails (m := n) pipe reason flags (by rw [hitems]; exact h) hfixed hok hlate
  exact ⟨⟨hjob, hstatus⟩, (logged_logErr r m).congr (hkept.trans hlog), hread⟩

/-- A counter counted behind a record. -/
theorem rd_inc_logErr {f : Fld} (h : f.inUpperHalf) (r : LogRec) (m : Mach) : rd (inc f (logErr r m)) f = min (2 ^ f.width - 1) (rd m f + 1) := by
  rw [rd_inc_same, rd_logErr h.unlogged]

/-! ### The end of a job (R203, R221, R224) -/

theorem checkFail_inUpperHalf {i : Nat} (h : i < 512) : (Reg.ISP_STR_CNT_CHECK_FAIL i).inUpperHalf := by
  simp only [Fld.inUpperHalf, Reg.ISP_STR_CNT_CHECK_FAIL]
  omega

theorem strAbort_inUpperHalf {i : Nat} (h : i < 512) : (Reg.ISP_STR_CNT_ABORT i).inUpperHalf := by
  simp only [Fld.inUpperHalf, Reg.ISP_STR_CNT_ABORT]
  omega

theorem pipeAbort_inUpperHalf (n : Fin 8) : (Reg.ISP_PIPE_CNT_ABORT n).inUpperHalf := by
  simp only [Fld.inUpperHalf, Reg.ISP_PIPE_CNT_ABORT]
  omega

/-- The parameters and the raw lines' sources that a job reads with (R222). -/
def jobVer (m : Mach) (j : Job) : IspVer := ((mget m.isps j.stream).vers.find? (fun w => w.id == j.ver)).getD {}
def jobLines (m : Mach) (j : Job) : List Nat :=
  (lineSources m j.raddr (pExp (jobVer m j).param) (strHeight (streamEntry m j.stream))).getD []

/-- A check of a job fails at a seam: logged, counted, and its item fails (R221, R224). -/
def failCheck (pipe : Nat) (j : Job) (seam : Nat) (m : Mach) : Mach :=
  m |> logErr { path := pathPipe m pipe, source := 0x50, seam := seam, tag := j.tag } |> inc (Reg.ISP_STR_CNT_CHECK_FAIL j.stream)
    |> jobFail pipe j .failedFault Reason.pipe (flagBit 2)

section
variable {pipe : Fin 8} {j : Job} {s : State} {P : Mach → Prop} (hp : Powered s) (hjob : (mget s.m.pipes pipe).job = some j)
include hp hjob

theorem jobEnd_completes (b : Bool)
    (hP : P (if jobStops s.m j then jobFail pipe j .failedReset Reason.reset 0 s.m
      else if rawBad s.m (streamEntry s.m j.stream) j.raddr (jobLines s.m j) then failCheck pipe j 5 s.m
      else if b then failCheck pipe j 6 s.m
      else if now s.m < j.start + j.dur then s.m
      else finishJob pipe j (jobLines s.m j) s.m)) : Completes (.ispJobEnd pipe b) s P := by
  refine completes_effect (execIspJobEnd pipe b s) hp rfl rfl ?_
  rw [hjob]
  exact hP

theorem jobStopReset_completes (hP : P (if jobStops s.m j then jobFail pipe j .failedReset Reason.reset 0 s.m else s.m)) :
    Completes (.ispJobStopReset pipe) s P := by
  refine completes_effect (execIspJobStopReset pipe s) hp rfl rfl ?_
  rw [hjob]
  exact hP

theorem jobTimeout_completes (hdue : j.start + 2 * j.dur ≤ now s.m)
    (hP : P (s.m |> logErr { path := pathPipe s.m pipe, source := 0x56, tag := j.tag, detail := leBytes 4 pipe }
      |> inc (Reg.ISP_PIPE_CNT_ABORT pipe) |> inc (Reg.ISP_STR_CNT_ABORT j.stream) |> jobFail pipe j .failedFault Reason.pipe 0)) :
    Completes (.ispJobTimeout pipe) s P := by
  refine completes_effect (execIspJobTimeout pipe s) hp rfl rfl ?_
  rw [hjob]
  dsimp only
  rw [if_neg (by omega)]
  exact hP

end

/-- A failed check at a seam: the job over, the item failed with PIPE, the record, and the count. -/
theorem failCheck_shows {j : Job} {it : Item} {m : Mach} (pipe : Fin 8) (seam : Nat) (hi : j.stream < 512) (h : lookup m.items j.tag = some it)
    (hfixed : it.fixed = none) :
    let t := failCheck pipe j seam m
    ((mget t.pipes pipe).job = none ∧ GotStatus j.tag .failedFault 0x81 t) ∧ Logged 0x50 m t ∧
      rd t (Reg.ISP_STR_CNT_CHECK_FAIL j.stream) = min (2 ^ 32 - 1) (rd m (Reg.ISP_STR_CNT_CHECK_FAIL j.stream) + 1) := by
  obtain ⟨hover, hlog, hread⟩ := jobFail_logged (r := { path := pathPipe m pipe, source := 0x50, seam := seam, tag := j.tag })
    (n := m |> logErr { path := pathPipe m pipe, source := 0x50, seam := seam, tag := j.tag } |> inc (Reg.ISP_STR_CNT_CHECK_FAIL j.stream))
    pipe Reason.pipe (flagBit 2) (inc_only_regs _ _) h hfixed (st := .failedFault) (by decide) (by decide)
  exact ⟨hover, hlog, (hread _ (checkFail_inUpperHalf hi)).trans (rd_inc_logErr (checkFail_inUpperHalf hi) _ m)⟩

/-- A job that a reset reaches: over, its item failed with RESET, and no record. -/
theorem jobFail_reset {j : Job} {it : Item} {m : Mach} (pipe : Fin 8) (h : lookup m.items j.tag = some it) (hfixed : it.fixed = none) :
    let t := jobFail pipe j .failedReset Reason.reset 0 m
    ((mget t.pipes pipe).job = none ∧ GotStatus j.tag .failedReset 0x8B t) ∧ t.log = m.log ∧ MemKept m t := by
  obtain ⟨hjob, hstatus, hmem, hlog, -⟩ := jobFail_fails pipe Reason.reset 0 h hfixed (st := .failedReset) (by decide) (by decide)
  exact ⟨⟨hjob, hstatus⟩, hlog, memKept_of_mem hmem⟩

/-- A job past twice its time: the job over, the item failed with PIPE, the record, and both counts (R202). -/
theorem jobTimeout_shows {j : Job} {it : Item} {m : Mach} (pipe : Fin 8) (r : LogRec) (hi : j.stream < 512) (h : lookup m.items j.tag = some it)
    (hfixed : it.fixed = none) :
    let t := m |> logErr r |> inc (Reg.ISP_PIPE_CNT_ABORT pipe) |> inc (Reg.ISP_STR_CNT_ABORT j.stream) |> jobFail pipe j .failedFault Reason.pipe 0
    ((mget t.pipes pipe).job = none ∧ GotStatus j.tag .failedFault 0x81 t) ∧ Logged r.source m t ∧
      rd t (Reg.ISP_PIPE_CNT_ABORT pipe) = min (2 ^ 32 - 1) (rd m (Reg.ISP_PIPE_CNT_ABORT pipe) + 1) ∧
      rd t (Reg.ISP_STR_CNT_ABORT j.stream) = min (2 ^ 32 - 1) (rd m (Reg.ISP_STR_CNT_ABORT j.stream) + 1) := by
  have hne : (Reg.ISP_STR_CNT_ABORT j.stream).key ≠ (Reg.ISP_PIPE_CNT_ABORT pipe).key := by
    simp only [Fld.key, Reg.ISP_STR_CNT_ABORT, Reg.ISP_PIPE_CNT_ABORT]
    omega
  obtain ⟨hover, hlog, hread⟩ := jobFail_logged (r := r)
    (n := m |> logErr r |> inc (Reg.ISP_PIPE_CNT_ABORT pipe) |> inc (Reg.ISP_STR_CNT_ABORT j.stream))
    pipe Reason.pipe 0 ((inc_only_regs _ _).trans (by rw [inc_only_regs (Reg.ISP_PIPE_CNT_ABORT pipe)]))
      h hfixed (st := .failedFault) (by decide) (by decide)
  refine ⟨hover, hlog, (hread _ (pipeAbort_inUpperHalf pipe)).trans ?_, (hread _ (strAbort_inUpperHalf hi)).trans ?_⟩
  · rw [rd_inc_other _ hne.symm]
    exact rd_inc_logErr (pipeAbort_inUpperHalf pipe) r m
  · rw [rd_inc_same, rd_inc_other _ hne, rd_logErr (strAbort_inUpperHalf hi).unlogged]
    rfl

/-! ### A job that ends well (R205, R206, R223) -/

/-- The planes that a job makes of its raw lines. -/
def jobResult (m : Mach) (j : Job) (src : List Nat) : IspResult :=
  let se := streamEntry m j.stream
  let e := ispEntry m j.stream
  let p := (jobVer m j).param
  let gs := rawImages m se j.raddr (pExp p) src
  if strDt se = 0x1E then runYuv p (gs.getD 0 #[]) (strWidth se) (strHeight se / pExp p) (ispOutW e) (ispOutH e) (ispPlanes e)
    else runRaw p gs (strWidth se) (strHeight se / pExp p) (ispOutW e) (ispOutH e) (ispPlanes e)

/-- A job's tensor stands in its output slot with its header and row checks, or in scratch with its ready bits. -/
def storeTensor (j : Job) (r : IspResult) (m : Mach) : Mach :=
  let e := ispEntry m j.stream
  if j.toHbm then
    m |> writeMem j.addr (tensorHeader e j.tag j.flags j.turn (le (readMem m j.raddr 128) 8 8))
      |> writeMem (j.addr + 4096) (tensorOf e r.planes) |> writeMem (j.addr + 4096 + tensorBytes e) (rowChecks e r.planes)
  else m |> writeMem (psaAddr m j.part (j.core * 2 ^ 25 + j.addr)) (tensorOf e r.planes) |> setReady j.part true (jobGranules m j)

/-- A job that reads every line itself, without a tap and without statistics, stores its tensor, is over, and posts its completion. -/
theorem finishJob_plain {n : Nat} {j : Job} {src : List Nat} {m : Mach} (hsrc : src = List.range (strHeight (streamEntry m j.stream)))
    (htap : j.tap = false) (hstats : ispStats (ispEntry m j.stream) = 0) :
    finishJob n j src m = (storeTensor j (jobResult m j src) m |> jobOver n j true |> setIspFlags j.tag j.flags
      |> modItem j.tag (fun it => { it with scr := j.addr, jobTurn := j.turn }) |> postCompletion j (jobVer m j).seq j.flags) := by
  have hfill : decide (src ≠ List.range (strHeight (streamEntry m j.stream))) = false := decide_eq_false (not_not_intro hsrc)
  unfold finishJob
  simp only [htap, hfill, hstats, Bool.false_eq_true, if_false, if_true, Nat.or_zero]
  rfl

theorem setReady_beyondRing (p : Nat) (b : Bool) (gs : List Nat) (m : Mach) : (setReady p b gs m).beyondRing = m.beyondRing :=
  forEach_keeps Mach.beyondRing gs (fun g => wrb (readyBit p g) b) (fun _ _ _ => rfl) m

theorem setReady_mem (p : Nat) (b : Bool) (gs : List Nat) (m : Mach) : (setReady p b gs m).mem = m.mem :=
  forEach_keeps Mach.mem gs (fun g => wrb (readyBit p g) b) (fun _ _ _ => rfl) m

theorem storeTensor_beyondRing (j : Job) (r : IspResult) (m : Mach) : (storeTensor j r m).beyondRing = m.beyondRing := by
  unfold storeTensor
  dsimp only
  split
  · simp only [writeMem_beyondRing]
  · simp only [setReady_beyondRing, writeMem_beyondRing]

/-- The turn of an item's routine is planned, and nothing else of the part changes. -/
theorem placeTurn_plans {t : Nat} {it : Item} {m : Mach} (h : lookup m.items t = some it) :
    ∃ n, placeTurn t m = modItem t (fun it => { it with turnOf := some n }) m := by
  unfold placeTurn
  rw [h]
  exact ⟨_, rfl⟩

/-- The completion that a job posts (R206). -/
def jobNotice (j : Job) (seq flags : Nat) : Notice :=
  { tag := j.tag, lo := j.tag + flags * 2 ^ 32 + b2n j.toHbm * 2 ^ 48 + j.slot * 2 ^ 56, hi := j.turn + seq * 2 ^ 32 }

/-- A completion joins a FIFO that is not full, and its item's routine is placed in a turn (R105, R206). -/
theorem postCompletion_posts {j : Job} {it : Item} {m : Mach} (seq flags : Nat) (hroom : (mget m.comps j.part).length < 512)
    (h : lookup m.items j.tag = some it) :
    let t := postCompletion j seq flags m
    t.beyondItems = { m.beyondItems with comps := mmod m.comps j.part (· ++ [jobNotice j seq flags]) } ∧
      ∃ n, lookup t.items j.tag = some { it with turnOf := some n } := by
  obtain ⟨k, hk⟩ : ∃ k, k = syncFifo j.part { m with comps := mmod m.comps j.part (· ++ [jobNotice j seq flags]) } := ⟨_, rfl⟩
  have hpost : postCompletion j seq flags m = placeTurn j.tag k := by
    rw [hk]
    unfold postCompletion
    exact if_neg (by omega)
  have hitems : lookup k.items j.tag = some it := by rw [hk]; exact h
  obtain ⟨n, hn⟩ := placeTurn_plans hitems
  intro t
  rw [show t = _ from hpost, hn]
  refine ⟨?_, n, lookup_modItem_same _ hitems⟩
  rw [modItem_beyondItems, hk]
  rfl

/-- What a job that ends well leaves: its pipe free, its completion posted, its item in its turn without a raw slot, the log as it was, and
memory as the tensor's store left it. -/
theorem finishJob_shows {n : Nat} {j : Job} {it : Item} {src : List Nat} {m : Mach} (h : lookup m.items j.tag = some it)
    (hsrc : src = List.range (strHeight (streamEntry m j.stream))) (htap : j.tap = false) (hstats : ispStats (ispEntry m j.stream) = 0)
    (hroom : (mget m.comps j.part).length < 512) :
    let t := finishJob n j src m
    (mget t.pipes n).job = none ∧ mget t.comps j.part = mget m.comps j.part ++ [jobNotice j (jobVer m j).seq j.flags] ∧
      (∃ k, lookup t.items j.tag =
        some { it with hasSlot := false, ispFlags := it.ispFlags ||| j.flags, scr := j.addr, jobTurn := j.turn, turnOf := some k }) ∧
      t.log = m.log ∧ t.mem = (storeTensor j (jobResult m j src) m).mem := by
  obtain ⟨k, hk⟩ : ∃ k, k = (storeTensor j (jobResult m j src) m |> jobOver n j true |> setIspFlags j.tag j.flags
      |> modItem j.tag (fun it => { it with scr := j.addr, jobTurn := j.turn })) := ⟨_, rfl⟩
  have hstore := storeTensor_beyondRing j (jobResult m j src) m
  have hstored : lookup (storeTensor j (jobResult m j src) m).items j.tag = some it := by
    have hitems := congrArg Mach.items hstore
    exact (congrArg (fun l => lookup l j.tag) hitems).trans h
  have hitem : lookup k.items j.tag = some { it with hasSlot := false, ispFlags := it.ispFlags ||| j.flags, scr := j.addr, jobTurn := j.turn } := by
    rw [hk]
    exact lookup_modItem_same _ (lookup_modItem_same _ (lookup_jobOver n true hstored))
  have hbeyond : k.beyondItems = { (storeTensor j (jobResult m j src) m).beyondItems with
      pipes := mmod (storeTensor j (jobResult m j src) m).pipes n
        (fun p => { p with job := none, lastEnd := now (storeTensor j (jobResult m j src) m) }) } := by
    rw [hk]
    unfold setIspFlags
    dsimp only
    rw [modItem_beyondItems, modItem_beyondItems, jobOver_beyondItems]
  have hcomps : k.comps = m.comps := by
    have hover := congrArg Mach.comps hbeyond
    have hkept := congrArg Mach.comps hstore
    exact hover.trans hkept
  obtain ⟨hposted, turn, hturn⟩ := postCompletion_posts (jobVer m j).seq j.flags (m := k) (by rw [hcomps]; exact hroom) hitem
  intro t
  rw [show t = _ from (finishJob_plain hsrc htap hstats).trans (by rw [← hk])]
  refine ⟨?_, ?_, ⟨turn, hturn⟩, ?_, ?_⟩
  · have hpost := congrArg (fun t => (mget (Mach.pipes t) n).job) hposted
    have hover := congrArg (fun t => (mget (Mach.pipes t) n).job) hbeyond
    refine hpost.trans (hover.trans ?_)
    rw [mget_mmod_same]
  · have hpost := congrArg (fun t => mget (Mach.comps t) j.part) hposted
    refine hpost.trans ?_
    rw [mget_mmod_same, hcomps]
  · have hpost := congrArg Mach.log hposted
    have hover := congrArg Mach.log hbeyond
    have hkept := congrArg Mach.log hstore
    exact hpost.trans (hover.trans hkept)
  · have hpost := congrArg Mach.mem hposted
    have hover := congrArg Mach.mem hbeyond
    exact hpost.trans hover

/-! ### One stream of the pipeline, one pipe (R226, R229) -/

/-- A frame holds of more fields than it names. -/
theorem RegsKept.widen {fs gs : List Fld} {m t : Mach} (h : RegsKept fs m t) (hsub : ∀ f ∈ fs, f ∈ gs) : RegsKept gs m t := fun f hf =>
  h f fun hmem => hf (List.map_subset Fld.key hsub hmem)

theorem modPipe_kept (n : Nat) (f : Pipe → Pipe) (m : Mach) : RegsKept [Reg.ISP_PIPE_STATUS_BUSY n] m (modPipe n f m) :=
  RegsKept.putb (n := { m with pipes := mmod m.pipes n f }) _ _ (by simp) fun _ _ => rfl

/-- A change of a stream of the pipeline reaches its registers and the streams, and nothing else. -/
theorem modIsp_only (i : Nat) (f : IspStream → IspStream) (m : Mach) :
    modIsp i f m = { m with regs := (modIsp i f m).regs, isps := (modIsp i f m).isps } := by
  unfold modIsp syncIsp wrb wr
  rfl

/-- A version is in use: active, pending, or bound to an item (R226). -/
def IspStream.uses (x : IspStream) (v : IspVer) : Bool := v.id == x.active || x.pending == some v.id || x.bound.any (fun b => b.2 == v.id)

theorem mget_modIsp (i : Nat) (f : IspStream → IspStream) (m : Mach) :
    mget (modIsp i f m).isps i = { f (mget m.isps i) with vers := (f (mget m.isps i)).vers.filter (f (mget m.isps i)).uses } := by
  have hsync : (modIsp i f m).isps = mmod (mmod m.isps i f) i (fun x => { x with vers := x.vers.filter x.uses }) := rfl
  rw [hsync, mget_mmod_same, mget_mmod_same]

theorem modIsp_kept (i : Nat) (f : IspStream → IspStream) (m : Mach) :
    RegsKept [Reg.ISP_STR_STATUS_VERSIONS i, Reg.ISP_STR_STATUS_WAITING i, Reg.ISP_STR_APPLY_PENDING i] m (modIsp i f m) := by
  unfold modIsp syncIsp
  dsimp only
  refine RegsKept.putb _ _ (by simp) (RegsKept.put _ _ (by simp) (RegsKept.put _ _ (by simp) fun _ _ => rfl))

/-! ### Slots (R201) -/

/-- A slot is taken in this turn. -/
def takeSlot (slot n : Nat) : Mach → Mach := modPipe n (fun p => { p with done := slot :: p.done })

/-- A slot that is due in the turn's cycle position takes its stream's oldest item, or idles. -/
theorem slotStart_completes {slot : Nat} {s : State} {P : Mach → Prop} (hp : Powered s) (hslot : slot < ispSlots s.m)
    (hpos : bitOf (le (ispSlot s.m slot) 8 8) (cyclePos s.m) = true)
    (hdue : rd s.m Reg.TIME_TURN_TICK + le (ispSlot s.m slot) 4 4 ≤ now s.m)
    (hnew : slot ∉ (mget s.m.pipes (le (ispSlot s.m slot) 0 1)).done)
    (hP : P (match oldestWaiting s.m (le (ispSlot s.m slot) 2 2) (rd s.m Reg.TIME_TURN_TICK) with
      | none => inc (Reg.ISP_PIPE_CNT_IDLE (le (ispSlot s.m slot) 0 1)) (takeSlot slot (le (ispSlot s.m slot) 0 1) s.m)
      | some t => takeSlot slot (le (ispSlot s.m slot) 0 1) s.m
          |> modIsp (le (ispSlot s.m slot) 2 2) (fun x => { x with waiting := x.waiting.filter (fun w => w.1 != t) })
          |> modPipe (le (ispSlot s.m slot) 0 1) (fun p =>
            { p with wait := p.wait ++ [(le (ispSlot s.m slot) 2 2, t, rd s.m Reg.TIME_TURN_TICK + le (ispSlot s.m slot) 4 4)] }))) :
    Completes (.ispSlotStart slot) s P := by
  refine completes_effect (execIspSlotStart slot s) hp rfl rfl ?_
  dsimp only
  rw [if_pos ⟨hslot, hpos, hdue, by simpa using hnew⟩]
  exact hP

/-- An idle slot: taken, and counted. -/
theorem takeSlot_idles (slot n : Nat) (m : Mach) :
    let t := inc (Reg.ISP_PIPE_CNT_IDLE n) (takeSlot slot n m)
    (mget t.pipes n).done = slot :: (mget m.pipes n).done ∧ (mget t.pipes n).wait = (mget m.pipes n).wait ∧
      rd t (Reg.ISP_PIPE_CNT_IDLE n) = min (2 ^ 32 - 1) (rd m (Reg.ISP_PIPE_CNT_IDLE n) + 1) ∧
      RegsKept [Reg.ISP_PIPE_CNT_IDLE n, Reg.ISP_PIPE_STATUS_BUSY n] m t ∧ MemKept m t := by
  have hpipe := modPipe_job n (fun p => { p with done := slot :: p.done }) m
  have hkept := modPipe_kept n (fun p => { p with done := slot :: p.done }) m
  have hne : (Reg.ISP_PIPE_CNT_IDLE n).key ≠ (Reg.ISP_PIPE_STATUS_BUSY n).key := by
    simp only [Fld.key, Reg.ISP_PIPE_CNT_IDLE, Reg.ISP_PIPE_STATUS_BUSY]
    omega
  have hwait := congrArg Pipe.wait hpipe
  refine ⟨congrArg Pipe.done hpipe, hwait, ?_, RegsKept.bump _ (by simp) (hkept.widen (by simp)), memKept_of_mem rfl⟩
  · rw [rd_inc_same]
    exact congrArg (fun v => min (2 ^ 32 - 1) (v + 1)) (hkept _ (by simpa using hne))
/-- A slot that takes an item: taken, the item off the stream's list and on the pipe's. -/
theorem takeSlot_takes (slot n i tag plan : Nat) (m : Mach) :
    let t := takeSlot slot n m |> modIsp i (fun x => { x with waiting := x.waiting.filter (fun w => w.1 != tag) })
      |> modPipe n (fun p => { p with wait := p.wait ++ [(i, tag, plan)] })
    (mget t.pipes n).wait = (mget m.pipes n).wait ++ [(i, tag, plan)] ∧
      (mget t.isps i).waiting = (mget m.isps i).waiting.filter (fun w => w.1 != tag) ∧
      (mget t.pipes n).done = slot :: (mget m.pipes n).done ∧ t.items = m.items ∧ MemKept m t := by
  obtain ⟨k, hk⟩ : ∃ k, k = (takeSlot slot n m |> modIsp i (fun x => { x with waiting := x.waiting.filter (fun w => w.1 != tag) })) :=
    ⟨_, rfl⟩
  have htaken : mget k.pipes n = { mget m.pipes n with done := slot :: (mget m.pipes n).done } := by
    rw [hk, modIsp_only]
    exact modPipe_job n (fun p => { p with done := slot :: p.done }) m
  have hisp : (mget k.isps i).waiting = (mget m.isps i).waiting.filter (fun w => w.1 != tag) := by
    have h := congrArg IspStream.waiting (mget_modIsp i (fun x => { x with waiting := x.waiting.filter (fun w => w.1 != tag) }) (takeSlot slot n m))
    rw [hk]
    exact h
  have hkept : k.items = m.items ∧ k.mem = m.mem := by
    rw [hk, modIsp_only]
    exact ⟨rfl, rfl⟩
  have hpipe := modPipe_job n (fun p => { p with wait := p.wait ++ [(i, tag, plan)] }) k
  rw [htaken] at hpipe
  intro t
  have ht : t = modPipe n (fun p => { p with wait := p.wait ++ [(i, tag, plan)] }) k := by rw [hk]
  rw [ht]
  exact ⟨congrArg Pipe.wait hpipe, hisp, congrArg Pipe.done hpipe, hkept.1, memKept_of_mem hkept.2⟩

/-! ### Parameters and taps (R225, R226, R231) -/

section
variable {who : Requester} {i : Fin 1024} {s : State} {P : Mach → Prop} (hp : Powered s) (hi : i.val < 512)
include hp hi

theorem paramCommit_completes (hw : MayWrite s.m who (Reg.ISP_STR_CTRL_COMMIT i) .any) (hP : P (ispCommit i s.m)) :
    Completes (.ispParamCommit who i) s P := by
  refine completes_effect (execIspParamCommit who i s) hp rfl rfl ?_
  rw [if_pos hi, hw.ok]
  exact hP

theorem tapArm_completes {v : Word} (hw : MayWrite s.m who (Reg.ISP_STR_TAP_ARM i) .any) (hP : P (tapWrite i v.toNat s.m)) :
    Completes (.ispTapArm who i v) s P := by
  refine completes_effect (execIspTapArm who i v s) hp rfl rfl ?_
  rw [if_pos hi, hw.ok]
  exact hP

end

/-- The checks of a commit pass: the shadow parameters and the shadow bases (R225). -/
def shadowOk (i : Nat) (e : List Byte) (m : Mach) : Bool :=
  paramOk (shadowParam m i) (streamEntry m i) e && basesOk m e (rd m (Reg.ISP_STR_SH_SCR i)) (rd m (Reg.ISP_STR_SH_OUT i))

/-- The version that a commit makes of the shadow values. -/
def shadowVer (i : Nat) (m : Mach) : IspVer :=
  { id := (mget m.isps i).nextId, param := shadowParam m i, scr := rd m (Reg.ISP_STR_SH_SCR i), outB := rd m (Reg.ISP_STR_SH_OUT i) }

/-- A version becomes the pending one. -/
def pendVersion (i : Nat) (v : IspVer) : Mach → Mach :=
  modIsp i (fun x => { x with pending := some x.nextId, nextId := x.nextId + 1, vers := x.vers ++ [v] })

theorem ispCommit_refused {i : Nat} {e : List Byte} {m : Mach} (he : ispEntry? m i = some e) (h : shadowOk i e m = false) :
    ispCommit i m = wrb (Reg.ISP_STR_STATUS_COMMIT_ERROR i) true m := by
  unfold ispCommit
  rw [he]
  refine if_pos ?_
  rw [← Bool.not_and]
  exact congrArg not h

theorem ispCommit_passed {i : Nat} {e : List Byte} {m : Mach} (he : ispEntry? m i = some e) (h : shadowOk i e m = true)
    (hnone : (mget m.isps i).pending = none) :
    ispCommit i m = if 4 ≤ (mget m.isps i).vers.length then
        m |> wrb (Reg.ISP_STR_STATUS_COMMIT_ERROR i) true |> wrb (Reg.ISP_STR_STATUS_VERSIONS_FULL i) true
      else m |> pendVersion i (shadowVer i m) |> trackApply i := by
  obtain ⟨hparam, hbases⟩ := Bool.and_eq_true_iff.mp h
  unfold ispCommit
  rw [he]
  dsimp only
  rw [if_neg (by simp [hparam, hbases]), hnone]
  rfl

/-- A pending version: it is among the versions, and the active one stays. -/
theorem pendVersion_pending {i : Nat} (v : IspVer) (m : Mach) (hv : v.id = (mget m.isps i).nextId) :
    (mget (pendVersion i v m).isps i).pending = some (mget m.isps i).nextId ∧ (mget (pendVersion i v m).isps i).active = (mget m.isps i).active ∧
      v ∈ (mget (pendVersion i v m).isps i).vers := by
  unfold pendVersion
  rw [mget_modIsp]
  refine ⟨rfl, rfl, List.mem_filter.mpr ⟨List.mem_append_right _ (List.mem_singleton_self v), ?_⟩⟩
  simp [IspStream.uses, hv]

/-- While a version is pending, APPLY_SEQ is the sequence of the stream's next item (R165). -/
theorem trackApply_tracks {i : Nat} {m : Mach} (h : (mget m.isps i).pending.isSome = true) :
    trackApply i m = { m with regs := (trackApply i m).regs } ∧
      rd (trackApply i m) (Reg.ISP_STR_APPLY_APPLY_SEQ i) = (mget m.streams i).seq % 2 ^ 22 ∧
      RegsKept [Reg.ISP_STR_APPLY_APPLY_SEQ i, Reg.ING_STR_APPLY_APPLY_SEQ i] m (trackApply i m) := by
  obtain ⟨k, hk⟩ : ∃ k, k = if (mget m.streams i).pending.isSome then wr (Reg.ING_STR_APPLY_APPLY_SEQ i) (mget m.streams i).seq m else m :=
    ⟨_, rfl⟩
  have hregs : k = { m with regs := k.regs } := by
    rw [hk]
    split <;> rfl
  have hkept : RegsKept [Reg.ISP_STR_APPLY_APPLY_SEQ i, Reg.ING_STR_APPLY_APPLY_SEQ i] m k := by
    rw [hk]
    split
    · exact (RegsKept.refl _ m).put _ _ (by simp)
    · exact RegsKept.refl _ m
  have ht : trackApply i m = wr (Reg.ISP_STR_APPLY_APPLY_SEQ i) (mget m.streams i).seq k := by
    unfold trackApply
    dsimp only
    rw [← hk, if_pos (by rw [hregs]; exact h)]
  rw [ht]
  refine ⟨?_, rd_wr_same _ _ _, hkept.put _ _ (by simp)⟩
  rw [hregs]
  rfl

/-- A one-bit field that is set reads 1. -/
theorem rd_wrb_true {f : Fld} (hf : f.width = 1) (m : Mach) : rd (wrb f true m) f = 1 := by
  unfold wrb
  rw [rd_wr_same, hf]
  rfl

theorem sets_one {f : Fld} (hf : f.width = 1) (m : Mach) : Sets [(f, 1)] m (wrb f true m) := by
  refine ⟨fun x hx => ?_, RegsKept.putb f true (by simp) (RegsKept.refl _ m)⟩
  obtain rfl := List.mem_singleton.mp hx
  exact rd_wrb_true hf m

theorem sets_two {f g : Fld} (hf : f.width = 1) (hg : g.width = 1) (hne : f.key ≠ g.key) (m : Mach) :
    Sets [(f, 1), (g, 1)] m (wrb g true (wrb f true m)) := by
  refine ⟨fun x hx => ?_, RegsKept.putb g true (by simp) (RegsKept.putb f true (by simp) (RegsKept.refl _ m))⟩
  rcases List.mem_cons.mp hx with rfl | hx
  · exact (rd_wrb_other true _ hne).trans (rd_wrb_true hf m)
  · obtain rfl := List.mem_singleton.mp hx
    exact rd_wrb_true hg _

/-- A commit that passes: its version pending, the active one kept, and APPLY_PENDING and APPLY_SEQ shown. -/
theorem commit_pends {i : Nat} {m : Mach} :
    let x := mget m.isps i
    let t := m |> pendVersion i (shadowVer i m) |> trackApply i
    (mget t.isps i).pending = some x.nextId ∧ (mget t.isps i).active = x.active ∧
      (∃ w ∈ (mget t.isps i).vers, w.id = x.nextId ∧ w.param = shadowParam m i ∧ w.scr = rd m (Reg.ISP_STR_SH_SCR i) ∧
        w.outB = rd m (Reg.ISP_STR_SH_OUT i)) ∧
      rd t (Reg.ISP_STR_APPLY_PENDING i) = 1 ∧ rd t (Reg.ISP_STR_APPLY_APPLY_SEQ i) = (mget m.streams i).seq % 2 ^ 22 ∧
      RegsKept [Reg.ISP_STR_STATUS_VERSIONS i, Reg.ISP_STR_STATUS_WAITING i, Reg.ISP_STR_APPLY_PENDING i, Reg.ISP_STR_APPLY_APPLY_SEQ i,
        Reg.ING_STR_APPLY_APPLY_SEQ i] m t ∧ MemKept m t := by
  obtain ⟨k, hk⟩ : ∃ k, k = pendVersion i (shadowVer i m) m := ⟨_, rfl⟩
  obtain ⟨hpending, hactive, hver⟩ := pendVersion_pending (shadowVer i m) m rfl
  have hkept := modIsp_kept i (fun x => { x with pending := some x.nextId, nextId := x.nextId + 1, vers := x.vers ++ [shadowVer i m] }) m
  have hshown : rd k (Reg.ISP_STR_APPLY_PENDING i) = b2n (mget k.isps i).pending.isSome % 2 ^ 1 := by
    rw [hk]
    exact rd_wr_same _ _ _
  have hmem : k.mem = m.mem := by rw [hk, pendVersion, modIsp_only]
  have hstreams : k.streams = m.streams := by rw [hk, pendVersion, modIsp_only]
  change RegsKept _ m (pendVersion i (shadowVer i m) m) at hkept
  rw [← hk] at hpending hactive hver hkept
  obtain ⟨honly, hseq, htrack⟩ := trackApply_tracks (i := i) (m := k) (by rw [hpending]; rfl)
  have hisps : (trackApply i k).isps = k.isps := by rw [honly]
  have hne : ∀ f ∈ [Reg.ISP_STR_APPLY_APPLY_SEQ i, Reg.ING_STR_APPLY_APPLY_SEQ i], (Reg.ISP_STR_APPLY_PENDING i).key ≠ f.key := by
    simp only [List.forall_mem_cons, Fld.key, Reg.ISP_STR_APPLY_PENDING, Reg.ISP_STR_APPLY_APPLY_SEQ, Reg.ING_STR_APPLY_APPLY_SEQ]
    exact ⟨by omega, by omega, by simp⟩
  intro x t
  rw [show t = trackApply i k by rw [hk]]
  rw [hisps]
  refine ⟨hpending, hactive, ⟨_, hver, rfl, rfl, rfl, rfl⟩, ?_, by rw [hseq, hstreams], ?_, memKept_of_mem ?_⟩
  · rw [htrack _ (by simpa using hne), hshown, hpending]
    rfl
  · exact (hkept.widen (by simp)).trans (htrack.widen (by simp))
  · rw [honly]
    exact hmem

/-! ### The tap (R231) -/

/-- What a write of the tap does before its ARM: point and shift, and the acknowledged bits. -/
def setTap (i v : Nat) (m : Mach) : Mach :=
  m |> wr (Reg.ISP_STR_TAP_POINT i) (v % 16) |> wr (Reg.ISP_STR_TAP_SHIFT i) (v / 16 % 16)
    |> whenB (bitOf v 10) (wrb (Reg.ISP_STR_TAP_DONE i) false) |> whenB (bitOf v 11) (wrb (Reg.ISP_STR_TAP_ERROR i) false)

/-- A tap is armed for the next job. -/
def armTap (i : Nat) (m : Mach) : Mach := m |> wrb (Reg.ISP_STR_TAP_ARMED i) true |> modIsp i (fun x => { x with tapWait := true })

theorem tapWrite_eq {i v : Nat} {e : List Byte} {m : Mach} (he : ispEntry? m i = some e) :
    tapWrite i v m = if !bitOf v 8 then setTap i v m
      else if 11 ≤ v % 16 ∨ 9 ≤ v / 16 % 16 ∨ ispTapBytes e = 0 then wrb (Reg.ISP_STR_TAP_ERROR i) true (setTap i v m)
      else armTap i (setTap i v m) := by
  unfold tapWrite
  rw [he]
  rfl

/-- Fields that a write of a tap changes beside its point and its shift. -/
def tapStatus (i : Nat) : List Fld := [Reg.ISP_STR_TAP_DONE i, Reg.ISP_STR_TAP_ERROR i, Reg.ISP_STR_TAP_ARMED i, Reg.ISP_STR_STATUS_VERSIONS i,
  Reg.ISP_STR_STATUS_WAITING i, Reg.ISP_STR_APPLY_PENDING i]

/-- A tap's point and shift are set. -/
def setPoint (i v : Nat) (m : Mach) : Mach := m |> wr (Reg.ISP_STR_TAP_POINT i) (v % 16) |> wr (Reg.ISP_STR_TAP_SHIFT i) (v / 16 % 16)

theorem tapStatus_ne (i : Nat) : ∀ f ∈ tapStatus i, (Reg.ISP_STR_TAP_POINT i).key ≠ f.key ∧ (Reg.ISP_STR_TAP_SHIFT i).key ≠ f.key := by
  simp only [tapStatus, List.forall_mem_cons, Fld.key, Reg.ISP_STR_TAP_POINT, Reg.ISP_STR_TAP_SHIFT, Reg.ISP_STR_TAP_DONE, Reg.ISP_STR_TAP_ERROR,
    Reg.ISP_STR_TAP_ARMED, Reg.ISP_STR_STATUS_VERSIONS, Reg.ISP_STR_STATUS_WAITING, Reg.ISP_STR_APPLY_PENDING]
  refine ⟨?_, ?_, ?_, ?_, ?_, ?_, by simp⟩ <;> omega

/-- Behind all that changes only its status, a tap's point and shift read as set. -/
theorem setPoint_reads {i v : Nat} {m t : Mach} (h : RegsKept (tapStatus i) (setPoint i v m) t) :
    rd t (Reg.ISP_STR_TAP_POINT i) = v % 16 ∧ rd t (Reg.ISP_STR_TAP_SHIFT i) = v / 16 % 16 ∧
      RegsKept (Reg.ISP_STR_TAP_POINT i :: Reg.ISP_STR_TAP_SHIFT i :: tapStatus i) m t := by
  have hpoint : (Reg.ISP_STR_TAP_POINT i).key ∉ (tapStatus i).map Fld.key := fun hmem => by
    obtain ⟨f, hf, he⟩ := List.mem_map.mp hmem
    exact (tapStatus_ne i f hf).1 he.symm
  have hshift : (Reg.ISP_STR_TAP_SHIFT i).key ∉ (tapStatus i).map Fld.key := fun hmem => by
    obtain ⟨f, hf, he⟩ := List.mem_map.mp hmem
    exact (tapStatus_ne i f hf).2 he.symm
  have hne : (Reg.ISP_STR_TAP_POINT i).key ≠ (Reg.ISP_STR_TAP_SHIFT i).key := Fld.key_ne_of_lo rfl (by decide : (0 : Nat) ≠ 4)
  refine ⟨?_, ?_, ?_⟩
  · rw [h _ hpoint]
    exact (rd_wr_other _ _ hne).trans ((rd_wr_same _ _ _).trans (Nat.mod_mod _ _))
  · rw [h _ hshift]
    exact (rd_wr_same _ _ _).trans (Nat.mod_mod _ _)
  · refine RegsKept.trans (RegsKept.put _ _ (by simp) (RegsKept.put _ _ (by simp) (RegsKept.refl _ m))) (h.widen ?_)
    exact fun f hf => List.mem_cons_of_mem _ (List.mem_cons_of_mem _ hf)

/-- Before the ARM of a write nothing but registers changes, and of them the status behind point and shift. -/
theorem setTap_kept (i v : Nat) (m : Mach) :
    setTap i v m = { m with regs := (setTap i v m).regs } ∧ RegsKept (tapStatus i) (setPoint i v m) (setTap i v m) := by
  refine ⟨?_, RegsKept.when (RegsKept.when (RegsKept.refl _ _) fun _ => ?_) fun _ => ?_⟩
  · unfold setTap wrb wr
    cases bitOf v 10 <;> cases bitOf v 11 <;> rfl
  · exact RegsKept.putb _ _ (by simp [tapStatus]) (RegsKept.refl _ _)
  · exact RegsKept.putb _ _ (by simp [tapStatus]) (RegsKept.refl _ _)

theorem armTap_kept (i : Nat) (m : Mach) : RegsKept (tapStatus i) m (armTap i m) := by
  exact (RegsKept.putb (Reg.ISP_STR_TAP_ARMED i) true (by simp [tapStatus]) (RegsKept.refl _ m)).trans
    (RegsKept.widen (modIsp_kept i _ _) (by simp [tapStatus]))

/-- A tap that is armed shows it, and the next job takes it. -/
theorem armTap_arms (i : Nat) (m : Mach) : rd (armTap i m) (Reg.ISP_STR_TAP_ARMED i) = 1 ∧ (mget (armTap i m).isps i).tapWait = true := by
  have hkept := modIsp_kept i (fun x => { x with tapWait := true }) (wrb (Reg.ISP_STR_TAP_ARMED i) true m)
  refine ⟨(hkept _ ?_).trans (rd_wrb_true rfl m), ?_⟩
  · simp only [List.map_cons, List.map_nil, List.mem_cons, List.not_mem_nil, or_false, Fld.key, Reg.ISP_STR_TAP_ARMED, Reg.ISP_STR_STATUS_VERSIONS,
      Reg.ISP_STR_STATUS_WAITING, Reg.ISP_STR_APPLY_PENDING]
    omega
  · have h := congrArg IspStream.tapWait (mget_modIsp i (fun x => { x with tapWait := true }) (wrb (Reg.ISP_STR_TAP_ARMED i) true m))
    exact h

/-- A write of a tap: its point and shift, then its ARM, which sets the error where they or the buffer do not allow it (R231). -/
theorem tapWrite_shows {i v : Nat} {e : List Byte} {m : Mach} (he : ispEntry? m i = some e) :
    let bad := 11 ≤ v % 16 ∨ 9 ≤ v / 16 % 16 ∨ ispTapBytes e = 0
    let t := tapWrite i v m
    rd t (Reg.ISP_STR_TAP_POINT i) = v % 16 ∧ rd t (Reg.ISP_STR_TAP_SHIFT i) = v / 16 % 16 ∧
      (bitOf v 8 = true → bad → rd t (Reg.ISP_STR_TAP_ERROR i) = 1 ∧ t = { m with regs := t.regs }) ∧
      (bitOf v 8 = true → ¬ bad → rd t (Reg.ISP_STR_TAP_ARMED i) = 1 ∧ (mget t.isps i).tapWait = true) ∧
      (bitOf v 8 = false → t = { m with regs := t.regs }) ∧
      RegsKept (Reg.ISP_STR_TAP_POINT i :: Reg.ISP_STR_TAP_SHIFT i :: tapStatus i) m t := by
  obtain ⟨hregs, hset⟩ := setTap_kept i v m
  intro bad t
  cases harm : bitOf v 8 with
  | false =>
    have ht : t = setTap i v m := (tapWrite_eq he).trans (if_pos (by rw [harm]; rfl))
    obtain ⟨hpoint, hshift, hkept⟩ := setPoint_reads hset
    rw [ht]
    exact ⟨hpoint, hshift, nofun, nofun, fun _ => hregs, hkept⟩
  | true =>
    have harmed : t = if bad then wrb (Reg.ISP_STR_TAP_ERROR i) true (setTap i v m) else armTap i (setTap i v m) :=
      (tapWrite_eq he).trans (if_neg (by rw [harm]; decide))
    by_cases hbad : bad
    · have ht : t = wrb (Reg.ISP_STR_TAP_ERROR i) true (setTap i v m) := harmed.trans (if_pos hbad)
      obtain ⟨hpoint, hshift, hkept⟩ := setPoint_reads (hset.putb (Reg.ISP_STR_TAP_ERROR i) true (by simp [tapStatus]))
      rw [ht]
      refine ⟨hpoint, hshift, fun _ _ => ⟨rd_wrb_true rfl _, ?_⟩, fun _ h => absurd hbad h, nofun, hkept⟩
      rw [hregs]
      rfl
    · have ht : t = armTap i (setTap i v m) := harmed.trans (if_neg hbad)
      obtain ⟨hpoint, hshift, hkept⟩ := setPoint_reads (hset.trans (armTap_kept i _))
      rw [ht]
      exact ⟨hpoint, hshift, fun _ h => absurd h hbad, fun _ _ => armTap_arms i _, nofun, hkept⟩

/-! ### What the start of a job leaves of registers outside the pipeline -/

/-- A field outside the block of the image pipeline's pipes and streams (R36). -/
abbrev Fld.outsideIsp (f : Fld) : Prop := f.lo < 64 ∧ (f.addr < 0x7F02000000 ∨ 0x7F02018000 ≤ f.addr)

theorem Fld.outsideIsp.ne {f g : Fld} (h : f.outsideIsp) (hg : decide (g.lo < 64) = true) (ha : 0x7F02000000 ≤ g.addr ∧ g.addr < 0x7F02018000) :
    f.key ≠ g.key := Fld.key_ne_of_addr (of_decide_eq_true hg) h.1 (by omega)

theorem rdb_congr {m t : Mach} {f : Fld} (h : rd t f = rd m f) : rdb t f = rdb m f := by unfold rdb; rw [h]

/-! ### What reads the same outside the pipeline: bank maps, leases and ready bits (R343, R351, R354) -/

section
variable {m t : Mach} (h : ∀ f : Fld, f.outsideIsp → rd t f = rd m f)
include h

theorem rd_scrField (f : Fld) (hlo : decide (f.lo < 64) = true) (ha : 0x7F10000000 ≤ f.addr) : rd t f = rd m f :=
  h f ⟨of_decide_eq_true hlo, .inr (by omega)⟩

theorem mapRegions_congr (p k : Nat) : mapRegions t p k = mapRegions m p k := by
  have hregion : ∀ r, 0x7F10000000 ≤ 0x7F10082000 + p * 0x1000000 + k * 0x200 + r * 0x8 := fun r => by omega
  have hgf : ∀ r, rd t (Reg.SCR_MAP_GRANULE_FIRST p k r) = rd m (Reg.SCR_MAP_GRANULE_FIRST p k r) := fun r => rd_scrField h _ rfl (hregion r)
  have hgc : ∀ r, rd t (Reg.SCR_MAP_GRANULE_COUNT p k r) = rd m (Reg.SCR_MAP_GRANULE_COUNT p k r) := fun r => rd_scrField h _ rfl (hregion r)
  have hbf : ∀ r, rd t (Reg.SCR_MAP_BANK_FIRST p k r) = rd m (Reg.SCR_MAP_BANK_FIRST p k r) := fun r => rd_scrField h _ rfl (hregion r)
  have hbn : ∀ r, rd t (Reg.SCR_MAP_BANK_COUNT p k r) = rd m (Reg.SCR_MAP_BANK_COUNT p k r) := fun r => rd_scrField h _ rfl (hregion r)
  have hwf : ∀ r, rd t (Reg.SCR_MAP_WORD_FIRST p k r) = rd m (Reg.SCR_MAP_WORD_FIRST p k r) := fun r => rd_scrField h _ rfl (hregion r)
  have ha : 0x7F10000000 ≤ 0x7F10080000 + p * 0x1000000 := by omega
  have hcount : rd t (if k = 0 then Reg.SCR_STATUS_REGIONS0 p else Reg.SCR_STATUS_REGIONS1 p) =
      rd m (if k = 0 then Reg.SCR_STATUS_REGIONS0 p else Reg.SCR_STATUS_REGIONS1 p) := by
    split
    · exact rd_scrField h _ rfl ha
    · exact rd_scrField h _ rfl ha
  unfold mapRegions
  rw [rdb_congr (rd_scrField h (Reg.SCR_STATUS_DEFAULT_MAP p) rfl ha), hcount]
  simp only [hgf, hgc, hbf, hbn, hwf]

theorem leasedTo_congr (p psa n lane : Nat) : leasedTo t p psa n lane = leasedTo m p psa n lane := by
  have hlease : ∀ b, rd t (Reg.SCR_LEASE p (psa / 2 ^ 25) b) = rd m (Reg.SCR_LEASE p (psa / 2 ^ 25) b) := fun b =>
    h _ ⟨by simp only [Reg.SCR_LEASE]; omega, .inr (by simp only [Reg.SCR_LEASE]; omega)⟩
  unfold leasedTo banksOf
  simp only [mapRegions_congr h, hlease]

theorem writable_congr (hg : t.grans = m.grans) (p : Nat) (gs : List Nat) : writable t p gs = writable m p gs := by
  have hready : ∀ g, rdb t (readyBit p g) = rdb m (readyBit p g) := fun g =>
    rdb_congr (h _ ⟨by simp only [readyBit, Reg.SCR_READY]; omega, .inr (by simp only [readyBit, Reg.SCR_READY]; omega)⟩)
  unfold writable ready granFree granHolds
  simp only [hready, hg]

end

/-! ### Jobs that a reset reaches (R203) -/

/-- A job keeps running where no channel goes into self-refresh and its scratch stays up. -/
theorem jobStops_kept {m t : Mach} {j : Job} (hldr : t.ldr = m.ldr) (hgrade : grade t = grade m)
    (hchan : ∀ ch, rd t (Reg.MEM_STATUS_STATE ch) = 3 → rd m (Reg.MEM_STATUS_STATE ch) = 3)
    (hscr : j.toHbm = false → scrDown t j.part = scrDown m j.part) (h : jobStops m j = false) : jobStops t j = false := by
  have hawake : ∀ a, inSelfRefresh m a = false → inSelfRefresh t a = false := fun a ha => by
    have hchannel : hbmChannel t a = hbmChannel m a := by unfold hbmChannel hbmEighth hbmBytes; rw [hgrade]
    unfold inSelfRefresh at ha ⊢
    rw [hchannel]
    simp only [beq_eq_false_iff_ne, ne_eq] at ha ⊢
    exact fun h3 => ha (hchan _ h3)
  have hse : streamEntry t j.stream = streamEntry m j.stream := by
    unfold streamEntry streamEntry? streamEntries streamCount sec secLe sec secOf; rw [hldr]
  have he : ispEntry t j.stream = ispEntry m j.stream := by
    unfold ispEntry ispEntry? ispEntries ispCount ispProfiles sec secLe sec secOf; rw [hldr]
  unfold jobStops at h ⊢
  rw [hse, he]
  simp only [Bool.or_eq_false_iff] at h ⊢
  obtain ⟨⟨⟨hraw, hrawEnd⟩, hdest⟩, hstats⟩ := h
  refine ⟨⟨⟨hawake _ hraw, hawake _ hrawEnd⟩, ?_⟩, ?_⟩
  · cases hto : j.toHbm with
    | true =>
      rw [hto] at hdest
      simp only [if_true, Bool.or_eq_false_iff] at hdest ⊢
      exact ⟨hawake _ hdest.1, hawake _ hdest.2⟩
    | false =>
      rw [hto] at hdest
      simp only [Bool.false_eq_true, if_false] at hdest ⊢
      rw [hscr hto]
      exact hdest
  · cases hs : ispStats (ispEntry m j.stream) != 0 with
    | false => rfl
    | true =>
      rw [hs, Bool.true_and] at hstats
      rw [Bool.true_and]
      exact hawake _ hstats

/-- A granule that is reserved shows 1 in its bit; no field reads another value for it (R354). -/
theorem rd_reserveGrans_of_ne_one {f : Fld} {v : Nat} (hv : v ≠ 1) (p : Nat) (gs : List Nat) (m : Mach)
    (h : rd (forEach gs (reserveGran p) m) f = v) : rd m f = v := by
  induction gs generalizing m with
  | nil => exact h
  | cons g gs ih =>
    have hg := ih (reserveGran p g m) h
    obtain ⟨b, hb⟩ : ∃ b, b = Reg.SCR_HELD p (g / 8192) (g % 8192 / 32) (g % 32) := ⟨_, rfl⟩
    have hres : reserveGran p g m = wr b 1 { m with grans := setD 0 m.grans (p * 2 ^ 14 + g) (granHolds m p g / 2 * 2 + 1) } := by
      have hset : (granHolds m p g / 2 * 2 + 1 != 0) = true := by simp
      unfold reserveGran setHolds
      rw [hset, hb]
      rfl
    by_cases hk : f.key = b.key
    · refine absurd (hg.symm.trans ?_) hv
      have hreset : b.reset = 0 := by rw [hb]; rfl
      have hwidth : b.width = 1 := by rw [hb]; rfl
      rw [hres]
      unfold rd wr
      rw [hk, hwidth, hreset]
      unfold getD setD
      rw [if_neg (by decide), lookup_insertKey_same _ _ _ (lookup_eraseKey_same _ _)]
      rfl
    · rw [← hg, hres]
      exact (rd_wr_other _ _ hk).symm

theorem rd_reserveGrans_below {f : Fld} {p : Nat} (h : f.key < (0x7F10081800 + p * 0x1000000) * 64) (gs : List Nat) (m : Mach) :
    rd (forEach gs (reserveGran p) m) f = rd m f :=
  forEach_rd _ _ f m fun g _ k => rd_setHolds h g _ k

/-! ### The start of a job (R202 to R205, R224) -/

section
variable {pipe : Fin 8} {i tag plan : Nat} {rest : List (Nat × Nat × Nat)} {it : Item} {s : State} {P : Mach → Prop}

theorem jobStart_completes (hp : Powered s) (hjob : (mget s.m.pipes pipe).job = none) (hwait : (mget s.m.pipes pipe).wait = (i, tag, plan) :: rest)
    (hdue : plan ≤ now s.m) (hitem : lookup s.m.items tag = some it) (hfixed : it.fixed = none)
    (hP : P (startJob pipe i tag plan it (modPipe pipe (fun p => { p with wait := rest }) s.m))) : Completes (.ispJobStart pipe) s P := by
  refine completes_effect (execIspJobStart pipe s) hp rfl rfl ?_
  dsimp only
  rw [hjob, hwait]
  dsimp only
  rw [if_neg (by omega), show lookup (modPipe pipe (fun p => { p with wait := rest }) s.m).items tag = some it from hitem]
  dsimp only
  rw [if_neg (by simp [hfixed])]
  exact hP

end

/-- The version with which an item's job of a stream runs: the one bound to the item, else the active one (R226). -/
def itemVer (m : Mach) (i tag : Nat) : IspVer :=
  ((mget m.isps i).vers.find? (fun w => w.id == getD (mget m.isps i).active (mget m.isps i).bound tag)).getD {}

/-- The job of an item, as it goes to scratch. -/
def itemJob (n i tag plan : Nat) (it : Item) (m : Mach) : Job :=
  { stream := i, tag := tag, start := max plan (mget m.pipes n).lastEnd, dur := jobNs (streamEntry m i), core := ispCore (ispEntry m i),
    part := strPart (streamEntry m i), turn := gridTurn m, ver := getD (mget m.isps i).active (mget m.isps i).bound tag,
    tap := (mget m.isps i).tapWait, rslot := it.slot, rgen := it.gen, raddr := it.slotAddr, addr := (itemVer m i tag).scr }

/-- A job of DEST 1 holds its output slot, and the next one counts from the slot behind (R205). -/
def holdSlot (j : Job) (outB : Nat) (m : Mach) : Mach :=
  m |> modIsp j.stream (fun x => { x with tapWait := false, held := x.held ++ [(j.addr, j.tag)], outBase := outB })
    |> wr (Reg.ISP_STR_STATUS_OUT_NEXT j.stream) ((j.slot + 1) % ispOutSlots (ispEntry m j.stream))

/-- A job of DEST 0 reserves the granules of its tensor (R204, R354). -/
def holdScratch (j : Job) (m : Mach) : Mach :=
  m |> modIsp j.stream (fun x => { x with tapWait := false, held := x.held, outBase := x.outBase }) |> forEach (jobGranules m j) (reserveGran j.part)

/-- A pipe runs a job, shown and counted (R202, R229). -/
def runJob (n : Nat) (late : Bool) (j : Job) (m : Mach) : Mach :=
  m |> modPipe n (fun p => { p with job := some j }) |> wr (Reg.ISP_PIPE_STATUS_STREAM n) j.stream |> syncRunning j.stream
    |> inc (Reg.ISP_PIPE_CNT_JOBS n) |> inc (Reg.ISP_STR_CNT_JOBS j.stream) |> whenB late (inc (Reg.ISP_PIPE_CNT_LATE_START n))

section
variable {n i tag plan : Nat} {it : Item} {m : Mach} (hout : (mget m.pipes n).out = false)
  (hlines : (lineSources m it.slotAddr (pExp (itemVer m i tag).param) (strHeight (streamEntry m i))).isSome = true)
include hout hlines

/-- A job of DEST 1 with a free output slot starts there, unless a reset reaches it. -/
theorem startJob_hbm {k : Nat} {j : Job} {t : Mach} (hdest : ispDest (ispEntry m i) ≠ 0) (hk : nextOut m i (itemVer m i tag).outB = some k)
    (hj : j = { itemJob n i tag plan it m with toHbm := true, slot := k, addr := (itemVer m i tag).outB + k * ispSlotBytes (ispEntry m i) })
    (ht : t = runJob n (decide (plan < (mget m.pipes n).lastEnd)) j (holdSlot j (itemVer m i tag).outB m)) (hstops : jobStops t j = false) :
    startJob n i tag plan it m = t := by
  have hlines' := Option.isNone_eq_false_iff.mpr hlines
  have hto : (ispDest (ispEntry m i) == 0) = false := beq_eq_false_iff_ne.mpr hdest
  have hto' : (ispDest (ispEntry m i) != 0) = true := bne_iff_ne.mpr hdest
  unfold itemVer at *
  unfold startJob
  simp only [hout, hlines', hto, hto', hdest, hk, Bool.false_eq_true, Bool.false_and, Bool.true_or, if_false, if_true, false_and, whenB_true]
  subst hj
  subst ht
  simp only [runJob, holdSlot, itemJob] at hstops ⊢
  simp only [hstops, Bool.false_eq_true, if_false]

/-- A job of DEST 0 whose granules are free and leased to the pipe's lane starts there, unless a reset reaches it. -/
theorem startJob_scratch {j : Job} {t : Mach} (hdest : ispDest (ispEntry m i) = 0) (hj : j = itemJob n i tag plan it m)
    (hfree : writable m (strPart (streamEntry m i))
      (granules (ispCore (ispEntry m i) * 2 ^ 25 + (itemVer m i tag).scr) (tensorBytes (ispEntry m i))) = true)
    (hlease : leasedTo m (strPart (streamEntry m i)) (ispCore (ispEntry m i) * 2 ^ 25 + (itemVer m i tag).scr)
      (tensorBytes (ispEntry m i)) laneD = true)
    (ht : t = runJob n (decide (plan < (mget m.pipes n).lastEnd)) j (holdScratch j m)) (hstops : jobStops t j = false) :
    startJob n i tag plan it m = t := by
  have hlines' := Option.isNone_eq_false_iff.mpr hlines
  subst hj
  simp only [itemVer] at hfree hlease hlines'
  unfold startJob
  simp only [hout, hlines', hdest, hfree, hlease, Bool.false_eq_true, Bool.not_true, Bool.or_false, Bool.and_false, if_false, and_false,
    bne_self_eq_false, whenB_false]
  subst ht
  simp only [runJob, holdScratch, jobGranules, itemJob, itemVer, Bool.false_eq_true, if_false] at hstops ⊢
  simp only [hstops, Bool.false_eq_true, if_false]

end

/-- What a job's hold of its output leaves: beside the stream's list of held slots only registers of the stream and the words that show
granules, no channel in self-refresh that was not. -/
structure HoldsOutput (j : Job) (m k : Mach) : Prop where
  pipes : k.pipes = m.pipes
  items : k.items = m.items
  mem : k.mem = m.mem
  ldr : k.ldr = m.ldr
  held : j.toHbm = true → (mget k.isps j.stream).held = (mget m.isps j.stream).held ++ [(j.addr, j.tag)]
  regs : ∀ f : Fld, f.lo < 64 → f.addr ≠ 0x7F02010004 + j.stream * 0x40 → f.addr ≠ 0x7F02010008 + j.stream * 0x40 →
    f.addr < 0x7F10081800 + j.part * 0x1000000 → rd k f = rd m f
  chans : ∀ ch, rd k (Reg.MEM_STATUS_STATE ch) = 3 → rd m (Reg.MEM_STATUS_STATE ch) = 3

theorem rd_modIsp_other {f : Fld} {i : Nat} (g : IspStream → IspStream) (m : Mach) (hlo : f.lo < 64) (hstatus : f.addr ≠ 0x7F02010004 + i * 0x40)
    (happly : f.addr ≠ 0x7F02010008 + i * 0x40) : rd (modIsp i g m) f = rd m f := by
  refine modIsp_kept i g m f ?_
  simp only [List.map_cons, List.map_nil, List.mem_cons, List.not_mem_nil, or_false, not_or]
  exact ⟨Fld.key_ne_of_addr (by simp only [Reg.ISP_STR_STATUS_VERSIONS]; omega) hlo hstatus,
    Fld.key_ne_of_addr (by simp only [Reg.ISP_STR_STATUS_WAITING]; omega) hlo hstatus,
    Fld.key_ne_of_addr (by simp only [Reg.ISP_STR_APPLY_PENDING]; omega) hlo happly⟩

theorem rd_chan_modIsp (i ch : Nat) (g : IspStream → IspStream) (m : Mach) :
    rd (modIsp i g m) (Reg.MEM_STATUS_STATE ch) = rd m (Reg.MEM_STATUS_STATE ch) :=
  rd_modIsp_other g m (by simp only [Reg.MEM_STATUS_STATE]; omega) (by simp only [Reg.MEM_STATUS_STATE]; omega)
    (by simp only [Reg.MEM_STATUS_STATE]; omega)

theorem holdSlot_holds (j : Job) (outB : Nat) (m : Mach) : HoldsOutput j m (holdSlot j outB m) where
  pipes := by rw [holdSlot, wr_pipes, modIsp_only]
  items := by rw [holdSlot, wr_items, modIsp_only]
  mem := by rw [holdSlot, wr_mem, modIsp_only]
  ldr := by rw [holdSlot, wr_ldr, modIsp_only]
  held := fun _ => by
    have h := congrArg IspStream.held
      (mget_modIsp j.stream (fun x => { x with tapWait := false, held := x.held ++ [(j.addr, j.tag)], outBase := outB }) m)
    exact h
  regs := fun f hlo hstatus happly _ => by
    unfold holdSlot
    exact (rd_wr_other _ _ (Fld.key_ne_of_addr (by simp only [Reg.ISP_STR_STATUS_OUT_NEXT]; omega) hlo hstatus)).trans
      (rd_modIsp_other _ m hlo hstatus happly)
  chans := fun ch h => by
    have hne : (Reg.MEM_STATUS_STATE ch).key ≠ (Reg.ISP_STR_STATUS_OUT_NEXT j.stream).key := by
      simp only [Fld.key, Reg.MEM_STATUS_STATE, Reg.ISP_STR_STATUS_OUT_NEXT]
      omega
    unfold holdSlot at h
    rw [← h]
    exact ((rd_wr_other _ _ hne).trans (rd_chan_modIsp _ ch _ m)).symm

theorem holdScratch_holds {j : Job} (hto : j.toHbm = false) (m : Mach) : HoldsOutput j m (holdScratch j m) := by
  obtain ⟨n, hn⟩ : ∃ n, n = modIsp j.stream (fun x => { x with tapWait := false, held := x.held, outBase := x.outBase }) m := ⟨_, rfl⟩
  have hk : holdScratch j m = forEach (jobGranules m j) (reserveGran j.part) n := by rw [hn]; rfl
  have hbeyond := reserveGrans_beyondGrans (jobGranules m j) j.part n
  have hpipes := congrArg Mach.pipes hbeyond
  have hitems := congrArg Mach.items hbeyond
  have hmem := congrArg Mach.mem hbeyond
  have hldr := congrArg Mach.ldr hbeyond
  have hkept : n.pipes = m.pipes ∧ n.items = m.items ∧ n.mem = m.mem ∧ n.ldr = m.ldr := by
    rw [hn, modIsp_only]
    exact ⟨rfl, rfl, rfl, rfl⟩
  obtain ⟨hnpipes, hnitems, hnmem, hnldr⟩ := hkept
  rw [hk]
  refine ⟨hpipes.trans hnpipes, hitems.trans hnitems, hmem.trans hnmem, hldr.trans hnldr, fun h => ?_, fun f hlo hstatus happly hbelow => ?_,
    fun ch h => ?_⟩
  · rw [hto] at h
    exact absurd h (by decide)
  · rw [rd_reserveGrans_below (by unfold Fld.key; omega), hn]
    exact rd_modIsp_other _ m hlo hstatus happly
  · have hch := rd_reserveGrans_of_ne_one (by decide) _ _ _ h
    rw [hn, rd_chan_modIsp] at hch
    exact hch

/-! ### A job runs (R202, R229) -/

/-- A pipe's and a stream's jobs are counted, and a start later than planned (R202). -/
def countJob (n i : Nat) (late : Bool) (m : Mach) : Mach :=
  m |> inc (Reg.ISP_PIPE_CNT_JOBS n) |> inc (Reg.ISP_STR_CNT_JOBS i) |> whenB late (inc (Reg.ISP_PIPE_CNT_LATE_START n))

/-- A pipe is busy with a job, shown. -/
def showJob (n : Nat) (j : Job) (m : Mach) : Mach :=
  m |> modPipe n (fun p => { p with job := some j }) |> wr (Reg.ISP_PIPE_STATUS_STREAM n) j.stream |> syncRunning j.stream

theorem runJob_eq (n : Nat) (late : Bool) (j : Job) (m : Mach) : runJob n late j m = countJob n j.stream late (showJob n j m) := rfl

theorem showJob_only (n : Nat) (j : Job) (m : Mach) :
    showJob n j m = { m with regs := (showJob n j m).regs, pipes := (showJob n j m).pipes } := by
  unfold showJob syncRunning modPipe wrb wr
  rfl

theorem countJob_only_regs (n i : Nat) (late : Bool) (m : Mach) : countJob n i late m = { m with regs := (countJob n i late m).regs } := by
  unfold countJob inc addTo wr
  cases late <;> rfl

theorem countJob_kept (n i : Nat) (late : Bool) (m : Mach) :
    RegsKept [Reg.ISP_PIPE_CNT_JOBS n, Reg.ISP_STR_CNT_JOBS i, Reg.ISP_PIPE_CNT_LATE_START n] m (countJob n i late m) :=
  RegsKept.when (RegsKept.bump _ (by simp) (RegsKept.bump _ (by simp) (RegsKept.refl _ m))) fun _ => RegsKept.bump _ (by simp) (RegsKept.refl _ _)

theorem countJob_counts (n i : Nat) (late : Bool) (m : Mach) :
    rd (countJob n i late m) (Reg.ISP_PIPE_CNT_JOBS n) = min (2 ^ 32 - 1) (rd m (Reg.ISP_PIPE_CNT_JOBS n) + 1) ∧
      rd (countJob n i late m) (Reg.ISP_STR_CNT_JOBS i) = min (2 ^ 32 - 1) (rd m (Reg.ISP_STR_CNT_JOBS i) + 1) := by
  have hpipe : (Reg.ISP_PIPE_CNT_JOBS n).key ≠ (Reg.ISP_STR_CNT_JOBS i).key := by
    simp only [Fld.key, Reg.ISP_PIPE_CNT_JOBS, Reg.ISP_STR_CNT_JOBS]
    omega
  have hlate : (Reg.ISP_PIPE_CNT_JOBS n).key ≠ (Reg.ISP_PIPE_CNT_LATE_START n).key ∧
      (Reg.ISP_STR_CNT_JOBS i).key ≠ (Reg.ISP_PIPE_CNT_LATE_START n).key := by
    simp only [Fld.key, Reg.ISP_PIPE_CNT_JOBS, Reg.ISP_STR_CNT_JOBS, Reg.ISP_PIPE_CNT_LATE_START]
    omega
  unfold countJob
  refine ⟨(whenB_keeps (fun k => rd k _) _ _ _ (rd_inc_other _ hlate.1)).trans ?_,
    (whenB_keeps (fun k => rd k _) _ _ _ (rd_inc_other _ hlate.2)).trans ?_⟩
  · rw [rd_inc_other _ hpipe, rd_inc_same]
    rfl
  · rw [rd_inc_same, rd_inc_other _ hpipe.symm]
    rfl

theorem showJob_kept (n : Nat) (j : Job) (m : Mach) :
    RegsKept [Reg.ISP_PIPE_STATUS_BUSY n, Reg.ISP_PIPE_STATUS_STREAM n, Reg.ISP_STR_STATUS_JOB_RUNNING j.stream] m (showJob n j m) := by
  exact RegsKept.putb _ _ (by simp) (RegsKept.put _ _ (by simp) (RegsKept.widen (modPipe_kept n _ m) (by simp)))

theorem showJob_shows {j : Job} (n : Nat) (hi : j.stream < 512) (m : Mach) :
    mget (showJob n j m).pipes n = { mget m.pipes n with job := some j } ∧ rd (showJob n j m) (Reg.ISP_PIPE_STATUS_BUSY n) = 1 ∧
      rd (showJob n j m) (Reg.ISP_PIPE_STATUS_STREAM n) = j.stream := by
  obtain ⟨k, hk⟩ : ∃ k, k = modPipe n (fun p => { p with job := some j }) m := ⟨_, rfl⟩
  have hpipe : mget k.pipes n = { mget m.pipes n with job := some j } := by
    rw [hk]
    exact modPipe_job n _ m
  have hbusy : rd k (Reg.ISP_PIPE_STATUS_BUSY n) = b2n (mget k.pipes n).job.isSome % 2 ^ 1 := by
    rw [hk]
    exact rd_wr_same _ _ _
  have hshow : showJob n j m = syncRunning j.stream (wr (Reg.ISP_PIPE_STATUS_STREAM n) j.stream k) := by rw [hk]; rfl
  have hne : (Reg.ISP_PIPE_STATUS_BUSY n).key ≠ (Reg.ISP_STR_STATUS_JOB_RUNNING j.stream).key ∧
      (Reg.ISP_PIPE_STATUS_STREAM n).key ≠ (Reg.ISP_STR_STATUS_JOB_RUNNING j.stream).key ∧
      (Reg.ISP_PIPE_STATUS_BUSY n).key ≠ (Reg.ISP_PIPE_STATUS_STREAM n).key := by
    simp only [Fld.key, Reg.ISP_PIPE_STATUS_BUSY, Reg.ISP_PIPE_STATUS_STREAM, Reg.ISP_STR_STATUS_JOB_RUNNING]
    omega
  rw [hshow]
  unfold syncRunning
  refine ⟨hpipe, ?_, ?_⟩
  · rw [rd_wrb_other _ _ hne.1, rd_wr_other _ _ hne.2.2, hbusy, hpipe]
    rfl
  · rw [rd_wrb_other _ _ hne.2.1, rd_wr_same]
    exact Nat.mod_eq_of_lt (by simp only [Reg.ISP_PIPE_STATUS_STREAM]; omega)

/-- Outside the pipeline a job that runs writes no register. -/
theorem rd_runJob_outside {f : Fld} (h : f.outsideIsp) {n : Nat} {j : Job} (hn : n < 8) (hi : j.stream < 512) (late : Bool) (m : Mach) :
    rd (runJob n late j m) f = rd m f := by
  have hne : ∀ g : Fld, decide (g.lo < 64) = true → 0x7F02000000 ≤ g.addr ∧ g.addr < 0x7F02018000 → ¬ f.key = g.key := fun g => h.ne
  rw [runJob_eq, countJob_kept _ _ _ _ f, showJob_kept _ _ _ f] <;>
  · simp only [List.map_cons, List.map_nil, List.mem_cons, List.not_mem_nil, or_false, not_or]
    refine ⟨hne _ rfl ?_, hne _ rfl ?_, hne _ rfl ?_⟩ <;>
    · simp only [Reg.ISP_PIPE_CNT_JOBS, Reg.ISP_STR_CNT_JOBS, Reg.ISP_PIPE_CNT_LATE_START, Reg.ISP_PIPE_STATUS_BUSY, Reg.ISP_PIPE_STATUS_STREAM,
        Reg.ISP_STR_STATUS_JOB_RUNNING]
      omega

/-- What a job that has started leaves behind the hold of its output. -/
theorem runJob_shows {n : Nat} {j : Job} {m k : Mach} (hn : n < 8) (hi : j.stream < 512) (hk : HoldsOutput j m k) (late : Bool) :
    let t := runJob n late j k
    mget t.pipes n = { mget m.pipes n with job := some j } ∧
      (j.toHbm = true → (mget t.isps j.stream).held = (mget m.isps j.stream).held ++ [(j.addr, j.tag)]) ∧
      rd t (Reg.ISP_PIPE_STATUS_BUSY n) = 1 ∧ rd t (Reg.ISP_PIPE_STATUS_STREAM n) = j.stream ∧
      rd t (Reg.ISP_PIPE_CNT_JOBS n) = min (2 ^ 32 - 1) (rd m (Reg.ISP_PIPE_CNT_JOBS n) + 1) ∧
      rd t (Reg.ISP_STR_CNT_JOBS j.stream) = min (2 ^ 32 - 1) (rd m (Reg.ISP_STR_CNT_JOBS j.stream) + 1) ∧ t.items = m.items ∧ t.mem = m.mem ∧
      (jobStops m j = false → jobStops t j = false) := by
  obtain ⟨hpipe, hbusy, hstream⟩ := showJob_shows n hi k
  obtain ⟨hjobs, hstr⟩ := countJob_counts n j.stream late (showJob n j k)
  have hcount := countJob_only_regs n j.stream late (showJob n j k)
  have hshown : (showJob n j k).isps = k.isps ∧ (showJob n j k).items = k.items ∧ (showJob n j k).mem = k.mem ∧
    (showJob n j k).ldr = k.ldr := by
    rw [showJob_only]
    exact ⟨rfl, rfl, rfl, rfl⟩
  obtain ⟨hisps, hitems, hmem, hldr⟩ := hshown
  intro t
  have ht : t = countJob n j.stream late (showJob n j k) := runJob_eq ..
  have hkept : ∀ f ∈ [Reg.ISP_PIPE_STATUS_BUSY n, Reg.ISP_PIPE_STATUS_STREAM n], rd t f = rd (showJob n j k) f := fun f hf => by
    rw [ht]
    refine countJob_kept n j.stream late _ f ?_
    simp only [List.mem_cons, List.not_mem_nil, or_false] at hf
    simp only [List.map_cons, List.map_nil, List.mem_cons, List.not_mem_nil, or_false]
    rcases hf with rfl | rfl <;>
    · simp only [Fld.key, Reg.ISP_PIPE_STATUS_BUSY, Reg.ISP_PIPE_STATUS_STREAM, Reg.ISP_PIPE_CNT_JOBS,
        Reg.ISP_STR_CNT_JOBS, Reg.ISP_PIPE_CNT_LATE_START]
      omega
  have hcounter : ∀ f ∈ [Reg.ISP_PIPE_CNT_JOBS n, Reg.ISP_STR_CNT_JOBS j.stream], rd (showJob n j k) f = rd m f := fun f hf => by
    simp only [List.mem_cons, List.not_mem_nil, or_false] at hf
    refine (showJob_kept n j k f ?_).trans (hk.regs f ?_ ?_ ?_ ?_)
    · simp only [List.map_cons, List.map_nil, List.mem_cons, List.not_mem_nil, or_false]
      rcases hf with rfl | rfl <;>
      · simp only [Fld.key, Reg.ISP_PIPE_STATUS_BUSY, Reg.ISP_PIPE_STATUS_STREAM, Reg.ISP_PIPE_CNT_JOBS,
          Reg.ISP_STR_CNT_JOBS, Reg.ISP_STR_STATUS_JOB_RUNNING]
        omega
    all_goals
      rcases hf with rfl | rfl <;>
      · simp only [Reg.ISP_PIPE_CNT_JOBS, Reg.ISP_STR_CNT_JOBS]
        omega
  have hlow : ∀ f : Fld, f.outsideIsp → f.addr < 0x7F10081800 + j.part * 0x1000000 → rd t f = rd m f := fun f hf hbelow => by
    rw [show t = runJob n late j k from rfl, rd_runJob_outside hf hn hi]
    obtain ⟨hlo, hout⟩ := hf
    exact hk.regs f hlo (by omega) (by omega) hbelow
  have hstops : jobStops m j = false → jobStops t j = false := by
    refine jobStops_kept (by rw [ht, hcount, ← hk.ldr, ← hldr]) (hlow _ (by decide) (by simp only [Reg.PAT_ID_GRADE]; omega))
      (fun ch h => ?_) fun _ => ?_
    · refine hk.chans ch (Eq.trans (Eq.symm ?_) h)
      exact rd_runJob_outside ⟨by simp only [Reg.MEM_STATUS_STATE]; omega, .inr (by simp only [Reg.MEM_STATUS_STATE]; omega)⟩ hn hi late k
    · have hscr : ∀ f ∈ [Reg.SCR_STATUS_WIPING j.part, Reg.SCR_STATUS_HELD j.part, Reg.TC_RECOV_STATUS_STATE j.part], rd t f = rd m f :=
        fun f hf => by
        simp only [List.mem_cons, List.not_mem_nil, or_false] at hf
        refine hlow f ?_ ?_ <;> rcases hf with rfl | rfl | rfl <;>
          · simp only [Fld.outsideIsp, Reg.SCR_STATUS_WIPING, Reg.SCR_STATUS_HELD, Reg.TC_RECOV_STATUS_STATE]
            omega
      unfold scrDown
      rw [rdb_congr (hscr _ (by simp)), rdb_congr (hscr _ (by simp)), hscr _ (by simp)]
  refine ⟨?_, fun hto => ?_, (hkept _ (by simp)).trans hbusy, (hkept _ (by simp)).trans hstream, ?_, ?_, ?_, ?_, hstops⟩
  · rw [ht, hcount, ← hk.pipes]
    exact hpipe
  · rw [ht, hcount, ← hk.held hto, ← hisps]
  · rw [ht, hjobs, hcounter _ (by simp)]
  · rw [ht, hstr, hcounter _ (by simp)]
  · rw [ht, hcount, ← hk.items, ← hitems]
  · rw [ht, hcount, ← hk.mem, ← hmem]

/-- The first of a pipe's waiting jobs is taken. -/
def takeWait (n : Nat) (rest : List (Nat × Nat × Nat)) : Mach → Mach := modPipe n (fun p => { p with wait := rest })

theorem rd_takeWait {f : Fld} {n : Nat} (h : f.key ≠ (Reg.ISP_PIPE_STATUS_BUSY n).key) (rest : List (Nat × Nat × Nat)) (m : Mach) :
    rd (takeWait n rest m) f = rd m f := modPipe_kept n _ m f (by simpa using h)

theorem rd_takeWait_outside {f : Fld} (h : f.outsideIsp) {n : Nat} (hn : n < 8) (rest : List (Nat × Nat × Nat)) (m : Mach) :
    rd (takeWait n rest m) f = rd m f :=
  rd_takeWait (h.ne rfl (by simp only [Reg.ISP_PIPE_STATUS_BUSY]; omega)) rest m

theorem itemJob_takeWait {n : Nat} (hn : n < 8) (i tag plan : Nat) (it : Item) (rest : List (Nat × Nat × Nat)) (m : Mach) :
    itemJob n i tag plan it (takeWait n rest m) = itemJob n i tag plan it m := by
  have hlast : (mget (takeWait n rest m).pipes n).lastEnd = (mget m.pipes n).lastEnd := by
    have h := congrArg Pipe.lastEnd (modPipe_job n (fun p => { p with wait := rest }) m)
    exact h
  have hturn : gridTurn (takeWait n rest m) = gridTurn m := rd_takeWait_outside (by decide) hn rest m
  unfold itemJob
  rw [hlast, hturn]
  rfl

theorem jobStops_takeWait {n : Nat} (hn : n < 8) (rest : List (Nat × Nat × Nat)) {j : Job} {m : Mach} (h : jobStops m j = false) :
    jobStops (takeWait n rest m) j = false := by
  have hout : ∀ f : Fld, f.outsideIsp → rd (takeWait n rest m) f = rd m f := fun f hf => rd_takeWait_outside hf hn rest m
  refine jobStops_kept (m := m) (t := takeWait n rest m) rfl (hout _ (by decide)) (fun ch h3 => ?_) (fun _ => ?_) h
  · rw [← h3]
    exact (hout _ ⟨by simp only [Reg.MEM_STATUS_STATE]; omega, .inr (by simp only [Reg.MEM_STATUS_STATE]; omega)⟩).symm
  · unfold scrDown
    rw [rdb_congr (rd_scrField hout (Reg.SCR_STATUS_WIPING j.part) rfl (by simp only [Reg.SCR_STATUS_WIPING]; omega)),
      rdb_congr (rd_scrField hout (Reg.SCR_STATUS_HELD j.part) rfl (by simp only [Reg.SCR_STATUS_HELD]; omega)),
      rd_scrField hout (Reg.TC_RECOV_STATUS_STATE j.part) rfl (by simp only [Reg.TC_RECOV_STATUS_STATE]; omega)]

/-- What the start of a job shows (R202, R229). -/
def JobStarted (pipe : Nat) (rest : List (Nat × Nat × Nat)) (j : Job) (m t : Mach) : Prop :=
  (mget t.pipes pipe).job = some j ∧ (mget t.pipes pipe).wait = rest ∧
    (j.toHbm = true → (mget t.isps j.stream).held = (mget m.isps j.stream).held ++ [(j.addr, j.tag)]) ∧
      rd t (Reg.ISP_PIPE_STATUS_BUSY pipe) = 1 ∧
    rd t (Reg.ISP_PIPE_STATUS_STREAM pipe) = j.stream ∧
    rd t (Reg.ISP_PIPE_CNT_JOBS pipe) = min (2 ^ 32 - 1) (rd m (Reg.ISP_PIPE_CNT_JOBS pipe) + 1) ∧
    rd t (Reg.ISP_STR_CNT_JOBS j.stream) = min (2 ^ 32 - 1) (rd m (Reg.ISP_STR_CNT_JOBS j.stream) + 1) ∧ t.items = m.items ∧ MemKept m t

/-- Behind the hold of its output a job that no reset reaches runs, and shows it. -/
theorem runJob_started {n : Nat} {j : Job} {m k : Mach} {rest : List (Nat × Nat × Nat)} (hn : n < 8) (hi : j.stream < 512)
    (hk : HoldsOutput j (takeWait n rest m) k) (late : Bool) (hstops : jobStops m j = false) :
    jobStops (runJob n late j k) j = false ∧ JobStarted n rest j m (runJob n late j k) := by
  obtain ⟨hpipe, hheld, hbusy, hstream, hjobs, hstr, hitems, hmem, hkeeps⟩ := runJob_shows hn hi hk late
  have hwait := modPipe_job n (fun p => { p with wait := rest }) m
  change mget (takeWait n rest m).pipes n = _ at hwait
  rw [hwait] at hpipe
  have hstarted := congrArg Pipe.wait hpipe
  have hcounter : ∀ f ∈ [Reg.ISP_PIPE_CNT_JOBS n, Reg.ISP_STR_CNT_JOBS j.stream], rd (takeWait n rest m) f = rd m f := fun f hf => by
    simp only [List.mem_cons, List.not_mem_nil, or_false] at hf
    refine rd_takeWait ?_ rest m
    rcases hf with rfl | rfl <;>
    · simp only [Fld.key, Reg.ISP_PIPE_CNT_JOBS, Reg.ISP_STR_CNT_JOBS, Reg.ISP_PIPE_STATUS_BUSY]
      omega
  rw [hcounter _ (by simp)] at hjobs hstr
  exact ⟨hkeeps (jobStops_takeWait hn rest hstops), congrArg Pipe.job hpipe, hstarted, hheld, hbusy, hstream, hjobs,
    hstr, hitems, memKept_of_mem hmem⟩

section
variable {pipe : Fin 8} {i tag plan : Nat} {rest : List (Nat × Nat × Nat)} {it : Item} {s : State} (hp : Powered s)
  (hjob : (mget s.m.pipes pipe).job = none) (hwait : (mget s.m.pipes pipe).wait = (i, tag, plan) :: rest) (hdue : plan ≤ now s.m)
  (hitem : lookup s.m.items tag = some it) (hfixed : it.fixed = none) (hserves : (mget s.m.pipes pipe).out = false) (hi : i < 512)
  (hlines : (lineSources s.m it.slotAddr (pExp (itemVer s.m i tag).param) (strHeight (streamEntry s.m i))).isSome = true)
include hp hjob hwait hdue hitem hfixed hserves hi hlines

theorem jobStart_hbm {k : Nat} {j : Job} (hdest : ispDest (ispEntry s.m i) ≠ 0) (hk : nextOut s.m i (itemVer s.m i tag).outB = some k)
    (hj : j = { itemJob pipe i tag plan it s.m with
      toHbm := true, slot := k, addr := (itemVer s.m i tag).outB + k * ispSlotBytes (ispEntry s.m i) })
    (hstops : jobStops s.m j = false) : Completes (.ispJobStart pipe) s (JobStarted pipe rest j s.m) := by
  refine jobStart_completes hp hjob hwait hdue hitem hfixed ?_
  have hout := congrArg Pipe.out (modPipe_job pipe (fun p => { p with wait := rest }) s.m)
  have hstream : j.stream = i := by rw [hj]; rfl
  have hnext : nextOut (takeWait pipe rest s.m) i (itemVer s.m i tag).outB = some k := by
    rw [← hk]
    unfold nextOut
    rw [rd_takeWait (by simp only [Fld.key, Reg.ISP_STR_STATUS_OUT_NEXT, Reg.ISP_PIPE_STATUS_BUSY]; omega)]
    rfl
  obtain ⟨hkeeps, hstarted⟩ := runJob_started pipe.isLt (by rw [hstream]; exact hi)
    (holdSlot_holds j (itemVer s.m i tag).outB (takeWait pipe rest s.m)) (decide (plan < (mget (takeWait pipe rest s.m).pipes pipe).lastEnd)) hstops
  have hstart := startJob_hbm (m := takeWait pipe rest s.m) (plan := plan) (hout.trans hserves) hlines hdest hnext
    (by rw [itemJob_takeWait pipe.isLt]; exact hj) rfl hkeeps
  change JobStarted _ _ _ _ (startJob pipe i tag plan it (takeWait pipe rest s.m))
  rw [hstart]
  exact hstarted

theorem jobStart_scratch {j : Job} (hdest : ispDest (ispEntry s.m i) = 0) (hj : j = itemJob pipe i tag plan it s.m)
    (hfree : writable s.m (strPart (streamEntry s.m i))
      (granules (ispCore (ispEntry s.m i) * 2 ^ 25 + (itemVer s.m i tag).scr) (tensorBytes (ispEntry s.m i))) = true)
    (hlease : leasedTo s.m (strPart (streamEntry s.m i)) (ispCore (ispEntry s.m i) * 2 ^ 25 + (itemVer s.m i tag).scr)
      (tensorBytes (ispEntry s.m i)) laneD = true)
    (hstops : jobStops s.m j = false) : Completes (.ispJobStart pipe) s (JobStarted pipe rest j s.m) := by
  refine jobStart_completes hp hjob hwait hdue hitem hfixed ?_
  have hout := congrArg Pipe.out (modPipe_job pipe (fun p => { p with wait := rest }) s.m)
  have hstream : j.stream = i := by rw [hj]; rfl
  have hto : j.toHbm = false := by rw [hj]; rfl
  have hkept : ∀ f : Fld, f.outsideIsp → rd (takeWait pipe rest s.m) f = rd s.m f := fun f hf => rd_takeWait_outside hf pipe.isLt rest s.m
  obtain ⟨hkeeps, hstarted⟩ := runJob_started pipe.isLt (by rw [hstream]; exact hi)
    (holdScratch_holds hto (takeWait pipe rest s.m)) (decide (plan < (mget (takeWait pipe rest s.m).pipes pipe).lastEnd)) hstops
  have hstart := startJob_scratch (m := takeWait pipe rest s.m) (plan := plan) (hout.trans hserves) hlines hdest
    (hj.trans (itemJob_takeWait pipe.isLt ..).symm)
    ((writable_congr hkept rfl _ _).trans hfree) ((leasedTo_congr hkept ..).trans hlease) rfl hkeeps
  change JobStarted _ _ _ _ (startJob pipe i tag plan it (takeWait pipe rest s.m))
  rw [hstart]
  exact hstarted

end

/-- Settles O48: the slot, the start of a job, its ends, and the commit and the tap. -/
theorem imageJobsRunThroughTheirPipes : Obligations.ImageJobsRunThroughTheirPipes := by
  unfold Obligations.ImageJobsRunThroughTheirPipes
  refine ⟨fun slot s hp hslot hpos => ?_, fun pipe i tag plan rest it s hp hjob hwait hdue hitem hfixed hserves hi => ?_,
    fun pipe j it s hp hjob hi hitem hfixed => ?_, fun who i e s hp hi he => ⟨fun hw => ?_, fun hw v => ?_⟩⟩
  · intro n i plan hdue hnew _ hn
    refine ⟨fun hnone => slotStart_completes hp hslot hpos hdue hnew ?_, fun tag htag => slotStart_completes hp hslot hpos hdue hnew ?_⟩
    · rw [hnone]
      exact takeSlot_idles slot n s.m
    · rw [htag]
      exact takeSlot_takes slot n i tag plan s.m
  · intro se e x v ver psa base starts hlines
    refine ⟨fun k hdest hk hstops => ?_, fun hdest hfree hlease hstops => ?_⟩
    · exact jobStart_hbm hp hjob hwait hdue hitem hfixed hserves hi hlines hdest hk rfl hstops
    · exact jobStart_scratch hp hjob hwait hdue hitem hfixed hserves hi hlines hdest rfl hfree hlease hstops
  · intro se e ver ex src failed
    refine ⟨fun b hstops => ⟨jobStopReset_completes hp hjob ?_,
      jobEnd_completes hp hjob b ?_⟩, fun b hstops hbad => jobEnd_completes hp hjob b ?_,
      fun hdue => jobTimeout_completes hp hjob hdue (jobTimeout_shows pipe _ hi hitem hfixed), fun hstops hraw hdue hsrc htap hstats hroom => ?_⟩
    · rw [if_pos hstops]
      exact jobFail_reset pipe hitem hfixed
    · rw [if_pos hstops]
      exact jobFail_reset pipe hitem hfixed
    · rw [if_neg (by rw [hstops]; decide)]
      by_cases hraw : rawBad s.m (streamEntry s.m j.stream) j.raddr (jobLines s.m j) = true
      · rw [if_pos hraw]
        exact failCheck_shows pipe 5 hi hitem hfixed
      · rw [if_neg hraw, if_pos (hbad.resolve_left hraw)]
        exact failCheck_shows pipe 6 hi hitem hfixed
    · intro gs r
      refine jobEnd_completes hp hjob false ?_
      rw [if_neg (by rw [hstops]; decide), if_neg (by rw [show rawBad _ _ _ (jobLines s.m j) = false from hraw]; decide), if_neg (by decide),
        if_neg (by omega)]
      obtain ⟨hover, hposted, ⟨turn, hplaced⟩, hlog, hmem⟩ := finishJob_shows (n := pipe) (src := jobLines s.m j) hitem hsrc htap hstats hroom
      refine ⟨hover, hposted, ⟨_, hplaced, hfixed, rfl, rfl, rfl⟩, hlog,
        fun hto => memKept_of_mem (hmem.trans ?_), fun hto => memKept_of_mem (hmem.trans ?_)⟩
      · unfold storeTensor
        exact congrArg Mach.mem (if_pos hto)
      · unfold storeTensor
        refine (congrArg Mach.mem (if_neg (by rw [hto]; decide))).trans ?_
        exact setReady_mem ..
  · intro x ok
    refine ⟨fun hbad => paramCommit_completes hp hi hw ?_, fun hok hnone hfull => paramCommit_completes hp hi hw ?_,
      fun hok hnone hroom => paramCommit_completes hp hi hw ?_⟩
    · rw [ispCommit_refused he hbad]
      exact ⟨sets_one rfl s.m, rfl⟩
    · rw [ispCommit_passed he hok hnone, if_pos hfull]
      exact ⟨sets_two rfl rfl (Fld.key_ne_of_lo (g := Reg.ISP_STR_STATUS_COMMIT_ERROR i) (f := Reg.ISP_STR_STATUS_VERSIONS_FULL i)
        rfl (by decide : (0 : Nat) ≠ 1)) s.m, rfl⟩
    · rw [ispCommit_passed he hok hnone, if_neg (Nat.not_le.mpr hroom)]
      exact commit_pends
  · exact tapArm_completes hp hi hw (tapWrite_shows he)

end Sys2Proof.Machine

/-!
PROOFS. A state in which the end of an array instruction does not raise its semaphore by one (R252, R327). The statement bounds the granules
that the instruction writes and leaves those that it reads without a bound: it does not ask that the instruction in flight has passed its
decode (R268). Letting a granule go writes its bit of SCR_HELD, and the bit of a granule far enough out stands at the address of another
register: of granule 0x2BFBF7120 of the Partner engine it is TC_SEQ_SEM[1] of the Partner engine.
-/

namespace Sys2Proof.Machine

/-! ### A pin's bit beyond the scratch block -/

/-- The field of SCR_HELD that a granule number stands for (R370), whether or not the part has the granule. -/
def heldField (p gn : Nat) : Fld := Reg.SCR_HELD p (gn / 8192) (gn % 8192 / 32) (gn % 32)

theorem setHolds_regs (p gn n : Nat) (m : Mach) : (setHolds p gn n m).regs = (wrb (heldField p gn) (n != 0) m).regs := rfl

/-- A field of one bit in a granule's place of SCR_HELD shows whether something holds the granule, and nothing else. -/
theorem rd_setHolds_shared {f : Fld} {p gn : Nat} (hkey : f.key = (heldField p gn).key) (hreset : f.reset = 0) (n : Nat) (m : Mach) :
    rd (setHolds p gn n m) f ≤ 1 := by
  have hsame : rd (setHolds p gn n m) f = rd (wrb (heldField p gn) (n != 0) m) (heldField p gn) := by
    rw [rd_congr (setHolds_regs p gn n m)]
    unfold rd
    rw [hkey, hreset]
    rfl
  rw [hsame, wrb, rd_wr_same]
  exact Nat.le_of_lt_succ (Nat.mod_lt _ (Nat.two_pow_pos _))

/-- What SCR_HELD writes over reads at most 1, and what it does not write over stays. -/
theorem rd_setHolds_le_one {f : Fld} (hreset : f.reset = 0) (p gn n : Nat) {m : Mach} (h : rd m f ≤ 1) : rd (setHolds p gn n m) f ≤ 1 := by
  by_cases hkey : f.key = (heldField p gn).key
  · exact rd_setHolds_shared hkey hreset n m
  · rwa [rd_congr (setHolds_regs p gn n m), rd_wrb_other _ _ hkey]

/-- Behind the unpinning of granules, a field that shares the place of one of them reads at most 1. -/
theorem rd_unpins_shared {f : Fld} {p gn : Nat} {gs : List Nat} (hkey : f.key = (heldField p gn).key) (hreset : f.reset = 0) (hmem : gn ∈ gs)
    (m : Mach) : rd (forEach gs (unpinGran p) m) f ≤ 1 := by
  obtain ⟨before, after, rfl⟩ := List.append_of_mem hmem
  unfold forEach
  rw [List.foldl_append, List.foldl_cons]
  exact forEach_invariant (fun n => rd n f ≤ 1) after (unpinGran p) (fun g n => rd_setHolds_le_one hreset p g _) _ (rd_setHolds_shared hkey hreset _ _)

/-- A granule between the first and the last byte of a range is among the range's granules. -/
theorem mem_granulesOf {l : List (Int × Nat)} {r : Int × Nat} {gn : Nat} (hr : r ∈ l) (hpos : r.2 ≠ 0) (hlo : r.1.toNat / 4096 ≤ gn)
    (hhi : gn ≤ (r.1.toNat + r.2 - 1) / 4096) : gn ∈ granulesOf l := by
  refine List.mem_eraseDups.mpr (List.mem_flatMap.mpr ⟨r, hr, ?_⟩)
  rw [if_neg hpos]
  exact List.mem_map.mpr ⟨gn - r.1.toNat / 4096, List.mem_range.mpr (by omega), by omega⟩

theorem setReady_nil (p : Nat) (b : Bool) (m : Mach) : setReady p b [] m = m := rfl

/-- The semaphore that an instruction names goes up, and stops at its largest value (R327). -/
theorem rd_semAdd_same {n : Nat} (hn : n ≠ 0) (q c : Nat) (m : Mach) :
    rd (semAdd q n c m) (Reg.TC_SEQ_SEM q n) = min (2 ^ 32 - 1) (rd m (Reg.TC_SEQ_SEM q n) + c) := by
  unfold semAdd
  rw [if_neg hn, rd_addTo_same]
  rfl

/-! ### The end of an array instruction on the Partner engine (R517) -/

theorem rangesBad_undamaged {m : Mach} (h : m.bad = []) (q : Nat) (rs : List (Int × Nat)) : rangesBad m q rs = false := by
  simp [rangesBad, damage, damaged, h]

theorem failingTiles_nil {e : ChkEnv} (h : e.tiles = []) (c : ChkMode) : failingTiles e c = [] := by
  unfold failingTiles
  rw [h]
  rfl

/-- In a part without a damaged word, a Partner's instruction that is due and whose tiles pass lets its granules go, sets the ready bits of
those it wrote, and adds to its semaphore. -/
theorem mmaComplete_partner {k : Nat} {o : EngOp} {rest : List EngOp} {m : Mach} (hbad : m.bad = []) (hflight : (engine m 8 k).flight = o :: rest)
    (hdue : o.ends ≤ now m)
    (hpass : failingTiles { g := seqBytes m 8, a := mmaArgs o, tiles := (mmaTiles (mmaArgs o) (mmaWs m 8 k)).zipIdx.map (fun t => (t.1, upsetAt [] t.2)) } {} = []) :
    ∃ n, mmaComplete 8 k [] m = semAdd 8 (bitsAt o.word 15 4) 1
      (setReady 8 true (granulesOf (mmaArgs o).writes) (forEach (granulesOf (mmaArgs o).reads) (unpinGran 8) n)) := by
  unfold mmaComplete
  rw [hflight]
  dsimp only
  rw [if_neg (Nat.not_lt.mpr hdue), if_pos rfl, rangesBad_undamaged hbad, hpass]
  exact ⟨_, rfl⟩

/-! ### A parameter range that runs past every granule -/

/-- A granule number that the Partner-engine SRAM does not have, whose place in SCR_HELD is the first semaphore of the Partner engine. -/
def farGran : Nat := 0x2BFBF7120

/-- The granule's place in SCR_HELD and TC_SEQ_SEM[1] of the Partner engine are one field of the register file. -/
theorem sem_key_eq_heldField : (Reg.TC_SEQ_SEM 8 1).key = (heldField 8 farGran).key := by decide

/-- An array instruction that no decode accepts: no batch element, and a Y of 65,535³ columns, each with its 8 bytes of parameters. It
names semaphore 1. -/
def farMma : EngOp := { opcode := 0x40, word := 2 ^ 35 + 2 ^ 15, vals := [0], descs := [0, (2 ^ 48 - 1) <<< 96, 0, 0] }

/-- The Partner engine with that instruction in flight, due, and its semaphore at 5. -/
def farReads : State := { m := wr (Reg.TC_SEQ_SEM 8 1) 5 { powered := true, engines := [(64, { flight := [farMma] })] } }

theorem farMma_pRange : (mmaArgs farMma).pRange = [(0, 8 * 65535 ^ 3)] := by decide +kernel

/-- Its parameters reach over the granule. -/
theorem farGran_read : farGran ∈ granulesOf (mmaArgs farMma).reads := by
  have hr : ((0 : Int), 8 * 65535 ^ 3) ∈ (mmaArgs farMma).reads := List.mem_append_right _ (by rw [farMma_pRange]; exact List.mem_singleton_self _)
  exact mem_granulesOf hr (by decide) (by decide) (by decide)

/-- Without a batch element it has no tile that could fail. -/
theorem farMma_passes (g : Bytes) (ws : Bool) :
    failingTiles { g := g, a := mmaArgs farMma, tiles := (mmaTiles (mmaArgs farMma) ws).zipIdx.map (fun t => (t.1, upsetAt [] t.2)) } {} = [] :=
  failingTiles_nil rfl {}

theorem farMma_writes : granulesOf (mmaArgs farMma).writes = [] := by decide +kernel

theorem farMma_sem : bitsAt farMma.word 15 4 = 1 := by decide

theorem farReads_flight : (engine farReads.m 8 0).flight = [farMma] := by decide +kernel

/-- Its completion takes the semaphore for the granule's bit of SCR_HELD, then adds one. -/
theorem farMma_sem_le_two : rd (mmaComplete 8 0 [] farReads.m) (Reg.TC_SEQ_SEM 8 1) ≤ 2 := by
  obtain ⟨n, hn⟩ := mmaComplete_partner rfl farReads_flight (Nat.zero_le _) (farMma_passes _ _)
  have hheld : rd (forEach (granulesOf (mmaArgs farMma).reads) (unpinGran 8) n) (Reg.TC_SEQ_SEM 8 1) ≤ 1 :=
    rd_unpins_shared sem_key_eq_heldField rfl farGran_read n
  rw [hn, farMma_writes, setReady_nil, farMma_sem, rd_semAdd_same (by decide)]
  omega

/-- Refutes O36: the statement lets the granules that an array instruction reads lie anywhere, and unpinning a far one writes SCR_HELD's bit
over the semaphore, which then does not go up by one. -/
theorem not_engineInstructionsComplete : ¬ Obligations.EngineInstructionsComplete := by
  unfold Obligations.EngineInstructionsComplete
  rintro ⟨hmma, -⟩
  have hwrites : ∀ gn ∈ granulesOf (mmaArgs farMma).writes, gn < 2 ^ 14 := by simp [farMma_writes]
  obtain ⟨t, hexec, -, -, -, -, -, hsem, -⟩ := hmma 8 0 farMma [] farReads rfl rfl farReads_flight (Nat.zero_le _) (fun h => absurd rfl h)
    hwrites (fun _ => farMma_passes _ _) (fun h => absurd rfl h)
  have hnext : t = { farReads with m := mmaComplete 8 0 [] farReads.m } := by
    have hrun : exec (.mmaComplete 8 0 []) farReads = .next { farReads with m := mmaComplete 8 0 [] farReads.m } :=
      run_powered (mmaComplete 8 0 []) rfl
    exact Host.Outcome.next.inj (hexec.symm.trans hrun)
  have hsix : rd t.m (Reg.TC_SEQ_SEM 8 1) = 6 := hsem (by decide)
  have htwo : rd t.m (Reg.TC_SEQ_SEM 8 1) ≤ 2 := hnext ▸ farMma_sem_le_two
  omega

end Sys2Proof.Machine

/-!
PROOFS. A state in which a ramp step downward does not show one column group less (R265, R275). The statement bounds RAMP_STEP below 8 where
an array ramps up and leaves it without a bound where it ramps down, and a register file may list any number at a key. RAMP_STEP takes four
bits of a write: from 17 the step leads to 16, which reads back as 0.
-/

namespace Sys2Proof.Machine

/-! ### Ramp steps downward (R265, R267) -/

/-- An empty queue wakes no array (R267). -/
theorem rampWake_of_queue_nil {q k : Nat} {m : Mach} (h : (engine m q k).queue = []) : rampWake q k m = m := by
  unfold rampWake
  split
  · rfl
  · rw [h]

/-- With several column groups ungated, an array that ramps down gates one and takes the step's time. -/
theorem rampStep_down {p k : Nat} {m : Mach} (hqueue : (engine m p k).queue = []) (hallowed : stepAllowed m p k = true)
    (hdown : rd m (Reg.TC_CORE_STATUS_RAMP_STATE p k) = 3) (hseveral : 1 < rd m (Reg.TC_CORE_STATUS_RAMP_STEP p k)) :
    rampStep p k m = wr (Reg.TC_CORE_STATUS_RAMP_STEP p k) (rd m (Reg.TC_CORE_STATUS_RAMP_STEP p k) - 1)
      (modCore p k (fun c => { c with lastStep := some (now m) }) m) := by
  unfold rampStep
  rw [rampWake_of_queue_nil hqueue]
  dsimp only
  rw [hallowed, hdown, if_neg (Nat.not_le.mpr hseveral)]
  rfl

/-- Behind that step RAMP_STEP shows one less, modulo its four bits (R275). -/
theorem rd_rampStep_down {p k : Nat} {m : Mach} (hqueue : (engine m p k).queue = []) (hallowed : stepAllowed m p k = true)
    (hdown : rd m (Reg.TC_CORE_STATUS_RAMP_STATE p k) = 3) (hseveral : 1 < rd m (Reg.TC_CORE_STATUS_RAMP_STEP p k)) :
    rd (rampStep p k m) (Reg.TC_CORE_STATUS_RAMP_STEP p k) = (rd m (Reg.TC_CORE_STATUS_RAMP_STEP p k) - 1) % 2 ^ 4 := by
  rw [rampStep_down hqueue hallowed hdown hseveral, rd_wr_same]
  rfl

/-- A ramp step of a core that the part has completes with what `rampStep` gives. -/
theorem exec_arrayRampStep {p : Fin 8} {k : Fin 2} {s : State} (hp : Powered s) (hk : k < coresPer s.m) :
    exec (.arrayRampStep p k) s = .next { s with m := rampStep p k s.m } :=
  (run_powered (fun m => if k < coresPer m then rampStep p k m else m) hp).trans (by rw [if_pos hk])

/-! ### A step count beyond its field -/

/-- Array 0 of PART[0] ramps down with nothing queued, and the register file lists 17 ungated groups. -/
def overfullRamp : State :=
  { m := { powered := true, regs := [((Reg.TC_CORE_STATUS_RAMP_STATE 0 0).key, 3), ((Reg.TC_CORE_STATUS_RAMP_STEP 0 0).key, 17)] } }

/-- The state meets what the statement asks of a step downward. -/
theorem overfullRamp_steps : 0 < coresPer overfullRamp.m ∧ stepAllowed overfullRamp.m 0 0 = true ∧
    rd overfullRamp.m (Reg.TC_CORE_STATUS_RAMP_STATE 0 0) = 3 ∧ (engine overfullRamp.m 0 0).queue = [] := by
  decide

theorem overfullRamp_groups : rd overfullRamp.m (Reg.TC_CORE_STATUS_RAMP_STEP 0 0) = 17 := by decide

/-- Refutes O35: an array that ramps down from a step count of 17, which the statement does not exclude, shows 0 behind the step and not 16. -/
theorem not_arraysRampAndIssue : ¬ Obligations.ArraysRampAndIssue := by
  unfold Obligations.ArraysRampAndIssue
  rintro ⟨hramp, -⟩
  obtain ⟨hcore, hallowed, hdown, hqueue⟩ := overfullRamp_steps
  obtain ⟨t, hexec, -, -, hshows, -⟩ := (hramp 0 0 overfullRamp rfl hcore hallowed).2 hdown hqueue
  have hnext : t = { overfullRamp with m := rampStep 0 0 overfullRamp.m } :=
    Host.Outcome.next.inj (hexec.symm.trans (exec_arrayRampStep rfl hcore))
  have hzero : rd t.m (Reg.TC_CORE_STATUS_RAMP_STEP 0 0) = (17 - 1) % 2 ^ 4 := by
    rw [hnext, rd_rampStep_down hqueue hallowed hdown (by rw [overfullRamp_groups]; decide), overfullRamp_groups]
  have hsixteen : rd t.m (Reg.TC_CORE_STATUS_RAMP_STEP 0 0) = 17 - 1 := overfullRamp_groups ▸ hshows
  omega

end Sys2Proof.Machine
